-- ==== Sys2Proof/Word.lean ====
section
/-! DEFINITION. The word types of the V96: bytes, the 16, 32 and 64 bit words of its registers and formats, and sparse tables. -/

namespace Sys2Proof

/-- One byte; multi-byte fields are little-endian (R7). -/
abbrev Byte := BitVec 8
/-- A 16-bit word (BF16, FP16, generation tags). -/
abbrev W16 := BitVec 16
/-- A 32-bit word (FP32 encodings, sequence numbers, node words). -/
abbrev W32 := BitVec 32
/-- A 64-bit word (state space words, counters, the GTC). -/
abbrev W64 := BitVec 64
/-- A byte string: datagram bodies, digests, payloads. -/
abbrev Bytes := List Byte
/-- A sparse table: entries by number; a number not listed reads as the table's default. -/
abbrev Table (α : Type) := List (Nat × α)

end Sys2Proof
end

