-- ==== Sys2Proof/Syntax.lean ====
section
/-! DEFINITION. The commands of the V96: one constructor per row of the command table, with the operands that the device sees from outside. -/

namespace Sys2Proof

/-- A GMP datagram as it reaches the device (R405, R406). `now` is the time of its arrival; port 98 is the
out-of-band port. `dest` is the device's address that it was sent to, `addr` and `udp` are its source. `dgram` is the length of the datagram in
bytes. -/
structure GmpMsg where
  now : Nat
  port : Nat
  dest : Nat
  addr : Nat
  udp : Nat
  dgram : Nat
  version : Nat
  flags : Nat
  session : Nat
  seq : Nat
  tag : Nat
  bodyLen : Nat
  reserved : Nat
  body : Bytes
  mac : Bytes
  deriving DecidableEq, Repr

/-- What error correction says of a read of the Depths or of an SRAM (R359, classes DEPTHS and SRAM). -/
inductive EccResult where
  | clean
  | corrected
  | uncorrectable
  deriving DecidableEq, Repr

/-- The values that the steps of an addition, a multiply-add or a Lysros addition hand on, by the names of R54, R56 and R73: `sum` is s,
`norm` and `denorm` the s after each of those steps of finish, `round` is q + inc, `result` the encoding, `window` is xb, or xb of R73 with
its sticky bit, and `shifted` R73's xb without it. `sticky` is R73's, and `copy` one copy of the duplicated logic (R325). -/
inductive Signal where
  | shifted
  | sticky
  | window
  | product
  | productIn
  | addendIn
  | sum
  | norm
  | denorm
  | quotient
  | guard
  | round
  | significand
  | result
  | copy
  | residue (check : Nat)
  deriving DecidableEq, Repr

/-- A disturbance of the hardware: bits of one value, or of the residue register of one check, are inverted. -/
structure Hit where
  signal : Signal
  mask : Nat
  deriving DecidableEq, Repr

/-- Where a slot's arithmetic is disturbed: the element, the instruction (of an update program, else 0), the operation among those that the
element or the instruction makes, and the disturbance. -/
structure Upset where
  element : Nat
  instr : Nat
  op : Nat
  hit : Hit
  deriving DecidableEq, Repr

/-- What a BASIN slot does (R59, R213): one hosted node over one fragment, or one output of the Basin's multiply-accumulate tile from its
products' factors, in ascending k. -/
inductive BasinWork where
  | node (word frag : Nat)
  | tile (factors : List (W32 × W32))
  deriving DecidableEq, Repr

/-- What a TARN slot does over its chunk (R213). -/
inductive TarnWork where
  | fold
  | update
  | outflow
  deriving DecidableEq, Repr

/-- What the receiver found in an ACQUIRE period without success (R256, R258). -/
inductive AcquireFinding where
  | noLight
  | swapped
  | modeMismatch
  | other
  deriving DecidableEq, Repr

/-- Why a lane failed (R243). -/
inductive LaneReason where
  | rxRing
  | txRing
  | light
  | corrections
  deriving DecidableEq, Repr

/-- The outcome of the PUF reconstruction at power-up (R391): the seed, and whether the helper block could be
read and written. -/
structure PufOutcome where
  seed : Nat
  readable : Bool
  writable : Bool
  deriving DecidableEq, Repr

/-- One finding of a pin test or pin monitor (R494): pin index, kind, other pin, phase and measured value. -/
structure PinFinding where
  pin : Nat
  kind : Nat
  other : Nat
  phase : Nat
  measured : Nat
  deriving DecidableEq, Repr

/-- The V96's commands, in the order of the command table. `now` is the device's
time at which the event falls, in core cycles since reset (log entry 2); an `arrival` is a GTC tick. -/
inductive Instr where
  | gmpHello (m : GmpMsg)
  | gmpKeyConfirm (m : GmpMsg)
  | gmpPing (m : GmpMsg)
  | gmpClose (m : GmpMsg)
  | sessionSetupTimeout (session now : Nat)
  | sessionIdleTimeout (session now : Nat)
  | gmpUnknownMessage (code : Nat) (m : GmpMsg)
  | gmpRead (m : GmpMsg)
  | gmpWrite (m : GmpMsg)
  | faultClassAck (m : GmpMsg)
  | probeClear (m : GmpMsg)
  | probeDisable (m : GmpMsg)
  | siltCtrlTrigger (m : GmpMsg)
  | siltCtrlRearm (m : GmpMsg)
  | gmpAttest (m : GmpMsg)
  | gmpSubscribe (m : GmpMsg)
  /-- `reserved` says, of the stack that holds the overflow records that are read, how the read came out. -/
  | gmpAuditRead (m : GmpMsg) (stack : Nat := 0) (reserved : EccResult := .clean)
  | gmpPkgBegin (m : GmpMsg)
  | gmpPkgData (m : GmpMsg)
  | gmpPkgEnd (m : GmpMsg)
  | pkgLoadIdleTimeout (now : Nat)
  | gmpUnload (m : GmpMsg)
  | gmpLaunch (m : GmpMsg)
  | gmpLaunchCancel (m : GmpMsg)
  | gmpCommit (m : GmpMsg)
  | gmpAbandon (m : GmpMsg)
  | gmpJobHalt (m : GmpMsg)
  | gmpCtxReset (m : GmpMsg)
  | gmpCtxAbort (m : GmpMsg)
  | gmpQpSetup (m : GmpMsg)
  | gmpCkpt (m : GmpMsg)
  | rdmaReadRx (qp psn va length now : Nat)
  | ckptComplete (job now : Nat)
  | ckptAborted (job now : Nat)
  | gmpRestoreData (m : GmpMsg)
  | gmpRestoreEnd (m : GmpMsg)
  | gmpReplayRef (m : GmpMsg)
  | gmpRetrain (m : GmpMsg)
  | gmpTimeInvalidate (m : GmpMsg)
  | gmpDeviceResetWarm (m : GmpMsg)
  | gmpDeviceResetCold (m : GmpMsg)
  | gmpFlashErase (m : GmpMsg)
  /-- `readBack` is what the verifying read returns; normally the written data (R402). -/
  | gmpFlashWrite (m : GmpMsg) (readBack : Bytes)
  | gmpFlashRead (m : GmpMsg)
  | gmpFlashCheck (m : GmpMsg)
  | gmpDumpBegin (m : GmpMsg)
  | gmpDumpRead (m : GmpMsg)
  | gmpDumpEnd (m : GmpMsg)
  | dumpIdleTimeout (now : Nat)
  | gmpCaptureSet (m : GmpMsg)
  | gmpGaugeIdentity (m : GmpMsg)
  | gmpGaugeRead (m : GmpMsg)
  | gmpGaugeLog (m : GmpMsg)
  | readyCoalesceExpiry (now : Nat)
  | oobLinkChange (up : Bool) (now : Nat)
  | ethFrameRx (port : Nat) (frame : Bytes) (fcsOk : Bool) (now : Nat)
  /-- `bad` lists the codewords the FEC could not correct, `corrected` the corrected symbols of lanes 0 to 8. -/
  | linkFrameRx (port : Nat) (header : Bytes) (bad corrected : List Nat) (now : Nat)
  /-- `cell` says how the read of the next data flit's cell in the output queue came out. -/
  | linkFrameTx (port now : Nat) (cell : EccResult := .clean)
  | dataFlitRx (port slot trailer : Nat) (data : Bytes) (now : Nat)
  | ctrlFlitRx (port slot trailer : Nat) (data : Bytes) (now : Nat)
  | retryTimer (port now : Nat)
  | packetHeadRx (port vc ftype : Nat) (head : Bytes) (now : Nat)
  | headStart (port vc now : Nat)
  | escapeEnter (port vc now : Nat)
  | windowBoundary (now : Nat)
  | hbmRefresh (stack now : Nat)
  | fragmentRx (port : Nat) (header payload : Bytes) (now : Nat) (route : Bytes := [])
  | abortNoticeRx (port : Nat) (header payload : Bytes) (now : Nat)
  | ctxOpen (ctx now : Nat)
  | ctxDrain (ctx now : Nat)
  | ctxCommit (ctx now : Nat)
  | hangTimeout (ctx now : Nat)
  | ctxResetComplete (ctx now : Nat)
  | outflowRx (port : Nat) (header payload : Bytes) (now : Nat) (route : Bytes := [])
  | verdictResultRx (port : Nat) (header payload : Bytes) (now : Nat) (route : Bytes := [])
  | verdictMissing (job now : Nat)
  | launchArm (job now : Nat)
  /-- `tables` says how the sequencer's read of the schedule memory and the job's tables came out. -/
  | launchCycle (job now : Nat) (tables : EccResult := .clean)
  | microbatchSectionStart (job m now : Nat) (tables : EccResult := .clean)
  | tailSectionStart (job now : Nat) (tables : EccResult := .clean)
  | stepSpanEnd (job now : Nat)
  | rxSlotRelease (job entry arrival now : Nat)
  | hbmRdSlot (job entry now : Nat)
  | hbmRdReturn (job entry arrival : Nat) (ecc : EccResult) (now : Nat)
  /-- `staging` says how the read of the staging blocks of the node's children came out. -/
  | basinSlot (job entry : Nat) (work : BasinWork) (upset : Option Upset) (staging : EccResult) (now : Nat)
  | tarnSlot (job entry : Nat) (work : TarnWork) (upset : Option Upset) (now : Nat)
  | txSlot (job entry now : Nat)
  | hbmWrSlot (job entry now : Nat)
  | rngSlot (job entry use node microBatch tensor element now : Nat)
  | syncPeriod (port now frac : Nat)
  | syncReqRx (port : Nat) (payload : Bytes) (t2 t3 now : Nat)
  | syncRespRx (port : Nat) (payload : Bytes) (t4 now : Nat)
  | syncRespTimeout (now : Nat)
  | springLost (now : Nat)
  | holdoverExpired (now : Nat)
  | refStopped (now : Nat)
  /-- `frac` gives the fractional bits that a Spring's GTC has after its step. -/
  | refReturned (frac now : Nat)
  | refclkStartResume (now : Nat)
  /-- `infos` gives, for each wavelength that delivered one, the 128-bit info field; `skew` the lane skew in symbols. -/
  | trainingFrameRx (port : Nat) (infos : List (Nat × Nat)) (skew now : Nat)
  | txRingsLocked (port rings now : Nat)
  | txTuneTimeout (port now : Nat)
  | acquireTimeout (port : Nat) (finding : AcquireFinding) (now : Nat)
  | identifyTimeout (port now : Nat)
  | handshakeTimeout (port now : Nat)
  | calibrateTimeout (port now : Nat)
  | faultBackoffExpiry (port now : Nat)
  | laneFail (port : Nat) (transmit : Bool) (lane : Nat) (reason : LaneReason) (now : Nat)
  | noLight (port now : Nat)
  | sleepEnter (port level wake now : Nat)
  | sleepExit (port now : Nat)
  /-- `tx` and `rx` give the heater power, in 0.01 mW, of each transmit and receive ring that was measured. -/
  | heaterMeasure (port : Nat) (tx rx : List (Nat × Nat)) (now : Nat)
  | laserFeedLost (port now : Nat)
  | laserLineMissing (port line power now : Nat)
  | laserLinesMissing (port lines power now : Nat)
  | laserPolarization (port now : Nat)
  | laserPlanMismatch (port now : Nat)
  | laserPowerHigh (port power now : Nat)
  | keeperWatchdog (now : Nat)
  | keeperRestarted (corrupt : List Nat) (now : Nat)
  | bistComplete (tarn : Bool) (unit : Nat) (passed : Bool) (now : Nat)
  | hbmStackReady (stack : Nat) (ok : Bool) (now : Nat)
  | tarnResetComplete (tarn now : Nat)
  | hbmInterface (stack now : Nat)
  | recoveryOverrun (job now : Nat)
  | supplyFault (rail : Nat) (above : Bool) (lo hi now : Nat)
  | supplyRecoveryReset (now : Nat)
  | clockStretch (die now : Nat)
  /-- `least` is the lowest voltage, in mV, that the die's droop detectors measure (R479). -/
  | clockStretchEnd (die least now : Nat)
  | thermalWarn (unit temp now : Nat)
  | clockStop (die temp now : Nat)
  | clockGateEnd (die now : Nat)
  | thermalShutdown (unit temp now : Nat)
  | thermalRecoveryReset (cold : Bool) (now : Nat)
  | resetNAssert (now : Nat)
  | resetRelease (puf : PufOutcome) (refOk sfdpOk : Bool) (pins : List (Nat × PinFinding))
  | pwrOkFall (now : Nat)
  | oobPins (f : PinFinding) (now : Nat)
  | evtPins (f : PinFinding) (now : Nat)
  | refclkPins (f : PinFinding) (now : Nat)
  | alertPin (f : PinFinding) (now : Nat)
  | evtTriggerIn (pin now : Nat)
  | timeTrigger (n now : Nat)
  | siltExtensionFlush (stack now : Nat)
  | periodicPulse (pin now : Nat)
  | probeSample (probe now : Nat)
  | gaugeStart
  | gaugeStop (midAppend : Bool)
  /-- Per rail 0 to 7: voltage in mV and current in mA. -/
  | gaugeSample (rails : List (Nat × Nat))
  | gaugeTempExcursion (out : Bool)
  | gaugeFactorySession (challenge signature cal : Bytes)
  | gaugePoll (now : Nat)
  | corePllLock (now : Nat)
  | pcsBlockLock (port : Nat) (locked fault : Bool) (now : Nat)
  | oobFrameRx (frame : Bytes) (fcsOk : Bool) (now : Nat)
  deriving DecidableEq, Repr

end Sys2Proof
end

