-- ==== Sys2Proof/Decode.lean ====
section
/-! DEFINITION. Words to commands. The command table gives none of its rows any bits: a command of the V96 is an event
at a pin, a packet, a datagram or a timer, and no word of the manual spells one. -/

namespace Sys2Proof

/-- The command that a word of `nbits` bits spells by the command table's bits: none, since no row has bits. -/
def decodeTableWord (_nbits _w : Nat) : Option Instr := none

end Sys2Proof
end

