-- ==== Sys2Proof/Machine/Table.lean ====
section
/-! DEFINITION. Sparse tables and the byte memories: the one place where an entry is read and written. -/

namespace Sys2Proof.Machine

/-- The entry under `i`, or `d` where none is listed. -/
def tget {α : Type} (d : α) : Table α → Nat → α
  | [], _ => d
  | (k, v) :: r, i => if i = k then v else tget d r i

/-- The table with `v` under `i`, kept in rising order of the numbers. -/
def tset {α : Type} : Table α → Nat → α → Table α
  | [], i, v => [(i, v)]
  | (k, w) :: r, i, v =>
    if i < k then (i, v) :: (k, w) :: r
    else if i = k then (i, v) :: r
    else (k, w) :: tset r i v

/-- The table without the entry under `i`. -/
def tdel {α : Type} (t : Table α) (i : Nat) : Table α := t.filter (fun e => e.1 != i)

/-- Whether an entry is listed under `i`. -/
def thas {α : Type} (t : Table α) (i : Nat) : Bool := t.any (fun e => e.1 == i)

/-- The entry under `i` changed by `f`. -/
def tmod {α : Type} (d : α) (t : Table α) (i : Nat) (f : α → α) : Table α := tset t i (f (tget d t i))

/-! ### Byte memories in canonical form -/

/-- One byte of a memory whose unlisted addresses read as `d`. -/
def mread (d : Byte) (m : Table Byte) (a : Nat) : Byte := tget d m a

/-- The memory after the byte at `a` is written. An address that holds `d` again is listed no more. -/
def mwrite (d : Byte) : Table Byte → Nat → Byte → Table Byte
  | [], a, v => if v = d then [] else [(a, v)]
  | (k, w) :: r, a, v =>
    if a < k then (if v = d then (k, w) :: r else (a, v) :: (k, w) :: r)
    else if a = k then (if v = d then r else (a, v) :: r)
    else (k, w) :: mwrite d r a v

/-- `bs` written from `a` upward. -/
def mwriteBytes (d : Byte) (m : Table Byte) (a : Nat) : Bytes → Table Byte
  | [] => m
  | b :: bs => mwriteBytes d (mwrite d m a b) (a + 1) bs

/-- `n` bytes read from `a` upward. -/
def mreadBytes (d : Byte) (m : Table Byte) (a : Nat) : Nat → Bytes
  | 0 => []
  | n + 1 => mread d m a :: mreadBytes d m (a + 1) n

/-- The canonical form: addresses strictly rising from `lo`, and no entry equal to what an unlisted
address reads as. -/
def mwfFrom (d : Byte) : Nat → Table Byte → Bool
  | _, [] => true
  | lo, (k, v) :: r => decide (lo ≤ k) && decide (v ≠ d) && mwfFrom d (k + 1) r

/-- The canonical form of a whole memory. -/
def Memory.wf (d : Byte) (m : Table Byte) : Bool := mwfFrom d 0 m

/-- The memory with every address from `a` to `a + n - 1` reading `d` again (an erase). -/
def merase (m : Table Byte) (a n : Nat) : Table Byte := m.filter (fun e => decide (e.1 < a) || decide (a + n ≤ e.1))

end Sys2Proof.Machine
end

