-- ==== Sys2Proof/Machine/Bits.lean ====
section
/-! DEFINITION. Byte order, bit fields and serial comparison (R7, R95): the helpers every layout uses. -/

namespace Sys2Proof.Machine

/-- The bytes of a little-endian field, read as a number (R7). -/
def leVal : Bytes → Nat
  | [] => 0
  | b :: r => b.toNat + 256 * leVal r

/-- A number as `n` little-endian bytes, its low bits first (R7). -/
def leBytes : Nat → Nat → Bytes
  | 0, _ => []
  | n + 1, v => BitVec.ofNat 8 v :: leBytes n (v / 256)

/-- The bytes of a big-endian field, read as a number (network order; SM2 coordinates of R392). -/
def beVal (bs : Bytes) : Nat := bs.foldl (fun a b => 256 * a + b.toNat) 0

/-- A number as `n` big-endian bytes. -/
def beBytes (n v : Nat) : Bytes := (leBytes n v).reverse

/-- `n` bytes of `bs` from offset `o`. -/
def slice (bs : Bytes) (o n : Nat) : Bytes := (bs.drop o).take n

/-- The little-endian field of `n` bytes at offset `o`; bytes beyond the end read as absent. -/
def fld (bs : Bytes) (o n : Nat) : Nat := leVal (slice bs o n)

/-- The signed (two's complement) value of a field of `8 n` bits. -/
def sfld (bs : Bytes) (o n : Nat) : Int :=
  let v := fld bs o n
  if v < 2 ^ (8 * n - 1) then (v : Int) else (v : Int) - 2 ^ (8 * n)

/-- The signed value of a 16-bit word. -/
def signed16 (n : Nat) : Int := if n % 2 ^ 16 < 2 ^ 15 then (n % 2 ^ 16 : Nat) else ((n % 2 ^ 16 : Nat) : Int) - 2 ^ 16

/-- Bits `[hi:lo]` of a number, both included (R7). -/
def bits (v hi lo : Nat) : Nat := (v / 2 ^ lo) % 2 ^ (hi + 1 - lo)

/-- Bit `i` of a number. -/
def bit (v i : Nat) : Bool := v.testBit i

/-- Whether all bytes of the range are zero: a reserved field as R8 wants it. -/
def zeros (bs : Bytes) (o n : Nat) : Bool := (slice bs o n).all (fun b => b == 0)

/-- One as a bit. -/
def b2n (b : Bool) : Nat := if b then 1 else 0

/-- Serial order of R95 over `w` bits: `s'` is after `s`. A difference of exactly half is before. -/
def serialAfter (w : Nat) (s' s : Nat) : Bool :=
  let d := (s' + 2 ^ w - s % 2 ^ w) % 2 ^ w
  decide (1 ≤ d) && decide (d < 2 ^ (w - 1))

/-- How far `s'` lies ahead of `s`, modulo `2 ^ w` (R97). -/
def serialDist (w : Nat) (s' s : Nat) : Nat := (s' + 2 ^ w - s % 2 ^ w) % 2 ^ w

/-- A list in ascending order; equal elements keep their order. -/
def insertBy {α : Type} (le : α → α → Bool) (x : α) : List α → List α
  | [] => [x]
  | y :: r => if le x y then x :: y :: r else y :: insertBy le x r
def sortBy {α : Type} (le : α → α → Bool) : List α → List α
  | [] => []
  | x :: r => insertBy le x (sortBy le r)

/-- Round a quotient up. -/
def ceilDiv (a b : Nat) : Nat := (a + b - 1) / b

/-- The length of a number in bits; 0 for 0. -/
def bitLen (n : Nat) : Nat := if n = 0 then 0 else Nat.log2 n + 1

/-- ⌈log₂ n⌉, with 0 for 0 and 1 (R77). -/
def ceilLog2 (n : Nat) : Nat := bitLen (n - 1)

/-- A signed number clamped to a range. -/
def clampInt (lo hi v : Int) : Int := max lo (min hi v)

/-- A signed number in two's complement of `w` bits. -/
def intBits (w : Nat) (v : Int) : Nat := (v % (2 ^ w : Int)).toNat

/-- The integer square root by binary digits (`k` digits). -/
def isqrtAux (n : Nat) : Nat → Nat → Nat
  | 0, r => r
  | k + 1, r => let t := r + 2 ^ k; isqrtAux n k (if t * t ≤ n then t else r)

/-- The largest `r` below 2^64 with `r² ≤ n`. -/
def isqrt (n : Nat) : Nat := isqrtAux n 64 0

/-- `f` for every number below `n`, in rising order, over a state. -/
def forN {σ : Type} (n : Nat) (f : Nat → σ → σ) (s : σ) : σ := (List.range n).foldl (fun a i => f i a) s

/-- Parse a whole byte string as entries of `n` bytes. -/
def chunksAux : Nat → Nat → Bytes → List Bytes
  | 0, _, _ => []
  | k + 1, n, bs => if bs.isEmpty then [] else bs.take n :: chunksAux k n (bs.drop n)

/-- The consecutive pieces of `n` bytes of `bs`; the last one may be shorter. -/
def chunksOf (n : Nat) (bs : Bytes) : List Bytes := chunksAux bs.length n bs

/-- CRC over bits, least significant first: `poly` of `w` bits, shifted left. -/
def crcBit (w poly : Nat) (c : Nat) (b : Bool) : Nat :=
  let top := xor (bit c (w - 1)) b
  let c' := (2 * c) % 2 ^ w
  if top then Nat.xor c' poly else c'

/-- A byte's bits, bit 0 first. -/
def bitsOf (n v : Nat) : List Bool := (List.range n).map (fun i => bit v i)

/-- The low `n` bits of a number in reverse order. -/
def bitRev (n v : Nat) : Nat := (List.range n).foldl (fun a i => a + b2n (bit v i) * 2 ^ (n - 1 - i)) 0

/-- CRC-32C (polynomial 0x1EDC6F41, reflected, initial value and final XOR all-ones) of R230, R281. -/
def crc32c (bs : Bytes) : Nat :=
  let c := bs.foldl (fun c b => (bitsOf 8 b.toNat).foldl (crcBit 32 0x1EDC6F41) c) 0xFFFFFFFF
  Nat.xor (bitRev 32 c) 0xFFFFFFFF

/-- CRC-16 of R237: polynomial 0x1021, initial value 0xFFFF, the bits taken least significant first. -/
def crc16 (n v : Nat) : Nat := (bitsOf n v).foldl (crcBit 16 0x1021) 0xFFFF

end Sys2Proof.Machine
end

