-- ==== Sys2Proof/Machine/Float.lean ====
section
/-! DEFINITION. Number formats and arithmetic (file 02): the adder, the fused multiply-add, the comparisons, the conversions and B32, to the bit. -/

namespace Sys2Proof.Machine

/-- The overflow mode of a job (R63). -/
inductive Ovf where
  | infinity
  | saturate
  deriving DecidableEq, Repr

/-- The events of R169 that one operation can set. -/
structure Ev where
  overflow : Bool := false
  saturated : Bool := false
  underflow : Bool := false
  invalid : Bool := false
  fixnf : Bool := false
  /-- The first residue check that failed, 0 where none did (R323 to R326). -/
  check : Nat := 0
  deriving DecidableEq, Repr

/-- The events of two operations together. -/
def Ev.or (a b : Ev) : Ev :=
  { overflow := a.overflow || b.overflow, saturated := a.saturated || b.saturated,
    underflow := a.underflow || b.underflow, invalid := a.invalid || b.invalid, fixnf := a.fixnf || b.fixnf,
    check := if a.check = 0 then b.check else a.check }

/-- A result with the events that came with it. -/
structure Res where
  v : W32
  ev : Ev := {}
  deriving DecidableEq, Repr

/-- FP32 fields (R43): sign, exponent field, fraction field. -/
def sgn (a : W32) : Bool := a.toNat / 2 ^ 31 = 1
def expF (a : W32) : Nat := bits a.toNat 30 23
def frcF (a : W32) : Nat := bits a.toNat 22 0
def isNaN (a : W32) : Bool := decide (expF a = 255 ∧ frcF a ≠ 0)
def isInf (a : W32) : Bool := decide (expF a = 255 ∧ frcF a = 0)
def isZero (a : W32) : Bool := decide (expF a = 0 ∧ frcF a = 0)
def isSub (a : W32) : Bool := decide (expF a = 0 ∧ frcF a ≠ 0)
def isFinite (a : W32) : Bool := decide (expF a ≠ 255)

/-- The one NaN that a non-NaN operation makes (R61). -/
def qNaN : W32 := 0x7FC00000#32
/-- A NaN with its quiet bit set (R53). -/
def quiet (a : W32) : W32 := a ||| 0x00400000#32
/-- An infinity and a zero of a sign. -/
def infOf (s : Bool) : W32 := if s then 0xFF800000#32 else 0x7F800000#32
def zeroOf (s : Bool) : W32 := if s then 0x80000000#32 else 0#32
/-- The sign inverted (R55); that of a NaN too. -/
def neg (a : W32) : W32 := a ^^^ 0x80000000#32
/-- The sign cleared; a NaN keeps its payload (R129 ABS). -/
def absf (a : W32) : W32 := a &&& 0x7FFFFFFF#32
/-- FP32 one. -/
def fOne : W32 := 0x3F800000#32
/-- FP32 one half and two. -/
def fHalf : W32 := 0x3F000000#32
def fTwo : W32 := 0x40000000#32

/-- Exponent and significand of a finite operand, as the adder uses them (before R52). -/
def expU (a : W32) : Int := if expF a = 0 then -126 else (expF a : Int) - 127
def sigU (a : W32) : Nat := if expF a = 0 then frcF a else 2 ^ 23 + frcF a

/-! ### Residue checking (R322 to R325) -/

/-- The bits of each value. -/
def signalWidth : Signal → Nat
  | .shifted => 26
  | .sticky => 1
  | .window => 27
  | .product => 48
  | .productIn => 27
  | .addendIn => 27
  | .sum => 28
  | .norm => 27
  | .denorm => 27
  | .quotient => 24
  | .guard => 3
  | .round => 25
  | .significand => 24
  | .result => 32
  | .copy => 1
  | .residue _ => 3

/-- A value as its step hands it on: disturbed where the disturbance is there. -/
def tap (h : Option Hit) (g : Signal) (v : Nat) : Nat :=
  match h with
  | some x => if x.signal = g then Nat.xor v x.mask % 2 ^ signalWidth g else v
  | none => v

/-- p2: 2^k modulo 7, for a negative k too. -/
def p2 (k : Int) : Nat := 2 ^ (k % 3).toNat

/-- A check that is made: its number and the two sides of its equation. The checks of R323 and R324 have the numbers 1 to 11; 12 is the
comparison of the duplicated sign, exponent and special-operand logic, 13 and 14 those of the Lysros adder's sticky bit. -/
structure Check where
  number : Nat
  left : Nat
  right : Nat
  deriving DecidableEq, Repr

/-- Whether a check fails: the sides differ modulo 7, or its register, where that is what is disturbed, holds 7 or differs. -/
def hitFails (x : Hit) (c : Check) : Bool :=
  let l := if x.signal = .residue c.number then Nat.xor (c.left % 7) x.mask % 8 else c.left % 7
  l == 7 || l != c.right % 7

/-- The first of the checks made that fails, 0 where all hold. Without a disturbance none fails. -/
def failed (h : Option Hit) (l : List Check) : Nat :=
  match h with
  | none => 0
  | some x => ((l.find? (hitFails x)).map Check.number).getD 0

/-- The comparison of the two copies of the duplicated logic: it is made on every operation and finds any difference. -/
def copyCheck (h : Option Hit) : Check := { number := 12, left := tap h .copy 0, right := 0 }

/-- A value without events. -/
def val (v : W32) : Res := { v := v }

/-- A disturbance of a slot where it falls on element `e` in operation `n`. -/
def onElem (u : Option Upset) (e n : Nat) : Option Hit := u.bind (fun x => if x.element = e ∧ x.op = n then some x.hit else none)

/-- Of two checks, the first that failed. -/
def firstCheck (a b : Nat) : Nat := if a = 0 then b else a

/-- A result with the check that failed, an earlier one first. -/
def Res.checked (r : Res) (n : Nat) : Res := { r with ev := { r.ev with check := if n = 0 then r.ev.check else n } }

/-- The overflowed FP32 result of R63. -/
def overflowTo (m : Ovf) (s : Bool) : Res :=
  match m with
  | .infinity => { v := infOf s, ev := { overflow := true } }
  | .saturate => { v := if s then 0xFF7FFFFF#32 else 0x7F7FFFFF#32, ev := { overflow := true, saturated := true } }

/-- The significand that an encoding holds: the fraction plus 2^23 for a normal result, the fraction otherwise (C8). -/
def sigOf (enc : Nat) : Nat := (if enc / 2 ^ 23 % 256 = 0 then 0 else 2 ^ 23) + enc % 2 ^ 23

/-- The end of `finish`: the significand is encoded and checked (C7, C8); an overflow makes no C8. `before` are the checks made so far. -/
def encodeTo (m : Ovf) (sg : Bool) (h : Option Hit) (before : List Check) (e3 : Int) (q2 : Nat) : Res :=
  let sb := if sg then 2 ^ 31 else 0
  if e3 > 127 then (overflowTo m sg).checked (failed h before)
  else
    let enc := if q2 = 0 then sb else if 2 ^ 23 ≤ q2 then sb + (e3 + 127).toNat * 2 ^ 23 + (q2 - 2 ^ 23) else sb + q2
    let out := tap h .result enc
    let n := failed h (before ++ [{ number := 8, left := q2, right := sigOf out },
      { number := 12, left := b2n (out / 2 ^ 23 != enc / 2 ^ 23), right := 0 }])
    ({ v := BitVec.ofNat 32 out, ev := { underflow := decide (q2 = 0) } } : Res).checked n

/-- `finish` of R54: normalise, denormalise, round on the three guard bits, encode; with the checks C3 to C8. The value is
`s * 2^(e - 26)`; `before` are the checks that the operation has made so far. -/
def finish (m : Ovf) (sg : Bool) (e : Int) (s : Nat) (h : Option Hit := none) (before : List Check := []) : Res :=
  let p := bitLen s - 1
  let s1 := tap h .norm (if p = 27 then s / 2 else s * 2 ^ (26 - p))
  let e1 := e + (p : Int) - 26
  let k := (-126 - e1).toNat
  let s2 := if e1 < -126 then tap h .denorm (s1 / 2 ^ k) else s1
  let e2 := if e1 < -126 then -126 else e1
  let q := tap h .quotient (s2 / 8)
  let g := tap h .guard (s2 % 8)
  let inc := b2n (decide (g > 4 ∨ (g = 4 ∧ q % 2 = 1)))
  let q1 := tap h .round (q + inc)
  let q2 := tap h .significand (if q1 = 2 ^ 24 then q1 / 2 else q1)
  let e3 := if q1 = 2 ^ 24 then e2 + 1 else e2
  let norm : Check := if p = 27 then { number := 3, left := s, right := 2 * s1 + s % 2 } else { number := 4, left := s1, right := s * p2 (26 - p : Nat) }
  let denorm : List Check := if e1 < -126 then [{ number := 5, left := s1, right := s2 * p2 k + s1 % 2 ^ k }] else []
  encodeTo m sg h (before ++ norm :: denorm ++ [{ number := 6, left := s2, right := q + g },
    { number := 7, left := q + inc, right := if q1 = 2 ^ 24 then 2 * q2 else q2 }]) e3 q2

/-- The two sides of C2: the sum, and the sum or difference of the values that it takes. -/
def sumCheck (same : Bool) (s xa xb : Nat) : Check := { number := 2, left := s, right := if same then xa + xb else xa % 7 + 7 - xb % 7 }

/-- A sum that is +0, or goes to `finish`. -/
def finishSum (m : Ovf) (sg : Bool) (e : Int) (s : Nat) (h : Option Hit) (before : List Check) : Res :=
  if s = 0 then ({ v := 0#32 } : Res).checked (failed h before) else finish m sg e s h before

/-- The sum of two non-zero finite operands (R54), with the checks C1 and C2; `a` already holds the larger magnitude. -/
def addOrdered (m : Ovf) (a b : W32) (h : Option Hit := none) : Res :=
  let d := (expU a - expU b).toNat
  let xa := sigU a * 8
  let xb := tap h .window (sigU b * 8 / 2 ^ d)
  let s := tap h .sum (if sgn a = sgn b then xa + xb else xa - xb)
  finishSum m (sgn a) (expU a) s h [copyCheck h, { number := 1, left := sigU b, right := xb * p2 d + sigU b * 8 % 2 ^ d },
    sumCheck (sgn a == sgn b) s (sigU a) xb]

/-- Whether the magnitudes must be exchanged, larger first (R54). -/
def swapped (a b : W32) : Bool := decide (expU b > expU a ∨ (expU b = expU a ∧ sigU b > sigU a))

/-- The special operands of R53, in the table's order; none where R54 applies. -/
def addSpecial (a b : W32) : Option Res :=
  if isNaN a then some { v := quiet a }
  else if isNaN b then some { v := quiet b }
  else if isInf a && isInf b && (sgn a != sgn b) then some { v := qNaN, ev := { invalid := true } }
  else if isInf a then some { v := a }
  else if isInf b then some { v := b }
  else if isZero a && isZero b then some { v := if sgn a && sgn b then zeroOf true else zeroOf false }
  else if isZero a then some { v := b }
  else if isZero b then some { v := a }
  else none

/-- The adder (R53, R54), with its events. -/
def addR (m : Ovf) (a b : W32) (h : Option Hit := none) : Res :=
  match addSpecial a b with
  | some r => r.checked (failed h [copyCheck h])
  | none => if swapped a b then addOrdered m b a h else addOrdered m a b h

/-- The adder's result (R52). -/
def addf (m : Ovf) (a b : W32) : W32 := (addR m a b).v
/-- Subtraction (R55). -/
def subR (m : Ovf) (a b : W32) (h : Option Hit := none) : Res := addR m a (neg b) h
def subf (m : Ovf) (a b : W32) : W32 := (subR m a b).v

/-- `x * 2^k`, truncated toward zero (R56). -/
def shiftT (x : Nat) (k : Int) : Nat := if 0 ≤ k then x * 2 ^ k.toNat else x / 2 ^ (-k).toNat

/-- A check of a shift by `k` places into the window (C10, C11). -/
def shiftCheck (n x y : Nat) (k : Int) : Check :=
  if 0 ≤ k then { number := n, left := y, right := x * p2 k } else { number := n, left := x, right := y * p2 (-k) + x % 2 ^ (-k).toNat }

/-- The multiply-add of R56 on finite non-zero `a` and `b` and finite `c`, with the checks C9 to C11 and C2. -/
def fmaCore (m : Ovf) (a b c : W32) (h : Option Hit := none) : Res :=
  let sp := xor (sgn a) (sgn b)
  let pr := tap h .product (sigU a * sigU b)
  let ea := expU a
  let eb := expU b
  let ep := ea + eb - 46 + ((bitLen pr : Int) - 1)
  let em := if isZero c then ep else max ep (expU c)
  let j := expU c - em + 3
  let k := ea + eb - em - 20
  let xc := if isZero c then 0 else tap h .addendIn (shiftT (sigU c) j)
  let xp := tap h .productIn (shiftT pr k)
  let same := isZero c || (sp == sgn c)
  let s := tap h .sum (if same then xp + xc else if xc ≤ xp then xp - xc else xc - xp)
  let sg := if same then sp else if xc ≤ xp then sp else sgn c
  finishSum m sg em s h ([copyCheck h, { number := 9, left := pr, right := sigU a * sigU b }, shiftCheck 10 pr xp k] ++
    (if isZero c then [] else [shiftCheck 11 (sigU c) xc j]) ++ [if xc ≤ xp then sumCheck same s xp xc else sumCheck same s xc xp])

/-- The multiply-add (R56, R57): the first matching row of R57's table, else R56. -/
def fmaR (m : Ovf) (a b c : W32) (h : Option Hit := none) : Res :=
  let sp := xor (sgn a) (sgn b)
  let special (r : Res) : Res := r.checked (failed h [copyCheck h])
  if isNaN a then special { v := quiet a }
  else if isNaN b then special { v := quiet b }
  else if isNaN c then special { v := quiet c }
  else if (isZero a && isInf b) || (isInf a && isZero b) then special { v := qNaN, ev := { invalid := true } }
  else if (isInf a || isInf b) && isInf c && (sgn c != sp) then special { v := qNaN, ev := { invalid := true } }
  else if isInf a || isInf b then special { v := infOf sp }
  else if isInf c then special { v := c }
  else if (isZero a || isZero b) && isZero c then special { v := zeroOf (sp && sgn c) }
  else if isZero a || isZero b then special { v := c }
  else fmaCore m a b c h

def fmaf (m : Ovf) (a b c : W32) : W32 := (fmaR m a b c).v
/-- The multiply (R58): a multiply-add with −0. -/
def mulR (m : Ovf) (a b : W32) (h : Option Hit := none) : Res := fmaR m a b 0x80000000#32 h
def mulf (m : Ovf) (a b : W32) : W32 := (mulR m a b).v

/-- The disturbance that falls on operation `n` of some, if any does. -/
def hitAt (n : Nat) (h : Option (Nat × Hit)) : Option Hit := h.bind (fun e => if e.1 = n then some e.2 else none)

/-- One output of a multiply-accumulate tile (R59): ascending k, one accumulator. -/
def tileSum (m : Ovf) (h : Option (Nat × Hit) := none) : List (W32 × W32) → Res
  | [] => { v := 0#32 }
  | (a, x) :: r => r.zipIdx.foldl (fun acc p =>
      let z := fmaR m p.1.1 p.1.2 acc.v (hitAt (p.2 + 1) h)
      { z with ev := acc.ev.or z.ev }) (mulR m a x (hitAt 0 h))

/-! ### Comparisons (R62) -/

/-- The place of a non-NaN value in the order of R62; both zeros at 0. -/
def ordKey (a : W32) : Int :=
  let mag : Int := (a.toNat % 2 ^ 31 : Nat)
  if sgn a then -mag else mag
/-- The order of minimum and maximum, with −0 below +0. -/
def ordKey0 (a : W32) : Int := if sgn a then ordKey a - 1 else ordKey a
def cmpLt (a b : W32) : Bool := !isNaN a && !isNaN b && decide (ordKey a < ordKey b)
def cmpLe (a b : W32) : Bool := !isNaN a && !isNaN b && decide (ordKey a ≤ ordKey b)
def cmpEq (a b : W32) : Bool := !isNaN a && !isNaN b && decide (ordKey a = ordKey b)
def minf (a b : W32) : W32 :=
  if isNaN a then quiet a else if isNaN b then quiet b else if ordKey0 a ≤ ordKey0 b then a else b
def maxf (a b : W32) : W32 :=
  if isNaN a then quiet a else if isNaN b then quiet b else if ordKey0 b ≤ ordKey0 a then a else b

/-! ### Formats and conversions (R43, R44, R64 to R66) -/

/-- A scalar format: exponent and fraction bits, bias; `e4m3` marks the one without infinities. -/
structure Fmt where
  eb : Nat
  fb : Nat
  bias : Nat
  e4m3 : Bool
  deriving DecidableEq, Repr

def fmtFP32 : Fmt := ⟨8, 23, 127, false⟩
def fmtBF16 : Fmt := ⟨8, 7, 127, false⟩
def fmtFP16 : Fmt := ⟨5, 10, 15, false⟩
def fmtE4M3 : Fmt := ⟨4, 3, 7, true⟩
def fmtE5M2 : Fmt := ⟨5, 2, 15, false⟩

/-- A decoded value: a NaN with its fraction, an infinity, or `m * 2^ex` with a sign. -/
inductive FVal where
  | nan (s : Bool) (frac : Nat)
  | inf (s : Bool)
  | fin (s : Bool) (m : Nat) (ex : Int)
  deriving DecidableEq, Repr

/-- The value of an encoding in a format (R43). -/
def decode (f : Fmt) (x : Nat) : FVal :=
  let s := bit x (f.eb + f.fb)
  let e := bits x (f.eb + f.fb - 1) f.fb
  let fr := x % 2 ^ f.fb
  let top := 2 ^ f.eb - 1
  if e = top ∧ ¬ f.e4m3 then (if fr = 0 then .inf s else .nan s fr)
  else if e = top ∧ fr = 2 ^ f.fb - 1 then .nan s fr
  else if e = 0 then .fin s fr (1 - (f.bias : Int) - f.fb)
  else .fin s (2 ^ f.fb + fr) ((e : Int) - f.bias - f.fb)

/-- How a conversion rounds: to nearest even, or with a 16-bit random word (R64, R65). -/
inductive Rnd where
  | rne
  | sr (r : Nat)
  deriving DecidableEq, Repr

/-- An encoding in some format with the events of the conversion. -/
structure NRes where
  v : Nat
  ev : Ev := {}
  deriving DecidableEq, Repr

/-- The overflow of a conversion (R66). -/
def convOverflow (m : Ovf) (f : Fmt) (s : Bool) : NRes :=
  let sb := b2n s * 2 ^ (f.eb + f.fb)
  let top := 2 ^ f.eb - 1
  match m with
  | .infinity => { v := sb + (if f.e4m3 then top * 2 ^ f.fb + 7 else top * 2 ^ f.fb), ev := { overflow := true } }
  | .saturate =>
    { v := sb + (if f.e4m3 then top * 2 ^ f.fb + 6 else (top - 1) * 2 ^ f.fb + (2 ^ f.fb - 1)),
      ev := { overflow := true, saturated := true } }

/-- Round `m * 2^ex` to the format's grid with the exponent range unbounded above (R64, R65), then treat
overflow by R66. -/
def roundFin (o : Ovf) (f : Fmt) (rd : Rnd) (s : Bool) (m : Nat) (ex : Int) : NRes :=
  let sb := b2n s * 2 ^ (f.eb + f.fb)
  if m = 0 then { v := sb } else
  let emin : Int := 1 - (f.bias : Int)
  let fl : Int := (bitLen m : Int) - 1 + ex
  let qe : Int := max fl emin - f.fb
  let sh := ex - qe
  let n := shiftT m sh
  let rem := if 0 ≤ sh then 0 else m % 2 ^ (-sh).toNat
  let den := if 0 ≤ sh then 1 else 2 ^ (-sh).toNat
  let up : Bool := match rd with
    | .rne => decide (2 * rem > den ∨ (2 * rem = den ∧ n % 2 = 1 ∧ rem ≠ 0))
    | .sr r => decide (r < rem * 2 ^ 16 / den)
  let n1 := if up then n + 1 else n
  let n2 := if n1 = 2 ^ (f.fb + 1) then 2 ^ f.fb else n1
  let qe2 : Int := if n1 = 2 ^ (f.fb + 1) then qe + 1 else qe
  if n2 = 0 then { v := sb, ev := { underflow := true } }
  else if n2 < 2 ^ f.fb then { v := sb + n2 }
  else
    let e : Int := qe2 + f.fb + f.bias
    let top : Int := (2 ^ f.eb - 1 : Nat)
    if e > top ∨ (e = top ∧ (¬ f.e4m3 ∨ n2 = 2 ^ (f.fb + 1) - 1)) then convOverflow o f s
    else { v := sb + e.toNat * 2 ^ f.fb + (n2 - 2 ^ f.fb) }

/-- A value narrowed to a format (R64 to R66). -/
def narrowVal (o : Ovf) (f : Fmt) (rd : Rnd) : FVal → NRes
  | .nan s fr =>
    let sb := b2n s * 2 ^ (f.eb + f.fb)
    let top := 2 ^ f.eb - 1
    if f.e4m3 then { v := sb + top * 2 ^ f.fb + 7 }
    else { v := sb + top * 2 ^ f.fb + Nat.lor (fr / 2 ^ (23 - f.fb)) (2 ^ (f.fb - 1)) }
  | .inf s =>
    if f.e4m3 then { v := (convOverflow o f s).v }
    else { v := b2n s * 2 ^ (f.eb + f.fb) + (2 ^ f.eb - 1) * 2 ^ f.fb }
  | .fin s m ex => roundFin o f rd s m ex

/-- An FP32 value narrowed to a format (R64 to R66). A NaN from an infinite E4M3 input is an invalid operation. -/
def narrow (o : Ovf) (f : Fmt) (rd : Rnd) (x : W32) : NRes := narrowVal o f rd (decode fmtFP32 x.toNat)

/-- Widening to FP32 (R44): exact; a NaN keeps its sign and quiet bit. An E4M3 NaN becomes the quiet one of its sign. -/
def widen (f : Fmt) (x : Nat) : W32 :=
  match decode f x with
  | .nan s fr =>
    if f.e4m3 then (if s then 0xFFC00000#32 else qNaN)
    else BitVec.ofNat 32 (b2n s * 2 ^ 31 + 255 * 2 ^ 23 + fr * 2 ^ (23 - f.fb))
  | .inf s => infOf s
  | .fin s m ex => BitVec.ofNat 32 (roundFin .infinity fmtFP32 .rne s m ex).v

/-- An integer in FP32, round to nearest even (R131, R142). -/
def fp32Int (i : Int) : W32 := BitVec.ofNat 32 (roundFin .infinity fmtFP32 .rne (decide (i < 0)) i.natAbs 0).v

/-- A power of two as FP32 (2^k, or its rounding). -/
def pow2f (k : Int) : W32 := BitVec.ofNat 32 (roundFin .infinity fmtFP32 .rne false 1 k).v

/-! ### B32 (R46 to R49) -/

/-- ⌊log₂ |x|⌋ of a finite non-zero value, subnormals included. -/
def floorLog2 (x : W32) : Int := (bitLen (sigU x) : Int) - 1 + expU x - 23

/-- The larger magnitude of two encodings, NaN and infinity left out by the caller. -/
def maxMag (a : Nat) (x : W32) : Nat := max a (x.toNat % 2 ^ 31)

/-- The scale of a block (R47). -/
def b32Scale (v : List W32) : Nat :=
  if v.any isInf then 0xFF
  else
    let a : W32 := BitVec.ofNat 32 ((v.filter isFinite).foldl maxMag 0)
    if isZero a then 0x7F
    else
      let fl := floorLog2 a
      let k : Int := fl - 8
      -- 448 · 2^k = 7 · 2^(fl - 2): compare the significand brought to 24 bits with 7 · 2^21
      let m24 := sigU a * 2 ^ (24 - bitLen (sigU a))
      let k1 := if m24 > 7 * 2 ^ 21 then k + 1 else k
      (max k1 (-127) + 127).toNat

/-- One element of a block of scale `s` (R48). -/
def b32Elem (o : Ovf) (s : Nat) (rd : Rnd) (x : W32) : NRes :=
  if s = 0xFF then { v := 0x7F }
  else match decode fmtFP32 x.toNat with
    | .fin sg m ex => roundFin o fmtE4M3 rd sg m (ex - ((s : Int) - 127))
    | .inf sg => convOverflow o fmtE4M3 sg
    | .nan sg _ => { v := if sg then 0xFF else 0x7F }

/-- One decoded element (R49); a product above the largest FP32 goes by the overflow mode. -/
def b32Decode (o : Ovf) (s e : Nat) : Res :=
  if s = 0xFF then { v := qNaN }
  else match decode fmtE4M3 e with
    | .nan sg _ => { v := if sg then 0xFFC00000#32 else qNaN }
    | .inf sg => { v := infOf sg }
    | .fin sg m ex =>
      let r := roundFin o fmtFP32 .rne sg m (ex + (s : Int) - 127)
      { v := BitVec.ofNat 32 r.v, ev := { r.ev with underflow := false } }

/-- BF16-plus-remainder (R50): the high half (a NaN's quiet bit set) and the low half. -/
def splitHi (x : W32) : Nat := let h := x.toNat / 2 ^ 16; if isNaN x then Nat.lor h 0x40 else h
def splitLo (x : W32) : Nat := x.toNat % 2 ^ 16

/-! ### The Lysros arithmetic (R73, R74, R186, R187) -/

/-- A subnormal becomes a zero of its sign; whether it did. -/
def ftz (a : W32) : W32 := if isSub a then zeroOf (sgn a) else a
/-- Every NaN is 0x7FC00000. -/
def oneNaN (a : W32) : W32 := if isNaN a then qNaN else a

/-- A Lysros result with the number of values flushed to zero (R188). -/
structure LRes where
  v : W32
  flushed : Nat := 0
  ev : Ev := {}
  deriving DecidableEq, Repr

/-- The sum of two normal operands in the Lysros adder (R73): two guard bits and a sticky bit, which two detectors find; `a` already holds
the larger magnitude. -/
def lysrosOrdered (a b : W32) (h : Option Hit) : Res :=
  let d := (expU a - expU b).toNat
  let m4 := sigU b * 4
  let detected := b2n (decide (m4 % 2 ^ d ≠ 0))
  let sticky := tap h .sticky detected
  let xb' := tap h .shifted (m4 / 2 ^ d)
  let xb := tap h .window (xb' * 2 + sticky)
  let s := tap h .sum (if sgn a = sgn b then sigU a * 8 + xb else sigU a * 8 - xb)
  finishSum .infinity (sgn a) (expU a) s h [copyCheck h, { number := 1, left := m4, right := xb' * p2 d + m4 % 2 ^ d },
    { number := 13, left := xb, right := 2 * xb' + sticky }, { number := 14, left := sticky, right := detected },
    sumCheck (sgn a == sgn b) s (sigU a) xb]

/-- The Lysros adder (R73): a zero, an infinity or a NaN is treated by R53, and a subnormal of two non-zero finite operands as a zero. -/
def lysrosAdd (a0 b0 : W32) (h : Option Hit := none) : LRes :=
  match (addSpecial a0 b0).or (addSpecial (ftz a0) (ftz b0)) with
  | some r => { v := oneNaN r.v, ev := r.ev.or { check := failed h [copyCheck h] } }
  | none =>
    let a := ftz a0
    let b := ftz b0
    let r := if swapped a b then lysrosOrdered b a h else lysrosOrdered a b h
    { v := oneNaN (ftz r.v), flushed := b2n (isSub r.v), ev := r.ev }

/-- Widening of a contribution in Lysros-exact mode (R186). -/
def lwiden (x : W32) : LRes := { v := oneNaN (ftz x), flushed := b2n (isSub x) }

/-- The BF16 narrowing of R74 and R187, widened back. -/
def lysrosNarrow (x : W32) : LRes :=
  let r := narrow .infinity fmtBF16 .rne x
  let w := widen fmtBF16 r.v
  { v := oneNaN (ftz w), flushed := b2n (isSub w), ev := r.ev }

end Sys2Proof.Machine
end

