-- ==== Sys2Proof/Config.lean ====
section
/-! DEFINITION. What the manual leaves open: free values, constants with no body. -/

namespace Sys2Proof

/-- The n-th value that the device draws where the manual fixes no value: SM2 nonces and ephemeral secrets (R407,
R416, R472), enrolment seeds (R391), session numbers (R406), queue pair and window numbers (R159), dump numbers
(R457). Log entry 5. -/
opaque Config.freeNat : Nat → Nat

/-- Fjarpamen's factory public key (R497), which the manual does not print. Log entry 10. -/
opaque Config.factoryKey : Bytes

/-- Byte i of the fuzzy extractor's helper data for the n-th enrolment (R391). Log entry 11. -/
opaque Config.helperByte : Nat → Nat → Byte

/-- The Gauge's calibration (R467): from the calibration table and a rail, the factor that turns a sample of voltage
times current into energy, in parts per million. Log entry 12. -/
opaque Config.gaugeGain : Bytes → Nat → Nat

/-- The tag of an unsolicited GMP message, from its session and number (R406 names a tag only for requests and
replies). Log entry 5. -/
opaque Config.eventTag : Nat → Nat → Nat

/-- hops_left of a packet that the device itself injects, from its class and job; used as 1 + x mod 63 (R263 gives the
range only). Log entry 5. -/
opaque Config.firstHops : Nat → Nat → Nat

/-- flow_label of a packet that the device itself injects, from its class and job (R263: chosen by the sender). Log
entry 5. -/
opaque Config.flowLabel : Nat → Nat → Nat

/-- The check number that a residue fault reports for a comparison to which R323 and R324 give no number (R325, R363), from the comparison;
used as 1 + x mod 11. Log entry 61. -/
opaque Config.checkNumber : Nat → Nat

/-- The flow label and the hop limit of the IPv6 header around a GMP datagram, from its sequence number: 256 times the one and the other
(R405 gives neither, and a command brings neither). Log entry 65. -/
opaque Config.ipFields : Nat → Nat

/-- The bytes that an HBM_RD or HBM_WR slot moves, from its length and its chunk's elements (R211 gives a slot no amount). Log
entry 5. -/
opaque Config.slotBytes : Nat → Nat → Nat

/-- Byte i of the n-th read of the device reservation that error correction could not correct (R359). Log entry 5. -/
opaque Config.lostByte : Nat → Nat → Byte

/-- The basin field that CTX_STATUS shows for a context in use whose bucket has no BASIN slot, from the context's number; used modulo 50
(R94 gives the range only). Log entry 5. -/
opaque Config.slotlessBasin : Nat → Nat

end Sys2Proof
end

