-- ==== Sys2Proof/Machine/StKeeper.lean ====
section
/-! DEFINITION. The state of the Keeper: sessions, package load, flash claim, identity, image outcome, fault classes and the event ring (files 11 and 12). -/

namespace Sys2Proof.Machine

/-- What the device has put on a wire or pin, in the order it did so (log entry 4). -/
inductive Sent where
  /-- A GMP datagram (R406): port, source address, destination address and UDP port, header fields, body and mac. -/
  | gmp (port source addr udp flags msg session seq tag : Nat) (body mac : Bytes)
  /-- An Ethernet frame on a port, host port (96, 97) or the out-of-band port (98). -/
  | eth (port : Nat) (frame : Bytes)
  /-- A fabric packet started on an output port and VC; `bad` says it ended with TAIL_BAD. -/
  | packet (port vc : Nat) (bytes : Bytes) (bad : Bool)
  /-- A link frame of 5,140 bytes (R229), and the levels of its PAM4 symbols on lanes 0 to 7 (R227, R228, R232). -/
  | frame (port : Nat) (bytes : Bytes) (levels : List (List Int))
  /-- A RoCEv2 packet of a checkpoint (R159, R160): port, the peer's MAC, address and queue pair number, sequence number, whether it is
  a WRITE or the answer to a READ, the remote key and address, and its bytes. -/
  | rdma (port mac ip qpn psn : Nat) (write : Bool) (rkey va : Nat) (bytes : Bytes)
  /-- A remote access error NAK to a queue pair's peer (R162). -/
  | rdmaNak (port mac ip qpn psn : Nat)
  /-- A training frame (R236, R237): for each lane that sends it, the lane, its info field and the levels of its 2,720 symbols. -/
  | training (port : Nat) (lanes : List (Nat × Nat × List Int))
  /-- The levels that a lane repeats in S1 (R245). -/
  | quiet (port lane : Nat) (levels : List Int)
  /-- A copy handed to an analysis queue's port (R292, R294). -/
  | copy (port : Nat) (bytes : Bytes)
  /-- An edge on an event pin: pin number and whether it becomes active (R206, R400, R450). -/
  | pin (pin : Nat) (active : Bool)
  /-- ALERT_N changes; `low` is the asserted level (R362). -/
  | alert (low : Bool)
  /-- A Depths access issued by the schedule: stack, channel, write or read, start tick (R213). -/
  | hbm (stack channel : Nat) (write : Bool) (tick : Nat)
  deriving DecidableEq, Repr

/-- A kept reply (R410). -/
structure KeptReply where
  tag : Nat
  msg : Nat
  body : Bytes
  deriving DecidableEq, Repr

/-- One GMP session (R406, R407, R410, R412). -/
structure Session where
  number : Nat
  managerKey : Bytes
  rights : Nat
  port : Nat
  /-- The device's address at which the last request arrived: the next message comes from it (R405). -/
  source : Nat
  addr : Nat
  udp : Nat
  confirmed : Bool := false
  macIn : Bytes
  macOut : Bytes
  expectA : Bytes
  seqIn : Nat := 0
  seqOut : Nat := 0
  setupTick : Nat := 0
  lastTick : Nat := 0
  events : Bool := false
  ready : Bool := false
  minSeverity : Nat := 0
  kept : List KeptReply := []
  /-- A tag whose request is still being executed (R410). -/
  busyTags : List Nat := []
  deriving DecidableEq, Repr

/-- The open package load (R417): the pieces themselves lie in the staging area of stack 7. -/
structure PkgLoad where
  session : Nat
  header : Bytes
  job : Nat
  length : Nat
  /-- The received byte ranges [from, to), as they came. -/
  got : List (Nat × Nat) := []
  lastTick : Nat := 0
  deriving DecidableEq, Repr

/-- IMAGE_STATUS.state (R427). -/
inductive ImageState where
  | none
  | good
  | bad
  deriving DecidableEq, Repr

/-- A RoCEv2 queue pair (R159). -/
structure Qp where
  port : Nat
  mtu : Nat
  remoteQpn : Nat
  psn : Nat
  rkey : Nat
  remoteVa : Nat
  remoteMac : Nat
  remoteIp : Nat
  localQpn : Nat
  localRkey : Nat
  windowVa : Nat
  /-- In the error state (R162). -/
  error : Bool := false
  deriving DecidableEq, Repr

/-- A queue pair that has not been set up. -/
def Qp.none : Qp :=
  { port := 0, mtu := 1024, remoteQpn := 0, psn := 0, rkey := 0, remoteVa := 0, remoteMac := 0, remoteIp := 0, localQpn := 0, localRkey := 0,
    windowVa := 0 }

/-- An open checkpoint of a job (R160). -/
structure Ckpt where
  job : Nat
  pull : Bool
  qp : Nat
  step : Nat
  length : Nat
  stream : Bytes
  manifest : Bytes
  deriving DecidableEq, Repr

/-- The Keeper's own state. -/
structure Keeper where
  up : Bool := false
  identityState : Nat := 3
  orderingCode : Nat := 3
  warmResets : Nat := 0
  imageState : ImageState := .none
  imageStatus : Nat := 0
  nameA : Nat := 0
  nameB : Nat := 0
  flashWritten : Bool := false
  imageDigest : Bytes := List.replicate 32 0#8
  signerDigest : Bytes := List.replicate 32 0#8
  imageSerial : Nat := 0
  identityPriv : Nat := 0
  identityPub : Bytes := List.replicate 64 0#8
  oobUp : Bool := false
  /-- The ready words last sent, and whether a change waits to be reported (R404). -/
  readySent : List Nat := [0, 0, 0, 0]
  readyTick : Option Nat := none
  sessions : List Session := []
  load : Option PkgLoad := none
  flashClaim : Option Nat := none
  qps : Table Qp := []
  ckpts : Table Ckpt := []
  /-- Jobs whose GMP_JOB_HALT waits for the sequencer: job, session, tag, message (R379, R410). -/
  haltWaits : List (Nat × Nat × Nat) := []
  deriving DecidableEq, Repr

/-- A FAULT_CLASS word (R365). -/
structure FaultClass where
  unacked : Bool := false
  maxSeverity : Nat := 0
  lastSource : Nat := 0
  count : Nat := 0
  deriving DecidableEq, Repr

/-- One record of the event ring with its delivered mark (R363, R364). -/
structure Event where
  seq : Nat
  bytes : Bytes
  delivered : Bool
  deriving DecidableEq, Repr

/-- Fault records, classes and ALERT_N (R358 to R365). -/
structure Faults where
  eventSeq : Nat := 0
  /-- The ring, oldest first, at most 1,024 records. -/
  ring : List Event := []
  overwriteRaised : Bool := false
  classes : Table FaultClass := []
  alertLow : Bool := false
  /-- ALERT_N held low whatever the classes say (R480, R484, R496). -/
  alertForce : Bool := false
  /-- The hold of R362 (hold_on_fatal). -/
  held : Bool := false
  deriving DecidableEq, Repr

/-- UNIT_STATUS.state (R366). -/
inductive UnitState where
  | inService
  | standby
  | standingIn
  | resetting
  | retired
  deriving DecidableEq, Repr

/-- A UNIT_STATUS word with the unit's readiness (R366, R403). -/
structure UnitSt where
  state : UnitState := .inService
  standsFor : Nat := 0x7F
  lastSource : Nat := 0
  faults : Nat := 0
  resets : Nat := 0
  /-- Built-in test passed, or stack trained (R403). -/
  ready : Bool := false
  /-- The built-in test has passed and the Basin takes its slots back at the next launch (R370). -/
  returning : Bool := false
  deriving DecidableEq, Repr

end Sys2Proof.Machine
end

