-- ==== Sys2Proof/Machine/StJob.lean ====
section
/-! DEFINITION. The state of jobs and of reduction contexts (files 01, 03, 04, 05, 06, 10, 11). -/

namespace Sys2Proof.Machine

/-- The context states of R91. -/
inductive CtxState where
  | free
  | armed
  | opened
  | draining
  | aborted
  | resetting
  deriving DecidableEq, Repr

/-- A fragment held for a use, with its 48-byte header (R28, R97, R106). -/
structure Frag where
  port : Nat
  header : Bytes
  payload : Bytes
  tick : Nat
  spilled : Bool
  /-- Combined or passed on: its blocks are free, and only its identity counts (R99). -/
  taken : Bool := false
  /-- The link session of its arrival (R374). -/
  gen : Nat := 0
  /-- The route header that it arrived with; none for a fragment made here (R263). -/
  route : Bytes := []
  deriving DecidableEq, Repr

/-- The value of a node over one fragment's elements (R79, R80). -/
structure NodeVal where
  frag : Nat
  node : Nat
  vals : List W32
  /-- The values in the wire format of the node's level (R105). -/
  enc : Bytes := []
  /-- Whether the value has left the device (R96). -/
  sent : Bool := false
  deriving DecidableEq, Repr

/-- An abort notice held for a later use (R110): sequence, status, detecting node, port it came on. -/
structure HeldAbort where
  seq : Nat
  gen : Nat
  status : Nat
  node : Nat
  port : Nat
  deriving DecidableEq, Repr

/-- What the reduction core of one use at one context holds of digests (R333, R334): the use's sequence number, port, direction
(true: sent), and the leaves by (node word, frag offset). -/
structure UseDigest where
  seq : Nat
  port : Nat
  sent : Bool
  leaves : List (Nat × Nat × Bytes)
  bytes : Nat
  gap : Bool
  deriving DecidableEq, Repr

/-- A reduction context (R91 to R98). -/
structure Ctx where
  state : CtxState := .free
  spilled : Bool := false
  spareBasin : Bool := false
  job : Nat := 0
  channel : Nat := 0
  basin : Nat := 0xFF
  generation : Nat := 0
  status : Nat := 0
  sequence : Nat := 0
  microBatch : Nat := 0xFFFF
  bucket : Nat := 0
  /-- The time at which the use opened (R112). -/
  openTick : Nat := 0
  /-- Whether the current use belongs to a step that has launched here (R20). -/
  launched : Bool := false
  frags : List Frag := []
  nodes : List NodeVal := []
  /-- Remainders written by the current use: (fragment, node word, values) (R88). -/
  remW : List NodeVal := []
  heldAborts : List HeldAbort := []
  /-- Notices forwarded, as (sequence, generation) (R110). -/
  forwarded : List (Nat × Nat) := []
  /-- Counts of the use, by the offset of their field in SITE_NUMERICS (R170, R173). -/
  useCounts : Table Nat := []
  firstNonfinite : Nat := 0xFFFFFFFF
  digests : List UseDigest := []
  deriving DecidableEq, Repr

/-- The job states of R18. -/
inductive JobState where
  | empty
  | loaded
  | running
  | halted
  deriving DecidableEq, Repr

/-- How far a launch has come (R206). -/
inductive LaunchStage where
  | pending
  | armed
  deriving DecidableEq, Repr

/-- A launch announcement and its stage (R206, R382, R501). -/
structure Launch where
  tick : Nat
  step : Nat
  completion : Bool
  stage : LaunchStage := .pending
  deriving DecidableEq, Repr

/-- The section a job's sequencers run (R206). -/
inductive Section where
  | microBatch (m : Nat)
  | tail
  deriving DecidableEq, Repr

/-- The results of a Verdict (R147, R148). -/
structure VerdictRes where
  outcome : Nat
  /-- Per tensor position: whether the tensor is skipped. -/
  skips : List Bool
  gsumsq : List W32
  wsumsq : List W32
  wamax : List W32
  globalSum : W32
  clip : W32
  /-- Per tensor position: s in force during the step. -/
  scales : List Int
  deriving DecidableEq, Repr

/-- The three remainder copies of one hosted narrowing node over one fragment (R88), by value. -/
structure Rem where
  bucket : Nat
  node : Nat
  frag : Nat
  committed : List W32
  working : Option (List W32) := none
  deriving DecidableEq, Repr

/-- An Outflow or VERDICT_RESULT fragment on its way: who holds its blocks and under which key, the ports it has still to leave
by, and its bytes (R154, R280, R314). -/
structure OutHeld where
  holder : Nat
  item : Nat
  channel : Nat
  ports : List Nat
  header : Bytes
  payload : Bytes
  /-- The link session of its arrival, where it came in on a port (R374). -/
  gen : Nat := 0
  /-- The route header that it arrived with, where it came in on a port (R263). -/
  route : Bytes := []
  deriving DecidableEq, Repr

/-- Root values of a use in one of its channel's two inflow slots, over one owned chunk (R122, R123). -/
structure Inflow where
  channel : Nat
  slot : Nat
  chunk : Nat
  seq : Nat
  vals : List W32
  deriving DecidableEq, Repr

/-- What the fold of a chunk's last micro-batch leaves (R125, R146). -/
structure ChunkStat where
  gsq : W32
  flags : Nat
  gdig : Bytes
  deriving DecidableEq, Repr

/-- The run counter and active bit of an alarm (R177). -/
structure Alarm where
  run : Nat := 0
  active : Bool := false
  deriving DecidableEq, Repr

/-- A scale recipe's state (R156, R157): s and count, or the windows by tensor. -/
structure Recipe where
  s : Int := 0
  count : Nat := 0
  windows : Table (List W32) := []
  deriving DecidableEq, Repr

/-- A token bucket (R317): how far its level lies below full, in units of 2⁻²⁴ byte. A new bucket is full. -/
structure Bucket where
  debt : Nat := 0
  last : Nat := 0
  deriving DecidableEq, Repr

/-- A job (files 01, 04, 06, 10, 11). -/
structure Job where
  state : JobState := .empty
  /-- The package's records as (type, body), in the package's order (R419). -/
  recs : List (Nat × Bytes) := []
  pkgDigest : Bytes := List.replicate 32 0#8
  /-- The node table and fan-out entries of the LOAD package, from which a re-plan may move ports (R31, R381). -/
  homePaths : List Bytes := []
  /-- The last launch's paths were not those of the LOAD package (R31, R219). -/
  offHome : Bool := false
  /-- SM3 of each record body taken at package load (R371). -/
  tableDigest : Bytes := []
  -- STEP_STATUS (R31)
  stStep : Nat := 0xFFFFFFFFFFFF
  stOutcome : Nat := 0xF
  stInexact : Bool := false
  stShr : Bool := false
  stSpare : Bool := false
  stComparable : Bool := false
  -- STEP_TIMING (R220)
  tmLag : Nat := 0
  tmCauses : Nat := 0
  tmSlackMin : Nat := 0xFFFFFF
  -- JOB_RECOVERY (R378)
  rcStep : Nat := 0xFFFFFFFFFFFF
  rcPhase : Nat := 0
  rootCommitted : Bool := false
  replanned : Bool := false
  budgetExceeded : Bool := false
  haltCause : Nat := 0
  haltTick : Nat := 0
  /-- The device was stopped short: slots no longer act (R379, R371). -/
  stopped : Bool := false
  nextStep : Nat := 0
  restoreBad : Bool := false
  launch : Option Launch := none
  /-- Earliest tick of the next launch (R27, R205). -/
  nextLaunch : Nat := 0
  runSection : Option Section := none
  /-- Channel sequence counters: next number of each channel (R95), and their values at the step's launch (R380). -/
  chSeq : Table Nat := []
  chSeqAtLaunch : Table Nat := []
  /-- Context sequences at the step's launch, by context (R380). -/
  ctxSeqAtLaunch : Table (Nat × Nat) := []
  /-- The Outflow sequence number of each channel's next step (R154), and the session generation (R375). -/
  outSeq : Table Nat := []
  outGen : Nat := 0
  -- the running step (R216 to R220)
  lag0 : Nat := 0
  lag1 : Nat := 0
  causes : Nat := 0
  slackMin : Nat := 0xFFFFFF
  launchTick : Nat := 0
  /-- The time of the launch cycle, in core cycles. -/
  beginTime : Nat := 0
  /-- By schedule entry: how often it has acted in this launch, how often its read data has been taken, and the flits that a TX slot has
  moved in its present round (R215, R216, R309). -/
  acted : Table Nat := []
  returned : Table Nat := []
  moved : Table Nat := []
  /-- The inflow slots that hold root values (R123). -/
  inflow : List Inflow := []
  spareUsed : Bool := false
  -- the Verdict (R144 to R150)
  vecWords : Table W32 := []
  vseq : Option (Nat × Nat) := none
  vres : Option VerdictRes := none
  verdictRaised : Bool := false
  chunkStats : Table ChunkStat := []
  /-- Chunks whose fold failed a residue check in this step, with the check and the element (R326). -/
  unsound : List (Nat × Nat × Nat) := []
  updated : List Nat := []
  updateStarted : Bool := false
  /-- The running launch is a completion launch (R382). -/
  completing : Bool := false
  /-- Chunks whose Outflow fragments have been formed in this launch, and those counted by the monitor in this step. -/
  outFormed : List Nat := []
  outCounted : List Nat := []
  /-- Outflow fragments held until TX slots have moved them to every port of their fan-out, oldest first. -/
  outHeld : List OutHeld := []
  /-- The next key of a held Outflow fragment. -/
  outItem : Nat := 0
  -- scale recipes (R155 to R158)
  recipes : Table Recipe := []
  shr : Bool := false
  shrCount : Nat := 0
  rems : List Rem := []
  -- numerics (R167 to R177)
  tnum : Table (Table Nat) := []
  snum : Table (Table Nat) := []
  firstNonfinite : Table Nat := []
  /-- Elements of a tensor with overflow in some fold of the step (R169). -/
  foldOverflow : Table (List Nat) := []
  /-- Alarm state, keyed 8 · tensor + 4 · site + alarm (R177). -/
  alarms : Table Alarm := []
  -- provenance, logbook, replay (R339 to R356)
  wdig : Table Bytes := []
  prov : Table Bytes := []
  /-- wdig and prov of the running step, by chunk: they are kept once the step has ended APPLIED, PARTIAL or SKIPPED (R342). -/
  stepProv : Table (Bytes × Bytes) := []
  /-- NODE_DIGEST bodies gathered for the step's batch (R348). -/
  nodeDigests : List Bytes := []
  logBatches : List (List Bytes) := []
  logSeq : Nat := 0
  lastSeal : Bytes := List.replicate 32 0#8
  refs : List Bytes := []
  diverged : Bool := false
  compared : Bool := false
  divergences : Nat := 0
  /-- Produced records of the step without a reference record (R354). -/
  norefs : Nat := 0
  /-- The least divergence of the step: its order key and the REPLAY_REPORT body (R355, R356). -/
  least : Option (Nat × Bytes) := none
  -- restore (R164)
  /-- Bytes of restore data by stream offset (R164). -/
  restored : Table Byte := []
  /-- The last step that ended here, whatever its outcome, or that a restore set (R31, R160, R164). -/
  lastEnded : Nat := 0xFFFFFFFFFFFF
  -- erosion (R223)
  erosionRun : Nat := 0
  eroded : Bool := false
  /-- Injection and checkpoint token buckets of the job (R317, R318). -/
  injection : Bucket := {}
  ckptBucket : Bucket := {}
  deriving DecidableEq, Repr

end Sys2Proof.Machine
end

