-- ==== Sys2Proof/Machine/StPort.lean ====
section
/-! DEFINITION. The state of a port (files 07, 08, 09), of the clock (file 06), of the staging pool (file 09) and of the compute dies. -/

namespace Sys2Proof.Machine

/-- The link states of R238, with their reported values 0 to 7. -/
inductive LinkState where
  | disabled
  | txTune
  | acquire
  | identify
  | handshake
  | calibrate
  | up
  | fault
  deriving DecidableEq, Repr

/-- The value LINK_STATUS reports (R238). -/
def LinkState.code : LinkState → Nat
  | .disabled => 0
  | .txTune => 1
  | .acquire => 2
  | .identify => 3
  | .handshake => 4
  | .calibrate => 5
  | .up => 6
  | .fault => 7

/-- A RoCEv2 packet that waits to leave (R159): queue pair, sequence number, WRITE or READ response, address, bytes. -/
structure RdmaOut where
  qp : Nat
  psn : Nat
  write : Bool
  va : Nat
  bytes : Bytes
  deriving DecidableEq, Repr

/-- A packet whose head waits at an input for an output (R286, R316). -/
structure Waiting where
  inPort : Nat
  inVc : Nat
  outPort : Nat
  outVc : Nat
  /-- 256 for ETH_FRAME, else the job (R319). -/
  queue : Nat
  head : Bytes
  /-- The head as it was received, for a head that sampling records (R292). -/
  asRx : Bytes := []
  flits : Nat
  arrive : Nat
  path : Nat
  /-- The path is chosen when the head starts (R282). -/
  dlb : Bool := false
  /-- The head is one that header sampling records (R291). -/
  sampled : Bool := false
  /-- A packet of a checkpoint stream, under the job's checkpoint bucket (R318); it waits at its own output port. -/
  rdma : Option RdmaOut := none
  /-- The link session of its arrival (R374). -/
  gen : Nat := 0
  gateCounted : Bool := false
  holdCounted : Bool := false
  /-- The flits after the head, as far as they have arrived. -/
  got : List Bytes := []
  complete : Bool := false
  bad : Bool := false
  deriving DecidableEq, Repr

/-- A retained data flit (R272). -/
structure Retained where
  seq : Nat
  vc : Nat
  ftype : Nat
  data : Bytes
  tick : Nat
  /-- The use whose output it is part of: job, channel, sequence (R93, R96). -/
  use : Option (Nat × Nat × Nat) := none
  deriving DecidableEq, Repr

/-- One flit in an output queue (R302), with the port it was received on and that port's link session then (R374); 255 for the
device's own. -/
structure QFlit where
  ftype : Nat
  data : Bytes
  src : Nat := 255
  gen : Nat := 0
  use : Option (Nat × Nat × Nat) := none
  deriving DecidableEq, Repr

/-- What becomes of a packet that is being received (R265). -/
inductive Fate where
  | dropped
  | consumed
  | forwarded
  deriving DecidableEq, Repr

/-- A packet being received on an input VC (R265): its head, the flits come so far, how many it needs, and its fate. -/
structure OpenRx where
  head : Bytes
  got : List Bytes
  need : Nat
  fate : Fate
  deriving DecidableEq, Repr

/-- A fair-queuing queue (R319). -/
structure FairQ where
  f : Nat := 0
  s : Nat := 0
  active : Bool := false
  deriving DecidableEq, Repr

/-- A fair-queuing level (R319). -/
structure FairLevel where
  v : Nat := 0
  queues : Table FairQ := []
  deriving DecidableEq, Repr

/-- What one flit slot does to the Gauge's account of an open packet (R465). -/
structure TapOpen where
  cls : Nat
  job : Nat
  deriving DecidableEq, Repr

/-- A port, 0 to 95 fabric, 96 and 97 host (R253, R238, R243 to R247, R269 to R276, R286, R294, R319). -/
structure Port where
  state : LinkState := .txTune
  rxLanes : Nat := 0
  rxSpareFor : Nat := 0xF
  txSpareFor : Nat := 0xF
  txSleep : Nat := 0
  rxSleep : Nat := 0
  remapped : Bool := false
  headroomLow : Bool := false
  cause : Nat := 0
  neighbourPort : Nat := 0x7F
  neighbourId : Nat := 0
  neighbourRack : Nat := 0xFFFF
  retrains : Nat := 0
  -- LINK_OPTICS (R253)
  warm : Nat := 0xFF
  cool : Nat := 0xFF
  /-- Heater power of each ring last measured, in 0.01 mW: transmit ring l under l, receive ring l under 9 + l (R249, R250). -/
  rings : Table Nat := []
  feedPower : Nat := 0x8000
  lines : Nat := 0
  feedState : Nat := 3
  -- bring-up (R238)
  entryTick : Nat := 0
  infoRun : Nat := 0
  readyRun : Nat := 0
  countdown : Nat := 0
  dataRun : Nat := 0
  sending : Bool := false
  acquireRaised : Bool := false
  calibDone : Nat := 0
  -- spare lane (R243, R244)
  peerMask : Nat := 0x1FF
  rxMask : Nat := 0
  retired : List Nat := []
  corrWindow : Table Nat := []
  windowFrames : Nat := 0
  /-- A spare change under way on the receive or transmit direction (R243, R246). -/
  spareChange : Bool := false
  /-- The transmit direction's own: from the lane's loss, or the peer's mask, to the first frame with spare_active. -/
  txChange : Bool := false
  /-- Lane whose ring or wavelength the transmit direction lost (R256). -/
  txBad : List Nat := []
  -- sleep (R245 to R247)
  wakeTick : Nat := 0
  rxWakeTick : Nat := 0
  sleepSince : Nat := 0
  /-- Training frames received since the receive direction slept (R245, R247). -/
  rxExit : Nat := 0
  -- frames (R228, R230)
  frameCount : Nat := 0
  precoder : Table Nat := []
  /-- The number of the next training frame of this port's lanes, and the time of the one listed last in the run under way (R236). -/
  trainNext : Nat := 0
  trainTime : Option Nat := none
  /-- The receiver's view of the peer's remote_fault flag (R230). -/
  peerFault : Bool := false
  -- link session (R374)
  linkGen : Nat := 0
  -- time (R197, R198, R223)
  exchSeq : Nat := 0
  sentT1 : Option (Nat × Nat) := none
  delay : Int := 0
  hasDelay : Bool := false
  outliers : List Int := []
  bringupDelay : Int := 0
  bringupSum : Int := 0
  hasBringup : Bool := false
  lastOffset : Int := 0
  bringupOffset : Int := 0
  calibTick : Nat := 0
  /-- GTC of the last periodic SYNC_REQ, and the time from which the next one of the 2,500-tick cadence may go (R198). -/
  reqTick : Nat := 0
  reqDue : Nat := 0
  /-- Number of the multiple of 263,250 ticks whose exchange has completed: this end's, and the peer's (R199). -/
  exchDone : Nat := 0
  peerDone : Nat := 0
  drift : Bool := false
  /-- The peer uses this link as its upstream, as its depth shows (R246 condition 7). -/
  peerUpstream : Bool := false
  -- retry (R269 to R273)
  txSeq : Nat := 0
  retained : List Retained := []
  rxExpected : Nat := 0
  nakFor : Option Nat := none
  nakTick : Nat := 0
  replayPos : Option Nat := none
  replayFrom : Nat := 0
  replayTick : Nat := 0
  replays : Nat := 0
  ackTick : Nat := 0
  ctrlDue : Option Nat := none
  ctrlNak : Bool := false
  -- credits (R275)
  grant : Table Nat := []
  limit : Table Nat := []
  sentVc : Table Nat := []
  ingress : Table Nat := []
  -- packets
  rx : Table OpenRx := []
  waiting : List Waiting := []
  /-- Flits of a started packet that its output queue had no room for yet, by input VC (R275). -/
  moving : Table (List QFlit) := []
  outQ : Table (List QFlit) := []
  /-- Flits that TX slots move to this port, with their VC, until the crossbar has written them (R304). -/
  feed : List (Nat × QFlit) := []
  /-- Crossbar writes to this output, those of them by TX slots, and reads from this input, each with the link frame that it counts (R303,
  R304, R321). -/
  wrote : Nat × Nat := (0, 0)
  fed : Nat × Nat := (0, 0)
  readIn : Nat × Nat := (0, 0)
  /-- The input served last at this output (R304). -/
  lastIn : Nat := 97
  /-- Data of the packet that holds an output VC, as far as it has been written there (R286). -/
  building : Table Bytes := []
  /-- Packets at the front of an output queue that GATE_OVERRUN has counted, by VC (R320). -/
  overrun : Table Nat := []
  holder : Table Nat := []
  jobLevels : Table FairLevel := []
  vcLevel : FairLevel := {}
  bucket : Bucket := {}
  /-- Closed windows of this port (R222): the mask in force. -/
  closed : Nat := 0
  /-- Flit slots of the current received frame that are damaged (R231, R233). -/
  damaged : List Nat := []
  headCount : Nat := 0
  -- Ethernet (R242)
  blockLock : Bool := false
  ethFault : Bool := false
  /-- Open packets at the Gauge's taps, by VC, received (v) and sent (8 + v) (R465). -/
  taps : Table TapOpen := []
  deriving DecidableEq, Repr

/-- The GTC states of R200, R201. -/
inductive GtcState where
  | invalid
  | acquiring
  | locked
  | holdover
  deriving DecidableEq, Repr

def GtcState.code : GtcState → Nat
  | .invalid => 0
  | .acquiring => 1
  | .locked => 2
  | .holdover => 3

/-- The source of the core PLL (R190). -/
inductive PllSource where
  | refclk
  | refclkFrozen
  /-- The recovered clock of a lane of a port (R234). -/
  | port (p lane : Nat)
  deriving DecidableEq, Repr

/-- What a candidate port last offered (R193, R196). -/
structure Offer where
  key : Nat
  depth : Nat
  rackId : Nat
  rackDepth : Nat
  tick : Nat
  deriving DecidableEq, Repr

/-- Machine time (R190 to R207). -/
structure Clock where
  /-- The model's own count of core cycles since reset: what the commands' `now` counts (log entry 2). -/
  time : Nat := 0
  /-- The time at which the GTC was frozen (R207). -/
  freezeTime : Nat := 0
  gtc : W64 := 0
  frac : Nat := 0
  /-- Core cycle counts of the crossbar's halves, on compute dies 0 and 1 (R317, R475). -/
  cycles : Nat := 0
  cycles1 : Nat := 0
  /-- The weir-frame window whose boundary was handled last (R222). -/
  window : Nat := 0
  frozen : Bool := true
  hasGtc : Bool := false
  state : GtcState := .invalid
  spring : Bool := false
  depth : Nat := 0xF
  rackDepth : Nat := 3
  upstream : Nat := 0x7F
  offset : Nat := 0
  cause : Nat := 1
  stretched : Bool := false
  stepped : Bool := false
  pllLocked : Bool := false
  refOk : Bool := true
  source : PllSource := .refclk
  adoptedKey : Nat := 0xFFFFFFFFFFFFFFFF
  keyTick : Nat := 0
  respTick : Nat := 0
  holdTick : Nat := 0
  goodRun : Nat := 0
  badRun : Nat := 0
  fast : Bool := false
  slew : Int := 0
  offers : Table Offer := []
  /-- The first exchange after ACQUIRING was entered sets the GTC (R200). -/
  setPending : Bool := false
  deriving DecidableEq, Repr

/-- One block pool (R310, R312): the numbers of the blocks that are taken; those that have been freed, with the cycle from which each can
be taken again; and the core cycle of the latest allocation and of the latest free, with how many there were. -/
structure BlockPool where
  used : List Nat := []
  resting : List (Nat × Nat) := []
  served : Nat × Nat := (0, 0)
  freed : Nat × Nat := (0, 0)
  deriving DecidableEq, Repr

/-- A requester's blocks (R313): its code, and for each block the pool and block number. -/
structure Holding where
  /-- Context c as c; Tarn t as 8192 + t; port p as 16384 + p. -/
  holder : Nat
  /-- What the blocks hold: a key of the requester's own. -/
  item : Nat
  job : Nat
  reserved : Bool
  blocks : List (Nat × Nat)
  deriving DecidableEq, Repr

/-- The staging pool (R310 to R315). -/
structure Pool where
  pools : Table BlockPool := []
  holdings : List Holding := []
  deriving DecidableEq, Repr

/-- A frame of the Keeper's own (R302, R308): a VC6 packet with its flits, or a packet of a checkpoint stream. -/
structure OwnFrame where
  port : Nat
  bytes : Bytes := []
  flits : List QFlit := []
  rdma : Option Waiting := none
  deriving DecidableEq, Repr

/-- A compute die's clock (R221, R479, R487): the tick at which a stretch and a stop began, the time up to which missed edges are
settled, and those that the stretch has cost so far. -/
structure Die where
  stretching : Option Nat := none
  stopped : Option Nat := none
  since : Nat := 0
  lost : Nat := 0
  deriving DecidableEq, Repr

end Sys2Proof.Machine
end

