-- ==== Sys2Proof/Machine/StRest.lean ====
section
/-! DEFINITION. The state of Silt, the capture probes, the dump, the audit store, the Gauge island and the power and pin inputs (files 10, 13, 14, 15). -/

namespace Sys2Proof.Machine

/-- Silt's states (R449, R452). -/
inductive SiltState where
  | running
  | triggered
  | stopped
  deriving DecidableEq, Repr

/-- A record in the ring: its first slot, its length in slots and its bytes (R444). -/
structure SiltRec where
  slot : Nat
  two : Bool
  bytes : Bytes
  deriving DecidableEq, Repr

/-- Silt (R444 to R453). -/
structure Silt where
  state : SiltState := .running
  wrapped : Bool := false
  sources : Nat := 0
  /-- The records the ring holds, oldest first. -/
  recs : List SiltRec := []
  next : Nat := 0
  /-- Records written since the last rearm or cold reset (R449: H). -/
  since : Nat := 0
  oldestFrozen : Option Nat := none
  triggerSlot : Option Nat := none
  /-- The core cycle of the accepted trigger: triggers of one cycle make one (R450). -/
  trigTime : Option Nat := none
  lostSlot : Option Nat := none
  postLeft : Nat := 0
  postSize : Nat := 0
  lost : Nat := 0
  lostMandatory : Nat := 0
  overwrittenBefore : Nat := 0
  firstLost : Nat := 0
  lastLost : Nat := 0
  /-- Per die: the core cycle up to which its queue is busy (R447). -/
  busy : Table Nat := []
  /-- Slots waiting in the write buffer for the extension (R448). -/
  buffered : Nat := 0
  /-- Time triggers that have fired, by their number (R450). -/
  fired : List Nat := []
  deriving DecidableEq, Repr

/-- A capture probe (R440 to R443). -/
structure Probe where
  entry : Bytes := List.replicate 16 0#8
  count : Nat := 0
  sum : Nat := 0
  min : Nat := 0xFFFFFFFF
  max : Nat := 0
  bins : Table Nat := []
  /-- Replays counted at the last sample of a RETRIES probe (R441). -/
  last : Nat := 0
  /-- The multiple of its period at which the probe last sampled (R441). -/
  turn : Nat := 0
  deriving DecidableEq, Repr

/-- An open dump (R455 to R458): everything but the SILT section, which is read in place. -/
structure Dump where
  id : Nat
  session : Nat
  bytes : Bytes
  siltOff : Nat
  siltLen : Nat
  /-- The number that the next record had when the event ring was copied (R364). -/
  ringSeq : Nat
  lastTick : Nat
  deriving DecidableEq, Repr

/-- The digests of one step's Outflow on one channel, port and direction (R334): leaves by (tensor, offset). -/
structure OutUse where
  job : Nat
  channel : Nat
  port : Nat
  sent : Bool
  leaves : List (Nat × Nat × Bytes)
  bytes : Nat
  gap : Bool
  deriving DecidableEq, Repr

/-- The audit store and its overflow region (R335, R336), and the digest engines by (job, channel) (R331). -/
structure Audit where
  store : List Bytes := []
  overflow : List Bytes := []
  engines : Table (Nat × Nat) := []
  /-- Per engine: the tick up to which its input buffer is busy (R337). -/
  busy : Table Nat := []
  /-- Outflow digests of the running steps (R334). -/
  outflow : List OutUse := []
  deriving DecidableEq, Repr

/-- The Gauge's seal states (R468). -/
inductive Seal where
  | uncertified
  | certified
  | broken
  deriving DecidableEq, Repr

def Seal.code : Seal → Nat
  | .uncertified => 0
  | .certified => 1
  | .broken => 2

/-- A request waiting at the Gauge (R471): the session's number, tag, message code and body, and the GTC given with it (R472). -/
structure GaugeReq where
  session : Nat
  tag : Nat
  msg : Nat
  body : Bytes
  hint : Nat
  deriving DecidableEq, Repr

/-- The Gauge (R461 to R472). Its NVM fields last without power. -/
structure Gauge where
  powered : Bool := false
  state : Seal := .uncertified
  cal : Bytes := []
  priv : Nat := 0
  pub : Bytes := List.replicate 64 0#8
  serial : Nat := 0
  cert : Bytes := List.replicate 64 0#8
  log : List Bytes := []
  /-- An append whose second phase is missing (R469). -/
  half : Bool := false
  boots : Nat := 0
  time : Nat := 0
  records : Nat := 0
  energy : Table Nat := []
  /-- Energy not yet a whole µJ, in the units of a sample (R463). -/
  energyFrac : Table Nat := []
  overRange : Table Nat := []
  /-- Byte counters keyed 2 · (98 · account + port) + direction, 1 for transmit (R465). -/
  bytes : Table Nat := []
  tempOut : Bool := false
  tempSeen : Bool := false
  /-- The Keeper has had an answer since the cold reset (R468). -/
  answered : Bool := false
  waiting : List GaugeReq := []
  deriving DecidableEq, Repr

/-- Rails, resets, temperatures and pins (files 11 and 15). -/
structure Power where
  pwrOk : Bool := true
  /-- Reset release has taken place (R388, R483). -/
  released : Bool := false
  /-- The core cycle at which the warm reset under way began (R371). -/
  warm : Option Nat := none
  /-- A warm reset waits for the rails (1) or for the temperatures (2), or a cold reset for the temperatures (3) (R372, R480,
  R487). -/
  warmWait : Nat := 0
  warmEnd : Option Nat := none
  cold : Bool := false
  /-- Every fabric transmitter is dark (R480, R484, R487), and every host transmitter (R484, R487). -/
  dark : Bool := false
  darkHost : Bool := false
  heatersOff : Bool := false
  depthsParked : Bool := false
  refAbsent : Bool := false
  /-- Event pins released or ignored for the boot (R495), and pins now ignored. -/
  evtOff : List Nat := []
  evtClamped : List Nat := []
  /-- Per pin: the multiple of its period at which a PERIODIC_PULSE last began (R400). -/
  pulsed : Table Nat := []
  alertReleased : Bool := false
  nvmReversed : Bool := false
  /-- The flash cannot be reached in this boot (R389, R495). -/
  nvmFault : Bool := false
  oobInverted : Bool := false
  deriving DecidableEq, Repr

/-- Mirroring (R294): matches of each session since image load, and the copies in analysis queue q of port p under 4 · p + q. -/
structure Mirrors where
  count : Table Nat := []
  queues : Table (List Bytes) := []
  deriving DecidableEq, Repr

/-- What two header records hold of samples (R291): how many were written and the ring's records by number. -/
structure Samples where
  count : Nat := 0
  ring : List Bytes := []
  deriving DecidableEq, Repr

end Sys2Proof.Machine
end

