-- ==== Sys2Proof/Machine/State.lean ====
section
/-! DEFINITION. The whole state of the V96, its faults and refusals, and the state right after reset. -/

namespace Sys2Proof.Machine

/-- Everything the device holds but its two byte-addressed memories and the queue of commands. -/
structure Dev where
  /-- What the device has sent, oldest first (log entry 4). -/
  sent : List Sent := []
  /-- Which free value comes next (log entry 5). -/
  freeCtr : Nat := 0
  clock : Clock := {}
  keeper : Keeper := {}
  /-- The records of the image in force, by type (R395). -/
  image : Table Bytes := []
  ports : Table Port := []
  ctxs : Table Ctx := []
  jobs : Table Job := []
  faults : Faults := {}
  /-- UNIT_STATUS: Basin b under b, Tarn t under 64 + t, stack s under 80 + s (R366). -/
  units : Table UnitSt := []
  /-- Counters by index (R434). -/
  ctrs : Table Nat := []
  pool : Pool := {}
  silt : Silt := {}
  probes : Table Probe := []
  dump : Option Dump := none
  samples : Samples := {}
  audit : Audit := {}
  gauge : Gauge := {}
  power : Power := {}
  dies : Table Die := []
  /-- Last block of each generator unit (R72, R76). -/
  gens : Table Nat := []
  /-- Last output of each Basin's multiply-accumulate tile (R59). -/
  tiles : Table W32 := []
  /-- Tick of the last refresh of each Depths stack (R208). -/
  refreshed : Table Nat := []
  mirrors : Mirrors := {}
  /-- The Keeper's own frames, oldest first: those that the device reserve has cells for, and those that wait for a free cell (R302,
  R308). Checkpoint packets that have a cell wait at their port. -/
  own : List OwnFrame := []
  deriving DecidableEq, Repr

/-- The V96 as a block: the commands that wait, the flash, the Depths stacks and the device. -/
structure State where
  pending : List Instr
  /-- The xSPI flash (R389, R390); an unlisted byte reads 0xFF, as an erased one does (log entry 6). -/
  flash : Table Byte
  /-- Depths: byte o of stack s under s · 2^37 + o; an unlisted byte reads 0 (log entry 7). -/
  depths : Table Byte
  dev : Dev
  deriving DecidableEq, Repr

/-- What a command could stop with. No command of the manual faults the block: for every input the manual says what
the device does (R6); nothing raises this one. -/
inductive Fault where
  /-- Raised by nobody. It would be safe: the run stops. -/
  | none
  deriving DecidableEq, Repr

/-- What the model refuses. -/
inductive Refusal where
  /-- A command that has no meaning yet, by its mnemonic. Safe: the run stops. -/
  | notModelled (mnemonic : String)
  deriving DecidableEq, Repr

/-- What an unlisted byte of the flash reads as. -/
def flashDefault : Byte := 0xFF#8
/-- What an unlisted byte of the Depths reads as. -/
def depthsDefault : Byte := 0x00#8

/-- The entry of the seal log that the factory's sealing wrote (R2, R469): index 0, SEALED, seal state 0 (log entry 8). -/
def factorySeal : Bytes := [0#8, 0#8, 0#8, 0#8, 2#8] ++ List.replicate 59 0#8

/-- The device as reset leaves it, before reset release (R388): every register at its default, Basins 48 and 49
STANDBY (R366), and the Gauge sealed (R2). -/
def Dev.reset : Dev :=
  { units := [(48, { state := .standby }), (49, { state := .standby })], gauge := { log := [factorySeal] } }

/-- The machine right after reset. -/
def State.reset : State := { pending := [], flash := [], depths := [], dev := Dev.reset }

end Sys2Proof.Machine
end

