-- ==== Sys2Proof/Machine/Ops.lean ====
section
/-! DEFINITION. The named operations over the device's tables, counters and clock: the one way each is read and changed. -/

namespace Sys2Proof.Machine

/-! ### Tables -/

def Dev.port (d : Dev) (p : Nat) : Port := tget {} d.ports p
def Dev.modPort (d : Dev) (p : Nat) (f : Port → Port) : Dev := { d with ports := tmod {} d.ports p f }
def Dev.ctx (d : Dev) (c : Nat) : Ctx := tget {} d.ctxs c
def Dev.modCtx (d : Dev) (c : Nat) (f : Ctx → Ctx) : Dev := { d with ctxs := tmod {} d.ctxs c f }
def Dev.job (d : Dev) (j : Nat) : Job := tget {} d.jobs j
def Dev.modJob (d : Dev) (j : Nat) (f : Job → Job) : Dev := { d with jobs := tmod {} d.jobs j f }
def Dev.unit (d : Dev) (u : Nat) : UnitSt := tget {} d.units u
def Dev.modUnit (d : Dev) (u : Nat) (f : UnitSt → UnitSt) : Dev := { d with units := tmod {} d.units u f }
def Dev.die (d : Dev) (i : Nat) : Die := tget {} d.dies i
def Dev.modDie (d : Dev) (i : Nat) (f : Die → Die) : Dev := { d with dies := tmod {} d.dies i f }
def Dev.modClock (d : Dev) (f : Clock → Clock) : Dev := { d with clock := f d.clock }
def Dev.modKeeper (d : Dev) (f : Keeper → Keeper) : Dev := { d with keeper := f d.keeper }
def Dev.modPower (d : Dev) (f : Power → Power) : Dev := { d with power := f d.power }
def Dev.modGauge (d : Dev) (f : Gauge → Gauge) : Dev := { d with gauge := f d.gauge }
def Dev.modSilt (d : Dev) (f : Silt → Silt) : Dev := { d with silt := f d.silt }
def Dev.modFaults (d : Dev) (f : Faults → Faults) : Dev := { d with faults := f d.faults }

/-- Keys of UNIT_STATUS entries (R426): Basins from 0, Tarns from 64, stacks from 80. -/
def tarnUnit (t : Nat) : Nat := 64 + t
def stackUnit (s : Nat) : Nat := 80 + s

/-- The optical port that a thing sent leaves by. -/
def Sent.fibre : Sent → Option Nat
  | .gmp p .. => some p
  | .eth p _ => some p
  | .packet p .. => some p
  | .frame p .. => some p
  | .rdma p .. => some p
  | .rdmaNak p .. => some p
  | .training p _ => some p
  | .quiet p .. => some p
  | .copy p _ => some p
  | _ => none

/-- Whether a port's transmitter is dark (R480, R484, R487); the out-of-band port, 98, is no optical port. -/
def Dev.darkPort (d : Dev) (p : Nat) : Bool := if p < 96 then d.power.dark else decide (p < 98) && d.power.darkHost

/-- Something put on a wire or pin; a dark transmitter sends nothing. -/
def Dev.send (d : Dev) (x : Sent) : Dev := if x.fibre.any d.darkPort then d else { d with sent := d.sent ++ [x] }

/-- A free value, and the device with the next one due. -/
def Dev.draw (d : Dev) : Nat × Dev := (Config.freeNat d.freeCtr, { d with freeCtr := d.freeCtr + 1 })

/-! ### Counters (R434) -/

/-- The index of a counter. -/
def ctrIdx (group inst num : Nat) : Nat := group * 2 ^ 24 + inst * 2 ^ 12 + num

/-- A counter's value. -/
def Dev.ctr (d : Dev) (idx : Nat) : Nat := tget 0 d.ctrs idx

/-- A counter counts, modulo 2^64. -/
def Dev.count (d : Dev) (idx n : Nat) : Dev :=
  if n = 0 then d else { d with ctrs := tset d.ctrs idx ((tget 0 d.ctrs idx + n) % 2 ^ 64) }

/-- A device counter of group 0x00. -/
def Dev.countDev (d : Dev) (num n : Nat) : Dev := d.count (ctrIdx 0 0 num) n
/-- A job counter, and its total over all jobs (R437). -/
def Dev.countJob (d : Dev) (j num n : Nat) : Dev := (d.count (ctrIdx 1 (j % 256) num) n).count (ctrIdx 0 0 num) n
/-- A port counter (R438). -/
def Dev.countPort (d : Dev) (p num n : Nat) : Dev := d.count (ctrIdx 2 p num) n
/-- A counter of a Depths stack (R439). -/
def Dev.countStack (d : Dev) (s num n : Nat) : Dev := d.count (ctrIdx 3 s num) n
/-- `n` bytes read or written from a Depths address on, outside the scheduled plane (R439); a stack holds 2³⁷ bytes. -/
def Dev.countDepths (d : Dev) (a n : Nat) (write : Bool) : Dev := d.countStack (a / 2 ^ 37) (if write then 1 else 0) n
/-- A counter of a compute die. -/
def Dev.countDie (d : Dev) (i num n : Nat) : Dev := d.count (ctrIdx 4 i num) n
/-- A counter of a pool. -/
def Dev.countPool (d : Dev) (i num n : Nat) : Dev := d.count (ctrIdx 5 i num) n

/-! ### Bytes at a port (R438, R465) -/

/-- Bytes counted at the Gauge's tap (R465): account 256 is no job's. A stopped Gauge counts nothing. -/
def Dev.tap (d : Dev) (account port : Nat) (tx : Bool) (n : Nat) : Dev :=
  if d.gauge.powered then
    d.modGauge (fun g =>
      let k := 2 * (98 * account + port) + (if tx then 1 else 0)
      { g with bytes := tset g.bytes k ((tget 0 g.bytes k + n) % 2 ^ 64) })
  else d

/-- Bytes sent or received at a port: its counter, and the Gauge's tap. -/
def Dev.portBytes (d : Dev) (account port : Nat) (tx : Bool) (n : Nat) : Dev :=
  (d.countPort port (if tx then 0 else 1) n).tap account port tx n

/-- A GMP datagram of `n` bytes crosses a host port, in one Ethernet frame with IPv6 and UDP headers (R405, R465). -/
def Dev.gmpBytes (d : Dev) (port : Nat) (tx : Bool) (n : Nat) : Dev :=
  if port = 96 ∨ port = 97 then d.portBytes 256 port tx (n + 66) else d

/-! ### The clock (R195, R204, R207) -/

/-- The integer GTC. -/
def Dev.gtc (d : Dev) : Nat := d.clock.gtc.toNat
/-- The device's time in core cycles. -/
def Dev.time (d : Dev) : Nat := d.clock.time

/-- The tick by which sequencers and windows go: the GTC, or while it is frozen the core cycles since (R207). -/
def Dev.tick (d : Dev) : Nat := d.gtc + (if d.clock.frozen then d.clock.time - d.clock.freezeTime else 0)

/-- Whether stamps are valid: LOCKED or HOLDOVER (R200). -/
def Dev.gtcValid (d : Dev) : Bool := d.clock.state == .locked || d.clock.state == .holdover

/-- `n` core cycles of the GTC: one tick each, and in LOCKED the servo's slew of at most 2^-16 tick a cycle (R13, R195). -/
def Clock.run (c : Clock) (n : Nat) : Clock :=
  if c.frozen then c
  else
    let k : Int := if c.state = .locked then clampInt (-(n : Int)) n c.slew else 0
    let t : Int := ((c.gtc.toNat + n) * 65536 + c.frac : Nat) + k
    { c with gtc := BitVec.ofInt 64 (t / 65536), frac := (t % 65536).toNat, slew := c.slew - k }

/-- Core cycle edges a die makes in the `n` cycles from time `t` on: none while stopped, every other one while stretched (R479, R487). -/
def Die.edges (x : Die) (t n : Nat) : Nat :=
  if x.stopped.isSome then 0 else if x.stretching.isSome then (t - x.since + n) / 2 - (t - x.since) / 2 else n

/-- Core cycle edges that a die has missed from time `t` until `now`. -/
def Die.missed (x : Die) (t now : Nat) : Nat := (now - t) - x.edges t (now - t)

/-- The lag of a die that is settled (R216). -/
def Job.lagOf (x : Job) (die : Nat) : Nat := if die = 0 then x.lag0 else x.lag1

/-- A job's lag on a die now: what is settled, and the edges missed since the step's launch (R216). -/
def Dev.lagOn (d : Dev) (x : Job) (die : Nat) : Nat :=
  x.lagOf die + (d.die die).missed (max (d.die die).since x.beginTime) d.time

/-- `n` core cycles pass: the GTC, the crossbar's cycle counts (R317) and DIE_CYCLES (R439). -/
def Dev.pass (d : Dev) (n : Nat) : Dev :=
  let a := (d.die 0).edges d.clock.time n
  let b := (d.die 1).edges d.clock.time n
  ((d.modClock (fun c => { c.run n with time := c.time + n, cycles := c.cycles + a, cycles1 := c.cycles1 + b })).countDie 0 0 a).countDie 1 0 b

/-- The device at the time of an event: the cycles up to it have passed. An event never turns time back. -/
def Dev.to (d : Dev) (now : Nat) : Dev := if now ≤ d.clock.time then d else d.pass (now - d.clock.time)

/-- What one step does on an empty queue: one core cycle passes (DESIGN CHOICE, log entry 2). -/
def State.idle (s : State) : State := { s with dev := s.dev.pass 1 }

/-- Ticks per microsecond, millisecond and second (400 ps ticks). -/
def usTicks : Nat := 2500
def msTicks : Nat := 2500000
def secTicks : Nat := 2500000000

end Sys2Proof.Machine
end

