-- ==== Sys2Proof/Machine/Operands.lean ====
section
/-! DEFINITION. The operand forms: every header and record layout as functions of its bytes (R78, R100, R116, R119, R151, R209 to R211, R230, R251, R263, R277, R280, R305, R362, R398 to R400, R406, R418 to R423, R440, R453). -/

namespace Sys2Proof.Machine

/-- The consecutive entries of `n` bytes of a record body. -/
def entries (n : Nat) (b : Bytes) : List Bytes := chunksOf n b
/-- Entry `i` of `n` bytes after a header of `h` bytes. -/
def ent (b : Bytes) (h n i : Nat) : Bytes := slice b (h + n * i) n
/-- One byte of a body. -/
def u8 (b : Bytes) (o : Nat) : Nat := fld b o 1
/-- The first index whose entry meets a condition. -/
def findIdx (p : Bytes → Bool) (l : List Bytes) : Option Nat := l.findIdx? p
/-- A list's element, or the default. -/
def nth (l : List Bytes) (i : Nat) : Bytes := l.getD i []

/-! ### Node words (R77, R78) -/

def nodeLevel (w : Nat) : Nat := bits w 4 0
def nodeIndex (w : Nat) : Nat := bits w 21 5
def nodeWord (l j : Nat) : Nat := l + 32 * j
/-- K of R77. -/
def treeK (n : Nat) : Nat := ceilLog2 n
/-- Whether a node is present for `n` ranks (R77). -/
def nodePresent (n w : Nat) : Bool := decide (nodeIndex w * 2 ^ nodeLevel w < n)
def leftChild (w : Nat) : Nat := nodeWord (nodeLevel w - 1) (2 * nodeIndex w)
def rightChild (w : Nat) : Nat := nodeWord (nodeLevel w - 1) (2 * nodeIndex w + 1)
/-- Whether a word names a node of a tree of depth `k` (R78, R115). -/
def nodeValid (k w : Nat) : Bool :=
  decide (w < 2 ^ 22) && decide (nodeLevel w ≤ k) && decide (nodeLevel w ≤ 16) && decide (nodeIndex w < 2 ^ (k - nodeLevel w))

/-! ### Contribution header (R100) -/

def chKind (h : Bytes) : Nat := u8 h 0
def chJob (h : Bytes) : Nat := u8 h 1
def chChannel (h : Bytes) : Nat := bits (u8 h 2) 5 0
def chReplay (h : Bytes) : Bool := bit (u8 h 3) 0
def chGen (h : Bytes) : Nat := fld h 4 2
def chMicro (h : Bytes) : Nat := fld h 6 2
def chSeq (h : Bytes) : Nat := fld h 8 4
def chNode (h : Bytes) : Nat := fld h 12 4
def chStep (h : Bytes) : Nat := fld h 16 6
def chOp (h : Bytes) : Nat := u8 h 22
def chElem (h : Bytes) : Nat := u8 h 23
def chWire (h : Bytes) : Nat := u8 h 24
def chBucket (h : Bytes) : Nat := fld h 26 2
def chTree (h : Bytes) : Nat := fld h 28 4
def chHash (h : Bytes) : Nat := fld h 32 4
def chCount (h : Bytes) : Nat := fld h 36 4
def chFrag (h : Bytes) : Nat := fld h 40 4
def chFragCount (h : Bytes) : Nat := fld h 44 2

/-- A contribution header's 48 bytes (R100). -/
def mkContribution (kind job channel flags gen micro seq node step op elem wire bucket tree hash count frag fcount : Nat) : Bytes :=
  leBytes 1 kind ++ leBytes 1 job ++ leBytes 1 channel ++ leBytes 1 flags ++ leBytes 2 gen ++ leBytes 2 micro ++
    leBytes 4 seq ++ leBytes 4 node ++ leBytes 6 step ++ leBytes 1 op ++ leBytes 1 elem ++ leBytes 1 wire ++ leBytes 1 0 ++
    leBytes 2 bucket ++ leBytes 4 tree ++ leBytes 4 hash ++ leBytes 4 count ++ leBytes 4 frag ++ leBytes 2 fcount ++ leBytes 2 0

/-! ### Outflow header (R151) -/

def ohKind (h : Bytes) : Nat := u8 h 0
def ohJob (h : Bytes) : Nat := u8 h 1
def ohChannel (h : Bytes) : Nat := bits (u8 h 2) 5 0
def ohGen (h : Bytes) : Nat := fld h 4 2
def ohSeq (h : Bytes) : Nat := fld h 8 4
def ohTensor (h : Bytes) : Nat := bits (fld h 12 4) 19 0
def ohStep (h : Bytes) : Nat := fld h 16 6
def ohFormat (h : Bytes) : Nat := u8 h 22
def ohOff (h : Bytes) : Nat := fld h 24 8
def ohCount (h : Bytes) : Nat := fld h 32 2

def mkOutflow (kind job channel flags gen : Nat) (scale : Int) (seq tensor step format : Nat) (gscale : Int) (off count : Nat)
    (prov : Bytes) : Bytes :=
  leBytes 1 kind ++ leBytes 1 job ++ leBytes 1 channel ++ leBytes 1 flags ++ leBytes 2 gen ++ leBytes 2 (intBits 16 scale) ++
    leBytes 4 seq ++ leBytes 4 tensor ++ leBytes 6 step ++ leBytes 1 format ++ leBytes 1 (intBits 8 gscale) ++ leBytes 8 off ++
    leBytes 2 count ++ List.replicate 14 0#8 ++ prov

/-! ### Route header (R263) -/

def rhClass (h : Bytes) : Nat := u8 h 0
def rhJob (h : Bytes) : Nat := u8 h 1
def rhDst (h : Bytes) : Nat := fld h 2 2
def rhSrc (h : Bytes) : Nat := fld h 4 2
def rhLength (h : Bytes) : Nat := fld h 6 2
def rhTclass (h : Bytes) : Nat := u8 h 8
def rhFlags (h : Bytes) : Nat := u8 h 9
def rhHops (h : Bytes) : Nat := u8 h 10
def rhLabel (h : Bytes) : Nat := fld h 12 4

def mkRoute (cls job dst src length tclass flags hops label : Nat) : Bytes :=
  leBytes 1 cls ++ leBytes 1 job ++ leBytes 2 dst ++ leBytes 2 src ++ leBytes 2 length ++ leBytes 1 tclass ++ leBytes 1 flags ++
    leBytes 1 hops ++ leBytes 1 0 ++ leBytes 4 label

/-- The flits of a packet of `b` content bytes (R260). -/
def flitsOf (b : Nat) : Nat := ceilDiv (16 + b) 64

/-! ### Image records (R395) -/

/-- The body of an image record, empty where the image holds none. -/
def Dev.img (d : Dev) (t : Nat) : Bytes := tget [] d.image t
def Dev.hasImg (d : Dev) (t : Nat) : Bool := thas d.image t

/-- A port's mode in LINK_CONFIG: 0 disabled, 1 fabric, 2 and 3 Ethernet (R251). Host ports are Ethernet ports (R300). -/
def Dev.mode (d : Dev) (p : Nat) : Nat := if p < 96 then u8 (d.img 0x11) (16 + 16 * p) else if p < 98 then 3 else 0
def Dev.fabric (d : Dev) (p : Nat) : Bool := decide (d.mode p = 1)
def Dev.ethernet (d : Dev) (p : Nat) : Bool := decide (2 ≤ d.mode p)
/-- A port's LINK_CONFIG entry. -/
def Dev.linkEntry (d : Dev) (p : Nat) : Bytes := ent (d.img 0x11) 16 16 p
/-- headroom_warn: the port's, or the default of 6 K at a host port, which has no entry (R250, R251; PRESUMED, log entry 54). -/
def Dev.headroomWarn (d : Dev) (p : Nat) : Nat := if p < 96 then u8 (d.linkEntry p) 2 else 6
/-- TIME_CONFIG fields (R192). -/
def Dev.springPriority (d : Dev) : Nat := u8 (d.img 0x10) 0
def Dev.rackRoot (d : Dev) : Bool := bit (u8 (d.img 0x10) 1) 0
def Dev.rackId (d : Dev) : Nat := fld (d.img 0x10) 2 2
def Dev.candidates (d : Dev) : List Nat := ((slice (d.img 0x10) 4 8).map BitVec.toNat).filter (· ≠ 0xFF)
def Dev.driftWarn (d : Dev) : Nat := fld (d.img 0x10) 12 2
def Dev.slackWarn (d : Dev) : Nat := u8 (d.img 0x10) 14
def Dev.asym (d : Dev) (p : Nat) : Int := sfld (d.img 0x10) (16 + 2 * p) 2
/-- MGMT_CONFIG (R398); gmp_udp is 61,840 where no image is in force (R402). -/
def Dev.gmpUdp (d : Dev) : Nat := if d.hasImg 0x01 then fld (d.img 0x01) 0 2 else 61840
def Dev.gmpPorts (d : Dev) : Nat := if d.hasImg 0x01 then u8 (d.img 0x01) 2 else 4
/-- ROUTE_CONFIG (R283). -/
def Dev.role (d : Dev) : Nat := u8 (d.img 0x12) 0
def Dev.wrapX (d : Dev) : Bool := bit (u8 (d.img 0x12) 1) 0
def Dev.wrapY (d : Dev) : Bool := bit (u8 (d.img 0x12) 1) 1
def Dev.sampleLog2 (d : Dev) : Nat := u8 (d.img 0x12) 6
def Dev.groupDir (d : Dev) (p : Nat) : Nat := u8 (d.img 0x12) (8 + p / 8)
def Dev.escapeWait (d : Dev) : Nat := fld (d.img 0x12) 20 2
def Dev.encapUdp (d : Dev) : Nat := fld (d.img 0x12) 22 2
def Dev.mirrorUdp (d : Dev) : Nat := fld (d.img 0x12) 24 2
/-- A port's ETH_PORT entry (R296). -/
def Dev.ethEntry (d : Dev) (p : Nat) : Option Bytes := (entries 48 (d.img 0x13)).find? (fun e => u8 e 0 == p)
/-- A port's QUEUE_CONFIG entry (R305). -/
def Dev.queueEntry (d : Dev) (p : Nat) : Option Bytes := (entries 96 ((d.img 0x16).drop 16)).find? (fun e => u8 e 0 == p)
/-- The name of a port's QUEUE_CONFIG entry, by its place in the record (R397, R500); none where the port takes the defaults. -/
def Dev.queueName (d : Dev) (p : Nat) : Nat :=
  match (entries 96 ((d.img 0x16).drop 16)).findIdx? (fun e => u8 e 0 == p) with
  | some i => 1 + 0x16 * 2 ^ 16 + i * 2 ^ 32
  | none => 0
def Dev.ethWeight (d : Dev) : Nat := if d.hasImg 0x16 then u8 (d.img 0x16) 2 else 16

/-- The weight of VC `v` on a port, 2 to 5 (R305, R306). -/
def Dev.vcWeight (d : Dev) (p v : Nat) : Nat :=
  match d.queueEntry p with
  | some e => u8 e (4 + (v - 2))
  | none => 64
/-- The ingress allotment of VC `v`, 2 to 7 (R305, R306). -/
def Dev.ingressLimit (d : Dev) (p v : Nat) : Nat :=
  if d.mode p = 0 then 0 else
  match d.queueEntry p with
  | some e => fld e (8 + 4 * (v - 2)) 4
  | none => if v = 6 then (if d.mode p = 1 then 64 else 0) else 520
/-- The output queue limit of VC `v`, 0 to 7 (R305, R306). -/
def Dev.outLimit (d : Dev) (p v : Nat) : Nat :=
  if d.mode p = 0 then 0 else
  match d.queueEntry p with
  | some e => fld e (32 + 4 * v) 4
  | none =>
    if v ≤ 1 then (if d.mode p = 1 then 1024 else 0)
    else if v = 6 then (if d.mode p = 1 then 64 else 0)
    else if v = 7 then 520 else 512
/-- The replay allotment (R305, R306). -/
def Dev.replayLimit (d : Dev) (p : Nat) : Nat :=
  match d.queueEntry p with
  | some e => fld e 64 4
  | none => if d.mode p = 1 then 2048 else 0
def Dev.analysisLimit (d : Dev) (p a : Nat) : Nat :=
  match d.queueEntry p with
  | some e => fld e (68 + 4 * a) 4
  | none => 0
/-- The port bucket's rate and burst, where the shaper is on (R305, R318). -/
def Dev.portBucket (d : Dev) (p : Nat) : Option (Nat × Nat) :=
  match d.queueEntry p with
  | some e => if bit (u8 e 1) 0 then some (fld e 84 4, fld e 88 4) else none
  | none => none

/-- POOL_CONFIG with its defaults (R310): blocks of pool `i`, floor, port quota in KiB. -/
def Dev.poolBlocks (d : Dev) (i : Nat) : Nat :=
  if d.hasImg 0x17 then fld (d.img 0x17) (4 * i) 4 else [32768, 24576, 8192, 8192].getD i 0
def Dev.poolFloor (d : Dev) (i : Nat) : Nat :=
  if d.hasImg 0x17 then fld (d.img 0x17) (16 + 4 * i) 4 else [1024, 512, 256, 512].getD i 0
def Dev.portQuota (d : Dev) : Nat := if d.hasImg 0x17 then fld (d.img 0x17) 32 4 else 256
/-- The bytes of a block of pool `i`. -/
def blockSize (i : Nat) : Nat := [256, 1024, 4096, 16384].getD i 0

/-- The default body of NUMERICS_DEFAULTS (R180). -/
def numericsDefault : Bytes :=
  leBytes 4 999000 ++ leBytes 2 256 ++ [0x00#8, 0x00#8] ++ leBytes 4 1 ++ leBytes 2 1 ++ leBytes 2 8 ++ leBytes 4 1000 ++
    leBytes 2 16 ++ leBytes 2 0 ++ leBytes 2 (intBits 16 (-40)) ++ [0x02#8] ++ List.replicate 5 0#8
def Dev.numericsDefaults (d : Dev) : Bytes := if d.hasImg 0x18 then d.img 0x18 else numericsDefault

/-- FAULT_CONFIG (R362). -/
def Dev.alertLevel (d : Dev) : Nat := if d.hasImg 0x1A then u8 (d.img 0x1A) 2 else 2
def Dev.holdOnFatal (d : Dev) : Bool := d.hasImg 0x1A && bit (u8 (d.img 0x1A) 3) 0
def Dev.faultEntry (d : Dev) (src : Nat) : Option Bytes :=
  (entries 4 ((d.img 0x1A).drop 8)).find? (fun e => fld e 0 2 == src)

/-- The default body of TRACE_CONFIG (R453). -/
def traceDefault : Bytes :=
  [0x01#8, 25#8, 4#8] ++ List.replicate 5 0#8 ++ List.replicate 16 0xFF#8 ++ List.replicate 104 0#8
def Dev.trace (d : Dev) : Bytes := if d.hasImg 0x20 then d.img 0x20 else traceDefault
def Dev.traceClasses (d : Dev) : Nat := u8 d.trace 0
def Dev.prePct (d : Dev) : Nat := u8 d.trace 1
def Dev.trigSeverity (d : Dev) : Nat := u8 d.trace 2
def Dev.timeTrigger (d : Dev) (i : Nat) : Nat := fld d.trace (8 + 8 * i) 8
def Dev.typeTrigger (d : Dev) : Nat := fld d.trace 24 4
/-- Slots of the Silt ring: the SRAM's, or the extension's (R448). -/
def Dev.siltExtUnits (d : Dev) : Nat := ((List.range 8).map (fun k => fld d.trace (36 + 8 * k) 4)).sum
def Dev.siltSlots (d : Dev) : Nat := if d.siltExtUnits = 0 then 524288 else d.siltExtUnits * 128

/-- EVT_PINS entries (R400). -/
def Dev.evtEntries (d : Dev) : List Bytes := entries 16 (d.img 0x03)
/-- MIRROR_CONFIG sessions (R293). -/
def Dev.mirrorEntries (d : Dev) : List Bytes := entries 32 (d.img 0x15)
/-- INTEGRITY_CONFIG: size in 4 KiB units of region `g` on stack `k` (R328). -/
def Dev.regionUnits (d : Dev) (g k : Nat) : Nat := fld (d.img 0x19) (64 * g + 8 * k + 4) 4
def Dev.regionBytes (d : Dev) (g : Nat) : Nat := 4096 * ((List.range 8).map (d.regionUnits g)).sum

/-! ### Package records (R419 to R423) -/

/-- A job's package record of a type; empty where it holds none. -/
def Job.rc (j : Job) (t : Nat) : Bytes := ((j.recs.find? (fun r => r.1 == t)).map (·.2)).getD []
/-- All bodies of a type, in the package's order. -/
def Job.rcs (j : Job) (t : Nat) : List Bytes := (j.recs.filter (fun r => r.1 == t)).map (·.2)

/-- JOB_HEADER fields (R420). -/
def Job.header (j : Job) : Bytes := j.rc 0x101
def Job.ovf (j : Job) : Ovf := if bits (u8 j.header 1) 1 0 = 1 then .saturate else .infinity
def Job.lysros (j : Job) : Bool := bit (u8 j.header 1) 2
def Job.group (j : Job) : Nat := bits (u8 j.header 1) 5 3
def Job.level (j : Job) : Nat := bits (u8 j.header 2) 4 0
def Job.nfmt (j : Job) : Nat := bits (u8 j.header 2) 6 5
def Job.vc (j : Job) : Nat := bits (u8 j.header 3) 2 0
def Job.ranks (j : Job) : Nat := bits (fld j.header 4 4) 16 0
def Job.accum (j : Job) : Nat := fld j.header 8 2
def Job.hangMs (j : Job) : Nat := fld j.header 10 2
def Job.vcWeight (j : Job) : Nat := u8 j.header 12
def Job.device (j : Job) : Nat := fld j.header 14 2
def Job.seed (j : Job) : W64 := BitVec.ofNat 64 (fld j.header 16 8)
def Job.startStep (j : Job) : Nat := fld j.header 24 6
def Job.clipNorm (j : Job) : W32 := BitVec.ofNat 32 (fld j.header 32 4)
/-- The hang time-out in ticks (R115). -/
def Job.hangTicks (j : Job) : Nat := j.hangMs * msTicks

/-- JOB_FLAGS (R327). -/
def Job.flags (j : Job) : Nat := u8 (j.rc 0x102) 0
def Job.replayable (j : Job) : Bool := bit j.flags 0
def Job.dlb (j : Job) : Bool := bit j.flags 1
def Job.replayCompare (j : Job) : Bool := bit j.flags 2
def Job.detail (j : Job) : Bool := bit j.flags 3
def Job.audited (j : Job) (c : Nat) : Bool := bit (fld (j.rc 0x102) 4 8) c
def Job.logMib (j : Job) : Nat := fld (j.rc 0x102) 12 4
def Job.replayMib (j : Job) : Nat := fld (j.rc 0x102) 16 4
/-- RECOVERY (R385). -/
def Job.recoveryMs (j : Job) : Nat := fld (j.rc 0x103) 4 4

/-- RANK_TABLE entries (R277). -/
def Job.rankEntries (j : Job) : List Bytes := entries 16 (j.rc 0x104)
def rtLog2 (e : Bytes) : Nat := u8 e 1
def rtBase (e : Bytes) : Nat := fld e 2 2
def rtPaths (e : Bytes) : Nat := u8 e 4
def rtTerminal (e : Bytes) : Bool := bit (u8 e 5) 0
def rtPort (e : Bytes) (i : Nat) : Nat := u8 e (8 + i)

/-- CHANNELS entries: channel and starting sequence (R419). -/
def Job.channelEntries (j : Job) : List Bytes := entries 8 (j.rc 0x105)
def chnNumber (e : Bytes) : Nat := bits (u8 e 0) 5 0
def chnStart (e : Bytes) : Nat := fld e 4 4

/-- BUCKETS entries (R421). -/
def Job.bucketEntries (j : Job) : List Bytes := entries 32 (j.rc 0x106)
def bkBucket (e : Bytes) : Nat := fld e 0 2
def bkChannel (e : Bytes) : Nat := bits (u8 e 2) 5 0
def bkStochastic (e : Bytes) : Bool := bit (u8 e 3) 0
def bkElem (e : Bytes) : Nat := bits (u8 e 3) 2 1
def bkCtx (e : Bytes) : Nat := fld e 4 2
def bkOrder (e : Bytes) : Nat := fld e 6 2
def bkTensor (e : Bytes) : Nat := bits (fld e 8 4) 19 0
def bkFrag (e : Bytes) : Nat := fld e 12 4
def bkFirst (e : Bytes) : Nat := fld e 16 8
def bkCount (e : Bytes) : Nat := fld e 24 4
def bkQuota (e : Bytes) : Nat := fld e 28 4
def Job.bucket (j : Job) (b : Nat) : Option Bytes := j.bucketEntries.find? (fun e => bkBucket e == b)
/-- The bucket index of the Verdict. -/
def verdictBucket : Nat := 0xFFFF

/-- NODE_TABLE entries (R422). -/
def Job.nodeEntries (j : Job) : List Bytes := entries 12 (j.rc 0x107)
def ndBucket (e : Bytes) : Nat := fld e 0 2
def ndKind (e : Bytes) : Nat := u8 e 2
def ndIn (e : Bytes) : Nat := u8 e 3
def ndOut (e : Bytes) : Nat := u8 e 4
def ndNode (e : Bytes) : Nat := fld e 8 4
/-- The node table entries of one bucket. -/
def Job.nodesOf (j : Job) (b : Nat) : List Bytes := j.nodeEntries.filter (fun e => ndBucket e == b)
def Job.hosted (j : Job) (b : Nat) : List Nat := ((j.nodesOf b).filter (fun e => ndKind e == 1)).map ndNode

/-- TENSOR_TABLE entries (R116). -/
def Job.tensorEntries (j : Job) : List Bytes := entries 24 (j.rc 0x108)
def tnIndex (e : Bytes) : Nat := bits (fld e 0 4) 19 0
def tnCount (e : Bytes) : Nat := fld e 4 8
def tnChunk (e : Bytes) : Nat := fld e 12 4
def tnProgram (e : Bytes) : Nat := u8 e 16
def tnPolicy (e : Bytes) : Nat := u8 e 17
def tnBf16 (e : Bytes) : Bool := bit (u8 e 18) 0
def tnClip (e : Bytes) : Bool := bit (u8 e 18) 1
def tnFormat (e : Bytes) : Nat := u8 e 19
def tnGrad (e : Bytes) : Nat := u8 e 20
def tnOut (e : Bytes) : Nat := u8 e 21
def tnChannel (e : Bytes) : Nat := bits (u8 e 22) 5 0
def Job.tensorPos (j : Job) (t : Nat) : Option Nat := j.tensorEntries.findIdx? (fun e => tnIndex e == t)
def Job.tensor (j : Job) (t : Nat) : Bytes := (j.tensorEntries.find? (fun e => tnIndex e == t)).getD []
/-- The chunks of a tensor (R118). -/
def tnChunks (e : Bytes) : Nat := ceilDiv (tnCount e) (tnChunk e)

/-- OWNER_MAP entries (R119): entry c is job-wide chunk c. -/
def Job.ownerEntries (j : Job) : List Bytes := entries 16 (j.rc 0x109)
def owTensor (e : Bytes) : Nat := bits (fld e 0 4) 19 0
def owChunk (e : Bytes) : Nat := fld e 4 4
def owOwner (e : Bytes) : Nat := fld e 8 2
def owStack (e : Bytes) : Nat := bits (u8 e 10) 2 0
def owFrame (e : Bytes) : Nat := fld e 12 4
def Job.chunk (j : Job) (c : Nat) : Bytes := nth j.ownerEntries c
/-- Job-wide chunks this device owns. -/
def Job.owned (j : Job) : List Nat :=
  (List.range j.ownerEntries.length).filter (fun c => owOwner (j.chunk c) == j.device)
/-- The distinct owner devices in ascending order (R120). -/
def Job.owners (j : Job) : List Nat := sortBy (fun a b => decide (a ≤ b)) ((j.ownerEntries.map owOwner).eraseDups)
/-- This device's owner index (R120). -/
def Job.ownerIndex (j : Job) : Option Nat := j.owners.idxOf? j.device
/-- First element of chunk c in its tensor, and its elements (R118). -/
def Job.chunkFirst (j : Job) (c : Nat) : Nat := owChunk (j.chunk c) * tnChunk (j.tensor (owTensor (j.chunk c)))
def Job.chunkElems (j : Job) (c : Nat) : Nat :=
  let t := j.tensor (owTensor (j.chunk c))
  min (tnChunk t) (tnCount t - j.chunkFirst c)
/-- The chunks of a tensor as job-wide numbers, in chunk-index order. -/
def Job.chunksOfTensor (j : Job) (t : Nat) : List Nat :=
  (List.range j.ownerEntries.length).filter (fun c => owTensor (j.chunk c) == t)

/-- ALLOTMENT field `i` of stack `k`: base, size, inflow, remainder, spill base, spill size, recipe base (R423). -/
def Job.allot (j : Job) (k i : Nat) : Nat := fld (j.rc 0x10A) (56 * k + 8 * i) 8

/-- UPDATE_PROGRAM of an index: the body of R132. -/
def Job.program (j : Job) (i : Nat) : Bytes := ((j.rcs 0x10B).find? (fun b => u8 b 0 == i)).getD [] |>.drop 8
def pgCount (b : Bytes) : Nat := u8 b 0
def pgMask (b : Bytes) : Nat := u8 b 1
def pgConsts (b : Bytes) : Nat := u8 b 2
def pgLr (b : Bytes) : Nat := fld b 4 4
def pgInstr (b : Bytes) (i : Nat) : Nat := fld b (8 + 8 * i) 8
def pgConst (b : Bytes) (i : Nat) : W32 := if i < pgConsts b then BitVec.ofNat 32 (fld b (8 + 8 * pgCount b + 4 * i) 4) else 0#32
/-- LR_TABLE of an index: the breakpoints (R142, R419). -/
def Job.lrTable (j : Job) (i : Nat) : List (Nat × W32) :=
  match (j.rcs 0x10C).find? (fun b => u8 b 0 == i) with
  | none => []
  | some b => (entries 16 (b.drop 8)).map (fun e => (fld e 0 6, BitVec.ofNat 32 (fld e 8 4)))

/-- SCALE_RECIPES records (R155). -/
def Job.recipeEntries (j : Job) : List Bytes := entries 64 (j.rc 0x10D)
def rpKind (e : Bytes) : Nat := u8 e 0
def rpInit (e : Bytes) : Int := sfld e 1 1
def rpMin (e : Bytes) : Int := sfld e 2 1
def rpMax (e : Bytes) : Int := sfld e 3 1
def rpWindow (e : Bytes) : Nat := fld e 4 2
def rpMargin (e : Bytes) : Nat := u8 e 6

/-- NUMERICS_WATCH entries (R181). -/
def Job.watchEntries (j : Job) : List Bytes := entries 40 ((j.rc 0x10E).drop 4)

/-- SCHEDULE (R209 to R211). -/
def Job.sched (j : Job) : Bytes := j.rc 0x10F
def scPeriod (s : Bytes) : Nat := fld s 0 4
def scMb (s : Bytes) : Nat := fld s 4 4
def scTail (s : Bytes) : Nat := fld s 8 4
def scClaims (s : Bytes) : Nat := fld s 12 2
def scSpan (s : Bytes) : Nat := bits (fld s 16 8) 47 0
def scClaim (s : Bytes) (i : Nat) : Bytes := ent s 32 8 i
def clResource (e : Bytes) : Nat := fld e 0 2
def clMask (e : Bytes) : Nat := fld e 4 4
/-- Slot entry `i`, counted over both sections. -/
def scSlot (s : Bytes) (i : Nat) : Bytes := ent s (32 + 8 * scClaims s) 24 i
def slStart (e : Bytes) : Nat := fld e 0 6
def slResource (e : Bytes) : Nat := fld e 6 2
def slLength (e : Bytes) : Nat := fld e 8 4
def slSlack (e : Bytes) : Nat := fld e 12 4
def slKind (e : Bytes) : Nat := u8 e 16
def slChannel (e : Bytes) : Nat := bits (u8 e 17) 5 0
def slBucket (e : Bytes) : Nat := fld e 18 2
def slChunk (e : Bytes) : Nat := fld e 20 4
def scClaimList (s : Bytes) : List Bytes := (List.range (scClaims s)).map (scClaim s)
def scMbSlots (s : Bytes) : List Bytes := (List.range (scMb s)).map (scSlot s)
def scTailSlots (s : Bytes) : List Bytes := (List.range (scTail s)).map (fun i => scSlot s (scMb s + i))
/-- A resource's class and unit (R212). -/
def resClass (r : Nat) : Nat := r / 4096
def resUnit (r : Nat) : Nat := r % 4096
/-- The compute die that owns a resource: Basins 0 to 24 and Tarns 0 to 3 are on die 0, and the lower half of every other
kind (R475; log entry 20). -/
def resDie (r : Nat) : Nat :=
  let u := resUnit r
  match resClass r with
  | 2 => if u ≤ 24 then 0 else 1
  | 3 => if u ≤ 3 then 0 else 1
  | 4 => if u ≤ 3 then 0 else 1
  | _ => if u < 48 then 0 else 1

/-- OUTFLOW_FANOUT entries (R280). -/
def Job.fanEntries (j : Job) : List Bytes := entries 16 (j.rc 0x110)
def fnChannel (e : Bytes) : Nat := bits (u8 e 1) 5 0
def fnKind (e : Bytes) : Nat := bits (u8 e 1) 6 6
def fnMask (e : Bytes) : Nat := fld e 4 12
/-- SHAPER entry of a kind: rate and burst (R318). -/
def Job.shaper (j : Job) (k : Nat) : Option (Nat × Nat) :=
  ((entries 16 (j.rc 0x111)).find? (fun e => u8 e 0 == k)).map (fun e => (fld e 4 4, fld e 8 4))

/-- Whether this device is on the Verdict result list: an owner, or a host of a narrowing node (R420). -/
def Job.isNarrow (j : Job) (w : Nat) : Bool :=
  decide (1 ≤ j.level) && decide (j.level ≤ nodeLevel w) && decide (nodeLevel w < treeK j.ranks)
def Job.hostsNarrow (j : Job) : Bool :=
  j.nodeEntries.any (fun e => ndBucket e != verdictBucket && ndKind e == 1 && j.isNarrow (ndNode e))
def Job.onList (j : Job) : Bool := j.ownerIndex.isSome || j.hostsNarrow
/-- The entries that lay the job's paths: the node table and the fan-out (R381). -/
def Job.paths (j : Job) : List Bytes := j.nodeEntries ++ j.fanEntries
/-- Whether a re-plan has moved the job to a spare path (R31, R114, R381). -/
def Job.sparePath (j : Job) : Bool := !(j.paths.all j.homePaths.contains && j.homePaths.all j.paths.contains)
/-- Whether this device is the Verdict root site: owner index 0 (R147). -/
def Job.isRoot (j : Job) : Bool := j.ownerIndex == some 0
/-- Ranks of a bucket's tree: N, or D for the Verdict (R120, R144). -/
def Job.treeRanks (j : Job) (b : Nat) : Nat := if b = verdictBucket then j.owners.length else j.ranks
/-- tree_id of a bucket (R103, R421). -/
def Job.treeId (j : Job) (e : Bytes) : Nat :=
  if bkBucket e = verdictBucket then j.owners.length - 1
  else (j.ranks - 1) + j.level * 2 ^ 17 + j.nfmt * 2 ^ 22 + b2n (bkStochastic e) * 2 ^ 24
/-- op of a bucket (R421). -/
def bkOp (e : Bytes) : Nat := if bkBucket e = verdictBucket then 2 else 1
/-- Payload bytes of `f` elements in a wire format: FP32, BF16, FP16, B32 (R105). -/
def payloadBytes (wire f : Nat) : Nat :=
  match wire with
  | 0 => 4 * f
  | 1 => 2 * f
  | 2 => 2 * f
  | _ => 33 * ceilDiv f 32
/-- The wire format a level takes (R105). -/
def Job.levelWire (j : Job) (l : Nat) : Nat := if j.level = 0 ∨ l < j.level then 0 else j.nfmt
/-- The number of words of the Verdict vector (R144). -/
def Job.vecWordCount (j : Job) : Nat := j.tensorEntries.length + 3 * j.ownerEntries.length
/-- The buckets of a channel in ascending order of their position (R95). -/
def Job.channelBuckets (j : Job) (c : Nat) : List Bytes :=
  sortBy (fun a b => decide (bkOrder a ≤ bkOrder b)) (j.bucketEntries.filter (fun e => bkChannel e == c))

/-! ### Names of status items (R397) -/

/-- An 8-byte name as a number: kind, record type and index. -/
def nameOf (kind record index : Nat) : Nat := kind + record * 2 ^ 16 + index * 2 ^ 32
/-- The index that names a record's header (R500). -/
def headerIndex : Nat := 0xFFFFFFFF

/-! ### Statuses (R432, R113, R456, R471) -/

def stOk : Nat := 0
def stImg (k : Nat) : Nat := 0x0100 + k
def stPkg (k : Nat) : Nat := 0x0200 + k
def stPkgMalformed : Nat := 0x0201
def stPkgImage : Nat := 0x0202
def stPkgDigest : Nat := 0x0203
def stPkgBusy : Nat := 0x0204
def stJobBusy : Nat := 0x0205
def stJobLimit : Nat := 0x0206
def stRankLimit : Nat := 0x0207
def stChannelLimit : Nat := 0x0208
def stContextLimit : Nat := 0x0209
def stRttFull : Nat := 0x020A
def stRttConflict : Nat := 0x020B
def stNodeTableFull : Nat := 0x020C
def stOwnerMap : Nat := 0x020D
def stTensorTable : Nat := 0x020E
def stProgIllegal : Nat := 0x020F
def stArithConflict : Nat := 0x0210
def stDepthsAllot : Nat := 0x0211
def stSchedConflict : Nat := 0x0212
def stSchedRefresh : Nat := 0x0213
def stSchedRate : Nat := 0x0214
def stSchedFull : Nat := 0x0215
def stSchedQueue : Nat := 0x0216
def stSchedEthPort : Nat := 0x0217
def stRngOvercommit : Nat := 0x0218
def stQueueZero : Nat := 0x0219
def stPoolReserve : Nat := 0x021A
def stIntegritySpace : Nat := 0x021B
def stAuditLimit : Nat := 0x021C
def stAuditRate : Nat := 0x021D
def stRecoveryBudget : Nat := 0x021E
def stReplanState : Nat := 0x021F
def stReplanSite : Nat := 0x0220
def stJobUnloadedBusy : Nat := 0x0221
def stDescMismatch : Nat := 0x0301
def stCtxMalformed : Nat := 0x0302
def stFormatMismatch : Nat := 0x0303
def stTreeUnexpected : Nat := 0x0304
def stSeqWindow : Nat := 0x0305
def stSpillFull : Nat := 0x0306
def stHangTimeout : Nat := 0x0307
def stMemberReset : Nat := 0x0308
def stLinkLost : Nat := 0x0309
def stBasinFault : Nat := 0x030A
def stDepthsFault : Nat := 0x030B
def stCtxReset : Nat := 0x030C
def stJobUnloaded : Nat := 0x030D
def stJobIncomplete : Nat := 0x0401
def stLaunchStep : Nat := 0x0402
def stLaunchPending : Nat := 0x0403
def stTimeInvalid : Nat := 0x0404
def stLaunchAlign : Nat := 0x0405
def stLaunchLate : Nat := 0x0406
def stLaunchFar : Nat := 0x0407
def stLaunchEarly : Nat := 0x0408
def stLaunchArmed : Nat := 0x0409
def stStepWrap : Nat := 0x040A
def stCommitStep : Nat := 0x040B
def stCommitEarly : Nat := 0x040C
def stAbandonLate : Nat := 0x040D
def stReplayNoref : Nat := 0x040E
def stReplayDiverged : Nat := 0x040F
def stReplaySpace : Nat := 0x0410
def stNoJob : Nat := 0x0411
def stCkptState : Nat := 0x0501
def stCkptQp : Nat := 0x0502
def stCkptSpace : Nat := 0x0503
def stCkptAborted : Nat := 0x0504
def stCkptActive : Nat := 0x0505
def stRestoreState : Nat := 0x0506
def stRestoreDigest : Nat := 0x0507
def stRestoreStep : Nat := 0x0508
def stRestoreIncomplete : Nat := 0x0509
def stGmpMalformed : Nat := 0x0601
def stGmpUnknown : Nat := 0x0602
def stGmpRights : Nat := 0x0603
def stRecoveryOnly : Nat := 0x0604
def stAddrUnmapped : Nat := 0x0605
def stAddrRo : Nat := 0x0606
def stFlashBusy : Nat := 0x0607
def stFlashRange : Nat := 0x0608
def stFlashFail : Nat := 0x0609
def stSessionLimit : Nat := 0x060A
def stGaugeUncertified : Nat := 0x0701
def stGaugeAbsent : Nat := 0x0702
def stGaugeBusy : Nat := 0x0703
def stGaugeRange : Nat := 0x0704
def stDumpBusy : Nat := 0x0801
def stDumpNone : Nat := 0x0802

/-- The step number that means no step (R17). -/
def noStep : Nat := 0xFFFFFFFFFFFF

/-! ### The tree of a bucket (R77, R79, R186) -/

/-- The depth of a bucket's tree and its root. -/
def Job.depth (x : Job) (b : Bytes) : Nat := treeK (x.treeRanks (bkBucket b))
def Job.root (x : Job) (b : Bytes) : Nat := nodeWord (x.depth b) 0

/-- Whether the Lysros order holds for a bucket (R186, R189). -/
def Job.lysrosOn (x : Job) (b : Bytes) : Bool := x.lysros && bkBucket b != verdictBucket

/-- The present children of a node, in the order in which they are added: two nodes below, or in Lysros-exact mode all
leaves of a group. -/
def Job.kids (x : Job) (b : Bytes) (w : Nat) : List Nat :=
  let n := x.treeRanks (bkBucket b)
  let a := min x.group (x.depth b)
  if x.lysrosOn b && nodeLevel w == a && a != 0 then
    ((List.range (2 ^ a)).map (fun i => nodeWord 0 (nodeIndex w * 2 ^ a + i))).filter (nodePresent n)
  else [leftChild w, rightChild w].filter (nodePresent n)

/-- The wire format of a node of a bucket (R101, R105). -/
def Job.wireOf (x : Job) (b : Bytes) (w : Nat) : Nat :=
  if nodeLevel w = 0 then bkElem b else if bkBucket b = verdictBucket then 0 else x.levelWire (nodeLevel w)

end Sys2Proof.Machine
end

