-- ==== Sys2Proof/Machine/Pcs.lean ====
section
/-! DEFINITION. The line code of fabric mode: RS(544,514) codewords, their spread over the lanes, Gray mapping, the precoder and the
levels (R226 to R229, R232). The field, the generator and the order of the parity symbols are those of IEEE 802.3 (R232; log entry 33). -/

namespace Sys2Proof.Machine

/-- A product in GF(2¹⁰) with x¹⁰ + x³ + 1. -/
def gfMulAux : Nat → Nat → Nat → Nat
  | 0, _, _ => 0
  | n + 1, a, b =>
    let s := 2 * a
    let s := if 1024 ≤ s then Nat.xor (s - 1024) 9 else s
    Nat.xor (if b % 2 = 1 then a else 0) (gfMulAux n s (b / 2))
def gfMul (a b : Nat) : Nat := gfMulAux 10 a b

/-- α to the power `n`, with α = x. -/
def gfPow : Nat → Nat
  | 0 => 1
  | n + 1 => gfMul 2 (gfPow n)

/-- The generator polynomial: the product of x − αʲ for j from 0 to 29, highest coefficient first. -/
def rsGenerator : List Nat :=
  (List.range 30).foldl (fun g j => (g ++ [0]).zipWith Nat.xor (0 :: g.map (gfMul (gfPow j)))) [1]

/-- One message symbol enters the division: the remainder, highest coefficient first. -/
def rsStep (g r : List Nat) (m : Nat) : List Nat :=
  let f := Nat.xor m (r.headD 0)
  (r.drop 1 ++ [0]).zipWith Nat.xor (g.map (gfMul f))

/-- The 30 parity symbols of 514 message symbols. -/
def rsParity (m : List Nat) : List Nat := m.foldl (rsStep (rsGenerator.drop 1)) (List.replicate 30 0)

/-- The bit string of a frame as a number, byte 0 first and bit 0 of each byte first (R232). -/
def codeword (frame : Bytes) (c : Nat) : List Nat :=
  let v := leVal frame / 2 ^ (5140 * c)
  let m := (List.range 514).map (fun k => v / 2 ^ (10 * k) % 1024)
  m ++ rsParity m

/-- The symbols of lane `l` in the order sent, of the eight codewords (R232). -/
def laneSymbols (cs : List (List Nat)) (l : Nat) : List Nat :=
  (List.range 544).map (fun k => (cs.getD ((l + 7 * k) % 8) []).getD k 0)

/-- The Gray value of a bit pair, as a number with its most significant bit first (R227). -/
def grayOf (pair : Nat) : Nat := if pair = 3 then 2 else if pair = 2 then 3 else pair

/-- The five PAM4 symbols of a FEC symbol, before precoding. -/
def pamOf (s : Nat) : List Nat := (List.range 5).map (fun j => grayOf (s / 4 ^ j % 4))

/-- The precoder 1/(1+D) modulo 4 from the lane's last value (R228). -/
def precode : Nat → List Nat → List Nat
  | _, [] => []
  | y, x :: r => let z := (x + 4 - y % 4) % 4; z :: precode z r

/-- What the receiver recovers (R228). -/
def decodePam : Nat → List Nat → List Nat
  | _, [] => []
  | y, z :: r => (z + y) % 4 :: decodePam z r

/-- The optical level of a precoded value (R227). -/
def levelOf (y : Nat) : Int := 2 * (y : Int) - 3

/-! ### Training frames (R236) -/

/-- One step of the generator 1 + x + x² + x¹² + x¹³ of PRBS13Q: bit 0 of the new state is the bit that leaves it (log entry 34). -/
def prbsStep (s : Nat) : Nat := 2 * s % 8192 + (s + s / 2 + s / 2048 + s / 4096) % 2

/-- `n` steps; the sequence repeats after 8,191. -/
def prbsAfter (n s : Nat) : Nat := Nat.repeat prbsStep (n % 8191) s

/-- `n` symbols: pairs of bits, the first as the most significant, Gray mapped (R227). -/
def prbsSymbols : Nat → Nat → List Nat
  | 0, _ => []
  | n + 1, s =>
    let a := prbsStep s
    let b := prbsStep a
    grayOf (2 * (a % 2) + b % 2) :: prbsSymbols n b

/-- The marker of symbols 0 to 63. -/
def trainMarker : List Int := (List.replicate 16 [3, -3]).flatten ++ (List.replicate 8 [-3, 3, 3, -3]).flatten

/-- The info field of symbols 64 to 319, two symbols a bit. -/
def infoLevels (info : Nat) : List Int := (List.range 128).flatMap (fun i => if bit info i then [3, -3] else [-3, 3])

/-- The 2,720 levels of a lane's training frame number `k`: marker, info field, and 2,400 symbols of PRBS13Q that run on from the lane's
frame before. -/
def trainLevels (lane k info : Nat) : List Int :=
  trainMarker ++ infoLevels info ++ (prbsSymbols 2400 (prbsAfter (4800 * k) (Nat.xor 0x1AA5 lane))).map (fun x => levelOf x)

/-- What one frame leaves on the lanes: by lane, the precoded values. -/
def precodedLane (cs : List (List Nat)) (precoder : Table Nat) (lane carries : Nat) : List Nat :=
  precode (tget 0 precoder lane) ((laneSymbols cs carries).flatMap pamOf)

/-- The precoded values of every lane that sends: lanes 0 to 7, and S where it stands in for a lane (R228, R232, R243). -/
def framePrecoded (frame : Bytes) (precoder : Table Nat) (spareFor : Nat) : List (Nat × List Nat) :=
  let cs := (List.range 8).map (codeword frame)
  (List.range 8).map (fun l => (l, precodedLane cs precoder l l)) ++
    (if spareFor < 8 then [(8, precodedLane cs precoder 8 spareFor)] else [])

end Sys2Proof.Machine
end

