-- ==== Sys2Proof/Machine/Crypto.lean ====
section
/-! DEFINITION. SM3, HMAC-SM3 and SM2 as the manual uses them (R333, R391, R392, R406, R407). PRESUMED: the manual names the standards GB/T 32905, 32918 and 35276 and does not print them; log entry 9. -/

namespace Sys2Proof.Machine

/-! ### SM3 -/

def sm3P0 (x : W32) : W32 := x ^^^ x.rotateLeft 9 ^^^ x.rotateLeft 17
def sm3P1 (x : W32) : W32 := x ^^^ x.rotateLeft 15 ^^^ x.rotateLeft 23
def sm3T (j : Nat) : W32 := if j < 16 then 0x79CC4519#32 else 0x7A879D8A#32
def sm3FF (j : Nat) (x y z : W32) : W32 :=
  if j < 16 then x ^^^ y ^^^ z else (x &&& y) ||| (x &&& z) ||| (y &&& z)
def sm3GG (j : Nat) (x y z : W32) : W32 :=
  if j < 16 then x ^^^ y ^^^ z else (x &&& y) ||| ((~~~x) &&& z)

/-- The chaining value of SM3: eight words. -/
structure Sm3V where
  a : W32
  b : W32
  c : W32
  d : W32
  e : W32
  f : W32
  g : W32
  h : W32
  deriving DecidableEq, Repr

def sm3Init : Sm3V :=
  ⟨0x7380166F#32, 0x4914B2B9#32, 0x172442D7#32, 0xDA8A0600#32, 0xA96F30BC#32, 0x163138AA#32, 0xE38DEE4D#32, 0xB0FB0E4E#32⟩

/-- One round; `w` and `w4` are W_j and W_(j+4). -/
def sm3Round (v : Sm3V) (j : Nat) (w w4 : W32) : Sm3V :=
  let ss1 := (v.a.rotateLeft 12 + v.e + (sm3T j).rotateLeft (j % 32)).rotateLeft 7
  let ss2 := ss1 ^^^ v.a.rotateLeft 12
  let tt1 := sm3FF j v.a v.b v.c + v.d + ss2 + (w ^^^ w4)
  let tt2 := sm3GG j v.e v.f v.g + v.h + ss1 + w
  ⟨tt1, v.a, v.b.rotateLeft 9, v.c, sm3P0 tt2, v.e, v.f.rotateLeft 19, v.g⟩

/-- The next message word from the sixteen before it. -/
def sm3Next (w : List W32) : W32 :=
  let g := fun i => w.getD i 0#32
  sm3P1 (g 0 ^^^ g 7 ^^^ (g 13).rotateLeft 15) ^^^ (g 3).rotateLeft 7 ^^^ g 10

/-- The rounds from `j` on; `w` holds W_j to W_(j+15). -/
def sm3Rounds : Nat → Nat → List W32 → Sm3V → Sm3V
  | 0, _, _, v => v
  | k + 1, j, w, v =>
    sm3Rounds k (j + 1) (w.drop 1 ++ [sm3Next w]) (sm3Round v j (w.getD 0 0#32) (w.getD 4 0#32))

/-- The compression function on one 64-byte block. -/
def sm3Block (v : Sm3V) (b : Bytes) : Sm3V :=
  let w := (chunksOf 4 b).map (fun x => BitVec.ofNat 32 (beVal x))
  let r := sm3Rounds 64 0 w v
  ⟨r.a ^^^ v.a, r.b ^^^ v.b, r.c ^^^ v.c, r.d ^^^ v.d, r.e ^^^ v.e, r.f ^^^ v.f, r.g ^^^ v.g, r.h ^^^ v.h⟩

/-- The 32-byte SM3 digest of a message. -/
def sm3 (m : Bytes) : Bytes :=
  let n := m.length
  let pad : Bytes := (0x80#8 :: List.replicate ((119 - n % 64) % 64) 0#8) ++ beBytes 8 (8 * n)
  let v := (chunksOf 64 (m ++ pad)).foldl sm3Block sm3Init
  [v.a, v.b, v.c, v.d, v.e, v.f, v.g, v.h].flatMap (fun w => beBytes 4 w.toNat)

/-- HMAC with SM3 (R406), block size 64. -/
def hmacSm3 (key m : Bytes) : Bytes :=
  let k0 := if key.length ≤ 64 then key else sm3 key
  let k := k0 ++ List.replicate (64 - k0.length) 0#8
  sm3 (k.map (· ^^^ 0x5C#8) ++ sm3 (k.map (· ^^^ 0x36#8) ++ m))

/-! ### The SM2 curve -/

def sm2p : Nat := 0xFFFFFFFEFFFFFFFFFFFFFFFFFFFFFFFFFFFFFFFF00000000FFFFFFFFFFFFFFFF
def sm2a : Nat := 0xFFFFFFFEFFFFFFFFFFFFFFFFFFFFFFFFFFFFFFFF00000000FFFFFFFFFFFFFFFC
def sm2b : Nat := 0x28E9FA9E9D9F5E344D5A9E4BCF6509A7F39789F515AB8F92DDBCBD414D940E93
def sm2n : Nat := 0xFFFFFFFEFFFFFFFFFFFFFFFFFFFFFFFF7203DF6B21C6052B53BBF40939D54123
def sm2gx : Nat := 0x32C4AE2C1F1981195F9904466A39C9948FE30BBFF2660BE1715A4589334C74C7
def sm2gy : Nat := 0xBC3736A2F4F6779C59BDCEE36B692153D0A9877CC62A474002DF32E52139F0A0

/-- `b^e mod m` by the binary digits of `e` (`k` of them). -/
def powMod (m b e : Nat) : Nat → Nat
  | 0 => 1 % m
  | k + 1 =>
    let r := powMod m b (e / 2) k
    let r2 := r * r % m
    if e % 2 = 1 then r2 * b % m else r2

/-- The inverse modulo a prime. -/
def invMod (m a : Nat) : Nat := powMod m (a % m) (m - 2) 256

/-- A point of the curve, or the point at infinity. -/
abbrev Pt := Option (Nat × Nat)

/-- Whether coordinates lie on the curve. -/
def onCurve (q : Nat × Nat) : Bool :=
  decide (q.1 < sm2p) && decide (q.2 < sm2p) && decide (q.2 * q.2 % sm2p = (q.1 * q.1 * q.1 + sm2a * q.1 + sm2b) % sm2p)

/-- The sum of two points. -/
def ptAdd : Pt → Pt → Pt
  | none, q => q
  | q, none => q
  | some (x1, y1), some (x2, y2) =>
    if x1 = x2 ∧ (y1 + y2) % sm2p = 0 then none
    else
      let l := if x1 = x2 then (3 * x1 * x1 + sm2a) * invMod sm2p (2 * y1) % sm2p
        else (y2 + sm2p - y1) * invMod sm2p (x2 + sm2p - x1) % sm2p
      let x3 := (l * l + 2 * sm2p - x1 - x2) % sm2p
      some (x3, (l * (x1 + sm2p - x3) + sm2p - y1) % sm2p)

/-- `k` times a point, by `n` binary digits. -/
def ptMul (q : Pt) (k : Nat) : Nat → Pt
  | 0 => none
  | n + 1 =>
    let r := ptMul q (k / 2) n
    let r2 := ptAdd r r
    if k % 2 = 1 then ptAdd r2 q else r2

def sm2G : Pt := some (sm2gx, sm2gy)

/-- A public key's 64 bytes X ‖ Y as a point (R392). -/
def ptOf (k : Bytes) : Nat × Nat := (beVal (slice k 0 32), beVal (slice k 32 32))
/-- A point's 64 bytes; the point at infinity has none and gives zeros. -/
def ptBytes : Pt → Bytes
  | none => List.replicate 64 0#8
  | some (x, y) => beBytes 32 x ++ beBytes 32 y

/-- The public key of a private key. -/
def sm2Pub (d : Nat) : Bytes := ptBytes (ptMul sm2G d 256)

/-- The user identifier of R392: the digits 1 to 8 twice. -/
def sm2Id : Bytes := [0x31, 0x32, 0x33, 0x34, 0x35, 0x36, 0x37, 0x38, 0x31, 0x32, 0x33, 0x34, 0x35, 0x36, 0x37, 0x38]

/-- The Z value of a key. -/
def sm2Z (pub : Bytes) : Bytes :=
  sm3 ([0x00#8, 0x80#8] ++ sm2Id ++ beBytes 32 sm2a ++ beBytes 32 sm2b ++ beBytes 32 sm2gx ++ beBytes 32 sm2gy ++ pub)

/-- The number signed for a message. -/
def sm2E (pub m : Bytes) : Nat := beVal (sm3 (sm2Z pub ++ m))

/-- The signature r ‖ s of `m` under private key `d` with nonce `k`. -/
def sm2Sign (d k : Nat) (m : Bytes) : Bytes :=
  let x1 := match ptMul sm2G k 256 with | some q => q.1 | none => 0
  let r := (sm2E (sm2Pub d) m + x1) % sm2n
  let s := invMod sm2n (1 + d) * (k + r * (sm2n - d % sm2n)) % sm2n
  beBytes 32 r ++ beBytes 32 s

/-- Whether a signature verifies under a public key. -/
def sm2Verify (pub m sig : Bytes) : Bool :=
  let r := beVal (slice sig 0 32)
  let s := beVal (slice sig 32 32)
  let t := (r + s) % sm2n
  decide (1 ≤ r) && decide (r < sm2n) && decide (1 ≤ s) && decide (s < sm2n) && decide (t ≠ 0) && onCurve (ptOf pub) &&
    (match ptAdd (ptMul sm2G s 256) (ptMul (some (ptOf pub)) t 256) with
      | some q => decide ((sm2E pub m + q.1) % sm2n = r)
      | none => false)

/-- The key derivation function: `n` bytes from `z`. -/
def sm2Kdf (z : Bytes) (n : Nat) : Bytes :=
  ((List.range (ceilDiv n 32)).flatMap (fun i => sm3 (z ++ beBytes 4 (i + 1)))).take n

/-- What a key exchange gives the responder: its ephemeral point, K, its confirmation value and the one it expects. -/
structure KeyEx where
  rB : Bytes
  k : Bytes
  sB : Bytes
  sA : Bytes
  deriving DecidableEq, Repr

/-- x̄ of the exchange: the low 127 bits with bit 127 set. -/
def xBar (x : Nat) : Nat := 2 ^ 127 + x % 2 ^ 127

/-- The responder's half of the SM2 key exchange (R407): its private key and ephemeral secret, the initiator's
public key and ephemeral point. None where the initiator's point is off the curve or the shared point is at infinity. -/
def sm2Respond (dB rb : Nat) (pubA rA : Bytes) : Option KeyEx :=
  let ra := ptOf rA
  if !onCurve ra then none
  else
    let pubB := sm2Pub dB
    let rBp := ptMul sm2G rb 256
    let x2 := match rBp with | some q => q.1 | none => 0
    let t := (dB + xBar x2 * rb) % sm2n
    match ptMul (ptAdd (some (ptOf pubA)) (ptMul (some ra) (xBar ra.1) 256)) t 256 with
    | none => none
    | some (xv, yv) =>
      let za := sm2Z pubA
      let zb := sm2Z pubB
      let inner := sm3 (beBytes 32 xv ++ za ++ zb ++ rA ++ ptBytes rBp)
      some { rB := ptBytes rBp, k := sm2Kdf (beBytes 32 xv ++ beBytes 32 yv ++ za ++ zb) 64,
             sB := sm3 ([0x02#8] ++ beBytes 32 yv ++ inner), sA := sm3 ([0x03#8] ++ beBytes 32 yv ++ inner) }

/-! ### The tree digest of R333 -/

def shLeaf (b : Bytes) : Bytes := sm3 (0x00#8 :: b)
def shInner (a b : Bytes) : Bytes := sm3 (0x01#8 :: (a ++ b))

/-- One level of the tree of R79 over a list: pairs are joined, an odd last one is passed through. -/
def htreeLevel : List Bytes → List Bytes
  | a :: b :: r => shInner a b :: htreeLevel r
  | l => l

/-- The levels, `k` of them. -/
def htreeAux : Nat → List Bytes → List Bytes
  | 0, l => l
  | k + 1, l => htreeAux k (htreeLevel l)

/-- htree of R333; an empty list has no digest and gives none. -/
def htree (l : List Bytes) : Bytes := (htreeAux (ceilLog2 l.length) l).headD []

/-- ld of R339 without the image digest: htree over the 4 KiB pieces. -/
def pieces (x : Bytes) : List Bytes := (chunksOf 4096 x).map shLeaf

end Sys2Proof.Machine
end

