-- ==== Sys2Proof/Machine/Flags.lean ====
section
/-! DEFINITION. The status words of the state space, each packed from the state as its table lays it out (R31, R94, R201, R220, R253, R365, R366, R378, R427, R452). -/

namespace Sys2Proof.Machine

/-- Fields given as (low bit, value), added up. -/
def pack (l : List (Nat × Nat)) : Nat := l.foldl (fun a e => a + e.2 * 2 ^ e.1) 0

def CtxState.code : CtxState → Nat
  | .free => 0
  | .armed => 1
  | .opened => 2
  | .draining => 3
  | .aborted => 4
  | .resetting => 5

def JobState.code : JobState → Nat
  | .empty => 0
  | .loaded => 1
  | .running => 2
  | .halted => 3

def UnitState.code : UnitState → Nat
  | .inService => 0
  | .standby => 1
  | .standingIn => 2
  | .resetting => 3
  | .retired => 4

def ImageState.code : ImageState → Nat
  | .none => 0
  | .good => 1
  | .bad => 2

def SiltState.code : SiltState → Nat
  | .running => 0
  | .triggered => 1
  | .stopped => 2

/-- STEP_STATUS (R31). -/
def Job.stepStatus (j : Job) : Nat :=
  pack [(0, j.stStep), (48, j.stOutcome), (52, b2n j.stInexact), (53, b2n j.stShr), (54, b2n j.stSpare), (55, b2n j.stComparable)]

/-- STEP_TIMING (R220). -/
def Job.stepTiming (j : Job) : Nat := pack [(0, min j.tmLag 0xFFFFFFFF), (32, j.tmCauses % 128), (40, j.tmSlackMin)]

/-- JOB_RECOVERY (R378). -/
def Job.recovery (j : Job) : Nat :=
  pack [(0, j.rcStep), (48, j.rcPhase), (51, b2n j.rootCommitted), (52, b2n j.replanned), (53, b2n j.budgetExceeded), (56, j.haltCause)]

/-- Fragments of later uses held in staging (R94). -/
def Ctx.heldAhead (c : Ctx) : Nat :=
  (c.frags.filter (fun f => serialAfter 32 (chSeq f.header) c.sequence && !f.spilled)).length

/-- CTX_STATUS and CTX_SEQ (R94). -/
def Ctx.statusWord (c : Ctx) : Nat :=
  pack [(0, c.state.code), (3, b2n c.spilled), (4, b2n c.spareBasin), (8, c.job), (16, c.channel), (24, c.basin),
    (32, c.generation), (48, c.status)]
def Ctx.seqWord (c : Ctx) : Nat := pack [(0, c.sequence), (32, c.microBatch), (48, min c.heldAhead 0xFFFF)]

/-- GTC_STATUS (R201). -/
def Clock.statusWord (c : Clock) : Nat :=
  pack [(0, c.state.code), (2, b2n c.spring), (3, c.depth), (7, c.rackDepth), (9, c.upstream), (16, c.offset), (32, c.cause),
    (40, b2n c.stretched), (41, b2n c.stepped)]

/-- LINK_STATUS and LINK_OPTICS (R253). -/
def Port.statusWord (x : Port) (mode : Nat) : Nat :=
  pack [(0, x.state.code), (4, mode % 4), (6, x.rxLanes), (15, x.rxSpareFor), (19, x.txSpareFor), (23, x.txSleep), (25, x.rxSleep),
    (27, b2n x.remapped), (28, b2n x.headroomLow), (32, x.cause), (40, x.neighbourPort), (48, x.retrains)]
def Port.opticsWord (x : Port) : Nat :=
  pack [(0, x.warm), (8, x.cool), (16, x.feedPower), (32, x.lines), (41, x.feedState)]

/-- FAULT_CLASS (R365). -/
def FaultClass.word (c : FaultClass) : Nat := pack [(0, b2n c.unacked), (1, c.maxSeverity), (8, c.lastSource), (24, c.count)]

/-- UNIT_STATUS (R366). -/
def UnitSt.word (u : UnitSt) : Nat :=
  pack [(0, u.state.code), (3, u.standsFor), (16, u.lastSource), (32, u.faults), (48, u.resets)]

/-- DEVICE_INFO (R427). -/
def Keeper.deviceInfo (k : Keeper) : Nat := pack [(0, 1), (8, k.orderingCode), (10, k.identityState), (16, min k.warmResets 0xFFFF)]

/-- IMAGE_STATUS (R427). -/
def Keeper.imageWord (k : Keeper) : Nat :=
  pack [(0, k.imageState.code), (2, b2n k.flashWritten), (16, k.imageStatus)]

/-- Whether a port is UP (R238). -/
def Dev.up (d : Dev) (p : Nat) : Bool := (d.port p).state == .up

/-- Whether a port takes flits: a fabric-mode link in CALIBRATE or UP. -/
def Dev.takesFlits (d : Dev) (p : Nat) : Bool := d.fabric p && ((d.port p).state == .up || (d.port p).state == .calibrate)

/-- Whether the Keeper serves GMP on a port (R402, R405). -/
def Dev.serves (d : Dev) (p : Nat) : Bool :=
  d.keeper.up && (if p = 98 then d.keeper.oobUp else if p = 96 ∨ p = 97 then bit d.gmpPorts (p - 96) && d.up p else false)

/-- READY (R403, R427). -/
def Dev.readyWord (d : Dev) : Nat :=
  pack ([(0, b2n d.keeper.oobUp), (1, b2n (d.serves 98 || d.serves 96 || d.serves 97)), (2, b2n (d.up 96)), (3, b2n (d.up 97)),
      (4, b2n (d.keeper.imageState == .good)), (5, b2n (decide (d.keeper.identityState ≠ 3))),
      (6, b2n (d.clock.state == .locked))] ++
    (List.range 8).map (fun s => (8 + s, b2n (d.unit (stackUnit s)).ready)) ++
    (List.range 8).map (fun t => (16 + t, b2n ((d.unit (tarnUnit t)).ready && (d.unit (stackUnit t)).ready))))

/-- READY_BASINS (R403, R427). -/
def Dev.readyBasins (d : Dev) : Nat :=
  pack ((List.range 50).map (fun b => (b, b2n ((d.unit b).ready && (d.unit b).state != .retired))))

/-- READY_LINKS_LO and READY_LINKS_HI (R403, R427). -/
def Dev.readyLinksLo (d : Dev) : Nat := pack ((List.range 64).map (fun p => (p, b2n (d.up p))))
def Dev.readyLinksHi (d : Dev) : Nat := pack ((List.range 32).map (fun p => (p, b2n (d.up (64 + p)))))

/-- The four ready words (R404). -/
def Dev.readyWords (d : Dev) : List Nat := [d.readyWord, d.readyBasins, d.readyLinksLo, d.readyLinksHi]

/-- SILT_STATUS (R452). -/
def Dev.siltStatus (d : Dev) : Nat :=
  pack [(0, d.silt.state.code), (2, b2n (decide (d.siltExtUnits ≠ 0))), (3, b2n d.silt.wrapped), (8, d.silt.sources)]

end Sys2Proof.Machine
end

