-- ==== Sys2Proof/Machine/Silt.lean ====
section
/-! DEFINITION. Silt: writing a record, the trigger and the rearm (R444 to R452), as operations that other families share. -/

namespace Sys2Proof.Machine

/-- A Silt record to be written: its type, unit, job, the die whose queue takes it, and its body of 16 or 48 bytes (R444). -/
structure SiltMsg where
  typ : Nat
  unit : Nat := 0
  job : Nat := 0
  die : Nat := 0
  body : Bytes
  deriving DecidableEq, Repr

/-- The record types that are always written (R446); `sev` is the effective severity of a FAULT record. -/
def siltMandatory (typ sev : Nat) : Bool :=
  [0x01, 0x02, 0x03, 0x04, 0x06, 0x07, 0x0C, 0x0D].contains typ || (typ == 0x08 && decide (2 ≤ sev))

/-- Whether TRACE_CONFIG enables an optional record (R446, R453). -/
def Dev.siltEnabled (d : Dev) (m : SiltMsg) : Bool :=
  match m.typ with
  | 0x08 => bit d.traceClasses 0
  | 0x09 => bit d.traceClasses 1
  | 0x0A => bit d.traceClasses 2 && bit (fld d.trace 96 32) m.job
  | 0x0B => bit d.traceClasses 3
  | 0x05 => bit d.traceClasses 4
  | _ => true

/-- The bytes of a record (R444, R445). -/
def Dev.siltBytes (d : Dev) (m : SiltMsg) : Bytes :=
  let stopped := d.clock.state == .invalid && decide (d.clock.cause = 3)
  let stamp := if stopped then d.ctr (ctrIdx 4 0 0) else d.gtc
  let flags := b2n d.gtcValid + 2 * b2n stopped + 4 * m.die + 8 * b2n (decide (16 < m.body.length))
  leBytes 8 stamp ++ leBytes 1 m.typ ++ leBytes 1 flags ++ leBytes 2 m.unit ++ leBytes 1 m.job ++ leBytes 3 0 ++ m.body

def SiltRec.len (r : SiltRec) : Nat := if r.two then 2 else 1

/-- The records that overlap `n` slots from `a`. -/
def siltHits (recs : List SiltRec) (a n : Nat) : List SiltRec :=
  recs.filter (fun r => decide (r.slot < a + n) && decide (a < r.slot + r.len))

/-- A record written into the slots from `next` on, which lose what they held. -/
def Silt.place (s : Silt) (cap : Nat) (two : Bool) (bytes : Bytes) : Silt :=
  let n := if two then 2 else 1
  { s with
    recs := s.recs.filter (fun r => !(decide (r.slot < s.next + n) && decide (s.next < r.slot + r.len))) ++
      [{ slot := s.next, two := two, bytes := bytes }],
    next := (s.next + n) % cap,
    since := s.since + 1 }

/-- The LOST record, kept up to date in its reserved slots (R449 item 5, R446). -/
def Dev.siltLost (d : Dev) : Dev :=
  let s := d.silt
  match s.lostSlot with
  | none => d
  | some l =>
    let body := leBytes 8 s.lost ++ leBytes 8 s.lostMandatory ++ leBytes 8 s.overwrittenBefore ++ leBytes 8 s.firstLost ++
      leBytes 8 s.lastLost ++ leBytes 8 0
    let b := d.siltBytes { typ := 0x0D, body := body }
    d.modSilt (fun s => { s with recs := s.recs.filter (fun r => r.slot != l) ++ [{ slot := l, two := true, bytes := b }] })

/-- A record discarded after the trigger (R449). -/
def Dev.siltDiscard (d : Dev) (mandatory : Bool) : Dev :=
  let g := d.gtc
  ((d.modSilt (fun s =>
    { s with lost := s.lost + 1, lostMandatory := s.lostMandatory + b2n mandatory,
             firstLost := if s.lost = 0 then g else s.firstLost, lastLost := g })).countDev 0x10C 1).siltLost

/-- A record takes its slots in RUNNING, and what it overwrites is counted (R449, R452). -/
def Dev.siltOver (d : Dev) (two : Bool) (bytes : Bytes) : Dev :=
  let hits := (siltHits d.silt.recs d.silt.next (if two then 2 else 1)).length
  (d.modSilt (fun s => { s.place d.siltSlots two bytes with wrapped := s.wrapped || decide (0 < hits) })).countDev 0x10B hits

/-- A PAD record's bytes (R446). -/
def Dev.padBytes (d : Dev) : Bytes := d.siltBytes { typ := 0x0E, body := leBytes 16 0 }

/-- Whether a two-slot record finds only the ring's last slot, which PAD then fills (R446). -/
def Dev.siltEdge (d : Dev) (two : Bool) : Bool := two && decide (d.silt.next + 1 = d.siltSlots)

/-- A record reaches the ring in RUNNING (R446 PAD, R449). -/
def Dev.siltRun (d : Dev) (two : Bool) (bytes : Bytes) : Dev :=
  let d := if d.siltEdge two then (d.siltOver false d.padBytes).modSilt (fun s => { s with since := d.silt.since }) else d
  (d.siltOver two bytes).countDev 0x10A 1

/-- A record reaches the ring after the trigger (R449 items 4 and 5). -/
def Dev.siltPost (d : Dev) (mandatory two : Bool) (bytes : Bytes) : Dev :=
  let cap := d.siltSlots
  let s := d.silt
  if s.state == .stopped || decide (s.postLeft = 0) then (d.modSilt (fun s => { s with state := .stopped })).siltDiscard mandatory
  else if !mandatory && decide (s.postLeft ≤ s.postSize / 8) then d.siltDiscard mandatory
  else if two && decide (s.postLeft < (if d.siltEdge two then 3 else 2)) then
    (d.modSilt (fun s =>
      let s := if d.siltEdge two && decide (s.postLeft = 2) then s.place cap false d.padBytes else s
      { s.place cap false d.padBytes with postLeft := 0, state := .stopped })).siltDiscard mandatory
  else
    let d := if d.siltEdge two then d.modSilt (fun s => { s.place cap false d.padBytes with postLeft := s.postLeft - 1 }) else d
    let n := if two then 2 else 1
    (d.modSilt (fun s =>
      { s.place cap two bytes with postLeft := s.postLeft - n, state := if s.postLeft ≤ n then .stopped else .triggered })).countDev 0x10A 1

/-- A record passes its die's queue and the write buffer (R447, R448). -/
def Dev.siltPut (d : Dev) (m : SiltMsg) (mandatory : Bool) : Dev :=
  let until' := max (tget 0 d.silt.busy m.die) d.time
  let two := decide (16 < m.body.length)
  let n := if two then 2 else 1
  if 64 ≤ until' - d.time then d.countDev 0x10D 1
  else if d.siltExtUnits ≠ 0 ∧ 524288 < d.silt.buffered + n then d.countDev 0x10E 1
  else
    let bytes := d.siltBytes m
    let d := d.modSilt (fun s =>
      { s with busy := tset s.busy m.die (until' + 1), buffered := if d.siltExtUnits = 0 then 0 else s.buffered + n })
    if d.silt.state == .running then d.siltRun two bytes else d.siltPost mandatory two bytes

/-- Pins set to a function, as EVT_PINS gives them and no fault has taken away (R400, R495). -/
def Dev.evtPinsOf (d : Dev) (f : Nat) : List Bytes :=
  d.evtEntries.filter (fun e => u8 e 1 == f && !d.power.evtOff.contains (u8 e 0))

/-- An output pin is driven for 4 core cycles: it becomes active and inactive again (R206, R450). -/
def Dev.pulse (d : Dev) (pin : Nat) : Dev := (d.send (.pin pin true)).send (.pin pin false)

/-- A further trigger of the accepted one's cycle: its bit joins the sources, in the TRIGGER record too (R450). -/
def Silt.join (s : Silt) (sources : Nat) : Silt :=
  let all := s.sources ||| sources
  { s with sources := all,
           recs := s.recs.map (fun r =>
             if some r.slot = s.triggerSlot then { r with bytes := r.bytes.take 16 ++ leBytes 1 all ++ r.bytes.drop 17 } else r) }

/-- A Silt trigger with its source bits (R449, R450). -/
def Dev.siltTrigger (d : Dev) (sources : Nat) : Dev :=
  if d.silt.state != .running then
    if d.silt.trigTime = some d.time then d.modSilt (·.join sources) else d.countDev 0x10F 1
  else
    let cap := d.siltSlots
    let p := cap * d.prePct / 100
    let h := min d.silt.since d.silt.recs.length
    let n := min p (min h cap)
    let frozen := d.silt.recs.drop (d.silt.recs.length - n)
    let used := (frozen.map SiltRec.len).sum
    let size := cap - used - 2
    let d := d.modSilt (fun s =>
      { s with state := .triggered, sources := sources, oldestFrozen := frozen.head?.map SiltRec.slot, triggerSlot := some s.next, trigTime := some d.time,
               lostSlot := some ((s.next + size) % cap), postLeft := size, postSize := size, lost := 0, lostMandatory := 0,
               firstLost := 0, lastLost := 0, overwrittenBefore := d.ctr (ctrIdx 0 0 0x10B) })
    let d := d.siltPut { typ := 0x0C, body := leBytes 1 sources ++ leBytes 7 0 ++ leBytes 8 (d.silt.triggerSlot.getD 0) } true
    (d.evtPinsOf 4).foldl (fun d e => d.pulse (u8 e 0)) d

/-- A record is written if it is mandatory or enabled; one whose type triggers then triggers (R446, R450 bit 4).
`sev` is the severity of a FAULT record. -/
def Dev.siltWrite (d : Dev) (m : SiltMsg) (sev : Nat := 0) : Dev :=
  let mand := siltMandatory m.typ sev
  if mand || d.siltEnabled m then
    let run := d.silt.state == .running
    let d := d.siltPut m mand
    if run && bit d.typeTrigger m.typ then d.siltTrigger 16 else d
  else d

/-- Rearm (R451): no effect while a dump is open. -/
def Dev.siltRearm (d : Dev) : Dev :=
  if d.dump.isSome then d
  else d.modSilt (fun s =>
    { s with state := .running, since := 0, wrapped := false, oldestFrozen := none, triggerSlot := none, lostSlot := none,
             trigTime := none })

end Sys2Proof.Machine
end

