-- ==== Sys2Proof/Machine/Net.lean ====
section
/-! DEFINITION. Ethernet, IPv6 and UDP framing of what leaves an Ethernet-mode or host port, and mirror copies (R293 to R297). -/

namespace Sys2Proof.Machine

/-! ### Check sums -/

/-- The frame check sequence of IEEE 802.3, as sent. -/
def fcsOf (bs : Bytes) : Bytes :=
  let c := bs.foldl (fun c b => (bitsOf 8 b.toNat).foldl (crcBit 32 0x04C11DB7) c) 0xFFFFFFFF
  leBytes 4 (Nat.xor (bitRev 32 c) 0xFFFFFFFF)

/-- The sum of the big-endian 16-bit words of a byte string, a last odd byte being the high one. -/
def sum16 : Bytes → Nat
  | [] => 0
  | [b] => 256 * b.toNat
  | a :: b :: r => 256 * a.toNat + b.toNat + sum16 r

/-- Carries folded back into 16 bits. -/
def fold16 (n : Nat) : Nat :=
  let m := n % 65536 + n / 65536
  m % 65536 + m / 65536

/-- The Internet checksum of UDP and ICMPv6 over its pseudo-header (RFC 768, RFC 8200). -/
def inetSum (src dst : Bytes) (next : Nat) (pdu : Bytes) : Nat :=
  0xFFFF - fold16 (sum16 (src ++ dst ++ beBytes 4 pdu.length ++ [0#8, 0#8, 0#8] ++ beBytes 1 next ++ pdu))

/-- A UDP checksum, never zero (R297). -/
def udpSum (src dst pdu : Bytes) : Nat :=
  let c := inetSum src dst 17 pdu
  if c = 0 then 0xFFFF else c

/-! ### Frames (R297) -/

/-- An IPv6 header without extension headers. -/
def ipv6 (tclass flow len next hops : Nat) (src dst : Bytes) : Bytes :=
  beBytes 4 (6 * 2 ^ 28 + tclass % 256 * 2 ^ 20 + flow % 2 ^ 20) ++ beBytes 2 len ++ beBytes 1 next ++ beBytes 1 hops ++ src ++ dst

/-- A UDP header with its checksum, and its payload. -/
def udpPdu (src dst : Bytes) (sport dport : Nat) (payload : Bytes) : Bytes :=
  let n := 8 + payload.length
  let h := beBytes 2 sport ++ beBytes 2 dport ++ beBytes 2 n
  h ++ beBytes 2 (udpSum src dst (h ++ [0#8, 0#8] ++ payload)) ++ payload

def epLocalMac (e : Bytes) : Bytes := slice e 2 6
def epPeerMac (e : Bytes) : Bytes := slice e 8 6
def epLocalIp (e : Bytes) : Bytes := slice e 16 16
def epPeerIp (e : Bytes) : Bytes := slice e 32 16
def epEncap (e : Bytes) : Bool := bit (u8 e 1) 0

/-- A datagram from a port to the far end that its ETH_PORT entry names, without FCS (R297). -/
def udpFrame (e : Bytes) (tclass flow dport : Nat) (payload : Bytes) : Bytes :=
  epPeerMac e ++ epLocalMac e ++ [0x86#8, 0xDD#8] ++ ipv6 (32 * tclass) flow (8 + payload.length) 17 64 (epLocalIp e) (epPeerIp e) ++
    udpPdu (epLocalIp e) (epPeerIp e) (0xC000 + flow % 16384) dport payload

/-- A frame leaves an Ethernet-mode or host port, with its FCS. -/
def Dev.sendFrame (d : Dev) (p account : Nat) (frame : Bytes) : Dev :=
  (d.send (.eth p (frame ++ fcsOf frame))).portBytes account p true (frame.length + 4)

/-! ### Mirroring (R293, R294) -/

def msMode (e : Bytes) : Nat := u8 e 0
def msQueue (e : Bytes) : Nat := bits (u8 e 11) 1 0

/-- The cells of the output-queue memory that a frame takes. -/
def frameCells (f : Bytes) : Nat := ceilDiv (f.length + 4) 64

/-- The copies in an analysis queue. -/
def Dev.copies (d : Dev) (p q : Nat) : List Bytes := tget [] d.mirrors.queues (4 * p + q)

/-- Copies leave an analysis port once it is UP and has nothing else to send (R294). -/
def Dev.drainCopies (d : Dev) (p : Nat) : Dev :=
  if d.up p && (d.port p).outQ.all (fun q => q.2.isEmpty) then
    let d := ((List.range 4).flatMap (d.copies p)).foldl (fun d f =>
      ((d.send (.copy p (f ++ fcsOf f))).portBytes 256 p true (f.length + 4)).countDev 0x103 (64 * frameCells f)) d
    { d with mirrors := { d.mirrors with queues := d.mirrors.queues.filter (fun q => q.1 / 4 != p) } }
  else d

/-- A copy enters its analysis queue, or is dropped (R294, R308). -/
def Dev.putCopy (d : Dev) (p q : Nat) (frame : Bytes) : Dev :=
  let held := ((d.copies p q).map frameCells).sum
  if d.analysisLimit p q < held + frameCells frame then d.countPort p 0x26 1
  else (({ d with mirrors := { d.mirrors with queues := tmod [] d.mirrors.queues (4 * p + q) (· ++ [frame]) } } : Dev).countDev 0x102
    (64 * frameCells frame)).drainCopies p

/-- The route header's fields that a session compares (R293). A frame without one is matched only by a session that compares none. -/
def sessionMatches (e : Bytes) (route : Option Bytes) : Bool :=
  let m := u8 e 3
  match route with
  | none => m == 0
  | some h => (!bit m 0 || rhJob h == u8 e 4) && (!bit m 1 || rhClass h == u8 e 5) && (!bit m 2 || rhSrc h == fld e 6 2) &&
      (!bit m 3 || rhDst h == fld e 8 2)

/-- Whether a session looks at a port and point. -/
def sessionAt (e : Bytes) (egress : Bool) (p : Nat) : Bool :=
  decide (msMode e = 1 ∨ msMode e = 2) && bit (u8 e 1) (b2n egress) && (u8 e 2 == 0xFF || u8 e 2 == p)

/-- The mirror header (R294). -/
def mirrorHeader (i : Nat) (egress cut valid : Bool) (p len gtc : Nat) : Bytes :=
  leBytes 1 i ++ leBytes 1 (pack [(0, b2n egress), (1, b2n cut), (2, b2n valid)]) ++ leBytes 1 p ++ leBytes 1 0 ++ leBytes 4 len ++ leBytes 8 gtc

/-- One session's copy of a packet that it matches (R294). -/
def Dev.copyFor (d : Dev) (i : Nat) (e : Bytes) (egress : Bool) (p : Nat) (route : Option Bytes) (bytes : Bytes) : Dev :=
  let m := tget 0 d.mirrors.count i
  let d : Dev := { d with mirrors := { d.mirrors with count := tset d.mirrors.count i (m + 1) } }
  if msMode e = 2 ∧ m % fld e 12 4 ≠ 0 then d
  else
    let keep := if msMode e = 2 then fld e 16 2 else 9134
    let ap := u8 e 10
    let h := mirrorHeader i egress (decide (keep < bytes.length)) d.gtcValid p bytes.length d.gtc
    let frame := udpFrame ((d.ethEntry ap).getD []) (bits ((route.map rhTclass).getD 0) 2 0) ((route.map rhLabel).getD 0) d.mirrorUdp (h ++ bytes.take keep)
    d.putCopy ap (msQueue e) frame

/-- A packet or frame passes a port: every session that matches copies it (R294). -/
def Dev.mirror (d : Dev) (egress : Bool) (p : Nat) (route : Option Bytes) (bytes : Bytes) : Dev :=
  d.mirrorEntries.zipIdx.foldl (fun d s =>
    if sessionAt s.1 egress p && sessionMatches s.1 route then d.copyFor s.2 s.1 egress p route bytes else d) d

/-! ### GMP and RoCEv2 at Ethernet-mode ports (R159, R294, R405; the frames are PRESUMED, log entry 65) -/

/-- The frame of a GMP datagram between a host port and the address at its far end, without FCS. The flow label and the hop limit are
free. -/
def gmpFrame (e : Bytes) (tx : Bool) (gmp addr udp : Nat) (msg : Bytes) : Bytes :=
  let far := beBytes 16 addr
  let n := Config.ipFields (fld msg 8 8)
  let ip (src dst : Bytes) : Bytes := ipv6 0 (n / 256) (8 + msg.length) 17 (n % 256) src dst
  if tx then epPeerMac e ++ epLocalMac e ++ [0x86#8, 0xDD#8] ++ ip (epLocalIp e) far ++ udpPdu (epLocalIp e) far gmp udp msg
  else epLocalMac e ++ epPeerMac e ++ [0x86#8, 0xDD#8] ++ ip far (epLocalIp e) ++ udpPdu far (epLocalIp e) udp gmp msg

/-- A GMP datagram of `n` bytes crosses a port: its bytes are counted, and at a host port mirror sessions copy it. -/
def Dev.gmpCross (d : Dev) (p : Nat) (tx : Bool) (addr udp n : Nat) (msg : Bytes) : Dev :=
  let d := d.gmpBytes p tx n
  if p = 96 ∨ p = 97 then d.mirror tx p none (gmpFrame ((d.ethEntry p).getD []) tx d.gmpUdp addr udp msg) else d

/-- The invariant CRC of RoCEv2 over a datagram: its IPv6 header with traffic class, flow label and hop limit taken as ones, its UDP
header with the checksum so, and the transport header with its fifth byte so. -/
def invariantCrc (ip udp bth : Bytes) (rest : Bytes) : Bytes :=
  let ones (n : Nat) : Bytes := List.replicate n 0xFF#8
  fcsOf (ones 8 ++ [0x6F#8, 0xFF#8, 0xFF#8, 0xFF#8] ++ slice ip 4 3 ++ ones 1 ++ ip.drop 8 ++ udp.take 6 ++ ones 2 ++
    bth.take 4 ++ ones 1 ++ bth.drop 5 ++ rest)

/-- The frame of a checkpoint packet, without FCS: a WRITE, or the answer to a READ. -/
def rdmaFrame (e : Bytes) (q : Qp) (r : RdmaOut) : Bytes :=
  let pad := (4 - r.bytes.length % 4) % 4
  let bth := beBytes 1 (if r.write then 0x0A else 0x10) ++ beBytes 1 (16 * pad) ++ [0xFF#8, 0xFF#8] ++ beBytes 4 q.remoteQpn ++ beBytes 4 r.psn
  let ext := if r.write then beBytes 8 r.va ++ beBytes 4 q.rkey ++ beBytes 4 r.bytes.length else beBytes 4 0
  let rest := ext ++ r.bytes ++ List.replicate pad 0#8
  let dst := leBytes 16 q.remoteIp
  let n := 8 + bth.length + rest.length + 4
  let ip := ipv6 0 0 n 17 64 (epLocalIp e) dst
  let head := beBytes 2 0xC000 ++ beBytes 2 4791 ++ beBytes 2 n
  leBytes 6 q.remoteMac ++ epLocalMac e ++ [0x86#8, 0xDD#8] ++ ip ++
    udpPdu (epLocalIp e) dst 0xC000 4791 (bth ++ rest ++ invariantCrc ip (head ++ [0#8, 0#8]) bth rest)

end Sys2Proof.Machine
end

