-- ==== Sys2Proof/Machine/Faults.lean ====
section
/-! DEFINITION. Fault records: sources, severities and escalation, the event ring, GMP_EVENT, FAULT_CLASS, UNIT_STATUS and
ALERT_N (R358 to R366), and how a GMP message leaves the device (R406). -/

namespace Sys2Proof.Machine

/-! ### GMP messages out (R406, R412) -/

/-- The 32-byte header of a GMP message (R406). -/
def gmpHeader (flags msg session seq tag len : Nat) : Bytes :=
  [0x01#8] ++ leBytes 1 flags ++ leBytes 2 msg ++ leBytes 4 session ++ leBytes 8 seq ++ leBytes 4 tag ++ leBytes 4 len ++ leBytes 8 0

/-- A session changed in place. -/
def Dev.modSession (d : Dev) (n : Nat) (f : Session → Session) : Dev :=
  d.modKeeper (fun k => { k with sessions := k.sessions.map (fun s => if s.number = n then f s else s) })

def Dev.session (d : Dev) (n : Nat) : Option Session := d.keeper.sessions.find? (fun s => s.number == n)

/-- One message on a session under the key of its direction (R406). -/
def Dev.gmpSend (d : Dev) (s : Session) (flags msg tag : Nat) (body : Bytes) : Dev :=
  let seq := s.seqOut + 1
  let h := gmpHeader flags msg s.number seq tag body.length
  ((d.send (.gmp s.port s.source s.addr s.udp flags msg s.number seq tag body (hmacSm3 s.macOut (h ++ body)))).gmpCross s.port true s.addr s.udp
    (64 + body.length) (h ++ body ++ hmacSm3 s.macOut (h ++ body))).modSession s.number (fun x => { x with seqOut := seq })

/-- An unsolicited message from the device (R406 flags[1]). -/
def Dev.gmpNotify (d : Dev) (s : Session) (msg : Nat) (body : Bytes) : Dev :=
  d.gmpSend s 2 msg (Config.eventTag s.number (s.seqOut + 1) % 2 ^ 32) body

/-! ### Sources (R358, R359) -/

/-- The reset domains that severity 4 resets (R359, R367). -/
inductive Domain where
  | none
  | link
  | basin
  | tarn
  | stack
  | job
  deriving DecidableEq, Repr

/-- A fault source: default, lowest and highest severity, and its domain (R359). -/
structure Source where
  dflt : Nat
  min : Nat
  max : Nat
  dom : Domain := .none
  deriving DecidableEq, Repr

/-- The table of R359, the context sources apart. -/
def sourceTable : Table Source := [
  (0x0101, ⟨2, 2, 5, .link⟩), (0x0102, ⟨0, 0, 2, .link⟩), (0x0103, ⟨1, 1, 4, .link⟩), (0x0104, ⟨2, 1, 4, .link⟩),
  (0x0201, ⟨2, 2, 4, .link⟩), (0x0202, ⟨1, 1, 4, .link⟩), (0x0203, ⟨2, 2, 4, .link⟩), (0x0204, ⟨2, 2, 4, .link⟩),
  (0x0205, ⟨2, 2, 4, .link⟩), (0x0206, ⟨0, 0, 2, .none⟩), (0x0207, ⟨0, 0, 2, .none⟩),
  (0x0401, ⟨3, 3, 5, .basin⟩), (0x0402, ⟨2, 2, 5, .none⟩), (0x0403, ⟨2, 2, 3, .none⟩),
  (0x0501, ⟨3, 3, 5, .tarn⟩), (0x0502, ⟨4, 4, 5, .tarn⟩), (0x0503, ⟨4, 4, 5, .job⟩),
  (0x0601, ⟨1, 0, 2, .none⟩), (0x0602, ⟨3, 3, 5, .stack⟩), (0x0603, ⟨4, 4, 5, .stack⟩), (0x0604, ⟨2, 1, 2, .none⟩),
  (0x0605, ⟨4, 4, 5, .stack⟩), (0x0606, ⟨4, 4, 5, .job⟩),
  (0x0701, ⟨2, 1, 2, .none⟩), (0x0702, ⟨1, 0, 2, .none⟩), (0x0703, ⟨0, 0, 2, .none⟩), (0x0704, ⟨0, 0, 2, .none⟩),
  (0x0705, ⟨0, 0, 2, .none⟩), (0x0706, ⟨2, 1, 2, .none⟩),
  (0x0801, ⟨0, 0, 2, .none⟩), (0x0802, ⟨0, 0, 2, .none⟩), (0x0803, ⟨0, 0, 2, .none⟩), (0x0804, ⟨0, 0, 2, .none⟩),
  (0x0805, ⟨0, 0, 2, .none⟩), (0x0806, ⟨0, 0, 2, .none⟩), (0x0901, ⟨2, 0, 2, .none⟩)] ++ [
  (0x0A01, ⟨1, 0, 2, .none⟩), (0x0A02, ⟨3, 3, 5, .none⟩), (0x0A03, ⟨2, 2, 5, .none⟩), (0x0A04, ⟨4, 4, 5, .job⟩),
  (0x0B01, ⟨0, 0, 2, .none⟩), (0x0B02, ⟨2, 1, 5, .none⟩), (0x0B03, ⟨1, 0, 2, .none⟩), (0x0B04, ⟨5, 5, 5, .none⟩),
  (0x0B05, ⟨5, 5, 5, .none⟩),
  (0x0C01, ⟨0, 0, 2, .none⟩), (0x0C02, ⟨5, 5, 5, .none⟩), (0x0C03, ⟨1, 0, 2, .none⟩),
  (0x0D01, ⟨2, 0, 2, .none⟩), (0x0D02, ⟨2, 0, 2, .none⟩), (0x0D03, ⟨2, 0, 2, .none⟩), (0x0D04, ⟨2, 0, 2, .none⟩),
  (0x0D05, ⟨2, 0, 2, .none⟩),
  (0x0E01, ⟨2, 1, 2, .none⟩), (0x0E02, ⟨2, 1, 2, .none⟩), (0x0E03, ⟨2, 1, 2, .none⟩)]

/-- Whether a number is a fault source (R359). -/
def isSource (src : Nat) : Bool := thas sourceTable src || (decide (0x0301 ≤ src) && decide (src ≤ 0x030D))

/-- A source's row of R359; the CONTEXT sources default to 3, those of an abort on request to 0. -/
def sourceOf (src : Nat) : Source :=
  if 0x0301 ≤ src ∧ src ≤ 0x030D then
    ⟨if src = 0x0308 ∨ src = 0x030C ∨ src = 0x030D then 0 else 3, 0, 3, .none⟩
  else tget ⟨0, 0, 0, .none⟩ sourceTable src

/-- The configured severity: FAULT_CONFIG's, or the default (R362). -/
def Dev.configured (d : Dev) (src : Nat) : Nat :=
  match d.faultEntry src with
  | some e => u8 e 2
  | none => (sourceOf src).dflt

/-- A fault to be recorded (R363). A field that does not apply keeps its default. -/
structure FaultRec where
  source : Nat
  unit : Option Nat := none
  ctx : Option Nat := none
  job : Option Nat := none
  channel : Nat := 0
  status : Nat := 0
  sequence : Nat := 0
  step : Nat := noStep
  micro : Nat := 0xFFFF
  detail : Bytes := []
  cleared : Bool := false
  deriving DecidableEq, Repr

def FaultRec.cls (r : FaultRec) : Nat := r.source / 256

/-- The effective severity (R361). -/
def Dev.effective (d : Dev) (r : FaultRec) : Nat :=
  if r.cleared then 0
  else if (tget {} d.faults.classes r.cls).unacked then max (d.configured r.source) (min (d.configured r.source + 1) (sourceOf r.source).max)
  else d.configured r.source

/-- The severity byte of a record (R363). -/
def severityByte (eff conf : Nat) (cleared : Bool) : Nat :=
  pack [(0, eff), (3, conf), (6, b2n (decide (conf < eff))), (7, b2n cleared)]

/-- The 64 bytes of a fault record (R363). -/
def Dev.faultBytes (d : Dev) (r : FaultRec) (eff : Nat) : Bytes :=
  leBytes 8 d.faults.eventSeq ++ leBytes 8 d.gtc ++ leBytes 2 r.source ++
    leBytes 1 (severityByte eff (d.configured r.source) r.cleared) ++
    leBytes 1 (pack [(0, b2n d.gtcValid), (1, b2n r.job.isSome), (2, b2n r.ctx.isSome), (3, b2n r.unit.isSome)]) ++
    leBytes 2 (r.unit.getD 0) ++ leBytes 2 (r.ctx.getD 0) ++ leBytes 1 (r.job.getD 0) ++ leBytes 1 r.channel ++ leBytes 2 r.status ++
    leBytes 4 r.sequence ++ leBytes 6 r.step ++ leBytes 2 r.micro ++ (r.detail ++ List.replicate 24 0#8).take 24

/-- FAULT_CLASS after a fault (R360 level 1, R365). A cleared report changes nothing (R361). -/
def FaultClass.raise (c : FaultClass) (src eff : Nat) : FaultClass :=
  { unacked := true, maxSeverity := max c.maxSeverity eff, lastSource := src,
    count := if 1 ≤ eff then min (c.count + 1) (2 ^ 40 - 1) else c.count }

/-- The UNIT_STATUS entry that a fault's class and unit name (R366). -/
def FaultRec.unitKey (r : FaultRec) : Option Nat :=
  match r.cls with
  | 4 => r.unit
  | 5 => r.unit.map tarnUnit
  | 6 => r.unit.map stackUnit
  | _ => none

/-- The unit's status word records a fault of severity 2 or above (R360). -/
def Dev.unitFault (d : Dev) (r : FaultRec) (eff : Nat) : Dev :=
  match r.unitKey with
  | some u => if 2 ≤ eff then d.modUnit u (fun x => { x with lastSource := r.source, faults := min (x.faults + 1) 0xFFFF }) else d
  | none => d

/-- The level ALERT_N is driven to (R362): low while a class is unacknowledged at alert_level or above, or held low; a
pin released for the boot is not driven (R495). -/
def Dev.alertWanted (d : Dev) : Bool :=
  !d.power.alertReleased &&
    (d.faults.alertForce || d.faults.classes.any (fun c => c.2.unacked && decide (d.alertLevel ≤ c.2.maxSeverity)))

/-- ALERT_N follows (R362, R364). -/
def Dev.updAlert (d : Dev) : Dev :=
  if d.alertWanted = d.faults.alertLow then d
  else (d.send (.alert d.alertWanted)).modFaults (fun f => { f with alertLow := !f.alertLow })

/-- The sessions that a record of effective severity `eff` goes to (R412). -/
def Dev.eventSessions (d : Dev) (eff : Nat) : List Session :=
  if d.keeper.up then d.keeper.sessions.filter (fun s => s.confirmed && s.events && decide (s.minSeverity ≤ eff)) else []

/-- A record in the ring, the oldest overwritten when 1,024 are held (R364); it is delivered when a session takes it. -/
def Faults.put (f : Faults) (bytes : Bytes) (delivered : Bool) : Faults :=
  { f with
    ring := (if f.ring.length < 1024 then f.ring else f.ring.drop 1) ++ [{ seq := f.eventSeq, bytes := bytes, delivered := delivered }],
    eventSeq := f.eventSeq + 1 }

/-- Whether the next record overwrites an unread one (R364). -/
def Faults.losesUnread (f : Faults) : Bool :=
  decide (1024 ≤ f.ring.length) && (match f.ring with | e :: _ => !e.delivered | [] => false)

/-- One record written to the ring, sent, and traced (R360 level 0, R364, R446 type 0x08, R450 bit 3). -/
def Dev.writeRecord (d : Dev) (r : FaultRec) : Dev :=
  let eff := d.effective r
  let bytes := d.faultBytes r eff
  let body := leBytes 2 r.source ++ leBytes 1 (severityByte eff (d.configured r.source) r.cleared) ++ leBytes 1 0 ++
    leBytes 2 (r.ctx.getD 0) ++ leBytes 2 r.status ++ leBytes 8 d.faults.eventSeq
  let dest := d.eventSessions eff
  let d := (d.modFaults (fun f => f.put bytes (decide (dest ≠ [])))).modFaults (fun f =>
    if r.cleared then f else { f with classes := tmod {} f.classes r.cls (fun c => c.raise r.source eff) })
  let d := (d.unitFault r eff).updAlert
  let d := dest.foldl (fun d s => match d.session s.number with | some s => d.gmpNotify s 0x0080 bytes | none => d) d
  let d := d.siltWrite { typ := 0x08, unit := r.unit.getD 0, job := r.job.getD 0, body := body } eff
  if !r.cleared && decide (d.trigSeverity ≤ 5) && decide (d.trigSeverity ≤ eff) then d.siltTrigger 8 else d

/-- A fault recorded, with the EVENT_OVERWRITE that its writing may cause (R364). The actions of severity 3 and above
are `raiseFault`'s. -/
def Dev.recordFault (d : Dev) (r : FaultRec) : Dev :=
  if d.faults.losesUnread && !d.faults.overwriteRaised then
    ((d.writeRecord r).modFaults (fun f => { f with overwriteRaised := true })).writeRecord { source := 0x0C03 }
  else d.writeRecord r

/-- The acknowledgement of a class (R361, R365), and for class MGMT of the overwrite mark (R364). -/
def Dev.ackClass (d : Dev) (c : Nat) : Dev :=
  (d.modFaults (fun f =>
    { f with classes := if (tget {} f.classes c).unacked then tmod {} f.classes c (fun x => { x with unacked := false, maxSeverity := 0 })
                        else f.classes,
             overwriteRaised := if c = 0x0C then false else f.overwriteRaised })).updAlert

/-- ALERT_N held low whatever the classes say, or let go (R480, R484, R496). -/
def Dev.forceAlert (d : Dev) (on : Bool) : Dev := (d.modFaults (fun f => { f with alertForce := on })).updAlert

/-! ### Ready reporting (R403, R404) -/

/-- A change of a ready bit starts the 1 ms of coalescing. -/
def Dev.noteReady (d : Dev) : Dev :=
  if d.keeper.readyTick.isNone && decide (d.readyWords ≠ d.keeper.readySent) then
    d.modKeeper (fun k => { k with readyTick := some d.time })
  else d

/-! ### Timing-inexact causes (R219) -/

/-- Whether a step of the job runs at this device: from its launch cycle to the end of its span, or to the commit token that ends it. -/
def Job.running (j : Job) : Bool := j.rcStep != noStep && (j.runSection.isSome || (decide (1 ≤ j.rcPhase) && decide (j.rcPhase ≤ 4)))

/-- A cause of R219 in the running step, with its Silt record at the first occurrence. -/
def Dev.markJob (d : Dev) (j cause : Nat) : Dev :=
  let x := d.job j
  if x.running && !bit x.causes cause then
    (d.modJob j (fun x => { x with causes := x.causes + 2 ^ cause })).siltWrite
      { typ := 0x01, job := j, body := leBytes 6 x.rcStep ++ leBytes 1 cause ++ leBytes 1 0 ++ leBytes 4 (min (max x.lag0 x.lag1) 0xFFFFFFFF) ++
          leBytes 4 0 }
  else d

/-- The numbers of the jobs that are not EMPTY. -/
def Dev.loaded (d : Dev) : List Nat := (d.jobs.filter (fun e => e.2.state != .empty)).map (·.1)

/-- A cause in every running step. -/
def Dev.markSteps (d : Dev) (cause : Nat) : Dev := d.loaded.foldl (fun d j => d.markJob j cause) d

end Sys2Proof.Machine
end

