-- ==== Sys2Proof/Machine/Pool.lean ====
section
/-! DEFINITION. The staging pool: block allocation, quotas, reservations and what a refused request counts (R310 to R315). -/

namespace Sys2Proof.Machine

/-- The code of a context, a Tarn and a port as a requester (R313). -/
def ctxHolder (c : Nat) : Nat := c
def tarnHolder (t : Nat) : Nat := 8192 + t
def portHolder (p : Nat) : Nat := 16384 + p

/-- The smallest pool whose blocks hold `b` bytes (R311). -/
def poolFor (b : Nat) : Nat := if b ≤ 256 then 0 else if b ≤ 1024 then 1 else if b ≤ 4096 then 2 else 3

/-- The pools an item of `b` bytes starts from: one block, or a 16 KiB block and one for the rest (R311). -/
def poolsFor (b : Nat) : List Nat := if b ≤ 16384 then [poolFor b] else [3, poolFor (b - 16384)]

/-- Payload bytes of `n` elements in an Outflow format (R153). -/
def outPayload (fmt n : Nat) : Nat :=
  match fmt with
  | 0 => 4 * n
  | 4 => 33 * ceilDiv n 32
  | 5 => 33 * ceilDiv n 32
  | 6 => 4 * n
  | _ => 2 * n

/-! ### The job's reservation (R314) -/

/-- The fan-out ports of a channel for WEIGHTS fragments (R280). -/
def Job.fanPorts (x : Job) (chan kind : Nat) : List Nat :=
  match x.fanEntries.find? (fun e => fnChannel e == chan && fnKind e == kind) with
  | some e => (List.range 96).filter (fun p => bit (fnMask e) p)
  | none => []

/-- The largest WEIGHTS fragment of a channel and the largest VERDICT_RESULT fragment, headers included (R150, R153). -/
def Job.outFragBytes (x : Job) (chan : Nat) : Nat :=
  ((x.tensorEntries.filter (fun e => tnChannel e == chan)).map (fun e => 80 + outPayload (tnFormat e) (min 4096 (tnChunk e)))).foldl max 0
def Job.resultBytes (x : Job) : Nat := 80 + 4 * min 4096 x.vecWordCount

/-- A fragment held by one requester until the channel's TX slots have moved it to every port of the fan-out, with its size. -/
structure ResHold where
  holder : Nat
  channel : Nat
  ports : List Nat
  bytes : Nat
  deriving DecidableEq, Repr

/-- The sizes of a chunk's Outflow fragments. -/
def Job.chunkSizes (x : Job) (c : Nat) : List Nat :=
  let e := x.tensor (owTensor (x.chunk c))
  let n := x.chunkElems c
  (List.range (ceilDiv n 4096)).map (fun i => 80 + outPayload (tnFormat e) (min 4096 (n - 4096 * i)))

/-- Blocks that a list of holds takes, by 4 · holder + pool. -/
def resUse (l : List ResHold) : Table Nat :=
  l.foldl (fun t h => (poolsFor h.bytes).foldl (fun t q => tmod 0 t (4 * h.holder + q) (· + 1)) t) []

/-- The flits that fit in a slot's length (R304, R309). -/
def slRoom (e : Bytes) : Nat := slLength e * 75 / 64

/-- The fragments of a channel that an RX slot can bring: of each kind that has a fan-out, as many as its length holds; of
VERDICT_RESULT at most those of the vector. -/
def Job.rxHolds (x : Job) (e : Bytes) : List ResHold :=
  let ch := slChannel e
  let holds (kind bytes most : Nat) : List ResHold :=
    if x.fanPorts ch kind = [] then []
    else List.replicate (min most (max 1 (slRoom e / flitsOf bytes)))
      { holder := portHolder (resUnit (slResource e)), channel := ch, ports := x.fanPorts ch kind, bytes := bytes }
  let n := x.outFragBytes ch
  holds 0 n (if n = 0 then 0 else slRoom e) ++ holds 1 x.resultBytes (ceilDiv x.vecWordCount 4096)

/-- What a TX slot of port `u` moves of what is held: the oldest fragments of its channel, as many as its `room` of flits holds. -/
def txHolds (ch u : Nat) : Nat → List ResHold → List ResHold
  | _, [] => []
  | room, h :: r =>
    let n := flitsOf h.bytes
    if h.channel = ch ∧ h.ports.contains u = true ∧ n ≤ room then
      let rest := h.ports.filter (· ≠ u)
      (if rest = [] then [] else [{ h with ports := rest }]) ++ txHolds ch u (room - n) r
    else h :: txHolds ch u (if h.channel = ch ∧ h.ports.contains u = true then 0 else room) r

/-- One tail entry of the walk. A TARN entry that is the last one of its chunk forms the chunk's fragments; an RX entry of a channel with a
fan-out brings as many as its length holds; a TX entry moves as many of those held for its port (DEDUCED, log entry 21). -/
def Job.resStep (x : Job) (tail : List Bytes) (acc : List ResHold × Table Nat) (i : Nat) : List ResHold × Table Nat :=
  let e := nth tail i
  let u := resUnit (slResource e)
  let holds :=
    match slKind e with
    | 4 =>
      if (tail.drop (i + 1)).any (fun f => slKind f == 4 && slChunk f == slChunk e) then acc.1
      else
        let ch := tnChannel (x.tensor (owTensor (x.chunk (slChunk e))))
        if x.fanPorts ch 0 = [] then acc.1
        else acc.1 ++ (x.chunkSizes (slChunk e)).map (fun n => { holder := tarnHolder u, channel := ch, ports := x.fanPorts ch 0, bytes := n })
    | 1 => acc.1 ++ x.rxHolds e
    | 2 => txHolds (slChannel e) u (slRoom e) acc.1
    | _ => acc.1
  (holds, (resUse holds).foldl (fun t kv => tmod 0 t kv.1 (max kv.2)) acc.2)

/-- The reservation by 4 · holder + pool: the greatest number held at once, and one fragment more for launch skew. -/
def Job.reservation (x : Job) : Table Nat :=
  let tail := scTailSlots x.sched
  let peak := ((List.range tail.length).foldl (x.resStep tail) ([], [])).2
  let big := (x.tensorEntries.map tnChannel).eraseDups.foldl (fun m c => max m (x.outFragBytes c))
    (if x.fanEntries.any (fun e => fnKind e == 1) then x.resultBytes else 0)
  let holders := (peak.map (fun kv => kv.1 / 4)).eraseDups
  if big = 0 then peak
  else holders.foldl (fun t h => (poolsFor big).foldl (fun t q => tmod 0 t (4 * h + q) (· + 1)) t) peak

/-- A job's reservation in one pool, over all its requesters. -/
def Job.reserveIn (x : Job) (q : Nat) : Nat := ((x.reservation.filter (fun kv => kv.1 % 4 == q)).map (·.2)).sum

/-! ### Requests (R312, R313, R315) -/

/-- Acts of a pool in one core cycle, allocations or frees (R312). -/
def poolActs : Nat := 16

/-- The cycle and number of a pool's next act: the seventeenth of a cycle waits for the next one (R312). -/
def nextAct (now : Nat) (a : Nat × Nat) : Nat × Nat :=
  if a.1 < now then (now, 1) else if a.2 < poolActs then (a.1, a.2 + 1) else (a.1 + 1, 1)

/-- The blocks that cannot be had in a cycle: those taken, and those whose free has not yet taken effect. -/
def BlockPool.takenAt (p : BlockPool) (cycle : Nat) : List Nat := p.used ++ (p.resting.filter (fun b => decide (cycle < b.2))).map (·.1)
def Dev.usedAt (d : Dev) (q cycle : Nat) : List Nat := (tget {} d.pool.pools q).takenAt cycle
/-- f of R313 now. -/
def Dev.freeIn (d : Dev) (q : Nat) : Nat := d.poolBlocks q - (d.usedAt q d.time).length
/-- The cycle in which a pool's next allocation is served, and f then. -/
def Dev.serveCycle (d : Dev) (q : Nat) : Nat := (nextAct d.time (tget {} d.pool.pools q).served).1
def Dev.freeThen (d : Dev) (q : Nat) : Nat := d.poolBlocks q - (d.usedAt q (d.serveCycle q)).length
/-- Blocks of pool `q` that a job's reservation holds now. -/
def Dev.resHeld (d : Dev) (j q : Nat) : Nat :=
  ((d.pool.holdings.filter (fun h => h.reserved && h.job == j)).map (fun h => (h.blocks.filter (fun b => b.1 == q)).length)).sum
/-- ρ of R313. -/
def Dev.outstanding (d : Dev) (q : Nat) : Nat :=
  ((d.jobs.filter (fun e => e.2.state != .empty)).map (fun e => e.2.reserveIn q - d.resHeld e.1 q)).sum

/-- Blocks of pool `q` that a requester holds of a job's reservation. -/
def Dev.heldOf (d : Dev) (holder j q : Nat) : Nat :=
  ((d.pool.holdings.filter (fun h => h.reserved && h.job == j && h.holder == holder)).map (fun h => (h.blocks.filter (fun b => b.1 == q)).length)).sum

/-- The bytes of all blocks charged to a requester. -/
def Dev.charge (d : Dev) (holder : Nat) (reserved : Bool) : Nat :=
  ((d.pool.holdings.filter (fun h => h.holder == holder && h.reserved == reserved)).map
    (fun h => (h.blocks.map (fun b => blockSize b.1)).sum)).sum

/-- Who asks (R313). -/
inductive Asker where
  | reservation (job : Nat)
  | keeper
  | context (job quota : Nat)
  deriving DecidableEq, Repr

def Asker.job : Asker → Nat
  | .reservation j => j
  | .keeper => 0
  | .context j _ => j

def Asker.reserved : Asker → Bool
  | .reservation _ => true
  | _ => false

/-- The table of R313: whether pool `q` serves one block; `more` is what the same request has already been given. -/
def Dev.poolServes (d : Dev) (a : Asker) (holder more q : Nat) : Bool :=
  match a with
  | .reservation j => decide (0 < d.freeThen q) &&
      decide (d.heldOf holder j q + (if more = blockSize q then 1 else 0) < tget 0 (d.job j).reservation (4 * holder + q))
  | .keeper => decide (d.outstanding q < d.freeThen q) &&
      decide (d.charge holder false + more + blockSize q ≤ d.portQuota * 1024)
  | .context _ quota => decide (d.poolFloor q + d.outstanding q < d.freeThen q) &&
      decide (d.charge holder false + more + blockSize q ≤ quota)

/-- The lowest free block of a list of taken ones (R312). -/
def lowestFree (used : List Nat) : Nat := ((List.range (used.length + 1)).find? (fun n => !used.contains n)).getD 0

/-- A block of pool `q` marked as taken, in the cycle that serves it. -/
def Dev.takeBlock (d : Dev) (q : Nat) : (Nat × Nat) × Dev :=
  let n := lowestFree (d.usedAt q (d.serveCycle q))
  ((q, n), { d with pool := { d.pool with pools := tmod {} d.pool.pools q (fun p =>
    { p with used := n :: p.used, resting := p.resting.filter (fun b => b.1 != n), served := nextAct d.time p.served }) } })

/-- One block from the first pool, of those from `q` upward, that serves (R311). -/
def Dev.oneBlock (d : Dev) (a : Asker) (holder more q : Nat) : Option ((Nat × Nat) × Dev) :=
  match ([0, 1, 2, 3].filter (fun r => decide (q ≤ r))).find? (fun r => d.poolServes a holder more r) with
  | none => none
  | some r =>
    let (b, d) := d.takeBlock r
    some (b, (d.countPool r 0 1).countPool q 1 (b2n (decide (q < r))))

/-- How a request ends (R315). -/
inductive PoolAnswer where
  | taken
  | overQuota
  | refused
  deriving DecidableEq, Repr

/-- Whether a request of `b` bytes would pass the requester's own quota even with the smallest blocks. -/
def Dev.overQuota (d : Dev) (a : Asker) (holder b : Nat) : Bool :=
  let need := ((poolsFor b).map blockSize).sum
  match a with
  | .reservation _ => false
  | .keeper => decide (d.portQuota * 1024 < d.charge holder false + need)
  | .context _ quota => decide (quota < d.charge holder false + need)

/-- A held item is given its blocks, all or none (R311). -/
def Dev.poolTake (d : Dev) (a : Asker) (holder item b : Nat) : PoolAnswer × Dev :=
  let record (bs : List (Nat × Nat)) (d : Dev) : PoolAnswer × Dev :=
    (.taken, { d with pool := { d.pool with holdings := d.pool.holdings ++
      [{ holder := holder, item := item, job := a.job, reserved := a.reserved, blocks := bs }] } })
  let refuse (q : Nat) : PoolAnswer × Dev := (if d.overQuota a holder b then .overQuota else .refused, d.countPool q 2 1)
  match poolsFor b with
  | [q] =>
    match d.oneBlock a holder 0 q with
    | some (x, d) => record [x] d
    | none => refuse q
  | [q, r] =>
    match d.oneBlock a holder 0 q with
    | some (x, d') =>
      match d'.oneBlock a holder (blockSize x.1) r with
      | some (y, d') => record [x, y] d'
      | none => refuse r
    | none => refuse q
  | _ => (.taken, d)

/-- A block is freed: it can be taken from the start of the cycle after the one that serves the free (R312). -/
def BlockPool.free (p : BlockPool) (now n : Nat) : BlockPool :=
  let a := nextAct now p.freed
  { p with used := p.used.erase n, resting := p.resting.filter (fun b => decide (now < b.2)) ++ [(n, a.1 + 1)], freed := a }

/-- The blocks of every holding that meets a condition are freed (R312). -/
def Dev.poolFree (d : Dev) (p : Holding → Bool) : Dev :=
  let gone := (d.pool.holdings.filter p).flatMap Holding.blocks
  { d with
    pool :=
      { holdings := d.pool.holdings.filter (fun h => !p h),
        pools := gone.foldl (fun t b => tmod {} t b.1 (fun q => q.free d.time b.2)) d.pool.pools } }

/-- Items of one requester freed. -/
def Dev.poolFreeItem (d : Dev) (holder item : Nat) : Dev := d.poolFree (fun h => h.holder == holder && h.item == item)

end Sys2Proof.Machine
end

