-- ==== Sys2Proof/Machine/Packet.lean ====
section
/-! DEFINITION. Packets that the device sends of itself: flits into an output queue (R260 to R264, R302), the wake of a sleeping
direction (R247), and the identity that training frames carry (R237, R392). -/

namespace Sys2Proof.Machine

/-- The identity digest and its low 56 bits (R392). -/
def Keeper.identityDigest (k : Keeper) : Bytes := sm3 (0x49#8 :: k.identityPub)
def Keeper.devId (k : Keeper) : Nat := fld k.identityDigest 0 7

/-- The info field of a training frame, for one lane (R237). -/
def Dev.trainingInfo (d : Dev) (p lane rxReady countdown : Nat) : Nat :=
  let v := pack [(0, lane), (4, p), (12, (d.port p).rxMask), (21, rxReady), (22, countdown), (32, d.keeper.devId), (88, d.rackId)]
  v + crc16 112 v * 2 ^ 112

/-- The number of the training frame that a port's lanes send now: frames of 64 ticks have gone out since the one listed last. -/
def Port.trainIndex (x : Port) (now : Nat) : Nat :=
  x.trainNext + (match x.trainTime with | some t => (now - t) / 64 - 1 | none => 0)

/-- One training frame on every lane whose transmit ring is locked (R236 to R238). -/
def Dev.sendTraining (d : Dev) (p rxReady countdown : Nat) : Dev :=
  let x := d.port p
  let k := x.trainIndex d.time
  let lanes := ((List.range 9).filter (fun l => !x.txBad.contains l)).map (fun l =>
    let info := d.trainingInfo p l rxReady countdown
    (l, info, trainLevels l k info))
  (d.send (.training p lanes)).modPort p (fun x => { x with trainNext := k + 1, trainTime := some d.time })

/-- A transmit direction's sleep ends: its ticks are counted (R438). -/
def Dev.endSleep (d : Dev) (p : Nat) : Dev :=
  let x := d.port p
  let n := d.tick - x.sleepSince
  let d := if x.txSleep = 1 then d.countPort p 0x31 n else if x.txSleep = 2 then d.countPort p 0x32 n else d
  d.modPort p (fun x => { x with txSleep := 0, wakeTick := 0, precoder := [], trainTime := none })

/-- The exit training of a sleep state: 2 frames for S1, 16 for S2 (R245). -/
def Dev.exitTraining (d : Dev) (p : Nat) : Dev :=
  forN (if (d.port p).txSleep = 1 then 2 else 16) (fun _ d => d.sendTraining p 1 0) d

/-- A VC6 frame or an abort notice wakes a sleeping direction at once (R247). -/
def Dev.wake (d : Dev) (p : Nat) : Dev :=
  if (d.port p).txSleep = 0 then d else ((d.exitTraining p).endSleep p).countPort p 0x1A 1

/-- The flits of a packet (R260, R262); `bad` ends it with TAIL_BAD. -/
def packetFlits (bytes : Bytes) (bad : Bool) : List QFlit :=
  let cs := (chunksOf 64 bytes).map (fun c => (c ++ List.replicate 64 0#8).take 64)
  let n := cs.length
  (List.range n).map (fun i =>
    { ftype := if n = 1 then (if bad then 6 else 4) else if i = 0 then 1 else if i + 1 = n then (if bad then 6 else 3) else 2,
      data := cs.getD i [] })

/-! ### Writes of the crossbar (R303, R304, R321) -/

/-- Writes to an output and reads from an input in one link frame, and those of its writes that a TX slot makes at most. -/
def crossFlits : Nat := 150
def feedFlits : Nat := 75

/-- The link frame of 64 ticks that the crossbar is in (DESIGN CHOICE, log entry 63), and what a count holds of it. -/
def Dev.frameNo (d : Dev) : Nat := d.time / 64
def inFrame (c : Nat × Nat) (f : Nat) : Nat := if c.1 = f then c.2 else 0

def Dev.writesLeft (d : Dev) (p : Nat) : Nat := crossFlits - inFrame (d.port p).wrote d.frameNo
def Dev.readsLeft (d : Dev) (p : Nat) : Nat := crossFlits - inFrame (d.port p).readIn d.frameNo

/-- `n` writes to an output are counted. -/
def Dev.wrote (d : Dev) (p n : Nat) : Dev := d.modPort p (fun x => { x with wrote := (d.frameNo, inFrame x.wrote d.frameNo + n) })

/-- Flits linked into an output queue (R303). -/
def Dev.relink (d : Dev) (p vc : Nat) (fl : List QFlit) : Dev := d.modPort p (fun x => { x with outQ := tmod [] x.outQ vc (· ++ fl) })

/-- Flits written into an output queue (R302, QUEUE_WR_BYTES). -/
def Dev.enqueue (d : Dev) (p vc : Nat) (fl : List QFlit) : Dev := (d.relink p vc fl).countDev 0x102 (64 * fl.length)

/-- Flits that TX slots move are written to their output queues, 75 at most in a link frame (R304 item 1). -/
def Dev.feedTo (d : Dev) (p : Nat) : Dev :=
  let n := min (feedFlits - inFrame (d.port p).fed d.frameNo) (d.writesLeft p)
  let fl := (d.port p).feed.take n
  if fl = [] then d
  else ((fl.foldl (fun d f => d.enqueue p f.1 [f.2]) d).wrote p fl.length).modPort p (fun x =>
    { x with feed := x.feed.drop n, fed := (d.frameNo, inFrame x.fed d.frameNo + fl.length) })

/-- A packet that a TX slot moves starts on its output port. An output of a use carries the use's mark. -/
def Dev.sendPacket (d : Dev) (p vc : Nat) (bytes : Bytes) (use : Option (Nat × Nat × Nat) := none) : Dev :=
  (((d.send (.packet p vc bytes false)).modPort p (fun x =>
    { x with feed := x.feed ++ (packetFlits bytes false).map (fun f => (vc, { f with use := use })) })).feedTo p).mirror true p (some (bytes.take 16)) bytes

/-! ### The Keeper's own frames (R302, R308) -/

/-- The device reserve. -/
def reserveCells : Nat := 32768

def OwnFrame.cells (f : OwnFrame) : Nat := match f.rdma with | some w => w.flits | none => f.flits.length

/-- Cells of the reserve that checkpoint packets waiting at their ports take. -/
def Dev.rdmaCells (d : Dev) : Nat :=
  (d.ports.map (fun e => ((e.2.waiting.filter (fun w => w.rdma.isSome)).map Waiting.flits).sum)).sum

/-- Whether a VC6 frame can be written to its output queue now. -/
def Dev.vc6Room (d : Dev) (f : OwnFrame) : Bool :=
  decide ((tget [] (d.port f.port).outQ 6).length + f.flits.length ≤ d.outLimit f.port 6) && decide (f.flits.length ≤ d.writesLeft f.port)

/-- A VC6 frame is written to its output queue. -/
def Dev.putVc6 (d : Dev) (f : OwnFrame) : Dev :=
  (((d.send (.packet f.port 6 f.bytes false)).enqueue f.port 6 f.flits).wrote f.port f.flits.length).mirror true f.port (some (f.bytes.take 16)) f.bytes

/-- The Keeper's frames in their order, with `used` cells taken and VC6 frames of the ports `held` kept back: those that have cells go on,
and those behind a full reserve wait. -/
def admitOwn : List OwnFrame → Nat → List Nat → Dev → Dev × List OwnFrame
  | [], _, _, d => (d, [])
  | f :: r, used, held, d =>
    if reserveCells < used + f.cells then (d, f :: r)
    else match f.rdma with
      | some w => admitOwn r (used + f.cells) held (d.modPort f.port (fun x => { x with waiting := x.waiting ++ [w] }))
      | none =>
        if !held.contains f.port && d.vc6Room f then admitOwn r used held (d.putVc6 f)
        else
          let z := admitOwn r (used + f.cells) (f.port :: held) d
          (z.1, f :: z.2)

/-- The Keeper's frames go on as far as they can. -/
def Dev.moveOwn (d : Dev) : Dev :=
  if d.own = [] then d
  else
    let z := admitOwn d.own d.rdmaCells [] { d with own := [] }
    { z.1 with own := z.2 }

/-- Frames of the Keeper's own join those that wait. -/
def Dev.sendOwn (d : Dev) (fs : List OwnFrame) : Dev := ({ d with own := d.own ++ fs } : Dev).moveOwn

/-- hops_left and flow_label of a packet that the device injects: free within their ranges (log entry 5). A SYNC frame is
sent with hops_left 1 (R265). -/
def hopsFor (cls job : Nat) : Nat := if cls = 3 then 1 else 1 + Config.firstHops cls job % 63
def labelFor (cls job : Nat) : Nat := Config.flowLabel cls job % 2 ^ 32

/-- The route header of an injected packet (R263). -/
def routeFor (cls job dst vc : Nat) (content : Bytes) : Bytes :=
  mkRoute cls (if cls = 3 then 0 else job) dst 0 content.length vc 0 (hopsFor cls job) (labelFor cls job)

/-- A packet on VC6, which wakes the direction (R247, R266). -/
def Dev.sendVc6 (d : Dev) (p cls job : Nat) (content : Bytes) : Dev :=
  let b := routeFor cls job 0 6 content ++ content
  (d.wake p).sendOwn [{ port := p, bytes := b, flits := packetFlits b false }]

/-! ### Silt records that several families write -/

/-- CTX_STATE (R446 type 0x0A). -/
def Dev.siltCtx (d : Dev) (c : Nat) (was : CtxState) : Dev :=
  let x := d.ctx c
  d.siltWrite { typ := 0x0A, unit := c, job := x.job, die := resDie (0x2000 + min x.basin 49),
                body := leBytes 1 was.code ++ leBytes 1 x.state.code ++ leBytes 2 x.status ++ leBytes 4 x.sequence ++
                  leBytes 2 x.generation ++ leBytes 6 0 }

/-- LINK_STATE (R446 type 0x0B). -/
def Dev.siltLink (d : Dev) (p : Nat) (was : LinkState) : Dev :=
  d.siltWrite { typ := 0x0B, unit := p, die := resDie p,
                body := leBytes 1 was.code ++ leBytes 1 (d.port p).state.code ++ leBytes 1 (d.port p).cause ++ leBytes 13 0 }

/-- GTC_STATE (R446 type 0x05). -/
def Dev.siltGtc (d : Dev) (was : GtcState) : Dev :=
  d.siltWrite { typ := 0x05, body := leBytes 1 was.code ++ leBytes 1 d.clock.state.code ++ leBytes 1 d.clock.cause ++
                  leBytes 1 d.clock.upstream ++ leBytes 12 0 }

/-- GTC_STEP (R446 type 0x04). -/
def Dev.siltStep (d : Dev) (before : Nat) : Dev :=
  d.siltWrite { typ := 0x04, body := leBytes 8 before ++ leBytes 8 d.gtc }

/-- LAUNCH (R446 type 0x09). -/
def Dev.siltLaunch (d : Dev) (j step l : Nat) (withheld completion : Bool) : Dev :=
  d.siltWrite { typ := 0x09, job := j,
                body := leBytes 6 step ++ leBytes 1 (b2n withheld + 2 * b2n completion) ++ leBytes 1 0 ++ leBytes 8 l }

end Sys2Proof.Machine
end

