-- ==== Sys2Proof/Machine/Route.lean ====
section
/-! DEFINITION. Where a packet goes: the checks of its head, the rank translation table, path choice, turns, the L2 table, rings, and
header sampling (R265, R277 to R282, R285, R288, R291, R292, R297, R299). -/

namespace Sys2Proof.Machine

/-! ### Directions and turns (R284, R285, R288) -/

/-- The direction of a port's group; host ports face the device's own side (DOWN). -/
def Dev.direction (d : Dev) (p : Nat) : Nat := if p < 96 then d.groupDir p else 1

/-- The direction in which travel that arrived on a direction continues. -/
def opposite (dir : Nat) : Nat :=
  match dir with
  | 3 => 4
  | 4 => 3
  | 5 => 6
  | 6 => 5
  | _ => 0

def isX (dir : Nat) : Bool := dir == 3 || dir == 4
def isY (dir : Nat) : Bool := dir == 5 || dir == 6

/-- The turn table (R285). -/
def turnOk (vc from' to' : Nat) : Bool :=
  match from' with
  | 1 => to' != 0
  | 2 => to' == 1
  | _ =>
    if isX from' then to' == 1 || isY to' || to' == opposite from'
    else if isY from' then to' == 1 || (isX to' && vc != 7) || to' == opposite from'
    else false

/-- A ring port (Bubble flow control on rings). -/
def Dev.ringPort (d : Dev) (p : Nat) : Bool := (isX (d.direction p) && d.wrapX) || (isY (d.direction p) && d.wrapY)

/-- on_ring: the head arrived on a ring port of the same axis and leaves in its direction of travel (R288). -/
def Dev.onRing (d : Dev) (inPort out : Nat) : Bool :=
  d.ringPort out && d.ringPort inPort && d.direction out == opposite (d.direction inPort)

/-! ### The rank translation table (R277, R278, R281) -/

/-- Whether an entry covers a rank. -/
def rtCovers (dst : Nat) (e : Bytes) : Bool := decide (rtBase e ≤ dst) && decide (dst < rtBase e + 2 ^ rtLog2 e)

/-- The entry of the smallest block that covers a rank. -/
def Job.rankEntry (x : Job) (dst : Nat) : Option Bytes :=
  (x.rankEntries.filter (rtCovers dst)).foldl (fun b e => match b with
    | none => some e
    | some c => if rtLog2 e < rtLog2 c then some e else some c) none

/-- Whether a port is a terminal port of a job. -/
def Job.terminal (x : Job) (p : Nat) : Bool := x.rankEntries.any (fun e => rtTerminal e && rtPort e 0 == p)

/-- The hash of R281. -/
def pathHash (h : Bytes) : Nat := crc32c (leBytes 1 (rhJob h) ++ leBytes 2 (rhSrc h) ++ leBytes 2 (rhDst h) ++ leBytes 4 (rhLabel h))

/-- Where a packet leaves, and in which queue it waits there. -/
structure Hop where
  out : Nat
  vc : Nat
  queue : Nat
  path : Nat
  dlb : Bool := false
  deriving DecidableEq, Repr

/-- The path of a P2P packet by its entry: an escaped packet takes path 0, load balancing chooses at the start (R281, R282, R287). -/
def Job.p2pHop (x : Job) (vc : Nat) (h e : Bytes) : Hop :=
  let n := max 1 (rtPaths e)
  let dlb := x.dlb && vc != 7 && decide (2 ≤ rtPaths e) && !rtTerminal e
  let i := if vc = 7 ∨ rtTerminal e = true ∨ dlb = true then 0 else pathHash h % n
  { out := rtPort e i, vc := vc, queue := rhJob h, path := i, dlb := dlb }

/-! ### The L2 table (R299) -/

/-- The L2 entry of a destination address: MAC, out_port, vc. -/
def Dev.l2Entry (d : Dev) (mac : Bytes) : Option Bytes := (entries 8 (d.img 0x14)).find? (fun e => e.take 6 == mac)
def l2Port (e : Bytes) : Nat := u8 e 6
def l2Vc (e : Bytes) : Nat := u8 e 7

/-! ### The checks of a head (R265) -/

/-- The classes of R264. -/
def clReduction : Nat := 1
def clOutflow : Nat := 2
def clSync : Nat := 3
def clP2p : Nat := 4
def clEth : Nat := 5

/-- The VCs permitted for a head (R264): `h` is the route header with the first content bytes. -/
def Dev.vcOk (d : Dev) (vc : Nat) (h : Bytes) : Bool :=
  let job := d.job (rhJob h)
  match rhClass h with
  | 1 => if u8 h 16 = 7 then vc == 6 else vc == 0
  | 2 => vc == 1
  | 3 => vc == 6
  | 4 => vc == 7 || (if job.state == .empty then decide (2 ≤ vc) && decide (vc ≤ 5) else vc == job.vc)
  | 5 =>
    vc == 7 || (match d.l2Entry (slice h 16 6) with
      | some e => vc == l2Vc e
      | none => decide (2 ≤ vc) && decide (vc ≤ 5))
  | _ => false

/-- Reserved bits and the fields that a class keeps zero (R263). -/
def routeClean (h : Bytes) : Bool :=
  u8 h 11 == 0 && decide (rhTclass h < 8) && decide (rhFlags h < 2) &&
    (match rhClass h with
     | 2 => decide (rhDst h < 64) && rhSrc h == 0
     | 4 => true
     | 1 => rhDst h == 0 && rhSrc h == 0
     | _ => rhDst h == 0 && rhSrc h == 0 && rhJob h == 0)

/-- Check 1 of R265, and the VC rule of terminal ports (R268). -/
def Dev.headBad (d : Dev) (p vc : Nat) (h : Bytes) : Bool :=
  let job := d.job (rhJob h)
  !(d.vcOk vc h && routeClean h && decide (1 ≤ rhLength h) && decide (rhLength h ≤ 16464) && decide (1 ≤ rhHops h) && decide (rhHops h ≤ 63) &&
      (decide (2 < rhClass h) || u8 h 17 == rhJob h)) ||
    (rhClass h == clP2p && job.state != .empty && job.terminal p && bits (rhTclass h) 2 0 != job.vc)

/-- Whether a REDUCTION or OUTFLOW packet is passed on by this device, so that it must arrive with 2 hops left (R265, R280): a node
that the table passes on, or a fan-out to another port. -/
def Dev.passedOn (d : Dev) (p : Nat) (h : Bytes) : Bool :=
  let x := d.job (rhJob h)
  let c := h.drop 16
  if rhClass h = clReduction then
    (x.nodesOf (chBucket c)).any (fun e => ndKind e != 1 && ndNode e == chNode c && u8 c 0 != 7)
  else (x.fanPorts (ohChannel c) (if ohKind c = 0x12 then 1 else 0)).any (· != p)

/-- An Ethernet-mode output refuses a packet: it is too long or not to be encapsulated, with the counter (R297). -/
def Dev.ethRefuses (d : Dev) (out : Nat) (h : Bytes) : Option Nat :=
  if !d.ethernet out || rhClass h == clEth then none
  else if 9130 < rhLength h then some 0x2A
  else if (d.ethEntry out).any epEncap then none
  else some 0x2D

/-- The route header of a packet as it is sent on: one hop fewer (R263). -/
def sentHead (h : Bytes) : Bytes := h.take 10 ++ leBytes 1 (rhHops h - 1) ++ h.drop 11

/-- The route header of a packet that a TX slot sends: the one it came with and one hop fewer, or the device's own. -/
def onwardRoute (route : Bytes) (cls job dst vc : Nat) (content : Bytes) : Bytes :=
  if route = [] then routeFor cls job dst vc content else sentHead route

/-- What a head's checks and routing come to. -/
inductive Routed where
  | dropped
  | consumed
  | onward (hop : Hop)
  deriving DecidableEq, Repr

/-- The last tests of a packet that is to leave on a port: hops, turn, and the Ethernet output's (R265 check 4, R285, R297). -/
def Dev.leaves (d : Dev) (p : Nat) (h : Bytes) (hop : Hop) : Dev × Routed :=
  if rhHops h < 2 then (d.countPort p 0x23 1, .dropped)
  else if hop.dlb then (d, .onward hop)
  else if turnOk hop.vc (d.direction p) (d.direction hop.out) then
    match d.ethRefuses hop.out h with
    | some c => (d.countPort hop.out c 1, .dropped)
    | none => (d, .onward hop)
  else (d.countPort p 0x24 1, .dropped)

/-- A P2P packet's routing (R278). -/
def Dev.routeP2p (d : Dev) (p vc : Nat) (h : Bytes) : Dev × Routed :=
  let x := d.job (rhJob h)
  match x.rankEntry (rhDst h) with
  | none => (d.countJob (rhJob h) 0x012 1, .dropped)
  | some e => d.leaves p h (x.p2pHop vc h e)

/-- An ETH_FRAME packet's routing (R299). -/
def Dev.routeEth (d : Dev) (p vc : Nat) (h : Bytes) : Dev × Routed :=
  if rhLength h < 60 ∨ 9212 < rhLength h then (d.countPort p 0x2A 1, .dropped)
  else
    match d.l2Entry (slice h 16 6) with
    | none => (d.countPort p 0x2E 1, .dropped)
    | some e =>
      if l2Port e = p then (d.countPort p 0x2E 1, .dropped)
      else d.leaves p h { out := l2Port e, vc := vc, queue := 256, path := 0 }

/-- The checks of R265 in their order, and routing. -/
def Dev.route (d : Dev) (p vc : Nat) (h : Bytes) : Dev × Routed :=
  if d.headBad p vc h then (d.countPort p 0x21 1, .dropped)
  else
    match rhClass h with
    | 3 => if rhHops h = 1 then (d, .consumed) else (d.countPort p 0x23 1, .dropped)
    | 5 => d.routeEth p vc h
    | _ =>
      if (d.job (rhJob h)).state == .empty then (d.countJob (rhJob h) 0x001 1, .dropped)
      else if rhClass h = clP2p then d.routeP2p p vc h
      else if d.passedOn p h && decide (rhHops h < 2) then (d.countPort p 0x23 1, .dropped)
      else (d, .consumed)

/-! ### Header sampling (R291, R292) -/

/-- A received head is counted: whether it is one that sampling records. -/
def Dev.countHead (d : Dev) (p : Nat) (h : Bytes) : Bool × Dev :=
  let k := d.sampleLog2
  if k = 0 ∨ rhClass h = clSync then (false, d)
  else
    let n := (d.port p).headCount
    (decide (n % 2 ^ k = 2 ^ k - 1), d.modPort p (fun x => { x with headCount := (n + 1) % 2 ^ 32 }))

/-- A sample record enters the ring (R292): `h` is the head as received, and `escaped` what has become of it. -/
def Dev.sampleHead (d : Dev) (inPort outPort vc path queued : Nat) (escaped : Bool) (h : Bytes) : Dev :=
  let r := leBytes 8 d.gtc ++ leBytes 1 inPort ++ leBytes 1 outPort ++
    leBytes 1 (pack [(0, vc), (3, b2n d.gtcValid), (4, b2n escaped), (5, path)]) ++ leBytes 1 0 ++ leBytes 4 queued ++ h.take 48
  let full := decide (4096 ≤ d.samples.ring.length)
  let d := if full then d.countDev 0x105 1 else d
  { d with samples := { count := d.samples.count + 1, ring := (if full then d.samples.ring.drop 1 else d.samples.ring) ++ [r] } }

end Sys2Proof.Machine
end

