-- ==== Sys2Proof/Machine/Shape.lean ====
section
/-! DEFINITION. Token buckets and virtual-time fair queuing (R317 to R319). -/

namespace Sys2Proof.Machine

/-! ### Token buckets (R317) -/

/-- The bucket at core cycle `now`: it has filled at `rate` 2⁻²⁴ byte a cycle, up to full. -/
def Bucket.refill (b : Bucket) (rate now : Nat) : Bucket := { debt := b.debt - rate * (now - b.last), last := max b.last now }

/-- What a packet of `n` flits is charged, in 2⁻²⁴ byte. -/
def bucketCost (n : Nat) : Nat := 64 * n * 2 ^ 24

/-- bucket_ok: the level covers a packet of `n` flits. -/
def Bucket.ok (b : Bucket) (rate burst now n : Nat) : Bool := decide ((b.refill rate now).debt + bucketCost n ≤ burst * 2 ^ 24)

/-- bucket_charge, when the head starts. -/
def Bucket.take (b : Bucket) (rate now n : Nat) : Bucket :=
  let b := b.refill rate now
  { b with debt := b.debt + bucketCost n }

/-! ### Fair queuing (R319) -/

/-- q(w) of R319. -/
def fairShare (w : Nat) : Nat := 2 ^ 24 / w

/-- The later of two tags. -/
def laterTag (a b : Nat) : Nat := if serialAfter 64 a b then a else b

/-- wake: a queue goes from empty to non-empty. -/
def FairLevel.wake (l : FairLevel) (n : Nat) : FairLevel :=
  { l with queues := tmod {} l.queues n (fun q => if q.active then q else { q with s := laterTag q.f l.v, active := true }) }

/-- The eligible queue with the smallest start tag, the lower number on a tie; `ns` in rising order. -/
def FairLevel.pick (l : FairLevel) (ns : List Nat) : Option Nat :=
  ns.foldl (fun b n => match b with
    | none => some n
    | some m => if serialAfter 64 (tget {} l.queues m).s (tget {} l.queues n).s then some n else some m) none

/-- serve: queue `n` of weight `w` is served at `cost` flits; `more` says whether it stays non-empty. -/
def FairLevel.serve (l : FairLevel) (n cost w : Nat) (more : Bool) : FairLevel :=
  let q := tget {} l.queues n
  let f := (q.s + cost * fairShare w) % 2 ^ 64
  { v := q.s, queues := tset l.queues n { f := f, s := if more then f else q.s, active := more } }

end Sys2Proof.Machine
end

