-- ==== Sys2Proof/Machine/Cross.lean ====
section
/-! DEFINITION. The crossbar: the heads that wait for it, how the flits of a started packet reach its output, and what leaves an
Ethernet-mode output (R275, R286, R291, R297, R299, R303, R304, R308, R319). -/

namespace Sys2Proof.Machine

/-- Whether a flit ends its packet. -/
def QFlit.isTail (f : QFlit) : Bool := f.ftype == 3 || f.ftype == 4 || f.ftype == 6

/-- A TAIL_BAD flit (R262). -/
def tailBad : QFlit := { ftype := 6, data := List.replicate 64 0#8 }

/-- The code of an input VC as the holder of an output VC (R286). -/
def inputCode (p v : Nat) : Nat := 8 * p + v + 1

/-- An acknowledgement or a credit limit has changed: a CTRL flit is due (R273). -/
def Port.due (x : Port) (now : Nat) : Port := { x with ctrlDue := x.ctrlDue.or (some now) }

/-- `n` flits leave the ingress account of a VC, and its credit limit rises (R275). -/
def Dev.returnCredit (d : Dev) (p v n : Nat) : Dev :=
  if v < 2 then d
  else d.modPort p (fun x =>
    ({ x with ingress := tmod 0 x.ingress v (fun k => k - n), grant := tmod 0 x.grant v (fun k => (k + n) % 2 ^ 32) }).due d.tick)

/-- Whether an output queue has a free cell (R308, R316). -/
def Dev.room (d : Dev) (out v : Nat) : Bool := decide ((tget [] (d.port out).outQ v).length < d.outLimit out v)

/-- The output and VC that the packet of an input VC holds (R286). -/
def Dev.heldBy (d : Dev) (p v : Nat) : Option (Nat × Nat) :=
  d.ports.findSome? (fun e => (e.2.holder.find? (fun h => h.2 == inputCode p v)).map (fun h => (e.1, h.1)))

/-- The bytes of a packet out of its flits, and its content. -/
def packetBytes (b : Bytes) : Bytes := b.take (16 + rhLength b)
def packetContent (b : Bytes) : Bytes := (packetBytes b).drop 16

/-- A whole packet leaves by an Ethernet-mode output (R297, R299). -/
def Dev.ethOut (d : Dev) (out v : Nat) (b : Bytes) : Dev :=
  if rhClass b = clEth then
    let f := packetContent b
    (d.mirror true out none f).sendFrame out 256 f
  else
    let f := udpFrame ((d.ethEntry out).getD []) (bits (rhTclass b) 2 0) (rhLabel b) d.encapUdp ([0x01#8] ++ leBytes 1 v ++ leBytes 2 0 ++ packetBytes b)
    (d.mirror true out (some (b.take 16)) f).sendFrame out (rhJob b) f

/-- The tail of a packet has been written to its output: the VC is free again. An Ethernet-mode output sends the frame. -/
def Dev.endOut (d : Dev) (out v : Nat) (bad : Bool) : Dev :=
  let b := tget [] (d.port out).building v
  let d := d.modPort out (fun x => { x with holder := tdel x.holder v, building := tdel x.building v })
  if d.ethernet out then (if bad then d else d.ethOut out v b).drainCopies out
  else
    let d := d.send (.packet out v (packetBytes b) bad)
    if bad then d else d.mirror true out (some (b.take 16)) (packetBytes b)

/-- The credit of a flit that has left its ingress account; a TAIL_BAD flit is the device's own and was never on it. -/
def Dev.flitGone (d : Dev) (p v : Nat) (f : QFlit) : Dev := if f.ftype = 6 then d else d.returnCredit p v 1

/-- One flit of an input VC is written into the output queue that its packet holds. An Ethernet-mode output takes it into its frame at
once. -/
def Dev.writeOut (d : Dev) (p v out w : Nat) (f : QFlit) : Dev :=
  let d := if d.ethernet out then d.countDev 0x103 64 else d.relink out w [f]
  let d := (d.modPort out (fun x => { x with building := tmod [] x.building w (· ++ f.data) })).wrote out 1
  let d := d.flitGone p v f
  if f.isTail then d.endOut out w (f.ftype == 6) else d

/-- The input port and VC that a holder's code names (R286). -/
def holderIn (code : Nat) : Nat × Nat := ((code - 1) / 8, (code - 1) % 8)

/-- Whether the holder of an output VC has a flit that may cross now (R303, R308). -/
def Dev.canCross (d : Dev) (out : Nat) (h : Nat × Nat) : Bool :=
  let i := holderIn h.2
  !(tget [] (d.port i.1).moving i.2).isEmpty && d.room out h.1 && decide (0 < d.writesLeft out) && decide (0 < d.readsLeft i.1)

/-- The holder whose flit crosses next: inputs in round-robin order, from the one after the last served (R304). -/
def Dev.nextCross (d : Dev) (out : Nat) : Option (Nat × Nat) :=
  let after (h : Nat × Nat) : Nat := ((holderIn h.2).1 + 97 - (d.port out).lastIn) % 98
  ((d.port out).holder.filter (d.canCross out)).foldl (fun b h => match b with
    | none => some h
    | some c => if after h < after c then some h else some c) none

/-- One flit of a holder crosses. -/
def Dev.crossOne (d : Dev) (out : Nat) (h : Nat × Nat) : Dev :=
  let i := holderIn h.2
  match tget [] (d.port i.1).moving i.2 with
  | [] => d
  | f :: r =>
    let d := (d.modPort i.1 (fun x =>
      { x with moving := tset x.moving i.2 r, readIn := (d.frameNo, inFrame x.readIn d.frameNo + 1) })).modPort out (fun x => { x with lastIn := i.1 })
    d.writeOut i.1 i.2 out h.1 f

/-- Flits cross to an output while they can: at most `n` of them. -/
def Dev.crossMany : Nat → Nat → Dev → Dev
  | 0, _, d => d
  | n + 1, out, d => match d.nextCross out with
    | some h => Dev.crossMany n out (d.crossOne out h)
    | none => d

/-- The writes of an output in their order: TX slots, the Keeper's VC6 frames, the inputs whose packets hold it (R304). -/
def Dev.pullTo (d : Dev) (out : Nat) : Dev := Dev.crossMany crossFlits out (d.feedTo out).moveOwn

/-- A flit of a started packet joins those of its input VC that wait to cross, on its ingress account, and what can cross does (R275). -/
def Dev.cross (d : Dev) (p v : Nat) (f : QFlit) : Dev :=
  match d.heldBy p v with
  | none => d.flitGone p v f
  | some (out, _) => (d.modPort p (fun x => { x with moving := tmod [] x.moving v (· ++ [f]) })).pullTo out

/-! ### Waiting heads (R282, R286, R291, R319) -/

/-- Every waiting head with the port it is kept at, by port. -/
def Dev.waits (d : Dev) : List (Nat × Waiting) := d.ports.flatMap (fun e => e.2.waiting.map (fun w => (e.1, w)))

/-- The paths that a head may leave by on a VC: load balancing leaves them open until the start (R282). -/
def Dev.pathsOf (d : Dev) (w : Waiting) : List Nat :=
  if w.dlb then
    match (d.job w.queue).rankEntry (rhDst w.head) with
    | some e => (List.range (rtPaths e)).map (rtPort e)
    | none => []
  else [w.outPort]

/-- Whether a head waits for an output and VC. -/
def Dev.wantsOut (d : Dev) (out v : Nat) (w : Waiting) : Bool := w.outVc == v && (d.pathsOf w).contains out

/-- Two records of one waiting head. -/
def Waiting.same (a b : Waiting) : Bool := a.inPort == b.inPort && a.inVc == b.inVc && a.arrive == b.arrive && a.head == b.head

/-- The first record of a waiting head changes. -/
def updFirst (w : Waiting) (f : Waiting → Option Waiting) : List Waiting → List Waiting
  | [] => []
  | a :: r => if w.same a then (match f a with | some b => b :: r | none => r) else a :: updFirst w f r

/-- A waiting head changed, or taken away. -/
def Dev.modWait (d : Dev) (at' : Nat) (w : Waiting) (f : Waiting → Option Waiting) : Dev :=
  d.modPort at' (fun x => { x with waiting := updFirst w f x.waiting })

/-- The level of a job queue on an output and VC, brought up to the heads that wait there (R319 wake). -/
def Dev.jobLevel (d : Dev) (out v : Nat) : FairLevel :=
  let l := tget {} (d.port out).jobLevels v
  let qs := ((d.waits.filter (fun w => d.wantsOut out v w.2)).map (fun w => w.2.queue)).eraseDups
  let l := { l with queues := l.queues.map (fun q => if qs.contains q.1 then q else (q.1, { q.2 with active := false })) }
  qs.foldl (fun l n => l.wake n) l

/-- The job queues that a head has joined or left, brought up to the heads that wait (R319). -/
def Dev.refair (d : Dev) (w : Waiting) : Dev :=
  if w.outVc = 7 then d
  else (d.pathsOf w).foldl (fun d p => d.modPort p (fun x => { x with jobLevels := tset x.jobLevels w.outVc (d.jobLevel p w.outVc) })) d

/-- A packet's head waits for its output. -/
def Dev.addWait (d : Dev) (p : Nat) (w : Waiting) : Dev := (d.modPort p (fun x => { x with waiting := x.waiting ++ [w] })).refair w

/-- The flits of a waiting packet that are on its ingress account: a TAIL_BAD that it ends with is not, or its credit has gone back. -/
def Waiting.onAccount (w : Waiting) : Nat := 1 + w.got.length - b2n w.bad

/-- A waiting head is dropped: if it is sampled its record is written (R291), and its job queue may have become empty. -/
def Dev.dropWait (d : Dev) (at' : Nat) (w : Waiting) : Dev :=
  let d := (d.modWait at' w (fun _ => none)).refair w
  if w.sampled then d.sampleHead w.inPort 0xFF w.inVc w.path 0 (bit (rhFlags w.head) 0) w.asRx else d

/-- A waiting head is dropped, and its flits leave their ingress account (R275). -/
def Dev.refuseWait (d : Dev) (at' : Nat) (w : Waiting) : Dev := (d.dropWait at' w).returnCredit w.inPort w.inVc w.onAccount

end Sys2Proof.Machine
end

