-- ==== Sys2Proof/Machine/Audit.lean ====
section
/-! DEFINITION. Audited channels (R331 to R337) and the logbook (R344 to R350), as far as an abort or an abandonment writes them. -/

namespace Sys2Proof.Machine

/-! ### Audit records -/

/-- An AUDIT_RECORD (R335). -/
def auditBytes (job channel flags port seq step micro frags bytes : Nat) (digest : Bytes) : Bytes :=
  leBytes 1 job ++ leBytes 1 channel ++ leBytes 1 flags ++ leBytes 1 port ++ leBytes 4 seq ++ leBytes 6 step ++ leBytes 2 micro ++
    leBytes 4 frags ++ leBytes 4 0 ++ leBytes 8 bytes ++ digest

/-- A record enters the on-die store; its oldest record moves to the overflow region, whose oldest is overwritten (R336). -/
def Dev.auditPut (d : Dev) (r : Bytes) : Dev :=
  let cap := d.regionBytes 1 / 64
  if d.audit.store.length < 4096 then { d with audit := { d.audit with store := d.audit.store ++ [r] } }
  else
    let moved := d.audit.overflow ++ d.audit.store.take 1
    let kept := moved.drop (moved.length - cap)
    let d' := { d with audit := { d.audit with store := d.audit.store.drop 1 ++ [r], overflow := kept } }
    d'.countDev 0x104 (moved.length - kept.length)

/-- The digest engine of a job's channel (R331). -/
def Dev.engineOf (d : Dev) (j c : Nat) : Option Nat := (d.audit.engines.find? (fun e => e.2 == (j, c))).map (·.1)

/-- Whether an engine's input buffer of 64 KiB has room for `n` bytes: it empties at 1.25 bytes a tick (R330, R337). The
table holds, in fifths of a tick, when the buffer will be empty. -/
def Dev.engineRoom (d : Dev) (e n : Nat) : Bool :=
  decide ((max (tget 0 d.audit.busy e) (5 * d.time) - 5 * d.time) / 4 + n ≤ 65536)

def Dev.engineTake (d : Dev) (e n : Nat) : Dev :=
  { d with audit := { d.audit with busy := tset d.audit.busy e (max (tget 0 d.audit.busy e) (5 * d.time) + 4 * n) } }

/-- The normalized bytes of a contribution and of an Outflow fragment (R333). -/
def normContribution (h : Bytes) : Bytes := h.take 3 ++ List.replicate 3 0#8 ++ h.drop 6
def normOutflow (h : Bytes) : Bytes :=
  h.take 3 ++ leBytes 1 (u8 h 3 - 2 * b2n (bit (u8 h 3) 1)) ++ List.replicate 2 0#8 ++ h.drop 6

/-- frag_digest of R333 over normalized bytes. -/
def fragDigest (x : Bytes) : Bytes := htree (pieces x)

/-- A use's digest of one port and direction with one more fragment, or with the gap marked (R334, R337). -/
def addLeaf (l : List UseDigest) (seq port : Nat) (sent : Bool) (leaf : Option (Nat × Nat × Bytes)) (bytes : Nat) : List UseDigest :=
  let same (u : UseDigest) : Bool := u.seq == seq && u.port == port && u.sent == sent
  let old := (l.find? same).getD { seq := seq, port := port, sent := sent, leaves := [], bytes := 0, gap := false }
  let new := match leaf with
    | some x => { old with leaves := old.leaves ++ [x], bytes := old.bytes + bytes }
    | none => { old with gap := true }
  l.filter (fun u => !same u) ++ [new]

/-- A fragment of a reduction channel is digested as received or as sent on a port (R332). -/
def Dev.digestFrag (d : Dev) (c port : Nat) (sent : Bool) (h payload : Bytes) : Dev :=
  match d.engineOf (chJob h) (chChannel h) with
  | none => d
  | some e =>
    let x := normContribution h ++ payload
    if d.engineRoom e x.length then
      (d.engineTake e x.length).modCtx c (fun k =>
        { k with digests := addLeaf k.digests (chSeq h) port sent (some (chNode h, chFrag h, fragDigest x)) x.length })
    else (d.countJob (chJob h) 0x00C 1).modCtx c (fun k => { k with digests := addLeaf k.digests (chSeq h) port sent none 0 })

/-- A fragment of an Outflow channel is digested (R332, R334). -/
def Dev.digestOut (d : Dev) (port : Nat) (sent : Bool) (h payload : Bytes) : Dev :=
  match d.engineOf (ohJob h) (ohChannel h) with
  | none => d
  | some e =>
    let x := normOutflow h ++ payload
    let same (u : OutUse) : Bool := u.job == ohJob h && u.channel == ohChannel h && u.port == port && u.sent == sent
    let old := (d.audit.outflow.find? same).getD
      { job := ohJob h, channel := ohChannel h, port := port, sent := sent, leaves := [], bytes := 0, gap := false }
    let room := d.engineRoom e x.length
    let new := if room then
        { old with leaves := old.leaves ++ [(ohTensor h, ohOff h, fragDigest x)], bytes := old.bytes + x.length }
      else { old with gap := true }
    let d := if room then d.engineTake e x.length else d.countJob (ohJob h) 0x00C 1
    { d with audit := { d.audit with outflow := d.audit.outflow.filter (fun u => !same u) ++ [new] } }

/-- Leaves in canonical order (R334). -/
def sortLeaves (l : List (Nat × Nat × Bytes)) : List (Nat × Nat × Bytes) :=
  sortBy (fun a b => decide (a.1 < b.1) || (a.1 == b.1 && decide (a.2.1 ≤ b.2.1))) l

/-- The step that a context's current use belongs to: the launched one, or the one after the uncommitted one. -/
def Job.stepOf (j : Job) (launched : Bool) : Nat :=
  if launched then j.rcStep else if j.rcStep = noStep then j.nextStep else j.nextStep + 1

/-- The step of a context's current use. -/
def Dev.useStep (d : Dev) (c : Nat) : Nat := (d.job (d.ctx c).job).stepOf (d.ctx c).launched

/-- The records of a context's use, one per port and direction that carried a fragment (R334). -/
def Dev.auditUse (d : Dev) (c : Nat) (aborted : Bool) : Dev :=
  let x := d.ctx c
  let step := d.useStep c
  (x.digests.filter (fun u => u.seq == x.sequence && u.leaves != [])).foldl (fun d u =>
    let l := sortLeaves u.leaves
    d.auditPut (auditBytes x.job x.channel (pack [(0, b2n u.sent), (1, b2n u.gap), (2, b2n aborted)]) u.port x.sequence step
      x.microBatch l.length u.bytes (htree (l.map (fun e => e.2.2))))) d

/-- The Outflow records of a job, written at step end (R334). -/
def Dev.auditOutflow (d : Dev) (j step : Nat) : Dev :=
  let mine := d.audit.outflow.filter (fun u => u.job == j)
  let d := (mine.filter (fun u => u.leaves ≠ [])).foldl (fun d u =>
    let l := sortLeaves u.leaves
    d.auditPut (auditBytes j u.channel (pack [(0, b2n u.sent), (1, b2n u.gap), (3, 1)]) u.port 0xFFFFFFFF step 0xFFFF l.length u.bytes
      (htree (l.map (fun e => e.2.2))))) d
  { d with audit := { d.audit with outflow := d.audit.outflow.filter (fun u => u.job != j) } }

/-! ### The logbook -/

/-- A logbook record: header and body (R344). -/
def logRecord (typ job : Nat) (truncated : Bool) (seq step : Nat) (body : Bytes) : Bytes :=
  leBytes 1 typ ++ leBytes 1 job ++ leBytes 1 (b2n truncated) ++ leBytes 1 0 ++ leBytes 4 body.length ++ leBytes 8 seq ++ leBytes 6 step ++
    leBytes 10 0 ++ body

/-- The records numbered from `seq` on. -/
def logRecords (job : Nat) (truncated : Bool) (step : Nat) : Nat → List (Nat × Bytes) → List Bytes
  | _, [] => []
  | seq, (t, b) :: r => logRecord t job truncated seq step b :: logRecords job truncated step (seq + 1) r

/-- The batch of given records with its seal (R349). -/
def Job.sealed (x : Job) (job : Nat) (truncated : Bool) (step : Nat) (recs : List (Nat × Bytes)) : List Bytes × Bytes :=
  let rs := logRecords job truncated step x.logSeq recs
  let mark := sm3 (x.lastSeal ++ rs.flatten)
  (rs ++ [logRecord 0x07 job truncated (x.logSeq + rs.length) step (leBytes 4 rs.length ++ leBytes 28 0 ++ mark)], mark)

/-- Oldest batches leave until `need` bytes fit into `cap` (R350): the batches kept and how many went. -/
def makeRoom (cap need : Nat) : List (List Bytes) → List (List Bytes) × Nat
  | [] => ([], 0)
  | b :: r =>
    if (((b :: r).map (fun x => (x.map List.length).sum)).sum) + need ≤ cap then (b :: r, 0)
    else let (k, n) := makeRoom cap need r; (k, n + 1)

/-- A step's batch is written (R346, R350): `head` is the STEP_HEAD body, `rest` what follows it before the seal. -/
def Dev.logBatch (d : Dev) (j step : Nat) (head : Bytes) (rest : List (Nat × Bytes)) : Dev :=
  let x := d.job j
  let cap := x.logMib * 2 ^ 20
  if cap = 0 then d
  else
    let full := x.sealed j false step ((1, head) :: rest)
    let tooBig := decide (cap < (full.1.map List.length).sum)
    let used := if tooBig then x.sealed j true step [(1, head)] else full
    let kept := makeRoom cap (used.1.map List.length).sum x.logBatches
    let d := d.modJob j (fun x =>
      { x with logBatches := kept.1 ++ [used.1], logSeq := x.logSeq + used.1.length, lastSeal := used.2 })
    (d.countJob j 0x00D kept.2).countJob j 0x00E (b2n tooBig)

/-- Arrays and vectors digested with the image (R339). -/
def ld (image x : Bytes) : Bytes := sm3 (image ++ htree (pieces x))
def vecBytes (l : List W32) : Bytes := l.flatMap (fun w => leBytes 4 w.toNat)

/-- The words of the Verdict vector in order. -/
def Job.vector (x : Job) : List W32 := (List.range x.vecWordCount).map (tget 0#32 x.vecWords)

/-- vdig of R339; zero where no Verdict completed here (R347). -/
def Dev.vdig (d : Dev) (j : Nat) : Bytes :=
  if (d.job j).vres.isSome then sm3 (d.keeper.imageDigest ++ vecBytes (d.job j).vector) else List.replicate 32 0#8

/-- The STEP_HEAD body (R347), from the status just written. -/
def Dev.stepHead (d : Dev) (j : Nat) : Bytes :=
  let x := d.job j
  leBytes 1 x.stOutcome ++
    leBytes 1 (pack [(0, b2n x.stInexact), (1, b2n x.stShr), (2, b2n x.stSpare), (3, b2n x.stComparable), (4, b2n x.compared),
      (5, b2n x.least.isSome)]) ++
    leBytes 2 0 ++ leBytes 4 (min x.tmLag 0xFFFFFFFF) ++ leBytes 1 x.tmCauses ++ leBytes 7 0 ++ leBytes 8 x.launchTick ++ leBytes 8 0 ++ d.vdig j

/-! ### Step status (R31, R220, R223, R355) -/

/-- The smallest slack of the schedule's RX and HBM_RD slots. -/
def Job.leastSlack (x : Job) : Option Nat :=
  ((x.sched |> fun s => scMbSlots s ++ scTailSlots s).filter (fun e => slKind e == 1 || slKind e == 5)).foldl
    (fun m e => some (match m with | none => slSlack e | some v => min v (slSlack e))) none

/-- STEP_STATUS and STEP_TIMING are written (R31, R220). -/
def Dev.writeStatus (d : Dev) (j step outcome : Nat) (shr : Bool) : Dev :=
  d.modJob j (fun x =>
    { x with
      lastEnded := step, stStep := step, stOutcome := outcome, stInexact := decide (x.causes ≠ 0), stShr := shr, stSpare := x.spareUsed,
      stComparable := x.replayable && !shr,
      tmLag := min (max (d.lagOn x 0) (d.lagOn x 1)) 0xFFFFFFFF, tmCauses := x.causes, tmSlackMin := x.slackMin })

/-- SLACK_EROSION after an ended step (R223). -/
def Dev.erosion (d : Dev) (j : Nat) : Dev :=
  let x := d.job j
  let low := match x.leastSlack with
    | some s => decide (x.slackMin ≠ 0xFFFFFF) && decide (x.slackMin * 100 < d.slackWarn * s)
    | none => false
  if low || bit x.causes 0 then
    let n := min (x.erosionRun + 1) 16
    let d := d.modJob j (fun x => { x with erosionRun := n })
    if n = 16 && !x.eroded then
      (d.modJob j (fun x => { x with eroded := true })).recordFault { source := 0x0705, job := some j, step := x.stStep }
    else d
  else
    let d := d.modJob j (fun x => { x with erosionRun := 0, eroded := false })
    if x.eroded then d.recordFault { source := 0x0705, job := some j, step := x.stStep, cleared := true } else d

/-- The comparisons of a step that is not to be compared are dropped (R354). -/
def Job.dropCompare (x : Job) : Job := { x with least := none, divergences := 0, compared := false, diverged := false, norefs := 0 }

/-- What ends every step here: the batch, the report of a divergence and SLACK_EROSION (R346, R355, R223). `rest` are the
records between STEP_HEAD and REPLAY_REPORT. -/
def Dev.endRecords (d : Dev) (j step : Nat) (rest : List (Nat × Bytes)) : Dev :=
  let x := d.job j
  let rep : List (Nat × Bytes) := match x.least with
    | some (_, b) => [(6, slice b 0 20 ++ leBytes 4 (min x.divergences 0xFFFFFFFF) ++ b.drop 24)]
    | none => []
  let d := d.logBatch j step (d.stepHead j) (rest ++ rep)
  let d := match rep with
    | r :: _ => d.recordFault { source := 0x0901, job := some j, step := step, detail := r.2 }
    | [] => d
  (d.erosion j).modJob j (fun x => { x with least := none, divergences := 0, compared := false, norefs := 0, nodeDigests := [] })

end Sys2Proof.Machine
end

