-- ==== Sys2Proof/Machine/Abort.lean ====
section
/-! DEFINITION. Aborts, context resets and the abandonment of a step (R92, R109, R367, R380). -/

namespace Sys2Proof.Machine

/-- The key under which a fragment's blocks are held. -/
def fragItem (h : Bytes) : Nat := (chSeq h * 2 ^ 32 + chNode h) * 2 ^ 32 + chFrag h

/-- Everything held for the current use is discarded (R109 item 1). -/
def Dev.dropUse (d : Dev) (c : Nat) : Dev :=
  let x := d.ctx c
  let mine := x.frags.filter (fun f => chSeq f.header == x.sequence)
  let d := d.poolFree (fun h => h.holder == ctxHolder c && mine.any (fun f => fragItem f.header == h.item))
  (d.modCtx c (fun x =>
    { x with frags := x.frags.filter (fun f => chSeq f.header != x.sequence), nodes := [], remW := [],
             useCounts := [], firstNonfinite := 0xFFFFFFFF, digests := x.digests.filter (fun u => u.seq != x.sequence) })).modJob x.job (fun y =>
    { y with inflow := y.inflow.filter (fun v => !(v.channel == x.channel && v.seq == x.sequence)) })

/-- The op of a bucket's use (R102). -/
def opOf (bucket : Nat) : Nat := if bucket = verdictBucket then 2 else 1

/-- The ports the node table names for a bucket (R109 item 4). -/
def Job.bucketPorts (j : Job) (b : Nat) : List Nat :=
  ((j.nodesOf b).flatMap (fun e => [ndIn e, ndOut e])).eraseDups.filter (fun p => decide (p < 96))

/-- An abort notice and its payload (R109). -/
def Dev.noticeOf (d : Dev) (c seq gen step micro status node : Nat) : Bytes :=
  let x := d.ctx c
  mkContribution 7 x.job x.channel 0 gen micro seq node step (opOf x.bucket) 0 0 x.bucket 0 0 0 0 0 ++ leBytes 2 status ++ leBytes 6 0

/-- Notices to every port of the bucket's node table but the one the cause came on (R109, R110), where the port's link carries VC6:
it is UP or in CALIBRATE (R238). -/
def Dev.sendNotices (d : Dev) (c seq gen step micro status node : Nat) (from' : Option Nat) : Dev :=
  let x := d.ctx c
  let content := d.noticeOf c seq gen step micro status node
  let dest := ((d.job x.job).bucketPorts x.bucket).filter (fun p => some p != from' && d.takesFlits p)
  dest.foldl (fun d p => d.sendVc6 p 1 x.job content) (d.modCtx c (fun x => { x with forwarded := x.forwarded ++ [(seq, gen)] }))

/-- The record of a fault that concerns a context's current use (R363). -/
def Dev.useFault (d : Dev) (source : Nat) (unit : Option Nat) (c status : Nat) (detail : Bytes) : FaultRec :=
  let x := d.ctx c
  { source := source, unit := unit, ctx := some c, job := some x.job, channel := x.channel, status := status, sequence := x.sequence,
    step := d.useStep c, micro := x.microBatch, detail := detail }

/-- The record of an abort (R109 item 3, R363). -/
def Dev.abortRecord (d : Dev) (c status node : Nat) : FaultRec :=
  let x := d.ctx c
  d.useFault status none c status (leBytes 2 x.bucket ++ leBytes 2 x.generation ++ leBytes 4 node)

/-- A context is aborted (R109); the step that a Verdict use's abort abandons is `abortCtx`'s. A use whose notice was sent on when it
came ahead of the use sends no second one (R110). -/
def Dev.abortUse (d : Dev) (c status node : Nat) (from' : Option Nat) : Dev :=
  let x := d.ctx c
  let step := d.useStep c
  let d := ((d.auditUse c true).dropUse c).modCtx c (fun x => { x with state := .aborted, status := status })
  let d := (d.siltCtx c x.state).recordFault (d.abortRecord c status node)
  if from'.isSome && x.forwarded.contains (x.sequence, x.generation) then d
  else d.sendNotices c x.sequence x.generation step x.microBatch status node from'

/-- The order of node words by level, then index (R78). -/
def nodeRank (w : Nat) : Nat := (w % 32) * 2 ^ 17 + w / 32 % 2 ^ 17
/-- The uppermost of some nodes. -/
def uppermost (l : List Nat) : Option Nat :=
  l.foldl (fun b w => match b with
    | none => some w
    | some v => if nodeRank v < nodeRank w then some w else some v) none

/-- The node word a device writes where it detects a fault that no node names (R109): the uppermost node of the bucket that it hosts,
or that it passes on (DEDUCED, log entry 18). -/
def Dev.ownNode (d : Dev) (c : Nat) : Nat :=
  let x := d.ctx c
  let l := (d.job x.job).nodesOf x.bucket
  ((uppermost ((l.filter (fun e => ndKind e == 1)).map ndNode)).or (uppermost (l.map ndNode))).getD 0

/-- Whether a context can still be aborted: it is ARMED, OPEN or DRAINING short of its commit point (R92). A use past it
has moved the context to its next use. -/
def Ctx.abortable (x : Ctx) : Bool := x.state == .armed || x.state == .opened || x.state == .draining

/-- A context reset is requested (R92, R367): an unaborted use is first aborted with ST_CTX_RESET, staging and spill are
lost, and the cause DOMAIN_RESET is marked (R368). -/
def Dev.resetCtx (d : Dev) (c : Nat) : Dev :=
  let x := d.ctx c
  if x.state == .free || x.state == .resetting then d
  else
    let d := if x.state == .aborted then d else d.abortUse c stCtxReset (d.ownNode c) none
    let was := (d.ctx c).state
    let d := d.poolFree (fun h => h.holder == ctxHolder c)
    let d := d.modCtx c (fun x => { x with state := .resetting, frags := [], heldAborts := [], digests := [] })
    (d.siltCtx c was).markSteps 3

/-- The contexts of a job that are not FREE. -/
def Dev.ctxsOf (d : Dev) (j : Nat) : List Nat := (d.ctxs.filter (fun e => e.2.state != .free && e.2.job == j)).map (·.1)

/-- A job becomes HALTED with a cause (R378); its pending launch is gone and its sequencer stops. -/
def Job.halt (x : Job) (cause now : Nat) : Job :=
  { x with state := .halted, haltCause := cause, haltTick := if x.state == .halted then x.haltTick else now, launch := none,
           stopped := true, runSection := none }

/-- The partial state of a step is discarded (R380 item 4, R88, R170). -/
def Job.discardStep (x : Job) : Job :=
  { x with chunkStats := [], unsound := [],
           rems := x.rems.map (fun r => { r with working := none }), tnum := [], snum := [], firstNonfinite := [],
           foldOverflow := [], updated := [], updateStarted := false, outFormed := [], outCounted := [], vseq := none, vecWords := [],
           vres := none, inflow := [], stepProv := [] }

/-- The Outflow fragments that a job still holds are gone with their blocks. -/
def Dev.dropOutflow (d : Dev) (j : Nat) : Dev :=
  (d.poolFree (fun h => h.reserved && h.job == j)).modJob j (fun x => { x with outHeld := [] })

/-- Items 3 and 4 of R380 and the recovery word of a step that is no more. -/
def Job.rewind (x : Job) : Job :=
  { x.discardStep with
    chSeq := x.chSeqAtLaunch, rcStep := noStep, rcPhase := 0, rootCommitted := false,
    verdictRaised := false, causes := 0, slackMin := 0xFFFFFF, lag0 := 0, lag1 := 0, spareUsed := false }

/-- The current sequences of a job's contexts return to those of the step's launch (R380 item 3). -/
def Dev.rewindCtxs (d : Dev) (j : Nat) : Dev :=
  ((d.job j).ctxSeqAtLaunch).foldl (fun d e =>
    if (d.ctx e.1).state != .free && (d.ctx e.1).job == j then
      d.modCtx e.1 (fun x => { x with sequence := e.2.1, microBatch := e.2.2, launched := false })
    else d) d

/-- A step is abandoned at this device (R380). -/
def Dev.abandonStep (d : Dev) (j : Nat) : Dev :=
  let step := (d.job j).rcStep
  let d := d.modJob j (fun x => x.halt 2 d.time)
  let d := (d.ctxsOf j).foldl (fun d c => d.resetCtx c) d
  let d := d.rewindCtxs j
  let d := ((d.modJob j Job.dropCompare).writeStatus j step 3 (d.job j).shr).endRecords j step []
  let d := (d.modJob j Job.rewind).dropOutflow j
  let d := { d with audit := { d.audit with outflow := d.audit.outflow.filter (fun u => u.job != j) } }
  d.recordFault { source := 0x0E01, job := some j, step := step }

/-- A context is aborted; the abort of the current step's Verdict use abandons the step (R29, R149, R380). -/
def Dev.abortCtx (d : Dev) (c status node : Nat) (from' : Option Nat) : Dev :=
  let x := d.ctx c
  let j := d.job x.job
  let abandons := x.bucket = verdictBucket ∧ x.launched = true ∧ j.rcStep ≠ noStep ∧ j.rcPhase < 3
  let d := d.abortUse c status node from'
  if abandons then d.abandonStep x.job else d

/-- Each context of a list that can still be aborted is aborted. -/
def Dev.abortAll (d : Dev) (cs : List Nat) (status : Nat) : Dev :=
  cs.foldl (fun d c => if (d.ctx c).abortable then d.abortCtx c status (d.ownNode c) none else d) d

/-- Contexts, not FREE, that meet a condition. -/
def Dev.ctxsWhere (d : Dev) (p : Ctx → Bool) : List Nat := (d.ctxs.filter (fun e => e.2.state != .free && p e.2)).map (·.1)

end Sys2Proof.Machine
end

