-- ==== Sys2Proof/Machine/TimeOps.lean ====
section
/-! DEFINITION. The election of the Spring, the choice of the upstream, and the states of the GTC (R190 to R200, R206). -/

namespace Sys2Proof.Machine

/-- One sync period (R198). -/
def syncPeriod : Nat := 263250
/-- No spring key (R196). -/
def noKey : Nat := 0xFFFFFFFFFFFFFFFF

/-- This device's own spring key (R193); all-ones where it has none. -/
def Dev.ownKey (d : Dev) : Nat := if d.springPriority = 0 then noKey else d.springPriority * 2 ^ 56 + d.keeper.devId

/-- Launch-grade time: LOCKED, or the first 10 ms of HOLDOVER (R204). -/
def Dev.launchGrade (d : Dev) : Bool :=
  d.clock.state == .locked || (d.clock.state == .holdover && decide (d.time - d.clock.holdTick ≤ 25000000))

/-- A launch is withheld (R206): the job's state and step number stay. -/
def Dev.withhold (d : Dev) (j : Nat) : Dev :=
  match (d.job j).launch with
  | none => d
  | some l =>
    ((d.modJob j (fun x => { x with launch := none })).siltLaunch j l.step l.tick true l.completion).recordFault
      { source := 0x0706, job := some j, step := l.step }

/-- Armed launches are withheld when time is launch-grade no more (R206). -/
def Dev.withholdArmed (d : Dev) : Dev :=
  if d.launchGrade then d
  else d.loaded.foldl (fun d j =>
    match (d.job j).launch with
    | some l => if l.stage == .armed then d.withhold j else d
    | none => d) d

/-- The lane whose recovered clock counts on a port: lane 0, or S, numbered 8, where the spare carries lane 0 (R234). -/
def Port.clockLane (x : Port) : Nat := if x.rxSpareFor = 0 then 8 else 0

/-- The source of the core PLL in each state (R190, R234). -/
def Dev.pllFor (d : Dev) : PllSource :=
  if d.clock.spring then .refclk
  else match d.clock.state with
    | .locked | .acquiring => if d.clock.upstream < 96 then .port d.clock.upstream (d.port d.clock.upstream).clockLane else .refclk
    | .holdover => .refclkFrozen
    | .invalid => .refclk

/-- The core PLL follows the source that its state names. -/
def Dev.steer (d : Dev) : Dev := d.modClock (fun c => { c with source := d.pllFor })

/-- The GTC enters a state (R200, R219 cause 6, R446 type 0x05). -/
def Dev.enterGtc (d : Dev) (st : GtcState) (cause : Nat) : Dev :=
  let was := d.clock.state
  let d := (d.modClock (fun c =>
    { c with state := st,
             cause := if st = GtcState.invalid ∨ st = GtcState.acquiring then cause else c.cause,
             goodRun := 0, badRun := 0, fast := false, slew := if st = GtcState.locked then c.slew else 0,
             setPending := decide (st = GtcState.acquiring ∧ (was = GtcState.invalid ∨ was = GtcState.holdover)),
             holdTick := if st = GtcState.holdover then c.time else c.holdTick })).steer
  if was = st then d
  else
    let d := if was == .locked then d.markSteps 6 else d
    let d := d.siltGtc was
    let d := match st with
      | .invalid => d.recordFault { source := 0x0701, status := cause }
      | .holdover => d.recordFault { source := 0x0702 }
      | _ => d
    d.withholdArmed

/-- Whether a port is a candidate upstream with its offer (R193 item 3, R198, R240). A rack time root looks to other racks only, unless
it is itself the Spring; any other device looks to its own rack. -/
def Dev.candidate (d : Dev) (p : Nat) : Option Offer :=
  let x := d.port p
  match (d.clock.offers.find? (fun e => e.1 == p)).map (·.2) with
  | none => none
  | some o =>
    if d.up p && d.fabric p && !(x.hasDelay && decide (125000 * 65536 < x.delay)) && decide (o.key ≠ noKey) &&
        (if d.rackRoot then d.clock.spring || decide (o.rackId ≠ d.rackId) else decide (o.rackId = d.rackId))
    then some o else none

/-- The candidates in the order of TIME_CONFIG. -/
def Dev.offersNow (d : Dev) : List (Nat × Offer) := d.candidates.filterMap (fun p => (d.candidate p).map (fun o => (p, o)))

/-- The candidate that offers a key at the lowest depth, the earlier one on a tie (R193 item 2). -/
def bestOffer (key : Nat) (l : List (Nat × Offer)) : Option (Nat × Offer) :=
  (l.filter (fun e => e.2.key == key)).foldl
    (fun b e => match b with
      | none => some e
      | some x => if e.2.depth < x.2.depth then some e else some x) none

/-- The election's result for a device that follows an upstream: depth limits first (R193 item 5), then the state table. A change of upstream
to a port that offers a lower key keeps the state and goes to fast exchanges (DESIGN CHOICE, log entry 44). -/
def Dev.follow (d : Dev) (p : Nat) (o : Offer) (old : Clock) : Dev :=
  let depth := o.depth + 1
  let rdepth := if d.rackRoot then 0 else o.rackDepth + 1
  if 9 < depth then
    (d.modClock (fun c => { c with depth := 0xF, rackDepth := 3, upstream := 0x7F })).enterGtc .invalid 4
  else if 2 < rdepth then
    (d.modClock (fun c => { c with depth := 0xF, rackDepth := 3, upstream := 0x7F })).enterGtc .invalid 5
  else
    let d := d.modClock (fun c => { c with depth := depth, rackDepth := rdepth, upstream := p })
    let running := old.state == .locked || old.state == .acquiring
    let d :=
      if running && old.upstream ≠ p then
        if d.clock.adoptedKey ≤ old.adoptedKey then
          d.modClock (fun c => { c with fast := c.state == .locked, goodRun := 0, badRun := 0, respTick := c.time })
        else d.enterGtc .holdover 0
      else d
    let d := d.steer
    if (d.clock.state == .invalid || d.clock.state == .holdover) && (d.port p).hasBringup && d.clock.pllLocked && d.clock.refOk then
      ((d.enterGtc .acquiring 0).modClock (fun c => { c with respTick := c.time })).modPort p (fun x => { x with reqDue := d.time })
    else d

/-- A Spring whose PLL is locked to REFCLK leaves INVALID for LOCKED; its count starts at 0 if it had no GTC (R194, R200). -/
def Dev.springLocks (d : Dev) : Dev :=
  if d.clock.spring && d.clock.pllLocked && d.clock.refOk && d.clock.state == .invalid then
    (d.modClock (fun c => { c with gtc := if c.hasGtc then c.gtc else 0, hasGtc := true, frozen := false })).enterGtc .locked 0
  else d

/-- The election as it stands now (R193, R194, R200): the lowest key offered, or the device's own, is adopted. -/
def Dev.elect (d : Dev) : Dev :=
  let old := d.clock
  let offers := d.offersNow
  let key := (offers.map (fun e => e.2.key)).foldl min d.ownKey
  let d := d.modClock (fun c => { c with adoptedKey := key, keyTick := if key = old.adoptedKey then c.keyTick else c.time })
  if key ≠ noKey ∧ key = d.ownKey then
    let d := d.modClock (fun c => { c with spring := true, depth := 0, rackDepth := 0, upstream := 0x7F })
    let d := if d.clock.state == .acquiring then d.enterGtc .holdover 0 else d
    d.steer.springLocks
  else
    let d := d.modClock (fun c => { c with spring := false })
    match bestOffer key offers with
    | some (p, o) => d.follow p o old
    | none =>
      let d := d.modClock (fun c => { c with depth := 0xF, rackDepth := if d.rackRoot then 0 else 3, upstream := 0x7F })
      if d.clock.state == .locked || d.clock.state == .acquiring then d.enterGtc .holdover 0 else d

/-- A port offers nothing any more. -/
def Dev.dropOffer (d : Dev) (p : Nat) : Dev := (d.modClock (fun c => { c with offers := tdel c.offers p })).elect

end Sys2Proof.Machine
end

