-- ==== Sys2Proof/Machine/LinkOps.lean ====
section
/-! DEFINITION. How a port changes its link state and what a link that leaves UP loses (R238, R244, R254, R276, R374). -/

namespace Sys2Proof.Machine

/-- All nine lanes of a direction (R243). -/
def allLanes : Nat := 0x1FF

/-- What a new bring-up starts from: lanes, spares and the receiver's runs (R238, R244). -/
def Port.fresh (x : Port) : Port :=
  { x with rxLanes := 0, rxSpareFor := 0xF, txSpareFor := 0xF, remapped := false, retired := [], corrWindow := [], windowFrames := 0,
           spareChange := false, txChange := false, rxMask := 0, peerMask := allLanes, neighbourRack := 0xFFFF }

/-- A port enters a link state (R238). -/
def Port.enter (x : Port) (st : LinkState) (now : Nat) : Port :=
  let x := { x with state := st, entryTick := now, infoRun := 0, readyRun := 0, countdown := 0, dataRun := 0, sending := false,
                    calibDone := 0, sentT1 := none }
  match st with
  | .txTune => { x.fresh with retrains := min (x.retrains + 1) 0xFFFF, trainTime := none }
  | .calibrate => { x with reqDue := now }
  | .up => { x with acquireRaised := false }
  | _ => x

/-- A port enters a link state, with its Silt record (R446 type 0x0B). -/
def Dev.setLink (d : Dev) (p : Nat) (st : LinkState) : Dev :=
  let was := (d.port p).state
  let d := d.modPort p (fun x => x.enter st d.time)
  if was = st then d else d.siltLink p was

/-- The retained flits of a link are discarded (R276, LINK_LOST_FLITS). -/
def Dev.loseRetained (d : Dev) (p : Nat) : Dev :=
  (d.countPort p 0x20 (d.port p).retained.length).modPort p (fun x => { x with retained := [], replayPos := none })

/-- The flits of an output queue after those of the packet that is open on it are gone: a packet is open when its head has
been sent and its tail has not (R276). -/
def dropOpen : List QFlit → List QFlit
  | [] => []
  | f :: r =>
    if f.ftype = 1 ∨ f.ftype = 4 then f :: r
    else if f.ftype = 3 ∨ f.ftype = 6 then r
    else dropOpen r

/-- An output queue without the unsent flits of a packet whose tail has not come. -/
def dropPartial (q : List QFlit) : List QFlit :=
  match q.getLast? with
  | none => q
  | some f => if f.isTail then q else ((q.reverse.dropWhile (fun f => f.ftype == 2)).drop 1).reverse

/-- Every packet that was open on input `p` ends with TAIL_BAD on the outputs it had reached, and its waiting heads are gone
(R276). -/
def Dev.cutInput (d : Dev) (p : Nat) : Dev :=
  let d := (List.range 8).foldl (fun d v =>
    match d.heldBy p v with
    | some (out, w) => (d.countDev 0x102 64).writeOut p v out w tailBad
    | none => d) d
  ((d.port p).waiting.filter (fun w => !w.complete)).foldl (fun d w => d.dropWait p w) (d.modPort p (fun x => { x with rx := [], moving := [] }))

/-- The flits of a holder's packet that wait at its input to cross are discarded, and leave their ingress account (R275). -/
def Dev.dropMoving (d : Dev) (h : Nat × Nat) : Dev :=
  let i := holderIn h.2
  let n := ((tget [] (d.port i.1).moving i.2).filter (fun f => f.ftype != 6)).length
  (d.modPort i.1 (fun x => { x with moving := tdel x.moving i.2 })).returnCredit i.1 i.2 n

/-- The same for every packet that is open on output `p` (R276). -/
def Dev.cutOutput (d : Dev) (p : Nat) : Dev := (d.port p).holder.foldl Dev.dropMoving d

/-- What a fabric link that leaves UP loses at this end (R276). -/
def Dev.cutLink (d : Dev) (p : Nat) : Dev :=
  (((d.loseRetained p).cutInput p).cutOutput p).modPort p (fun x =>
    let q := x.feed.foldl (fun t f => tmod [] t f.1 (· ++ [f.2])) x.outQ
    { x with outQ := q.map (fun q => (q.1, dropPartial (dropOpen q.2))), feed := [], holder := [], building := [], nakFor := none,
             ctrlDue := none })

/-- The contexts whose node table names a port (R276). -/
def Dev.ctxsOn (d : Dev) (p : Nat) : List Nat :=
  d.ctxsWhere (fun x => x.abortable && ((d.job x.job).bucketPorts x.bucket).contains p)

/-- A link leaves UP: its flits, its open packets, the contexts that name it, its sleep and its offer are gone. -/
def Dev.leaveUp (d : Dev) (p : Nat) : Dev :=
  let d := if (d.port p).txSleep = 0 then d else d.endSleep p
  let d := d.modPort p (fun x => { x with rxSleep := 0, rxWakeTick := 0 })
  let d := if d.fabric p then (d.cutLink p).abortAll (d.ctxsOn p) stLinkLost else d
  d.dropOffer p

/-- Whether a spare lane stands in on either direction of a port (R243). -/
def Dev.laneSpare (d : Dev) (p : Nat) : Bool := decide ((d.port p).rxSpareFor ≠ 0xF) || decide ((d.port p).txSpareFor ≠ 0xF)

/-- A port leaves its state for another with a cause (R238, R254); a spare lane that stood in ends (R219 cause 4). On a fabric port it is
a reset of its Link domain (R367, R368). What LINK_DOWN does is `linkDown`'s. -/
def Dev.dropLink (d : Dev) (p cause : Nat) (st : LinkState) : Dev :=
  let wasUp := d.up p
  let d := if wasUp && d.laneSpare p then d.markSteps 4 else d
  let d := if d.fabric p then d.markSteps 3 else d
  let d := d.modPort p (fun x => { x with cause := cause })
  let d := d.setLink p st
  if wasUp then d.leaveUp p else d

end Sys2Proof.Machine
end

