-- ==== Sys2Proof/Machine/Resets.lean ====
section
/-! DEFINITION. Reset domains, the warm and the cold reset, spare Basins, and a fault with the actions of its severity (R114, R360,
R362, R366 to R372). -/

namespace Sys2Proof.Machine

/-! ### Jobs and the units they use -/

/-- Jobs that hold a frame on stack `s` at this device (R360, R370). -/
def Dev.jobsOnStack (d : Dev) (s : Nat) : List Nat :=
  d.loaded.filter (fun j => (d.job j).owned.any (fun c => owStack ((d.job j).chunk c) == s))

/-- Whether a Tarn or stack reset falls between the start and the end of an Update at this owner (R370). -/
def Job.inUpdate (x : Job) : Bool := x.updateStarted && decide (x.rcPhase = 3)

/-- Jobs of a list become HALTED (R360, R370). -/
def Dev.haltJobs (d : Dev) (js : List Nat) (cause : Job → Nat) : Dev :=
  js.foldl (fun d j => d.modJob j (fun x => x.halt (cause x) d.time)) d

/-! ### Spare Basins (R114, R370) -/

/-- The spare that can stand in: 48, or 49 where 48 is taken. -/
def Dev.freeSpare (d : Dev) : Option Nat := [48, 49].find? (fun b => (d.unit b).state == .standby)

/-- The Basin 0 to 47 whose slots a unit runs: its own number, or the one it stands for. -/
def Dev.home (d : Dev) (b : Nat) : Nat := if b < 48 then b else (d.unit b).standsFor

/-- The spare, other than `b` itself, that stands in for a Basin's home. -/
def Dev.spareFor (d : Dev) (b : Nat) : Option Nat :=
  [48, 49].find? (fun u => u != b && (d.unit u).state == .standingIn && (d.unit u).standsFor == d.home b)

/-- Jobs with a context on a Basin, marked as using a spare (R31, R219 cause 4). -/
def Dev.noteSpare (d : Dev) (b : Nat) : Dev :=
  d.loaded.foldl (fun d j =>
    if (d.ctxsOf j).any (fun c => (d.ctx c).basin == b) then d.modJob j (fun x => { x with spareUsed := x.spareUsed || x.running })
    else d) d

/-- A spare takes a Basin's slots: its contexts run on the spare from their next use. -/
def Dev.passTo (d : Dev) (b s : Nat) : Dev :=
  let d := d.modUnit s (fun u => { u with state := .standingIn, standsFor := d.home b })
  let d := (d.ctxsWhere (fun x => x.basin == b)).foldl
    (fun d c => d.modCtx c (fun x => { x with basin := s, spareBasin := true })) d
  (d.noteSpare s).markSteps 4

/-- A Basin leaves service: uses on it short of their commit point abort with ST_BASIN_FAULT, and the spare that stands in for
it, or a free one, takes its slots. A spare in STANDBY has none. -/
def Dev.basinOut (d : Dev) (b : Nat) : Dev :=
  let d := d.abortAll (d.ctxsWhere (fun x => x.basin == b && (x.state == .opened || x.state == .draining))) stBasinFault
  match (d.spareFor b).or d.freeSpare with
  | some s => if d.home b < 48 then d.passTo b s else d
  | none => d

/-! ### Domain resets (R367 to R370) -/

/-- A domain reset of a Basin, Tarn or stack begins: a unit that is already resetting or retired is left. -/
def Dev.resetUnit (d : Dev) (key : Nat) : Dev :=
  (d.modUnit key (fun u => { u with state := .resetting, ready := false, resets := min (u.resets + 1) 0xFF })).markSteps 3

def Dev.unitDown (d : Dev) (key : Nat) : Bool := (d.unit key).state == .resetting || (d.unit key).state == .retired

/-- The Tarn or the stack resets: jobs that hold a frame there are HALTED with cause 4, or 5 within an Update. -/
def Dev.resetOnStack (d : Dev) (key s : Nat) : Dev :=
  if d.unitDown key then d
  else (d.resetUnit key).haltJobs (d.jobsOnStack s) (fun x => if x.inUpdate then 5 else 4)

/-- The domain of a fault is reset (R360 severity 4); a warm reset under way absorbs it (R368). A port that is down already restarts
bring-up. The domain "Job" is no domain of R367: its jobs become HALTED at any time. -/
def Dev.resetDomain (d : Dev) (dom : Domain) (r : FaultRec) : Dev :=
  let u := r.unit.getD 0
  if d.power.cold then d
  else match dom with
    | .none => d
    | .link => if d.power.warm.isSome || (d.port u).state == .disabled then d else (d.dropLink u 0x0F .txTune).markSteps 3
    | .basin => if d.power.warm.isSome || d.unitDown u then d else (d.basinOut u).resetUnit u
    | .tarn => if d.power.warm.isSome then d else d.resetOnStack (tarnUnit u) u
    | .stack => if d.power.warm.isSome then d else d.resetOnStack (stackUnit u) u
    | .job => (d.haltJobs ((if r.cls = 5 ∨ r.cls = 6 then d.jobsOnStack u else []) ++ r.job.toList) (fun _ => 5)).markSteps 3

/-! ### Device resets (R362, R371, R372) -/

/-- A port as a device reset leaves it: its session generation and its counts of retrains and of heads (R291) go on; a port that
the image disables stays so. -/
def Port.afterReset (x : Port) (now : Nat) : Port :=
  if x.state == .disabled then x
  else { ({ retrains := x.retrains, linkGen := x.linkGen, headCount := x.headCount } : Port).enter .txTune now with entryTick := now }

/-- The units after a device reset: retired ones stay so until a cold reset (R370), the others run their tests again. -/
def UnitSt.afterWarm (key : Nat) (u : UnitSt) : UnitSt :=
  if u.state == .retired then { u with ready := false }
  else { u with state := if 48 ≤ key ∧ key < 50 then u.state else .resetting, ready := false }

/-- Keys of every unit (R426). -/
def unitKeys : List Nat := List.range 50 ++ (List.range 8).map tarnUnit ++ (List.range 8).map stackUnit

/-- The scheduled plane stops and every job becomes HALTED with cause 4; after a device-fatal fault R41 gives the jobs that this device
owns chunks of cause 5 (R41, R362, R371). -/
def Dev.stopJobs (d : Dev) (fatal : Bool) : Dev :=
  (d.markSteps 3).haltJobs d.loaded (fun x => if fatal && !x.owned.isEmpty then 5 else 4)

/-- A context after a warm reset: reset by R92, ending in ARMED with the next generation (R371). -/
def Ctx.afterWarm (x : Ctx) : Ctx :=
  if x.state == .free then x
  else { x with state := .armed, status := 0, generation := (x.generation + 1) % 2 ^ 16, frags := [], nodes := [], remW := [],
                heldAborts := [], forwarded := [], useCounts := [], firstNonfinite := 0xFFFFFFFF, digests := [],
                spilled := false }

/-- The Keeper as a warm reset leaves it: identity and image are kept (R367, R371). -/
def Keeper.afterWarm (k : Keeper) : Keeper :=
  { k with up := false, warmResets := min (k.warmResets + 1) 0xFFFFFFFF, oobUp := k.oobUp, sessions := [], load := none, flashClaim := none,
           qps := [], ckpts := [], haltWaits := [] }

/-- The Silt records still in the write buffer of an extension are lost (R448). -/
def Dev.siltWarm (d : Dev) : Dev :=
  if d.siltExtUnits = 0 then d
  else (d.countDev 0x10E d.silt.buffered).modSilt (fun s =>
    { s with recs := s.recs.take (s.recs.length - s.buffered), buffered := 0 })

/-- Everything a warm reset does not keep, the links and the contexts apart (R367). -/
def Dev.warmLose (d : Dev) : Dev :=
  { d with
    ctxs := d.ctxs.map (fun e => (e.1, e.2.afterWarm)),
    jobs := d.jobs.map (fun e => (e.1, { e.2 with restored := [], outHeld := [] })),
    units := unitKeys.map (fun k => (k, UnitSt.afterWarm k (d.unit k))),
    pool := {},
    dump := none,
    own := [],
    mirrors := { d.mirrors with queues := [] },
    keeper := d.keeper.afterWarm,
    clock := { d.clock with state := .invalid, cause := 1, spring := false, depth := 0xF, rackDepth := 3, upstream := 0x7F, offers := [],
                            adoptedKey := noKey, pllLocked := false, source := .refclk, slew := 0, goodRun := 0, badRun := 0, fast := false,
                            setPending := false },
    power := { d.power with warm := some d.clock.time, warmWait := 0, dark := false, darkHost := false, heatersOff := false, depthsParked := true },
    faults := { d.faults with alertForce := false, held := false } }

/-- The fabric ports that the image does not disable. -/
def Dev.fabricPorts (d : Dev) : List Nat := (List.range 96).filter (fun p => d.fabric p && (d.port p).state != .disabled)

/-- Every link is down and its retained flits are lost; each fabric transmitter sends training frames with rx_ready 0 (R276, R371). -/
def Dev.warmLinks (d : Dev) : Dev :=
  let d := (List.range 98).foldl (fun d p => d.loseRetained p) d
  let d : Dev := { d with ports := (List.range 98).map (fun p => (p, (d.port p).afterReset d.clock.time)) }
  d.fabricPorts.foldl (fun d p => d.sendTraining p 0 0) d

/-- A warm reset begins (R371): Silt triggers, the jobs stop, the links are down, every context is reset by R92, and what is not
kept is gone. A request during a warm reset joins it (R368). -/
def Dev.warmReset (d : Dev) (fatal : Bool := false) : Dev :=
  if d.power.warm.isSome then d
  else
    let d := (((d.siltTrigger 64).stopJobs fatal).warmLinks)
    let d := d.loaded.foldl (fun d j => (d.ctxsOf j).foldl (fun d c => d.resetCtx c) d) d
    d.warmLose.siltWarm.updAlert

/-- What a cold reset keeps: what has been sent, the free values drawn, the time, the Gauge and the pins (R367, log entry 22).
The Depths go with it; `State.event` clears them. -/
def Dev.coldReset (d : Dev) : Dev :=
  { Dev.reset with
    sent := d.sent ++ (if d.faults.alertLow then [.alert false] else []), freeCtr := d.freeCtr,
    gauge := { d.gauge with answered := false, waiting := [] },
    clock := { time := d.clock.time, refOk := d.clock.refOk },
    power := { pwrOk := d.power.pwrOk, cold := true },
    keeper := { oobUp := d.keeper.oobUp } }

/-- The hold of R362: every job HALTED, every fabric port sends training frames with rx_ready 0, and only GMP is served. -/
def Dev.hold (d : Dev) : Dev :=
  let d := d.stopJobs true
  let d := d.fabricPorts.foldl (fun d p => (d.dropLink p 0 .fault).sendTraining p 0 0) d
  d.modFaults (fun f => { f with held := true })

/-- Whether a severity 5 fault starts a cold reset: during a warm reset or within 8 s of its end (R372). -/
def Dev.nearWarm (d : Dev) : Bool :=
  d.power.warm.isSome || (match d.power.warmEnd with
    | some t => decide (d.time ≤ t + 8 * secTicks)
    | none => false)

/-- A device-fatal fault acts (R360, R362, R372). -/
def Dev.fatal (d : Dev) : Dev :=
  if d.power.cold then d
  else if d.nearWarm then d.coldReset
  else if d.holdOnFatal then d.hold
  else d.warmReset true

/-- What a fault's severity does up to 4 (R360). -/
def Dev.faultActs (d : Dev) (r : FaultRec) (eff : Nat) : Dev :=
  let d := if 3 ≤ eff then d.abortAll r.ctx.toList r.status else d
  if 4 ≤ eff then d.resetDomain (sourceOf r.source).dom r else d

/-- A fault with the actions of its effective severity (R360). The records of the aborts that it causes, of class 3, are written before
its own where its class is higher, so that the records of one cycle come in ascending source number (R364). -/
def Dev.raiseFault (d : Dev) (r : FaultRec) : Dev :=
  let eff := d.effective r
  let d := if r.cls ≤ 3 then (d.recordFault r).faultActs r eff else (d.faultActs r eff).recordFault r
  if 5 ≤ eff then d.fatal else d

/-- Whether every unit has left its test: the warm reset is over (DEDUCED from R371, log entry 23). -/
def Dev.warmOver (d : Dev) : Dev :=
  if d.power.warm.isSome && d.keeper.up && unitKeys.all (fun k => (d.unit k).state != .resetting) then
    d.modPower (fun x => { x with warm := none, warmEnd := some d.time, depthsParked := false })
  else d

/-! ### A link that goes down with its record -/

/-- LINK_DOWN for a port, with the cause it holds (R359). -/
def Dev.linkDownRecord (d : Dev) (p : Nat) : FaultRec := { source := 0x0101, unit := some p, status := (d.port p).cause }

/-- A port leaves UP: LINK_DOWN with its cause, and what R276 says. A port that was not UP raises nothing here. -/
def Dev.linkDown (d : Dev) (p cause : Nat) (st : LinkState) : Dev :=
  let wasUp := d.up p
  let d := d.modPort p (fun x => { x with cause := cause })
  let r := d.linkDownRecord p
  let eff := d.effective r
  let d := (if wasUp then d.recordFault r else d).dropLink p cause st
  if wasUp then
    let d := d.faultActs r eff
    if 5 ≤ eff then d.fatal else d
  else d

end Sys2Proof.Machine
end

