-- ==== Sys2Proof/Machine/Event.lean ====
section
/-! DEFINITION. How a command falls at its time: the cycles up to it pass, its effect follows, and a change of the ready words is
noted (R404). -/

namespace Sys2Proof.Machine

/-- The two byte memories and the device, on which a command acts. -/
structure Mach where
  flash : Table Byte
  depths : Table Byte
  dev : Dev
  deriving DecidableEq, Repr

def State.machOf (s : State) : Mach := { flash := s.flash, depths := s.depths, dev := s.dev }
def Mach.mod (k : Mach) (f : Dev → Dev) : Mach := { k with dev := f k.dev }

/-- A cold reset takes the Depths with it (R367). -/
def Mach.settle (k : Mach) : Mach :=
  { k with dev := k.dev.noteReady, depths := if k.dev.power.cold then [] else k.depths }

/-- A command at time `now` that acts on the memories too. -/
def State.act (s : State) (now : Nat) (f : Mach → Mach) : State :=
  let k := (f { s.machOf with dev := s.dev.to now }).settle
  { s with flash := k.flash, depths := k.depths, dev := k.dev }

/-- A command at time `now` that acts on the device alone. -/
def State.event (s : State) (now : Nat) (f : Dev → Dev) : State := s.act now (fun k => k.mod f)

/-- A command that carries no time: it falls now. -/
def State.eventNow (s : State) (f : Dev → Dev) : State := s.event s.dev.clock.time f

end Sys2Proof.Machine
end

