-- ==== Sys2Proof/Machine/Gmp.lean ====
section
/-! DEFINITION. GMP requests: arrival, authentication, replay, rights and replies (R402, R405, R406, R409 to R411), and the close of
a session (R407, R417, R457). -/

namespace Sys2Proof.Machine

/-- What a manager's session needs to send a message (R409, R413). -/
inductive Right where
  | any
  | read
  | job
  | device
  deriving DecidableEq, Repr

/-- The bit of a right in MANAGER_KEYS (R399). -/
def Right.mask : Right → Nat
  | .any => 0
  | .read => 1
  | .job => 2
  | .device => 4

/-- The status block's contents and the payload of a reply (R411). -/
structure Reply where
  status : Nat := 0
  nameA : Nat := 0
  nameB : Nat := 0
  payload : Bytes := []
  deriving DecidableEq, Repr

/-- The body of a reply (R411). -/
def Reply.body (r : Reply) : Bytes := leBytes 2 r.status ++ leBytes 2 0 ++ leBytes 8 r.nameA ++ leBytes 8 r.nameB ++ r.payload

/-- A kind of request: what it needs, which bodies are well formed, and what it does. `act` answers no reply where the reply
comes later (R410, R411). -/
structure Request where
  msg : Nat
  right : Right
  /-- Served while the image is BAD (R402). -/
  recovery : Bool := false
  /-- The first body byte names a job that must not be EMPTY (R413). -/
  namesJob : Bool := false
  /-- The fields that can be checked without the device's state. -/
  valid : Bytes → Bool
  act : GmpMsg → Session → Mach → Mach × Option Reply

/-- The answer of a request that changes nothing. -/
def refuse (status : Nat) (k : Mach) : Mach × Option Reply := (k, some { status := status })

/-- A request that acts on the device alone. -/
def onDev (f : GmpMsg → Session → Dev → Dev × Reply) (m : GmpMsg) (s : Session) (k : Mach) : Mach × Option Reply :=
  let r := f m s k.dev
  ({ k with dev := r.1 }, some r.2)

/-- A reply goes back where the request came from and is kept (R405, R410). -/
def Dev.gmpReply (d : Dev) (n msg tag : Nat) (body : Bytes) : Dev :=
  match d.session n with
  | none => d
  | some s =>
    (d.gmpSend s 1 msg tag body).modSession n (fun s =>
      { s with kept := (s.kept ++ [({ tag := tag, msg := msg, body := body } : KeptReply)]).drop (s.kept.length + 1 - 256),
               busyTags := s.busyTags.filter (· ≠ tag) })

/-- Whether GMP datagrams are taken on a port: the out-of-band port, or an enabled host port (R402, R405). -/
def Dev.hears (d : Dev) (p : Nat) : Bool := d.serves p && !(d.keeper.imageState == .bad && p ≠ 98)

/-- The session that a datagram names, once confirmed; otherwise it counts as unknown (R407). -/
def Dev.confirmed (d : Dev) (n : Nat) : Option Session := (d.session n).filter (·.confirmed)

/-- The bytes that a message's mac covers (R406). -/
def msgSigned (m : GmpMsg) (code : Nat) : Bytes :=
  leBytes 1 m.version ++ leBytes 1 m.flags ++ leBytes 2 code ++ leBytes 4 m.session ++ leBytes 8 m.seq ++ leBytes 4 m.tag ++
    leBytes 4 m.bodyLen ++ leBytes 8 m.reserved ++ m.body

/-- The longest body a port takes (R405). -/
def bodyLimit (port : Nat) : Nat := if port = 98 then 1376 else 8960

/-- A datagram whose length or version is wrong, or whose body is beyond the port's limit (R406, R433). -/
def msgBadForm (m : GmpMsg) : Bool :=
  m.dgram != 64 + m.bodyLen || m.version != 1 || m.body.length != m.bodyLen || decide (bodyLimit m.port < m.bodyLen)

/-- A request's header fields that must be zero (R406). -/
def msgBadFields (m : GmpMsg) : Bool := m.flags != 0 || m.reserved != 0

/-- What an authenticated, fresh request gets: the refusals in order, then its own effect (R402, R406, R409, R413). -/
def Mach.serve (k : Mach) (r : Request) (m : GmpMsg) (s : Session) : Mach × Option Reply :=
  if k.dev.keeper.imageState == .bad && !r.recovery then refuse stRecoveryOnly k
  else if r.right.mask ≠ 0 ∧ Nat.land s.rights r.right.mask = 0 then refuse stGmpRights k
  else if msgBadFields m || !r.valid m.body then refuse stGmpMalformed k
  else if r.namesJob && (k.dev.job (u8 m.body 0)).state == .empty then refuse stNoJob k
  else r.act m s k

/-- The session takes a message: its number and time go on, and what it is sent goes to where the message came from (R405 to R407). -/
def Dev.accepted (d : Dev) (m : GmpMsg) : Dev :=
  d.modSession m.session (fun s => { s with seqIn := m.seq, lastTick := d.time, port := m.port, source := m.dest, addr := m.addr, udp := m.udp })

/-- A request on a confirmed session: length, session, mac, replay and the kept replies (R406, R410), then `serve`. -/
def Mach.gmp (r : Request) (m : GmpMsg) (k : Mach) : Mach :=
  if !k.dev.hears m.port then (if k.dev.keeper.up then k.mod (·.countDev 0x107 1) else k)
  else
    match (if msgBadForm m then none else k.dev.confirmed m.session) with
    | none => k.mod (·.countDev 0x108 1)
    | some s =>
      if m.mac ≠ hmacSm3 s.macIn (msgSigned m r.msg) then k.mod (·.recordFault { source := 0x0C01 })
      else if m.seq ≤ s.seqIn then k.mod (·.countDev 0x109 1)
      else
        let k := k.mod (·.accepted m)
        match s.kept.find? (fun x => x.tag == m.tag) with
        | some x => k.mod (fun d => (match d.session m.session with
            | some s => d.gmpSend s 1 x.msg m.tag x.body
            | none => d))
        | none =>
          if s.busyTags.contains m.tag then k
          else
            match (k.mod (·.modSession m.session (fun s => { s with busyTags := s.busyTags ++ [m.tag] }))).serve r m s with
            | (k, some a) => k.mod (·.gmpReply m.session r.msg m.tag a.body)
            | (k, none) => k

/-- A datagram with a message code arrives at its port. -/
def Dev.gmpIn (d : Dev) (m : GmpMsg) (code : Nat) : Dev := d.gmpCross m.port false m.addr m.udp m.dgram (msgSigned m code ++ m.mac)

/-- A GMP command: the datagram arrives and is handled. -/
def gmpCommand (r : Request) (m : GmpMsg) (s : State) : State :=
  s.act m.now (fun k => Mach.gmp r m (k.mod (·.gmpIn m r.msg)))

/-! ### The close of a session -/

/-- A session ends: with it the package load it opened (R417), its claim of the flash (R402), the dump it began (R457). -/
def Dev.closeSession (d : Dev) (n : Nat) : Dev :=
  let d := d.modKeeper (fun k =>
    { k with sessions := k.sessions.filter (fun s => s.number ≠ n),
             load := k.load.filter (fun l => l.session ≠ n),
             flashClaim := k.flashClaim.filter (· ≠ n),
             haltWaits := k.haltWaits.filter (fun w => w.2.1 ≠ n) })
  { d with
    dump := d.dump.filter (fun x => x.session ≠ n),
    gauge := { d.gauge with waiting := d.gauge.waiting.filter (fun w => w.session ≠ n) } }

end Sys2Proof.Machine
end

