-- ==== Sys2Proof/Machine/Sessions.lean ====
section
/-! DEFINITION. GMP sessions, subscriptions, attestation, audit export and ready reports (R336, R403, R404, R407, R412, R413, R416). -/

namespace Sys2Proof.Machine

/-! ### Setting up a session (R407) -/

/-- The rights of a manager's key: those of MANAGER_KEYS, or READ and DEVICE while the image is BAD (R399, R402). -/
def Dev.keyRights (d : Dev) (key : Bytes) : Option Nat :=
  if d.keeper.imageState == .bad then some 5
  else ((entries 72 ((d.img 0x02).drop 8)).find? (fun e => e.take 64 == key)).map (fun e => u8 e 64)

/-- A session number that no open session has, from a free value (R406, log entry 5). -/
def Dev.freshSession (d : Dev) (v : Nat) : Nat :=
  let used := d.keeper.sessions.map Session.number
  (((List.range 9).map (fun i => 1 + (v + i) % 0xFFFFFFFE)).find? (fun n => !used.contains n)).getD 0

/-- A secret scalar from a free value, in 1 to n - 1. -/
def scalarOf (v : Nat) : Nat := 1 + v % (sm2n - 1)

/-- GMP_HELLO_REPLY: no mac and, with a non-zero status, no key material (R406, R407). -/
def Dev.helloReply (d : Dev) (m : GmpMsg) (session status : Nat) (payload : Bytes) : Dev :=
  let body := ({ status := status, payload := payload : Reply }).body
  (d.send (.gmp m.port m.dest m.addr m.udp 1 0x0002 session 1 m.tag body (List.replicate 32 0#8))).gmpCross m.port true m.addr m.udp (64 + body.length)
    (gmpHeader 1 0x0002 session 1 m.tag body.length ++ body ++ List.replicate 32 0#8)

/-- A GMP_HELLO whose header or body is not as R406 and R407 give it. -/
def helloBad (m : GmpMsg) : Bool :=
  msgBadForm m || msgBadFields m || m.session != 0 || m.bodyLen != 128

/-- The session that a GMP_HELLO opens. -/
def newSession (m : GmpMsg) (number rights now : Nat) (x : KeyEx) : Session :=
  { number := number, managerKey := m.body.take 64, rights := rights, port := m.port, source := m.dest, addr := m.addr, udp := m.udp,
    macIn := x.k.take 32, macOut := x.k.drop 32, expectA := x.sA, seqOut := 1, setupTick := now, lastTick := now }

/-- The key exchange's answer (R407 item 2): the session opens unconfirmed. -/
def Dev.openSession (d : Dev) (m : GmpMsg) (rights : Nat) : Dev :=
  let (a, d) := d.draw
  let (b, d) := d.draw
  match sm2Respond d.keeper.identityPriv (scalarOf a) (m.body.take 64) (m.body.drop 64) with
  | none => d.countDev 0x108 1
  | some x =>
    let n := d.freshSession b
    (d.modKeeper (fun k => { k with sessions := k.sessions ++ [newSession m n rights d.time x] })).helloReply m n 0
      (d.keeper.identityPub ++ x.rB ++ x.sB)

/-- GMP_HELLO (R407 items 1 and 2). -/
def Dev.hello (d : Dev) (m : GmpMsg) : Dev :=
  if !d.hears m.port then (if d.keeper.up then d.countDev 0x107 1 else d)
  else if helloBad m then d.countDev 0x108 1
  else if m.mac ≠ List.replicate 32 0#8 then d.recordFault { source := 0x0C01 }
  else match d.keyRights (m.body.take 64) with
    | none => d.helloReply m 0 stGmpRights []
    | some r => if 8 ≤ d.keeper.sessions.length then d.helloReply m 0 stSessionLimit [] else d.openSession m r

def execGmpHello (m : GmpMsg) (s : State) : Host.Outcome State Fault Refusal :=
  .next (s.event m.now (fun d => (d.gmpIn m 0x0001).hello m))

/-- GMP_KEY_CONFIRM on a session that is not confirmed yet (R407 item 3). -/
def Dev.keyConfirm (m : GmpMsg) (s : Session) (d : Dev) : Dev :=
  if m.mac ≠ hmacSm3 s.macIn (msgSigned m 0x0003) then d.recordFault { source := 0x0C01 }
  else if m.seq ≤ s.seqIn then d.countDev 0x109 1
  else
    let d := d.accepted m
    if msgBadFields m || m.bodyLen != 32 then d.gmpReply m.session 0x0003 m.tag ({ status := stGmpMalformed } : Reply).body
    else if m.body ≠ s.expectA then (d.closeSession m.session).recordFault { source := 0x0C01 }
    else (d.modSession m.session (fun s => { s with confirmed := true })).gmpReply m.session 0x0003 m.tag ({} : Reply).body

/-- GMP_KEY_CONFIRM on a session already confirmed: the confirmation value is checked again. -/
def keyConfirmAgain : Request :=
  { msg := 0x0003, right := .any, recovery := true, valid := fun b => b.length == 32,
    act := fun m s k => if m.body = s.expectA then (k, some {})
      else (k.mod (fun d => (d.closeSession m.session).recordFault { source := 0x0C01 }), none) }

def Mach.keyConfirm (m : GmpMsg) (k : Mach) : Mach :=
  match k.dev.session m.session with
  | some s =>
    if s.confirmed || !k.dev.hears m.port || msgBadForm m then Mach.gmp keyConfirmAgain m k else k.mod (Dev.keyConfirm m s)
  | none => Mach.gmp keyConfirmAgain m k

def execGmpKeyConfirm (m : GmpMsg) (s : State) : Host.Outcome State Fault Refusal :=
  .next (s.act m.now (fun k => Mach.keyConfirm m (k.mod (·.gmpIn m 0x0003))))

/-- GMP_PING (R413). -/
def pingRequest : Request :=
  { msg := 0x0004, right := .any, recovery := true, valid := fun b => b == [], act := fun _ _ k => (k, some {}) }

def execGmpPing (m : GmpMsg) (s : State) : Host.Outcome State Fault Refusal := .next (gmpCommand pingRequest m s)

/-- GMP_CLOSE: the reply goes out, then the session closes (R413). -/
def closeRequest : Request :=
  { msg := 0x0005, right := .any, recovery := true, valid := fun b => b == [],
    act := fun m s k => (k.mod (fun d => (d.gmpReply s.number 0x0005 m.tag ({} : Reply).body).closeSession s.number), none) }

def execGmpClose (m : GmpMsg) (s : State) : Host.Outcome State Fault Refusal := .next (gmpCommand closeRequest m s)

/-- A session not confirmed within 1 s is discarded (R407). -/
def Dev.setupTimeout (n : Nat) (d : Dev) : Dev :=
  match d.session n with
  | some s => if !s.confirmed && decide (s.setupTick + secTicks ≤ d.time) then d.closeSession n else d
  | none => d

def execSessionSetupTimeout (session now : Nat) (s : State) : Host.Outcome State Fault Refusal :=
  .next (s.event now (Dev.setupTimeout session))

/-- A confirmed session closes after 60 s without an accepted message (R407). -/
def Dev.idleTimeout (n : Nat) (d : Dev) : Dev :=
  match d.session n with
  | some s => if s.confirmed && decide (s.lastTick + 60 * secTicks ≤ d.time) then d.closeSession n else d
  | none => d

def execSessionIdleTimeout (session now : Nat) (s : State) : Host.Outcome State Fault Refusal :=
  .next (s.event now (Dev.idleTimeout session))

/-- A request with a message code that no table gives (R406). -/
def unknownRequest (code : Nat) : Request :=
  { msg := code, right := .any, valid := fun _ => true, act := fun _ _ k => refuse stGmpUnknown k }

def execGmpUnknownMessage (code : Nat) (m : GmpMsg) (s : State) : Host.Outcome State Fault Refusal :=
  .next (gmpCommand (unknownRequest code) m s)

/-! ### Subscriptions, audit export, attestation -/

/-- GMP_SUBSCRIBE (R412, R413). -/
def subscribeRequest : Request :=
  { msg := 0x0013, right := .read, recovery := true,
    valid := fun b => b.length == 4 && decide (u8 b 0 < 4) && decide (u8 b 1 ≤ 5) && zeros b 2 2,
    act := onDev (fun m s d => (d.modSession s.number (fun x =>
      { x with events := bit (u8 m.body 0) 0, ready := bit (u8 m.body 0) 1, minSeverity := u8 m.body 1 }), {})) }

def execGmpSubscribe (m : GmpMsg) (s : State) : Host.Outcome State Fault Refusal := .next (gmpCommand subscribeRequest m s)

/-- The oldest `n` audit records leave: those of the overflow region first (R336). -/
def Audit.take (a : Audit) (n : Nat) : List Bytes × Audit :=
  ((a.overflow ++ a.store).take n, { a with overflow := a.overflow.drop n, store := a.store.drop (n - a.overflow.length) })

/-- What error correction says of the records that were read from the overflow region, in the device reservation of a stack (R359). The
bytes of a read that could not be corrected are free (log entry 5). -/
def Dev.readOverflow (d : Dev) (stack : Nat) (reserved : EccResult) (n : Nat) (rs : List Bytes) : Dev × List Bytes :=
  let k := min n d.audit.overflow.length
  match (if k = 0 then EccResult.clean else reserved) with
  | .clean => (d, rs)
  | .corrected => (d.recordFault { source := 0x0601, unit := some stack }, rs)
  | .uncorrectable =>
    let (v, d) := d.draw
    (d.recordFault { source := 0x0604, unit := some stack },
      rs.zipIdx.map (fun r => if r.2 < k then (List.range r.1.length).map (fun i => Config.lostByte v (64 * r.2 + i)) else r.1))

/-- GMP_AUDIT_READ (R336, R413). -/
def auditReadRequest (stack : Nat) (reserved : EccResult) : Request :=
  { msg := 0x0014, right := .read, recovery := true,
    valid := fun b => b.length == 4 && decide (1 ≤ fld b 0 2) && decide (fld b 0 2 ≤ 16) && zeros b 2 2,
    act := onDev (fun m _ d =>
      let t := d.audit.take (fld m.body 0 2)
      let r := d.readOverflow stack reserved (fld m.body 0 2) t.1
      ({ r.1 with audit := t.2 }, { payload := leBytes 4 r.2.length ++ leBytes 4 0 ++ r.2.flatten })) }

def execGmpAuditRead (m : GmpMsg) (s : State) (stack : Nat := 0) (reserved : EccResult := .clean) : Host.Outcome State Fault Refusal :=
  .next (gmpCommand (auditReadRequest stack reserved) m s)

/-- jobs_digest of R416. -/
def Dev.jobsDigest (d : Dev) : Bytes :=
  if d.loaded = [] then List.replicate 32 0#8 else sm3 (d.loaded.flatMap (fun j => leBytes 1 j ++ (d.job j).pkgDigest))

/-- Bytes 0 to 295 of the attestation report (R416). -/
def Dev.report (d : Dev) (nonce managerKey : Bytes) : Bytes :=
  let k := d.keeper
  [0x56#8, 0x39#8, 0x36#8, 0x41#8] ++ leBytes 4 360 ++ nonce ++ k.identityPub ++ k.imageDigest ++ k.signerDigest ++ leBytes 8 k.imageSerial ++
    leBytes 1 k.imageState.code ++ leBytes 1 k.identityState ++ leBytes 1 k.orderingCode ++ leBytes 1 1 ++ leBytes 4 k.warmResets ++
    leBytes 8 d.gtc ++ leBytes 1 d.clock.state.code ++ leBytes 7 0 ++ sm3 (0x4D#8 :: managerKey) ++ d.jobsDigest ++
    d.readyWords.flatMap (leBytes 8)

/-- GMP_ATTEST (R416): the report and its signature. -/
def attestRequest : Request :=
  { msg := 0x0012, right := .read, recovery := true, valid := fun b => b.length == 32,
    act := onDev (fun m s d =>
      let r := d.report m.body s.managerKey
      (d.draw.2, { payload := r ++ sm2Sign d.keeper.identityPriv (scalarOf d.draw.1) r })) }

def execGmpAttest (m : GmpMsg) (s : State) : Host.Outcome State Fault Refusal := .next (gmpCommand attestRequest m s)

/-! ### Ready reports (R403, R404) -/

/-- GMP_READY to every session that subscribed to it. -/
def Dev.sendReady (d : Dev) : Dev :=
  let body := d.readyWords.flatMap (leBytes 8)
  (d.keeper.sessions.filter (fun s => s.confirmed && s.ready)).foldl (fun d s =>
    match d.session s.number with
    | some s => d.gmpNotify s 0x0081 body
    | none => d) d

/-- The changes of 1 ms go out as one message (R404). -/
def Dev.readyExpiry (d : Dev) : Dev :=
  match d.keeper.readyTick with
  | some t =>
    if d.keeper.up && decide (t + msTicks ≤ d.time) then
      (d.sendReady).modKeeper (fun k => { k with readySent := d.readyWords, readyTick := none })
    else d
  | none => d

def execReadyCoalesceExpiry (now : Nat) (s : State) : Host.Outcome State Fault Refusal := .next (s.event now Dev.readyExpiry)

/-- The out-of-band link (R403). -/
def execOobLinkChange (up : Bool) (now : Nat) (s : State) : Host.Outcome State Fault Refusal :=
  .next (s.event now (fun d => d.modKeeper (fun k => { k with oobUp := up })))

end Sys2Proof.Machine
end

