-- ==== Sys2Proof/Machine/StateSpace.lean ====
section
/-! DEFINITION. The state space (R425 to R428): every word by its address, GMP_READ, GMP_WRITE and the words that a write acts on
(R365, R443, R451, R452). -/

namespace Sys2Proof.Machine

/-- Eight bytes of a byte string as a word (R425). -/
def wordAt (b : Bytes) (o : Nat) : Nat := fld b o 8

/-- Device words (R427). -/
def Dev.deviceWord (d : Dev) (o : Nat) : Nat :=
  let k := d.keeper
  if o = 0 then k.deviceInfo
  else if o = 0x008 then k.imageWord
  else if o = 0x010 then k.nameA
  else if o = 0x018 then k.nameB
  else if o = 0x020 then d.readyWord
  else if o = 0x028 then d.readyBasins
  else if o = 0x030 then d.readyLinksLo
  else if o = 0x038 then d.readyLinksHi
  else if o = 0x040 then d.clock.statusWord
  else if o = 0x048 then d.gtc
  else if o = 0x050 then k.imageSerial
  else if 0x080 ≤ o ∧ o < 0x0C0 then wordAt k.identityPub (o - 0x080)
  else if 0x0C0 ≤ o ∧ o < 0x0E0 then (if k.identityState = 3 then 0 else wordAt k.identityDigest (o - 0x0C0))
  else if 0x0E0 ≤ o ∧ o < 0x100 then wordAt k.imageDigest (o - 0x0E0)
  else if 0x100 ≤ o ∧ o < 0x120 then wordAt k.signerDigest (o - 0x100)
  else 0

/-- The event that an offset of the ring's window shows (R426). -/
def Dev.eventAt (d : Dev) (o : Nat) : Option Event := d.faults.ring.reverse.find? (fun e => e.seq % 1024 == o / 64)

/-- A word of the event ring. -/
def Dev.eventWord (d : Dev) (o : Nat) : Nat :=
  match d.eventAt o with
  | some e => wordAt e.bytes (o % 64)
  | none => 0

/-- UNIT_STATUS words: Basins from 0, Tarns at 0x200, stacks at 0x280 (R426). -/
def Dev.unitWord (d : Dev) (o : Nat) : Nat :=
  if o < 0x190 then (d.unit (o / 8)).word
  else if 0x200 ≤ o ∧ o < 0x240 then (d.unit (tarnUnit ((o - 0x200) / 8))).word
  else if 0x280 ≤ o ∧ o < 0x2C0 then (d.unit (stackUnit ((o - 0x280) / 8))).word
  else 0

/-- LINK_STATUS and LINK_OPTICS (R426). -/
def Dev.portWord (d : Dev) (o : Nat) : Nat :=
  if o % 64 = 0 then (d.port (o / 64)).statusWord (d.mode (o / 64))
  else if o % 64 = 8 then (d.port (o / 64)).opticsWord
  else 0

/-- The words of a job (R426). -/
def Dev.jobWord (d : Dev) (o : Nat) : Nat :=
  let x := d.job (o / 0x1000)
  let r := o % 0x1000
  if r = 0 then x.state.code
  else if r = 0x08 then x.stepStatus
  else if r = 0x10 then x.stepTiming
  else if r = 0x18 then x.recovery
  else if 0x20 ≤ r ∧ r < 0x40 then wordAt x.pkgDigest (r - 0x20)
  else 0

/-- The basin field of CTX_STATUS (R94): 0xFF in FREE, a free value where the schedule names no Basin for the bucket. -/
def Dev.basinField (d : Dev) (c : Nat) : Nat :=
  let x := d.ctx c
  if x.state ≠ .free ∧ x.basin = 0xFF then Config.slotlessBasin c % 50 else x.basin

/-- CTX_STATUS and CTX_SEQ (R426). -/
def Dev.ctxWord (d : Dev) (o : Nat) : Nat :=
  let x := d.ctx (o / 16)
  if o % 16 = 0 then ({ x with basin := d.basinField (o / 16) } : Ctx).statusWord else x.seqWord

/-- The HDR_SAMPLE window (R291, R426): the ring holds the newest 4,096 records. -/
def Dev.sampleWord (d : Dev) (o : Nat) : Nat :=
  let s := d.samples
  if o = 0 then s.count
  else if o < 0x40 then 0
  else
    let slot := (o - 0x40) / 64
    let first := s.count - s.ring.length
    match (List.range s.ring.length).find? (fun i => (first + i) % 4096 == slot) with
    | some i => wordAt (s.ring.getD i []) ((o - 0x40) % 64)
    | none => 0

/-- Instruction words of update programs (R128, R426). -/
def Dev.programWord (d : Dev) (o : Nat) : Nat :=
  let p := (d.job (o / 0x4000)).program (o % 0x4000 / 0x400)
  let i := o % 0x400 / 8
  if i < pgCount p then pgInstr p i else 0

/-- The bytes of one slot of the Silt ring (R452). -/
def Dev.slotBytes (d : Dev) (i : Nat) : Bytes :=
  match d.silt.recs.reverse.find? (fun r => r.slot == i || (r.two && (r.slot + 1) % d.siltSlots == i)) with
  | some r => slice r.bytes (if r.slot = i then 0 else 32) 32
  | none => []

/-- The Silt control words (R452). -/
def Dev.siltWord (d : Dev) (o : Nat) : Nat :=
  let s := d.silt
  if o = 0x00 then d.siltStatus
  else if o = 0x10 then d.siltSlots
  else if o = 0x18 then s.next
  else if o = 0x20 then (if s.state == .running then noKey else s.oldestFrozen.getD noKey)
  else if o = 0x28 then (if s.state == .running then noKey else s.triggerSlot.getD noKey)
  else if o = 0x30 then (if s.state == .running then noKey else s.lostSlot.getD noKey)
  else 0

/-- The words of a probe's block (R443). -/
def Probe.word (p : Probe) (o : Nat) : Nat :=
  if o < 16 then wordAt p.entry o
  else if o = 16 then p.count
  else if o = 24 then p.min
  else if o = 32 then p.max
  else if o = 40 then p.sum
  else if 64 ≤ o ∧ o < 320 then tget 0 p.bins ((o - 64) / 8)
  else 0

/-- A LINK_TIME entry (R459). -/
def Dev.linkTime (d : Dev) (p : Nat) : Bytes :=
  let x := d.port p
  leBytes 1 p ++
    leBytes 1 (pack [(0, b2n (d.fabric p && d.up p)), (1, b2n (decide (d.clock.upstream = p))), (2, b2n x.hasDelay)]) ++
    leBytes 2 x.linkGen ++ leBytes 2 (intBits 16 (if p < 96 then d.asym p else 0)) ++ leBytes 1 x.neighbourPort ++ leBytes 1 0 ++
    leBytes 8 x.calibTick ++ leBytes 8 (intBits 64 x.bringupDelay) ++ leBytes 8 (intBits 64 x.delay) ++
    leBytes 8 (intBits 64 x.lastOffset) ++ leBytes 8 (intBits 64 x.bringupOffset) ++ leBytes 7 x.neighbourId ++ leBytes 1 0 ++
    leBytes 4 (d.ctr (ctrIdx 2 p 0x1C)) ++ leBytes 4 0

/-- A word of the windows at 0x04_0000_0000 (R443, R452, R459). -/
def Dev.windowWord (d : Dev) (o : Nat) : Nat :=
  if o < 0x1000 then d.siltWord o
  else if o < 0x1000 + 512 * 64 then (tget {} d.probes ((o - 0x1000) / 512)).word ((o - 0x1000) % 512)
  else if 0x10000 ≤ o ∧ o < 0x10000 + 64 * 98 then wordAt (d.linkTime ((o - 0x10000) / 64)) ((o - 0x10000) % 64)
  else if 0x40000000 ≤ o ∧ o < 0x40000000 + 32 * d.siltSlots then wordAt (d.slotBytes ((o - 0x40000000) / 32)) ((o - 0x40000000) % 32)
  else 0

/-- One word of the state space; none where the address is not mapped (R425, R426). -/
def Dev.wordOf (d : Dev) (a : Nat) : Option Nat :=
  if a % 8 ≠ 0 then none
  else if a < 0x1000 then some (d.deviceWord a)
  else if 0x10000 ≤ a ∧ a < 0x10080 then some (tget {} d.faults.classes ((a - 0x10000) / 8)).word
  else if 0x20000 ≤ a ∧ a < 0x30000 then some (d.eventWord (a - 0x20000))
  else if 0x30000 ≤ a ∧ a < 0x30400 then some (d.unitWord (a - 0x30000))
  else if 0x100000 ≤ a ∧ a < 0x100000 + 6272 then some (d.portWord (a - 0x100000))
  else if 0x200000 ≤ a ∧ a < 0x300000 then some (d.jobWord (a - 0x200000))
  else if 0x300000 ≤ a ∧ a < 0x310000 then some (d.ctxWord (a - 0x300000))
  else if 0x400000 ≤ a ∧ a < 0x440040 then some (d.sampleWord (a - 0x400000))
  else if 0x800000 ≤ a ∧ a < 0xC00000 then some (d.programWord (a - 0x800000))
  else if 0x100000000 ≤ a ∧ a < 0x140000000 then some (d.ctr ((a - 0x100000000) / 8))
  else if 0x400000000 ≤ a ∧ a < 0x800000000 then some (d.windowWord (a - 0x400000000))
  else none

/-- `n` words from an address; none where one of them is not mapped. -/
def Dev.wordsFrom (d : Dev) (a : Nat) : Nat → Option Bytes
  | 0 => some []
  | n + 1 =>
    match d.wordOf a with
    | none => none
    | some w => (d.wordsFrom (a + 8) n).map (fun r => leBytes 8 w ++ r)

/-- Records of the ring with a number below `seq` that a read of the `n` bytes from `a` on returned are delivered (R364); `ring` is where
the ring lies in what is read. The last word of a record tells that it has been returned (DEDUCED, log entry 66). -/
def Dev.deliver (d : Dev) (ring seq a n : Nat) : Dev :=
  d.modFaults (fun f =>
    { f with ring := f.ring.map (fun e =>
        let last := ring + 64 * (e.seq % 1024) + 56
        if e.seq < seq ∧ a ≤ last ∧ last + 8 ≤ a + n then { e with delivered := true } else e) })

/-- GMP_READ (R425). -/
def readRequest : Request :=
  { msg := 0x0010, right := .read, recovery := true,
    valid := fun b => b.length == 12 && decide (1 ≤ fld b 8 4) && decide (fld b 8 4 ≤ 160),
    act := onDev (fun m _ d =>
      let a := fld m.body 0 8
      let n := fld m.body 8 4
      match d.wordsFrom a n with
      | none => (d, { status := stAddrUnmapped })
      | some b => (d.deliver 0x20000 d.faults.eventSeq a (8 * n), { payload := b })) }

def execGmpRead (m : GmpMsg) (s : State) : Host.Outcome State Fault Refusal := .next (gmpCommand readRequest m s)

/-! ### Writes (R428) -/

/-- A write of GTC_STATUS: stretched and stepped are cleared by a one (R201, R9). -/
def Dev.writeGtcStatus (d : Dev) (v : Nat) : Dev :=
  d.modClock (fun c => { c with stretched := c.stretched && !bit v 40, stepped := c.stepped && !bit v 41 })

/-- A write of a FAULT_CLASS word (R365). -/
def Dev.writeClass (d : Dev) (c v : Nat) : Dev := if bit v 0 then d.ackClass c else d

/-- A probe's contents emptied (R443). -/
def Probe.clear (p : Probe) : Probe := { entry := p.entry, last := p.last, turn := p.turn }
/-- The entry's enabled bit cleared; the contents are kept (R443). -/
def Probe.disable (p : Probe) : Probe :=
  { p with entry := p.entry.take 1 ++ leBytes 1 (u8 p.entry 1 - 2 * b2n (bit (u8 p.entry 1) 1)) ++ p.entry.drop 2 }

def Dev.modProbe (d : Dev) (i : Nat) (f : Probe → Probe) : Dev := { d with probes := tmod {} d.probes i f }

/-- A write of PROBE_CTRL (R443). -/
def Dev.writeProbe (d : Dev) (i v : Nat) : Dev :=
  let d := if bit v 0 then d.modProbe i Probe.clear else d
  if bit v 1 then d.modProbe i Probe.disable else d

/-- A write of SILT_CTRL: it rearms first and then triggers (R451, R452). -/
def Dev.writeSilt (d : Dev) (v : Nat) : Dev :=
  let d := if bit v 1 then d.siltRearm else d
  if bit v 0 then d.siltTrigger 32 else d

/-- The class, the probe that an address names. -/
def classAt (a : Nat) : Option Nat := if a % 8 = 0 ∧ 0x10000 ≤ a ∧ a < 0x10080 then some ((a - 0x10000) / 8) else none
def probeAt (a : Nat) : Option Nat :=
  if 0x400001000 ≤ a ∧ a < 0x400001000 + 512 * 64 ∧ (a - 0x400001000) % 512 = 48 then some ((a - 0x400001000) / 512) else none
/-- The addresses of GTC_STATUS and SILT_CTRL. -/
def gtcStatusAddr : Nat := 0x40
def siltCtrlAddr : Nat := 0x400000008

/-- A write of any word (R428). -/
def Dev.writeWord (d : Dev) (a v : Nat) : Dev × Reply :=
  match d.wordOf a with
  | none => (d, { status := stAddrUnmapped })
  | some _ =>
    if a = gtcStatusAddr then (d.writeGtcStatus v, {})
    else if a = siltCtrlAddr then (d.writeSilt v, {})
    else match classAt a with
      | some c => (d.writeClass c v, {})
      | none => match probeAt a with
        | some i => (d.writeProbe i v, {})
        | none => (d, { status := stAddrRo })

/-- A GMP_WRITE request with what it does at its address (R428). -/
def writeRequest (f : Dev → Nat → Nat → Dev × Reply) : Request :=
  { msg := 0x0011, right := .device, valid := fun b => b.length == 16,
    act := onDev (fun m _ d => f d (fld m.body 0 8) (fld m.body 8 8)) }

def execGmpWrite (m : GmpMsg) (s : State) : Host.Outcome State Fault Refusal := .next (gmpCommand (writeRequest Dev.writeWord) m s)

/-- Writing one to unacked acknowledges the class (R365). -/
def ackWrite (d : Dev) (a v : Nat) : Dev × Reply :=
  match classAt a with
  | some c => (d.writeClass c v, {})
  | none => d.writeWord a v

def execFaultClassAck (m : GmpMsg) (s : State) : Host.Outcome State Fault Refusal := .next (gmpCommand (writeRequest ackWrite) m s)

/-- PROBE_CTRL with clear (R443). -/
def probeClearWrite (d : Dev) (a v : Nat) : Dev × Reply :=
  match probeAt a with
  | some i => (d.writeProbe i v, {})
  | none => d.writeWord a v

def execProbeClear (m : GmpMsg) (s : State) : Host.Outcome State Fault Refusal := .next (gmpCommand (writeRequest probeClearWrite) m s)

/-- PROBE_CTRL with disable (R443). -/
def probeDisableWrite (d : Dev) (a v : Nat) : Dev × Reply :=
  match probeAt a with
  | some i => (d.writeProbe i v, {})
  | none => d.writeWord a v

def execProbeDisable (m : GmpMsg) (s : State) : Host.Outcome State Fault Refusal :=
  .next (gmpCommand (writeRequest probeDisableWrite) m s)

/-- SILT_CTRL with trigger (R450 bit 5). -/
def siltTriggerWrite (d : Dev) (a v : Nat) : Dev × Reply :=
  if a = siltCtrlAddr then (d.writeSilt v, {}) else d.writeWord a v

def execSiltCtrlTrigger (m : GmpMsg) (s : State) : Host.Outcome State Fault Refusal :=
  .next (gmpCommand (writeRequest siltTriggerWrite) m s)

/-- SILT_CTRL with rearm (R451). -/
def siltRearmWrite (d : Dev) (a v : Nat) : Dev × Reply :=
  if a = siltCtrlAddr then (d.writeSilt v, {}) else d.writeWord a v

def execSiltCtrlRearm (m : GmpMsg) (s : State) : Host.Outcome State Fault Refusal :=
  .next (gmpCommand (writeRequest siltRearmWrite) m s)

end Sys2Proof.Machine
end

