-- ==== Sys2Proof/Machine/Trace.lean ====
section
/-! DEFINITION. Capture probes, Silt's triggers and extension, event pins, halts by GMP and the dump (R379, R400, R440 to R443, R448,
R450, R455 to R459). -/

namespace Sys2Proof.Machine

/-! ### Capture probes (R440 to R442) -/

/-- Whether a quantity is sampled at a period (R441). -/
def sampledQuantity (q : Nat) : Bool := q == 2 || q == 4 || q == 5 || q == 6
/-- Instances of a quantity (R441). -/
def instancesOf (q : Nat) : Nat := [0, 4096, 98, 256, 98, 4096, 4, 256, 96].getD q 0

/-- Whether a capture entry is one that R440 admits. -/
def captureValid (e : Bytes) : Bool :=
  let q := u8 e 0
  e.length == 16 && zeros e 6 2 && decide (u8 e 1 < 4) && decide (u8 e 2 < 32) && decide (q ≤ 8) &&
    (if q = 0 then !bit (u8 e 1) 1
     else
      (if q = 2 then decide (u8 e 3 < 8) else u8 e 3 == 0) && decide (fld e 4 2 < instancesOf q) &&
        (!bit (u8 e 1) 0 || fld e 8 4 == 0) &&
        (if sampledQuantity q then decide (64 ≤ fld e 12 4) && decide (fld e 12 4 ≤ 4294967294) else fld e 12 4 == 0))

/-- The bin of a sample (R442). -/
def binOf (e : Bytes) (v : Nat) : Nat :=
  let s := u8 e 2
  if bit (u8 e 1) 0 then min (bitLen (v / 2 ^ s)) 31
  else if v < fld e 8 4 then 0
  else min (1 + (v - fld e 8 4) / 2 ^ s) 31

/-- A sample enters a probe (R442, R443). -/
def addSample (p : Probe) (v : Nat) : Probe :=
  let v := min v 0xFFFFFFFF
  let top := 2 ^ 64 - 1
  { p with count := min (p.count + 1) top, sum := min (p.sum + v) top, min := min p.min v, max := max p.max v,
           bins := tmod 0 p.bins (binOf p.entry v) (fun n => min (n + 1) top) }

/-- Whether a probe takes a quantity of an instance. -/
def Probe.takes (p : Probe) (q inst : Nat) : Bool := bit (u8 p.entry 1) 1 && u8 p.entry 0 == q && fld p.entry 4 2 == inst

/-- A sample of an event quantity goes to every probe set to it (R441). -/
def Dev.sample (d : Dev) (q inst v : Nat) : Dev :=
  { d with probes := d.probes.map (fun e => if e.2.takes q inst then (e.1, addSample e.2 v) else e) }

/-- The value that a sampled quantity has now (R441). -/
def Dev.quantity (d : Dev) (p : Probe) : Nat :=
  let inst := fld p.entry 4 2
  match u8 p.entry 0 with
  | 2 => (tget [] (d.port inst).outQ (u8 p.entry 3)).length
  | 4 => d.ctr (ctrIdx 2 inst 3) - p.last
  | 5 => d.charge (ctxHolder inst) false / 1024
  | 6 => d.freeIn inst
  | _ => 0

/-- Whether `t` stands at a multiple of a period other than the last one taken; two ticks are one core cycle (R13). -/
def atMultiple (t period last : Nat) : Bool := decide (t / period ≠ last) && decide (t % period < 2)

/-- What a probe's period counts: the GTC, or die 0's cycles while the GTC is INVALID (R441). -/
def Dev.probeClock (d : Dev) : Nat := if d.clock.state == .invalid then d.ctr (ctrIdx 4 0 0) else d.gtc

/-- Whether a probe is due: it is enabled, its quantity is a sampled one, and its period has passed (R441). -/
def Dev.probeDue (d : Dev) (i : Nat) : Bool :=
  let p := tget {} d.probes i
  bit (u8 p.entry 1) 1 && sampledQuantity (u8 p.entry 0) && atMultiple d.probeClock (fld p.entry 12 4) p.turn

/-- A probe samples where it is due (R441). -/
def Dev.probeSample (i : Nat) (d : Dev) : Dev :=
  if d.probeDue i then
    d.modProbe i (fun p =>
      { addSample p (d.quantity p) with last := d.ctr (ctrIdx 2 (fld p.entry 4 2) 3), turn := d.probeClock / fld p.entry 12 4 })
  else d

def execProbeSample (probe now : Nat) (s : State) : Host.Outcome State Fault Refusal := .next (s.event now (Dev.probeSample probe))

/-- A probe with a new entry and nothing counted (R440, R443). -/
def Dev.setProbe (d : Dev) (i : Nat) (e : Bytes) : Dev :=
  d.modProbe i (fun _ => { entry := e, last := d.ctr (ctrIdx 2 (fld e 4 2) 3) })

/-- GMP_CAPTURE_SET (R440). -/
def captureRequest : Request :=
  { msg := 0x0063, right := .device,
    valid := fun b => b.length == 20 && decide (u8 b 0 < 64) && zeros b 1 3 && captureValid (b.drop 4),
    act := onDev (fun m _ d => (d.setProbe (u8 m.body 0) (m.body.drop 4), {})) }

def execGmpCaptureSet (m : GmpMsg) (s : State) : Host.Outcome State Fault Refusal := .next (gmpCommand captureRequest m s)

/-! ### Triggers, pins and the extension -/

/-- An active edge on a TRACE_TRIGGER_IN pin (R450 bit 0); a clamped pin is ignored (R495). -/
def Dev.triggerIn (pin : Nat) (d : Dev) : Dev :=
  if (d.evtPinsOf 3).any (fun e => u8 e 0 == pin) && !d.power.evtClamped.contains pin then d.siltTrigger 1 else d

def execEvtTriggerIn (pin now : Nat) (s : State) : Host.Outcome State Fault Refusal := .next (s.event now (Dev.triggerIn pin))

/-- The GTC reaches a time trigger (R450 bits 1 and 2): a comparator fires once, and not while the GTC is INVALID. -/
def Dev.timeReached (n : Nat) (d : Dev) : Dev :=
  if n < 2 ∧ d.timeTrigger n ≠ noKey ∧ d.timeTrigger n ≤ d.gtc ∧ d.clock.state ≠ .invalid ∧ n ∉ d.silt.fired then
    (d.modSilt (fun s => { s with fired := s.fired ++ [n] })).siltTrigger (2 * (n + 1))
  else d

def execTimeTrigger (n now : Nat) (s : State) : Host.Outcome State Fault Refusal := .next (s.event now (Dev.timeReached n))

/-- The weir-frame window of the tick (06, The weir frame). -/
def Dev.window (d : Dev) : Nat := d.tick % 9750 / 325
/-- Whether a job claims the present window on a resource (R210). -/
def Job.claimsNow (x : Job) (resource w : Nat) : Bool :=
  (scClaimList x.sched).any (fun c => clResource c == resource && bit (clMask c) w)
/-- Whether a RUNNING job claims the present window on a resource. -/
def Dev.claimed (d : Dev) (resource : Nat) : Bool :=
  d.jobs.any (fun e => e.2.state == .running && e.2.claimsNow resource d.window)

/-- One 4 KiB block moves from the write buffer to the extension on a stack, in a window without refresh that no RUNNING job
claims there (R448). -/
def Dev.siltFlush (st : Nat) (d : Dev) : Dev :=
  if 128 ≤ d.silt.buffered ∧ fld d.trace (36 + 8 * st) 4 ≠ 0 ∧ st < 8 ∧ ¬ (3 * st ≤ d.window ∧ d.window ≤ 3 * st + 2) ∧
      d.claimed (0x4000 + st) = false then
    (d.modSilt (fun s => { s with buffered := s.buffered - 128 })).countStack st 1 4096
  else d

def execSiltExtensionFlush (stack now : Nat) (s : State) : Host.Outcome State Fault Refusal := .next (s.event now (Dev.siltFlush stack))

/-- Whether a pin's PERIODIC_PULSE entry has come to a multiple of its period (R400); no comparator fires while the GTC is INVALID
(R450). -/
def Dev.pulseDue (d : Dev) (pin : Nat) : Bool :=
  (d.evtPinsOf 2).any (fun e => u8 e 0 == pin && atMultiple d.gtc (fld e 8 8) (tget 0 d.power.pulsed pin)) &&
    d.clock.state != .invalid

/-- A PERIODIC_PULSE pin is driven where it is due (R400). -/
def Dev.periodic (pin : Nat) (d : Dev) : Dev :=
  if d.pulseDue pin then
    let period := (((d.evtPinsOf 2).find? (fun e => u8 e 0 == pin)).map (fun e => fld e 8 8)).getD 1
    (d.modPower (fun x => { x with pulsed := tset x.pulsed pin (d.gtc / period) })).pulse pin
  else d

def execPeriodicPulse (pin now : Nat) (s : State) : Host.Outcome State Fault Refusal := .next (s.event now (Dev.periodic pin))

/-! ### The dump (R457 to R459) -/

/-- The numbers of the assigned counters, by group: instances and numbers (R436 to R439). -/
def assignedCounters : List Nat :=
  let nums (g n : Nat) (l : List Nat) : List Nat := (List.range n).flatMap (fun i => l.map (ctrIdx g i))
  let job := (List.range 20).map (· + 1)
  nums 0 1 (job ++ (List.range 16).map (· + 0x100)) ++ nums 1 256 job ++
    nums 2 98 (List.range 6 ++ (List.range 15).map (· + 0x10) ++ (List.range 19).map (· + 0x20)) ++ nums 3 8 (List.range 4) ++
    nums 4 2 (List.range 4) ++ nums 5 4 (List.range 3) ++ nums 6 50 (List.range 2) ++ nums 7 8 [0]

/-- `n` words of the state space, for a section that copies them. -/
def Dev.area (d : Dev) (a n : Nat) : Bytes := (List.range n).flatMap (fun i => leBytes 8 ((d.wordOf (a + 8 * i)).getD 0))

/-- How many slots lie from the oldest held slot to the last written one (R458 section 11). -/
def Dev.siltSpan (d : Dev) : Nat :=
  match d.silt.recs with
  | [] => 0
  | r :: _ => if d.silt.next = r.slot then d.siltSlots else (d.silt.next + d.siltSlots - r.slot) % d.siltSlots

/-- The SILT section, read in place. -/
def Dev.siltSection (d : Dev) : Bytes :=
  let start := match d.silt.recs with
    | [] => 0
    | r :: _ => r.slot
  (List.range 7).flatMap (fun i => leBytes 8 (d.siltWord (8 * i))) ++
    (List.range d.siltSpan).flatMap (fun i => (d.slotBytes ((start + i) % d.siltSlots) ++ List.replicate 32 0#8).take 32)

/-- Sections 1 to 10, with their numbers. -/
def Dev.dumpSections (d : Dev) : List (Nat × Bytes) := [
  (1, d.area 0 512),
  (2, d.area 0x10000 16 ++ d.area 0x20000 8192),
  (3, d.area 0x30000 128),
  (4, (List.range 98).flatMap (fun p => d.area (0x100000 + 64 * p) 2)),
  (5, (List.range 98).flatMap d.linkTime),
  (6, d.area 0x200000 131072),
  (7, d.area 0x300000 8192),
  (8, assignedCounters.flatMap (fun i => leBytes 4 i ++ leBytes 4 0 ++ leBytes 8 (d.ctr i))),
  (9, d.area 0x400001000 4096),
  (10, d.area 0x400000 32776)]

/-- A section table entry (R458). -/
def sectionEntry (id off len gtc : Nat) : Bytes := leBytes 2 id ++ leBytes 6 0 ++ leBytes 8 off ++ leBytes 8 len ++ leBytes 8 gtc

/-- The section table from an offset on. -/
def sectionTable (gtc : Nat) : Nat → List (Nat × Nat) → Bytes
  | _, [] => []
  | off, (i, n) :: r => sectionEntry i off n gtc ++ sectionTable gtc (off + n) r

/-- The dump header (R458). -/
def Dev.dumpHeader (d : Dev) (kind length : Nat) : Bytes :=
  [0x56#8, 0x39#8, 0x36#8, 0x44#8] ++ leBytes 4 11 ++ leBytes 8 length ++ leBytes 8 d.gtc ++ leBytes 1 d.clock.state.code ++
    leBytes 1 kind ++ leBytes 2 0 ++ leBytes 4 d.keeper.warmResets ++ d.keeper.identityDigest ++ d.keeper.imageDigest ++ leBytes 32 0

/-- A dump of the device as it stands, but for its SILT section. -/
def Dev.makeDump (d : Dev) (id session kind : Nat) : Dump :=
  let secs := d.dumpSections
  let siltLen := 56 + 32 * d.siltSpan
  let off := 128 + 11 * 32
  let table := sectionTable d.gtc off (secs.map (fun s => (s.1, s.2.length)) ++ [(11, siltLen)])
  let body := secs.flatMap (·.2)
  { id := id, session := session, bytes := d.dumpHeader kind (off + body.length + siltLen) ++ table ++ body,
    siltOff := off + body.length, siltLen := siltLen, ringSeq := d.faults.eventSeq, lastTick := d.time }

/-- The dump opens and its number and header are answered (R455, R457 item 3). The number is a free value (log entry 5). -/
def Dev.openDump (d : Dev) (session kind : Nat) : Dev × Reply :=
  let id := d.draw.1 % 2 ^ 32
  let x := d.draw.2.makeDump id session kind
  ({ d.draw.2 with dump := some x }, { payload := leBytes 4 id ++ leBytes 4 0 ++ x.bytes.take 128 })

/-! ### Halts by GMP (R379, R410, R411) -/

/-- Whether a job's sequencer still runs an Update that had started at this owner (R379). -/
def Job.updating (x : Job) : Bool := x.inUpdate && !x.stopped

/-- A job that GMP_JOB_HALT or a halting dump halts: its Update, once started, runs over every chunk (R379). -/
def Job.gmpHalt (x : Job) (now : Nat) : Job :=
  if x.state == .halted then x else { x.halt 1 now with stopped := !x.inUpdate, runSection := if x.inUpdate then x.runSection else none }

/-- Halts that were waiting are answered once their sequencers have stopped. A wait under job 256 is a halting dump's. -/
def Dev.haltDone (d : Dev) : Dev :=
  let over' (w : Nat × Nat × Nat) : Bool :=
    if w.1 = 256 then d.jobs.all (fun e => !e.2.updating) else !(d.job w.1).updating
  let done := d.keeper.haltWaits.filter over'
  let d := d.modKeeper (fun k => { k with haltWaits := k.haltWaits.filter (fun w => !over' w) })
  done.foldl (fun d w =>
    if w.1 = 256 then
      let r := d.openDump w.2.1 1
      r.1.gmpReply w.2.1 0x0060 w.2.2 r.2.body
    else d.gmpReply w.2.1 0x0034 w.2.2 ({ payload := leBytes 8 (d.job w.1).recovery } : Reply).body) d

/-- A request that waits for a halt: answered at once where nothing runs. -/
def Dev.waitHalt (d : Dev) (job session tag : Nat) : Dev :=
  (d.modKeeper (fun k => { k with haltWaits := k.haltWaits ++ [(job, session, tag)] })).haltDone

/-- GMP_DUMP_BEGIN (R457): kind halt halts every job and triggers Silt. -/
def dumpBeginRequest : Request :=
  { msg := 0x0060, right := .device, valid := fun b => b.length == 4 && decide (u8 b 0 < 2) && zeros b 1 3,
    act := fun m s k =>
      if k.dev.dump.isSome || k.dev.keeper.haltWaits.any (fun w => w.1 == 256) then refuse stDumpBusy k
      else if u8 m.body 0 = 0 then
        let r := k.dev.openDump s.number 0
        ({ k with dev := r.1 }, some r.2)
      else
        (k.mod (fun d =>
          let d := d.loaded.foldl (fun d j => d.modJob j (fun x => x.gmpHalt d.time)) d
          (if d.silt.state == .running then d.siltTrigger 128 else d).waitHalt 256 s.number m.tag), none) }

def execGmpDumpBegin (m : GmpMsg) (s : State) : Host.Outcome State Fault Refusal := .next (gmpCommand dumpBeginRequest m s)

/-- Bytes of the dump: its SILT section is read in place (R457). -/
def Dev.dumpBytes (d : Dev) (x : Dump) (off n : Nat) : Bytes :=
  let silt := (d.siltSection ++ List.replicate x.siltLen 0#8).take x.siltLen
  slice (x.bytes ++ silt) off n

/-- Where the event ring lies in a dump: after the header, the table, section 1 and the FAULT_CLASS words (R458). -/
def dumpRing : Nat := 128 + 11 * 32 + 8 * 512 + 8 * 16

/-- GMP_DUMP_READ (R455, R456). -/
def dumpReadRequest : Request :=
  { msg := 0x0061, right := .read,
    valid := fun b => b.length == 20 && zeros b 4 4 && decide (1 ≤ fld b 16 4) && decide (fld b 16 4 ≤ 8192),
    act := onDev (fun m _ d =>
      let off := fld m.body 8 8
      let n := fld m.body 16 4
      match d.dump with
      | none => (d, { status := stDumpNone })
      | some x =>
        if m.port = 98 ∧ 1024 < n then (d, { status := stGmpMalformed })
        else if x.id ≠ fld m.body 0 4 then (d, { status := stDumpNone })
        else if x.siltOff + x.siltLen < off + n then (d, { status := stGmpMalformed })
        else ({ d.deliver dumpRing x.ringSeq off n with dump := some { x with lastTick := d.time } }, { payload := d.dumpBytes x off n })) }

def execGmpDumpRead (m : GmpMsg) (s : State) : Host.Outcome State Fault Refusal := .next (gmpCommand dumpReadRequest m s)

/-- GMP_DUMP_END (R457). -/
def dumpEndRequest : Request :=
  { msg := 0x0062, right := .device, valid := fun b => b.length == 4,
    act := onDev (fun m _ d =>
      match d.dump with
      | none => (d, { status := stDumpNone })
      | some x => if x.id = fld m.body 0 4 then ({ d with dump := none }, {}) else (d, { status := stDumpNone })) }

def execGmpDumpEnd (m : GmpMsg) (s : State) : Host.Outcome State Fault Refusal := .next (gmpCommand dumpEndRequest m s)

/-- A dump closes after 600 s without a read (R457). -/
def Dev.dumpTimeout (d : Dev) : Dev :=
  match d.dump with
  | some x => if x.lastTick + 600 * secTicks ≤ d.time then { d with dump := none } else d
  | none => d

def execDumpIdleTimeout (now : Nat) (s : State) : Host.Outcome State Fault Refusal := .next (s.event now Dev.dumpTimeout)

end Sys2Proof.Machine
end

