-- ==== Sys2Proof/Machine/Time.lean ====
section
/-! DEFINITION. Machine time: sync exchanges, the servo, loss of the Spring and of the reference (R190 to R201, R207, R223). -/

namespace Sys2Proof.Machine

/-! ### Sync frames (R196) -/

def sfType (b : Bytes) : Nat := u8 b 0
def sfDepth (b : Bytes) : Nat := u8 b 2
def sfRackDepth (b : Bytes) : Nat := u8 b 3
def sfRack (b : Bytes) : Nat := fld b 4 2
def sfSeq (b : Bytes) : Nat := fld b 6 2
def sfKey (b : Bytes) : Nat := fld b 8 8
/-- A timestamp in units of 2⁻¹⁶ tick. -/
def sfStamp (b : Bytes) (o : Nat) : Nat := fld b o 8 * 65536 + fld b (o + 8) 2
def stampBytes (t : Nat) : Bytes := leBytes 8 (t / 65536) ++ leBytes 2 (t % 65536)

/-- A frame that is dropped and counted in SYNC_MALFORMED (R196). -/
def sfBad (b : Bytes) (typ : Nat) : Bool :=
  b.length != 48 || sfType b != typ || decide (3 < u8 b 1) || (decide (10 ≤ sfDepth b) && decide (sfDepth b ≤ 254)) ||
    (decide (3 ≤ sfRackDepth b) && decide (sfRackDepth b ≤ 254)) || !zeros b 46 2

/-- A sync frame of this device (R196). -/
def Dev.syncFrame (d : Dev) (typ seq t1 t2 t3 : Nat) : Bytes :=
  let c := d.clock
  leBytes 1 typ ++ leBytes 1 (pack [(0, b2n (c.state == .locked)), (1, b2n c.spring)]) ++
    leBytes 1 (if c.depth = 0xF then 0xFF else c.depth) ++ leBytes 1 (if c.rackDepth = 3 then 0xFF else c.rackDepth) ++
    leBytes 2 d.rackId ++ leBytes 2 seq ++ leBytes 8 c.adoptedKey ++ stampBytes t1 ++ stampBytes t2 ++ stampBytes t3 ++ leBytes 2 0

/-- Whether sync exchanges run on a port: a fabric-mode link in CALIBRATE or UP (R191, R198). -/
def Dev.syncs (d : Dev) (p : Nat) : Bool := d.fabric p && ((d.port p).state == .up || (d.port p).state == .calibrate)

/-- The cadence of 2,500 ticks: in CALIBRATE, and on the upstream port in ACQUIRING or after a change of upstream (R198, R200). -/
def fastPeriod : Nat := 2500
def Dev.fastSync (d : Dev) (p : Nat) : Bool :=
  (d.port p).state == .calibrate || (d.clock.upstream == p && (d.clock.state == .acquiring || (d.clock.state == .locked && d.clock.fast)))

/-- Whether a SYNC_REQ is due on a port: by the cadence of 2,500 ticks, measured in core cycles, or once the GTC has passed a
multiple of 263,250 since the last periodic one (R198). -/
def Dev.reqIsDue (d : Dev) (p : Nat) : Bool :=
  let x := d.port p
  d.syncs p && (if d.fastSync p then decide (x.reqDue ≤ d.time)
                else decide (x.reqTick / Sys2Proof.Machine.syncPeriod ≠ d.gtc / Sys2Proof.Machine.syncPeriod))

/-- The downstream device sends SYNC_REQ (R198); its time is the GTC with the given fraction. -/
def Dev.syncPeriod (p frac : Nat) (d : Dev) : Dev :=
  if d.reqIsDue p then
    let seq := ((d.port p).exchSeq + 1) % 2 ^ 16
    let t1 := d.gtc * 65536 + frac % 65536
    (d.modPort p (fun x =>
      { x with exchSeq := seq, sentT1 := some (seq, t1), reqDue := if d.fastSync p then d.time + fastPeriod else x.reqDue,
               reqTick := d.gtc })).sendVc6 p 3 0 (d.syncFrame 1 seq t1 0 0)
  else d

def execSyncPeriod (port now frac : Nat) (s : State) : Host.Outcome State Fault Refusal := .next (s.event now (Dev.syncPeriod port frac))

/-- The election fields of a received frame are taken (R193, R194, R246 condition 7). -/
def Dev.takeOffer (d : Dev) (p : Nat) (b : Bytes) : Dev :=
  let o : Offer := { key := sfKey b, depth := sfDepth b, rackId := sfRack b, rackDepth := sfRackDepth b, tick := d.tick }
  let d := d.modClock (fun c =>
    { c with offers := tset c.offers p o, keyTick := if sfKey b = c.adoptedKey then c.time else c.keyTick })
  let d := d.modPort p (fun x =>
    { x with peerUpstream := decide (sfKey b = d.clock.adoptedKey ∧ sfDepth b = d.clock.depth + 1) })
  d.elect

/-- A SYNC_REQ is answered, and its election fields are taken (R196). Times t2 and t3 come in units of 2⁻¹⁶ tick. -/
def Dev.syncReq (p : Nat) (b : Bytes) (t2 t3 : Nat) (d : Dev) : Dev :=
  if !d.syncs p then d
  else if sfBad b 1 then d.countPort p 0x1B 1
  else
    let d := (d.takeOffer p b).modPort p (fun x => { x with peerDone := d.gtc / Sys2Proof.Machine.syncPeriod })
    d.sendVc6 p 3 0 (d.syncFrame 2 (sfSeq b) (sfStamp b 16) t2 t3)

def execSyncReqRx (port : Nat) (payload : Bytes) (t2 t3 now : Nat) (s : State) : Host.Outcome State Fault Refusal :=
  .next (s.event now (Dev.syncReq port payload t2 t3))

/-! ### The requester's sums (R197, R198) -/

/-- The inbound delay and the offset of an exchange, in units of 2⁻¹⁶ tick; halves are rounded down (DEDUCED, log entry 24). -/
def Dev.exchange (d : Dev) (p : Nat) (b : Bytes) (t4 : Nat) : Int × Int :=
  let t1 : Int := sfStamp b 16
  let t2 : Int := sfStamp b 26
  let t3 : Int := sfStamp b 36
  let del : Int := ((t4 - t1) - (t3 - t2) + 256 * d.asym p) / 2
  (del, t4 - (t3 + del))

/-- One bring-up exchange; after 64 of them their mean is the bring-up delay and the port is UP (R198, R238). -/
def Dev.calibrate (d : Dev) (p : Nat) (del o : Int) : Dev :=
  let x := d.port p
  let n := x.calibDone + 1
  let sum := (if x.calibDone = 0 then 0 else x.bringupSum) + del
  let osum := (if x.calibDone = 0 then 0 else x.bringupOffset) + o
  if n < 64 then d.modPort p (fun x => { x with calibDone := n, bringupSum := sum, bringupOffset := osum })
  else
    let mean := sum / 64
    let was := x.drift
    let d := d.modPort p (fun x =>
      { x with bringupSum := sum, bringupDelay := mean, hasBringup := true, delay := mean, hasDelay := true, outliers := [],
               bringupOffset := osum / 64, lastOffset := o, calibTick := d.gtc, drift := false, reqTick := d.gtc,
               exchDone := d.gtc / Sys2Proof.Machine.syncPeriod, peerDone := d.gtc / Sys2Proof.Machine.syncPeriod })
    let d := if was then d.recordFault { source := 0x0704, unit := some p, cleared := true } else d
    (d.setLink p .up).elect

/-- DELAY_DRIFT is raised and cleared (R223). -/
def Dev.checkDrift (d : Dev) (p : Nat) : Dev :=
  let x := d.port p
  let off := (x.delay - x.bringupDelay).natAbs
  let warn := d.driftWarn * 65536
  if !x.drift && decide (warn ≤ off) then
    (d.modPort p (fun x => { x with drift := true })).recordFault { source := 0x0704, unit := some p }
  else if x.drift && decide (2 * off < warn) then
    (d.modPort p (fun x => { x with drift := false })).recordFault { source := 0x0704, unit := some p, cleared := true }
  else d

/-- A coarse step of the GTC (R200, R207): recorded in Silt and raised as GTC_STEPPED. -/
def Dev.stepGtc (d : Dev) (value frac : Nat) : Dev :=
  let before := d.gtc
  let d := d.modClock (fun c =>
    { c with gtc := BitVec.ofNat 64 value, frac := frac, hasGtc := true, frozen := false, stepped := true, slew := 0, setPending := false })
  (d.siltStep before).recordFault { source := 0x0703 }

/-- The offset's field in GTC_STATUS (R201). -/
def offsetField (o : Int) : Nat := intBits 16 (clampInt (-0x8000) 0x7FFF o)

/-- An exchange with the upstream: the GTC is set, or the servo slews and the state follows (R195, R200). -/
def Dev.servo (d : Dev) (b : Bytes) (del o : Int) : Dev :=
  let d := d.modClock (fun c => { c with offset := offsetField o })
  if d.clock.setPending then
    let t := ((sfStamp b 36 : Int) + del).toNat
    d.stepGtc (t / 65536) (t % 65536)
  else
    let d := d.modClock (fun c =>
      { c with slew := -o, goodRun := if o.natAbs ≤ 16384 then c.goodRun + 1 else 0,
               badRun := if 524288 < o.natAbs then c.badRun + 1 else 0 })
    if d.clock.state == .acquiring && decide (16 ≤ d.clock.goodRun) then d.enterGtc .locked 0
    else if d.clock.state == .locked && decide (2 ≤ d.clock.badRun) then d.enterGtc .acquiring 6
    else if d.clock.fast && decide (16 ≤ d.clock.goodRun) then d.modClock (fun c => { c with fast := false })
    else d

/-- An exchange on an UP port: outliers are counted and not used, the tracked delay follows (R197). -/
def Dev.track (d : Dev) (p : Nat) (b : Bytes) (del o : Int) : Dev :=
  let x := d.port p
  if x.hasDelay && decide (4 * 65536 < (del - x.delay).natAbs) then
    let l := x.outliers ++ [del]
    let d := d.countPort p 0x1C 1
    if l.length < 3 then d.modPort p (fun x => { x with outliers := l })
    else (d.modPort p (fun x => { x with outliers := [], delay := l.sum / 3 })).checkDrift p
  else
    let d := d.modPort p (fun x =>
      { x with outliers := [], delay := if x.hasDelay then x.delay + (del - x.delay) / 16 else del, hasDelay := true, lastOffset := o })
    let d := (d.sample 8 p ((d.port p).delay / 4096).toNat).checkDrift p
    if d.clock.upstream = p then d.servo b del o else d

/-- A SYNC_RESP arrives (R197): it must answer the exchange that is open on the port. -/
def Dev.syncResp (p : Nat) (b : Bytes) (t4 : Nat) (d : Dev) : Dev :=
  if !d.syncs p then d
  else if sfBad b 2 then d.countPort p 0x1B 1
  else
    let d := if d.clock.upstream = p then d.modClock (fun c => { c with respTick := c.time }) else d
    match (d.port p).sentT1 with
    | none => d.takeOffer p b
    | some (seq, t1) =>
      if seq ≠ sfSeq b then d.takeOffer p b
      else
        let d := (d.modPort p (fun x => { x with sentT1 := none, exchDone := t1 / 65536 / Sys2Proof.Machine.syncPeriod })).takeOffer p b
        let e := d.exchange p b t4
        if (d.port p).state == .calibrate then d.calibrate p e.1 e.2 else d.track p b e.1 e.2

def execSyncRespRx (port : Nat) (payload : Bytes) (t4 now : Nat) (s : State) : Host.Outcome State Fault Refusal :=
  .next (s.event now (Dev.syncResp port payload t4))

/-! ### Losses (R194, R200, R207) -/

/-- No SYNC_RESP for 2 sync periods: the upstream offers nothing any more (R200). -/
def Dev.respTimeout (d : Dev) : Dev :=
  if (d.clock.state == .locked || d.clock.state == .acquiring) && decide (d.clock.upstream < 96) &&
      decide (d.clock.respTick + 2 * Sys2Proof.Machine.syncPeriod ≤ d.time) then d.dropOffer d.clock.upstream
  else d

def execSyncRespTimeout (now : Nat) (s : State) : Host.Outcome State Fault Refusal := .next (s.event now Dev.respTimeout)

/-- The Spring is lost (R194): HOLDOVER, its key is withdrawn, and the next lowest key is adopted. -/
def Dev.loseSpring (d : Dev) : Dev :=
  if !d.clock.spring && decide (d.clock.adoptedKey ≠ noKey) &&
      decide (d.clock.keyTick + 4 * Sys2Proof.Machine.syncPeriod ≤ d.time) then
    let d := if d.clock.state == .locked || d.clock.state == .acquiring then d.enterGtc .holdover 0 else d
    (d.modClock (fun c => { c with offers := c.offers.filter (fun e => e.2.key ≠ c.adoptedKey) })).elect
  else d

def execSpringLost (now : Nat) (s : State) : Host.Outcome State Fault Refusal := .next (s.event now Dev.loseSpring)

/-- One second of HOLDOVER without an upstream (R200). -/
def Dev.holdoverEnds (d : Dev) : Dev :=
  if d.clock.state == .holdover && decide (d.clock.holdTick + secTicks ≤ d.time) then (d.enterGtc .invalid 2).springLocks else d

def execHoldoverExpired (now : Nat) (s : State) : Host.Outcome State Fault Refusal := .next (s.event now Dev.holdoverEnds)

/-- The GTC reference stops (R207): the GTC freezes and is INVALID; running steps are marked. -/
def Dev.refStop (d : Dev) : Dev :=
  let d := d.modClock (fun c => { c with freezeTime := if c.frozen then c.freezeTime else c.time, frozen := true, refOk := false })
  (d.enterGtc .invalid 3).markSteps 6

def execRefStopped (now : Nat) (s : State) : Host.Outcome State Fault Refusal := .next (s.event now Dev.refStop)

/-- The reference returns (R207), and the device resynchronizes by R200: a Spring steps its GTC forward by the cycles of the freeze
and locks; any other device stays frozen until its first exchange in ACQUIRING sets the GTC (DEDUCED, log entry 24). -/
def Dev.refReturn (frac : Nat) (d : Dev) : Dev :=
  if d.clock.refOk then d
  else
    let d := d.modClock (fun c => { c with refOk := true })
    if d.clock.spring then ((d.stepGtc d.tick (frac % 65536)).springLocks).elect else d.elect

def execRefReturned (frac now : Nat) (s : State) : Host.Outcome State Fault Refusal := .next (s.event now (Dev.refReturn frac))

/-- The core PLL locks to REFCLK (R194, R200): a GTC that has never run begins to count. -/
def Dev.pllLock (d : Dev) : Dev :=
  let d := d.modClock (fun c => { c with pllLocked := true, frozen := c.frozen && (c.hasGtc || !c.refOk) })
  d.springLocks.elect

def execCorePllLock (now : Nat) (s : State) : Host.Outcome State Fault Refusal := .next (s.event now Dev.pllLock)

/-- GMP_TIME_INVALIDATE (R200): the upstream is let go and chosen again at the next election. -/
def timeInvalidateRequest : Request :=
  { msg := 0x0051, right := .device, recovery := true, valid := fun b => b == [],
    act := onDev (fun _ _ d => ((d.enterGtc .invalid 7).modClock (fun c => { c with upstream := 0x7F }), {})) }

def execGmpTimeInvalidate (m : GmpMsg) (s : State) : Host.Outcome State Fault Refusal := .next (gmpCommand timeInvalidateRequest m s)

end Sys2Proof.Machine
end

