-- ==== Sys2Proof/Machine/Power.lean ====
section
/-! DEFINITION. Supply, temperature, die clocks, reset inputs, pins, and the end of each unit's test (R221, R367, R370, R385, R475 to
R487, R494 to R496). -/

namespace Sys2Proof.Machine

/-! ### Supply (R480, R484) -/

/-- A device-fatal fault whose reset has to wait (R372, R480, R487): `wait` says for what. -/
def Dev.fatalWaits (d : Dev) (wait : Nat) : Dev := d.modPower (fun x => { x with warmWait := wait })

/-- The record of SUPPLY_FAULT (R480). -/
def supplyRecord (rail : Nat) (above : Bool) (lo hi : Nat) : FaultRec :=
  { source := 0x0B04, unit := some rail, detail := leBytes 1 rail ++ leBytes 1 (b2n above) ++ leBytes 2 lo ++ leBytes 2 hi }

/-- A rail other than the Gauge's leaves its range for 10 µs (R480). -/
def Dev.supply (rail : Nat) (above : Bool) (lo hi : Nat) (d : Dev) : Dev :=
  if 7 ≤ rail then d
  else
    let d := d.recordFault (supplyRecord rail above lo hi)
    if d.power.cold then d
    else if d.nearWarm then d.coldReset
    else if d.holdOnFatal then d.hold
    else ((d.modPower (fun x => { x with dark := true })).fatalWaits 1).forceAlert true

def execSupplyFault (rail : Nat) (above : Bool) (lo hi now : Nat) (s : State) : Host.Outcome State Fault Refusal :=
  .next (s.event now (Dev.supply rail above lo hi))

/-- Every rail has been in range for 10 ms (R480). -/
def Dev.supplyBack (d : Dev) : Dev := if d.power.warmWait = 1 then d.warmReset true else d

def execSupplyRecoveryReset (now : Nat) (s : State) : Host.Outcome State Fault Refusal := .next (s.event now Dev.supplyBack)

/-- PWR_OK falls (R484). -/
def Dev.powerFalls (d : Dev) : Dev :=
  (d.modPower (fun x => { x with pwrOk := false, dark := true, darkHost := true, heatersOff := true, depthsParked := true })).forceAlert true

/-- PWR_OK falls: what the Depths hold is lost (R484). -/
def Mach.powerFalls (k : Mach) : Mach := { k.mod Dev.powerFalls with depths := [] }

def execPwrOkFall (now : Nat) (s : State) : Host.Outcome State Fault Refusal := .next (s.act now Mach.powerFalls)

/-- RESET_N low with PWR_OK high (R483). -/
def Dev.resetInput (d : Dev) : Dev := if d.power.pwrOk then d.coldReset else d

def execResetNAssert (now : Nat) (s : State) : Host.Outcome State Fault Refusal := .next (s.event now Dev.resetInput)

/-! ### The clocks of the compute dies (R216, R221, R479, R487) -/

/-- The lag of every running job on a die grows by the edges missed since the last settlement, or since its step's launch (R216). -/
def Dev.lagDie (d : Dev) (die : Nat) : Dev :=
  let y := d.die die
  { d with
    jobs := d.jobs.map (fun e =>
      if e.2.running || e.2.runSection.isSome then
        let n := y.missed (max y.since e.2.beginTime) d.time
        (e.1, if die = 0 then { e.2 with lag0 := e.2.lag0 + n } else { e.2 with lag1 := e.2.lag1 + n })
      else e) }

/-- The edges that a stretched or gated die has missed so far are counted (R221), and the lags grow. -/
def Dev.settle (d : Dev) (die : Nat) : Dev :=
  let y := d.die die
  let n := y.missed y.since d.time
  let d := (d.lagDie die).countDie die (if y.stopped.isSome then 2 else 1) n
  d.modDie die (fun y => { y with since := d.time, lost := if y.stopped.isSome then y.lost else y.lost + n })

/-- A stretch or a stop begins: it is counted, sets stretched and marks the running steps (R219, R221, R439). -/
def Dev.clockBegins (d : Dev) (die cause : Nat) : Dev :=
  ((d.countDie die 3 1).modClock (fun c => { c with stretched := true })).markSteps cause

/-- The STRETCH record (R446 type 0x02). -/
def Dev.siltStretch (d : Dev) (die kind start lost : Nat) : Dev :=
  d.siltWrite { typ := 0x02, unit := die, die := die,
                body := leBytes 1 kind ++ leBytes 7 0 ++ leBytes 8 start ++ leBytes 8 d.tick ++ leBytes 8 lost ++
                  leBytes 8 (d.ctr (ctrIdx 4 die 0)) ++ leBytes 8 0 }

/-- A droop detector halves a die's clock (R479). -/
def Dev.stretch (die : Nat) (d : Dev) : Dev :=
  if 2 ≤ die ∨ (d.die die).stretching.isSome then d
  else
    let d := (d.settle die).modDie die (fun x => { x with stretching := some d.tick, lost := 0 })
    (d.clockBegins die 1).raiseFault { source := 0x0B01, unit := some die }

def execClockStretch (die now : Nat) (s : State) : Host.Outcome State Fault Refusal := .next (s.event now (Dev.stretch die))

/-- The voltage, in mV, that every droop detector of a die measures before its full rate returns (R479). -/
def droopEnd : Nat := 725

/-- A stretch ends, with the ticks in which no edge took place, once no droop detector of the die measures too little (R221, R479). -/
def Dev.stretchEnds (die least : Nat) (d : Dev) : Dev :=
  match (d.die die).stretching, decide (droopEnd ≤ least) with
  | none, _ | _, false => d
  | some t, true =>
    let d := d.settle die
    (d.modDie die (fun x => { x with stretching := none })).siltStretch die 0 t (d.die die).lost

def execClockStretchEnd (die least now : Nat) (s : State) : Host.Outcome State Fault Refusal :=
  .next (s.event now (Dev.stretchEnds die least))

/-- A die's clock is gated, with its STOP_BEGIN record (R221, R446 type 0x03). -/
def Dev.gate (d : Dev) (die : Nat) : Dev :=
  if (d.die die).stopped.isSome then d
  else
    (((d.settle die).modDie die (fun x => { x with stopped := some d.tick })).clockBegins die 2).siltWrite
      { typ := 0x03, unit := die, die := die, body := leBytes 8 (d.ctr (ctrIdx 4 die 0)) ++ leBytes 8 0 }

/-- A gated clock runs again (R221). -/
def Dev.ungate (d : Dev) (die : Nat) : Dev :=
  match (d.die die).stopped with
  | none => d
  | some t =>
    let n := (d.die die).missed (d.die die).since d.time
    ((d.settle die).modDie die (fun x => { x with stopped := none })).siltStretch die 1 t n

/-- A compute die passes its gating temperature (R487). -/
def Dev.clockStop (die : Nat) (d : Dev) : Dev :=
  if 2 ≤ die ∨ (d.die die).stopped.isSome then d else (d.gate die).raiseFault { source := 0x0B02, unit := some die }

def execClockStop (die _temp now : Nat) (s : State) : Host.Outcome State Fault Refusal :=
  .next (s.event now (Dev.clockStop die))

/-- The die falls below its gating-end temperature (R487); a shutdown holds it gated until the reset. -/
def Dev.gateEnds (die : Nat) (d : Dev) : Dev := if 2 ≤ d.power.warmWait then d else d.ungate die

def execClockGateEnd (die now : Nat) (s : State) : Host.Outcome State Fault Refusal := .next (s.event now (Dev.gateEnds die))

/-! ### Temperature (R486, R487) -/

/-- THERMAL_WARN, with the temperature in units of 0.25 °C (R487). -/
def Dev.thermalWarn (unit temp : Nat) (d : Dev) : Dev :=
  d.raiseFault { source := 0x0B03, unit := some unit, detail := leBytes 8 temp }

def execThermalWarn (unit temp now : Nat) (s : State) : Host.Outcome State Fault Refusal := .next (s.event now (Dev.thermalWarn unit temp))

/-- THERMAL_SHUTDOWN (R487): dark, gated, in self-refresh; the reset waits for the temperatures. -/
def Dev.shutdown (unit temp : Nat) (d : Dev) : Dev :=
  let d := d.recordFault { source := 0x0B05, unit := some unit, detail := leBytes 8 temp }
  if d.power.cold then d
  else
    let near := d.nearWarm
    let d := d.modPower (fun x => { x with dark := true, darkHost := true, depthsParked := true })
    let d := (d.gate 0).gate 1
    if near then d.fatalWaits 3 else if d.holdOnFatal then d.hold else d.fatalWaits 2

def execThermalShutdown (unit temp now : Nat) (s : State) : Host.Outcome State Fault Refusal := .next (s.event now (Dev.shutdown unit temp))

/-- Every unit is below its warning temperature: the reset that waited begins, cold where a unit stayed above shutdown for 10 s
(R487) or the shutdown came within R372's time. -/
def Dev.thermalBack (cold : Bool) (d : Dev) : Dev :=
  if d.power.warmWait < 2 then d
  else
    let cold := cold || decide (d.power.warmWait = 3)
    let d := (d.ungate 0).ungate 1
    if cold then d.coldReset else d.warmReset true

def execThermalRecoveryReset (cold : Bool) (now : Nat) (s : State) : Host.Outcome State Fault Refusal :=
  .next (s.event now (Dev.thermalBack cold))

/-! ### Pins (R494 to R496) -/

/-- Pin groups, by the number in a record's unit (log entry 26). -/
def pinSource (group : Nat) : Nat := 0x0D01 + group

/-- The record of a PINS source (R494). -/
def pinRecord (group : Nat) (f : PinFinding) : FaultRec :=
  { source := pinSource group, unit := some group,
    detail := leBytes 1 f.pin ++ leBytes 1 f.kind ++ leBytes 1 (if f.kind = 4 then f.other else 0xFF) ++ leBytes 1 f.phase ++
      leBytes 2 (if f.kind = 3 ∨ f.kind = 4 ∨ f.kind = 5 then 0 else f.measured) }

/-- What the device does about an out-of-band fault: an open or shorted leg takes the port down; exchanged legs are inverted. -/
def Dev.oobFault (f : PinFinding) (d : Dev) : Dev :=
  let d := d.recordFault (pinRecord 1 f)
  if f.kind = 5 then d.modPower (fun x => { x with oobInverted := true })
  else d.modKeeper (fun k => { k with oobUp := false })

def execOobPins (f : PinFinding) (now : Nat) (s : State) : Host.Outcome State Fault Refusal := .next (s.event now (Dev.oobFault f))

/-- A list of pins with one more. -/
def addPin (l : List Nat) (p : Nat) : List Nat := if l.contains p then l else l ++ [p]

/-- An event pin is released or ignored for the boot, or ignored while its clamp conducts (R495). -/
def Dev.evtFault (f : PinFinding) (d : Dev) : Dev :=
  (d.recordFault (pinRecord 2 f)).modPower (fun x =>
    if f.kind = 6 then { x with evtClamped := addPin x.evtClamped f.pin }
    else if f.kind = 4 then { x with evtOff := addPin (addPin x.evtOff f.pin) f.other }
    else { x with evtOff := addPin x.evtOff f.pin })

def execEvtPins (f : PinFinding) (now : Nat) (s : State) : Host.Outcome State Fault Refusal := .next (s.event now (Dev.evtFault f))

/-- REFCLK fails (R485, R495): without edges or off frequency it counts as stopped; a weak swing is used while the PLLs hold. -/
def Dev.refFault (f : PinFinding) (d : Dev) : Dev :=
  let d := d.recordFault (pinRecord 3 f)
  if f.kind = 8 then d else d.refStop

def execRefclkPins (f : PinFinding) (now : Nat) (s : State) : Host.Outcome State Fault Refusal := .next (s.event now (Dev.refFault f))

/-- ALERT_N (R495): a pin held high while driven is released for the boot; the other faults are only reported. -/
def Dev.alertFault (f : PinFinding) (d : Dev) : Dev :=
  let d := d.recordFault (pinRecord 4 f)
  if f.kind = 2 then (d.modPower (fun x => { x with alertReleased := true })).updAlert else d

def execAlertPin (f : PinFinding) (now : Nat) (s : State) : Host.Outcome State Fault Refusal := .next (s.event now (Dev.alertFault f))

/-! ### The end of tests and of unit resets (R114, R366, R367, R370) -/

/-- Whether a Basin still has its contexts on a spare. -/
def Dev.hasSpare (d : Dev) (b : Nat) : Bool := (d.spareFor b).isSome

/-- A Basin passes: it is back in service, and takes its slots at the next launch of each job (R370). A spare returns to
STANDBY unless it still runs a Basin's slots. -/
def Dev.basinPasses (d : Dev) (b : Nat) : Dev :=
  let busy := d.ctxsWhere (fun x => x.basin == b) ≠ []
  let back := d.hasSpare b
  d.modUnit b (fun u =>
    if u.state == .retired then u
    else if b < 48 then { u with state := .inService, ready := true, returning := back }
    else if busy ∧ u.standsFor < 48 then { u with state := .standingIn, ready := true }
    else if u.state == .standingIn then { u with ready := true }
    else { u with state := .standby, standsFor := 0x7F, ready := true })

/-- A Basin fails its test and is retired until a cold reset; a spare takes its slots where one is free (R114, R370). -/
def Dev.basinFails (d : Dev) (b : Nat) : Dev :=
  let home := d.home b
  let d := (d.modUnit b (fun u => { u with state := .retired, ready := false, returning := false })).raiseFault
    { source := 0x0402, unit := some b }
  if d.power.cold then d
  else
    let d := d.basinOut b
    if home < 48 ∧ (d.spareFor b).isNone then d.raiseFault { source := 0x0403, unit := some b } else d

/-- A unit's test ends (R370). -/
def Dev.bist (tarn : Bool) (unit : Nat) (passed : Bool) (d : Dev) : Dev :=
  let d :=
    if tarn then
      if 8 ≤ unit then d
      else if passed then
        d.modUnit (tarnUnit unit) (fun u => if u.state == .retired then u else { u with state := .inService, ready := true })
      else
        (d.modUnit (tarnUnit unit) (fun u => { u with state := .retired, ready := false })).raiseFault { source := 0x0503, unit := some unit }
    else if 50 ≤ unit then d
    else if passed then d.basinPasses unit
    else d.basinFails unit
  d.warmOver

def execBistComplete (tarn : Bool) (unit : Nat) (passed : Bool) (now : Nat) (s : State) : Host.Outcome State Fault Refusal :=
  .next (s.event now (Dev.bist tarn unit passed))

/-- A stack is trained, or its training fails and it is retired (R359, R367). -/
def Dev.stackDone (stack : Nat) (ok : Bool) (d : Dev) : Dev :=
  if 8 ≤ stack then d
  else
    (if ok then
      d.modUnit (stackUnit stack) (fun u => if u.state == .retired then u else { u with state := .inService, ready := true })
    else
      (d.modUnit (stackUnit stack) (fun u => { u with state := .retired, ready := false })).raiseFault
        { source := 0x0606, unit := some stack }).warmOver

def execHbmStackReady (stack : Nat) (ok : Bool) (now : Nat) (s : State) : Host.Outcome State Fault Refusal :=
  .next (s.event now (Dev.stackDone stack ok))

/-- A Tarn's domain reset ends (R367). -/
def Dev.tarnDone (tarn : Nat) (d : Dev) : Dev :=
  if (d.unit (tarnUnit tarn)).state == .resetting && decide (tarn < 8) then
    (d.modUnit (tarnUnit tarn) (fun u => { u with state := .inService, ready := true })).warmOver
  else d

def execTarnResetComplete (tarn now : Nat) (s : State) : Host.Outcome State Fault Refusal := .next (s.event now (Dev.tarnDone tarn))

/-- HBM_INTERFACE: errors beyond the controller's retries (R359). -/
def execHbmInterface (stack now : Nat) (s : State) : Host.Outcome State Fault Refusal :=
  .next (s.event now (fun d => if stack < 8 then d.raiseFault { source := 0x0605, unit := some stack } else d))

/-- KEEPER_WATCHDOG, a device-fatal fault (R359). -/
def execKeeperWatchdog (now : Nat) (s : State) : Host.Outcome State Fault Refusal :=
  .next (s.event now (fun d => d.raiseFault { source := 0x0C02 }))

/-! ### The recovery budget (R385) -/

/-- The recovery budget passes while the job is HALTED (R385). -/
def Dev.overrun (j : Nat) (d : Dev) : Dev :=
  let x := d.job j
  if x.state == .halted && x.launch.isNone && !x.budgetExceeded && decide (x.haltTick + x.recoveryMs * msTicks ≤ d.time) then
    (d.modJob j (fun x => { x with budgetExceeded := true })).recordFault { source := 0x0E02, job := some j, step := x.rcStep }
  else d

def execRecoveryOverrun (job now : Nat) (s : State) : Host.Outcome State Fault Refusal := .next (s.event now (Dev.overrun job))

end Sys2Proof.Machine
end

