-- ==== Sys2Proof/Machine/GaugeIsle.lean ====
section
/-! DEFINITION. The Gauge metering island: its boot, samples, seal log, calibration and signed records (R461 to R472, R497). -/

namespace Sys2Proof.Machine

/-! ### The seal log (R469) -/

/-- The most entries that the seal log holds. -/
def sealMax : Nat := 262144

/-- A seal log entry's 64 bytes (R469). -/
def sealEntry (index kind boot time : Nat) (detail : Bytes) : Bytes :=
  leBytes 4 index ++ leBytes 1 kind ++ leBytes 3 0 ++ leBytes 4 boot ++ leBytes 4 0 ++ leBytes 8 time ++
    (detail ++ List.replicate 32 0#8).take 32 ++ leBytes 8 0

/-- The head of a log (R469). -/
def sealHead (log : List Bytes) : Bytes := log.foldl (fun h e => sm3 (h ++ e)) (List.replicate 32 0#8)

/-- An entry written at the end of the log. -/
def Gauge.write (g : Gauge) (kind : Nat) (detail : Bytes) : Gauge :=
  { g with log := g.log ++ [sealEntry g.log.length kind g.boots g.time detail] }

/-- An event is logged (R469): the entry that fills the log is LOG_FULL, and a full log takes no more. -/
def Gauge.append (g : Gauge) (kind : Nat) (detail : Bytes) : Gauge :=
  if sealMax ≤ g.log.length then g
  else if g.log.length + 1 = sealMax then
    { g.write 0x07 [] with state := if g.state == .certified then .broken else g.state }
  else g.write kind detail

/-- The entry whose second phase is missing is discarded and LOG_REPAIR stands in its place (R469). -/
def Gauge.repair (g : Gauge) : Gauge :=
  if g.half then
    let log := g.log.dropLast
    ({ g with half := false, log := log } : Gauge).append 0x06 (leBytes 4 log.length)
  else g

/-- The Gauge starts (R461, R466, R469): its counters start at 0, the log is repaired, and BOOT is appended. -/
def Gauge.start (g : Gauge) : Gauge :=
  let g := { g with powered := true, boots := g.boots + 1, time := 0, records := 0, energy := [], energyFrac := [], overRange := [],
                    bytes := [], tempSeen := g.tempOut }
  g.repair.append 0x04 []

/-! ### Samples and temperature (R463, R464) -/

/-- Full-scale current of each rail in mA (R463). -/
def railFull (r : Nat) : Nat := [900000, 150000, 500000, 250000, 250000, 150000, 40000, 500].getD r 0

/-- One sample of a rail: voltage in mV and current in mA, which is clamped to full scale. One mV times one mA over 1 µs is
10⁻⁶ µJ; the calibration's gain is in parts per million (log entry 12). -/
def Gauge.sampleRail (g : Gauge) (r mv ma : Nat) : Gauge :=
  let acc := tget 0 g.energyFrac r + mv * min ma (railFull r) * Config.gaugeGain g.cal r
  { g with energy := tset g.energy r ((tget 0 g.energy r + acc / 10 ^ 12) % 2 ^ 64),
           energyFrac := tset g.energyFrac r (acc % 10 ^ 12),
           overRange := if railFull r < ma then tmod 0 g.overRange r (· + 1) else g.overRange }

/-- A sample of rails from `r` on. -/
def Gauge.sampleFrom : Gauge → Nat → List (Nat × Nat) → Gauge
  | g, _, [] => g
  | g, r, (mv, ma) :: l => if 8 ≤ r then g else (g.sampleRail r mv ma).sampleFrom (r + 1) l

/-- One sample of every rail, 1 µs after the one before (R463). -/
def Gauge.sample (rails : List (Nat × Nat)) (g : Gauge) : Gauge :=
  if g.powered then { g.sampleFrom 0 rails with time := g.time + 1 } else g

/-- The die leaves or returns to the range of R464. -/
def Gauge.temperature (out : Bool) (g : Gauge) : Gauge :=
  let g' := { g with tempOut := out, tempSeen := g.tempSeen || (out && g.powered) }
  if g.powered && g.tempOut != out then g'.append 0x05 (leBytes 1 (b2n (!out))) else g'

/-! ### The factory port (R467, R497) -/

/-- A session on the factory port: a challenge that Fjarpamen's key signed lets the calibration be written, once its CAL_WRITE
entry is in the log. A CERTIFIED Gauge is BROKEN from then on (R468). Where the entry would fill the log, LOG_FULL stands in its place
and nothing is written (R469). Anything else changes nothing. -/
def Gauge.factory (challenge signature cal : Bytes) (g : Gauge) : Gauge :=
  if g.powered && sm2Verify Config.factoryKey challenge signature then
    let full := decide (sealMax ≤ g.log.length + 1)
    let g := g.append 0x03 (sm3 cal)
    if full then g else { g with cal := cal, state := if g.state == .certified then .broken else g.state }
  else g

/-! ### Records (R472) -/

/-- A metering record before its signature (R472). -/
def Gauge.record (g : Gauge) (kind hint : Nat) (nonce body : Bytes) : Bytes :=
  [0x56#8, 0x39#8, 0x36#8, 0x4D#8] ++ leBytes 1 kind ++ leBytes 1 g.state.code ++ leBytes 1 (b2n g.tempSeen) ++ leBytes 1 0 ++
    leBytes 4 g.boots ++ leBytes 4 body.length ++ leBytes 8 g.records ++ leBytes 8 g.time ++ leBytes 8 hint ++ nonce ++ sealHead g.log ++
    leBytes 8 g.log.length ++ body

/-- The bodies of ENERGY, TRAFFIC and SEAL_LOG. -/
def Gauge.energyBody (g : Gauge) : Bytes :=
  (List.range 8).flatMap (fun r => leBytes 8 (tget 0 g.energy r) ++ leBytes 4 (tget 0 g.overRange r) ++ leBytes 4 0)
def Gauge.trafficBody (g : Gauge) (account half : Nat) : Bytes :=
  leBytes 2 account ++ leBytes 1 half ++ leBytes 5 0 ++ (List.range 49).flatMap (fun i =>
    let k := 2 * (98 * account + 49 * half + i)
    leBytes 8 (tget 0 g.bytes k) ++ leBytes 8 (tget 0 g.bytes (k + 1)))
def Gauge.logBody (g : Gauge) (first count : Nat) : Bytes :=
  let l := (g.log.drop first).take count
  leBytes 4 first ++ leBytes 4 l.length ++ l.flatten

/-- A record signed by the Gauge's key; the nonce of the signature is a free value (log entry 5). -/
def Dev.signRecord (d : Dev) (kind hint : Nat) (nonce body : Bytes) : Dev × Reply :=
  let r := d.gauge.record kind hint nonce body
  (d.draw.2.modGauge (fun g => { g with records := g.records + 1 }), { payload := r ++ sm2Sign d.gauge.priv (scalarOf d.draw.1) r })

/-! ### Requests (R471) -/

/-- GMP_GAUGE_IDENTITY's reply. -/
def Dev.gaugeIdentity (d : Dev) : Reply :=
  let g := d.gauge
  { payload := g.pub ++ leBytes 8 g.serial ++ leBytes 1 g.state.code ++ leBytes 7 0 ++ sm3 g.cal ++ g.cert }

/-- What the Gauge answers to a request that came with the GTC `hint` (R471, R472). -/
def Dev.gaugeAnswer (d : Dev) (msg hint : Nat) (b : Bytes) : Dev × Reply :=
  if msg = 0x0070 then (if b = [] then (d, d.gaugeIdentity) else (d, { status := stGmpMalformed }))
  else if msg = 0x0071 then
    if b.length ≠ 40 ∨ u8 b 0 = 0 ∨ 2 < u8 b 0 ∨ 1 < u8 b 1 ∨ 256 < fld b 2 2 ∨ zeros b 4 4 = false then
      (d, { status := stGmpMalformed })
    else if d.gauge.state == .uncertified then (d, { status := stGaugeUncertified })
    else if u8 b 0 = 1 then d.signRecord 1 hint (b.drop 8) d.gauge.energyBody
    else d.signRecord 2 hint (b.drop 8) (d.gauge.trafficBody (fld b 2 2) (u8 b 1))
  else
    if b.length ≠ 40 ∨ fld b 4 4 = 0 ∨ 8 < fld b 4 4 then (d, { status := stGmpMalformed })
    else if d.gauge.log.length ≤ fld b 0 4 then (d, { status := stGaugeRange })
    else d.signRecord 3 hint (b.drop 8) (d.gauge.logBody (fld b 0 4) (fld b 4 4))

/-- A Gauge request: absent until the Gauge has answered the Keeper once, held while the Gauge is stopped, answered otherwise
(R468, R471). -/
def Mach.gaugeRequest (msg : Nat) (m : GmpMsg) (s : Session) (k : Mach) : Mach × Option Reply :=
  let d := k.dev
  if !d.gauge.answered then refuse stGaugeAbsent k
  else if d.gauge.powered then
    let r := d.gaugeAnswer msg d.gtc m.body
    ({ k with dev := r.1 }, some r.2)
  else if 16 ≤ d.gauge.waiting.length then refuse stGaugeBusy k
  else (k.mod (fun d => d.modGauge (fun g =>
    { g with waiting := g.waiting ++ [{ session := s.number, tag := m.tag, msg := msg, body := m.body, hint := d.gtc }] })), none)

def gaugeIdentityRequest : Request :=
  { msg := 0x0070, right := .read, valid := fun _ => true, act := Mach.gaugeRequest 0x0070 }
def gaugeReadRequest : Request :=
  { msg := 0x0071, right := .read, valid := fun _ => true, act := Mach.gaugeRequest 0x0071 }
def gaugeLogRequest : Request :=
  { msg := 0x0072, right := .read, valid := fun _ => true, act := Mach.gaugeRequest 0x0072 }

def execGmpGaugeIdentity (m : GmpMsg) (s : State) : Host.Outcome State Fault Refusal := .next (gmpCommand gaugeIdentityRequest m s)
def execGmpGaugeRead (m : GmpMsg) (s : State) : Host.Outcome State Fault Refusal := .next (gmpCommand gaugeReadRequest m s)
def execGmpGaugeLog (m : GmpMsg) (s : State) : Host.Outcome State Fault Refusal := .next (gmpCommand gaugeLogRequest m s)

/-- The requests that waited are served in the order in which they came (R471). -/
def Dev.gaugeServe (d : Dev) : Dev :=
  d.gauge.waiting.foldl (fun d w =>
    let r := d.gaugeAnswer w.msg w.hint w.body
    r.1.gmpReply w.session w.msg w.tag r.2.body) (d.modGauge (fun g => { g with waiting := [] }))

/-- GAUGE_VDD rises (R461). -/
def Dev.gaugeStart (d : Dev) : Dev := if d.gauge.powered then d else (d.modGauge Gauge.start).gaugeServe

def execGaugeStart (s : State) : Host.Outcome State Fault Refusal := .next (s.eventNow Dev.gaugeStart)

/-- GAUGE_VDD falls (R461); `mid` says that an append's second phase was still missing (R469). -/
def Gauge.stop (mid : Bool) (g : Gauge) : Gauge :=
  if g.powered then { g with powered := false, half := mid && !g.log.isEmpty } else g

def execGaugeStop (midAppend : Bool) (s : State) : Host.Outcome State Fault Refusal :=
  .next (s.eventNow (fun d => d.modGauge (Gauge.stop midAppend)))

def execGaugeSample (rails : List (Nat × Nat)) (s : State) : Host.Outcome State Fault Refusal :=
  .next (s.eventNow (fun d => d.modGauge (Gauge.sample rails)))

def execGaugeTempExcursion (out : Bool) (s : State) : Host.Outcome State Fault Refusal :=
  .next (s.eventNow (fun d => d.modGauge (Gauge.temperature out)))

def execGaugeFactorySession (challenge signature cal : Bytes) (s : State) : Host.Outcome State Fault Refusal :=
  .next (s.eventNow (fun d => d.modGauge (Gauge.factory challenge signature cal)))

/-- The Keeper asks the Gauge: its first answer since the cold reset sets ordering_code (R468). -/
def Dev.gaugePoll (d : Dev) : Dev :=
  if d.keeper.up && d.gauge.powered && !d.gauge.answered then
    (d.modGauge (fun g => { g with answered := true })).modKeeper (fun k =>
      { k with orderingCode := if d.gauge.state == .uncertified then 0 else 1 })
  else d

def execGaugePoll (now : Nat) (s : State) : Host.Outcome State Fault Refusal := .next (s.event now Dev.gaugePoll)

end Sys2Proof.Machine
end

