-- ==== Sys2Proof/Machine/Image.lean ====
section
/-! DEFINITION. The configuration image: its parsing and its checks in the order of R396 and R498, and the Keeper's flash
messages (R389 to R402). -/

namespace Sys2Proof.Machine

/-! ### Findings (R396, R397) -/

/-- A status with the two names it carries (R397). -/
structure Finding where
  status : Nat
  nameA : Nat := 0
  nameB : Nat := 0
  deriving DecidableEq, Repr

/-- Nothing where a condition holds, otherwise the finding. -/
def need (ok : Bool) (f : Finding) : Option Finding := if ok then none else some f

/-- The first finding of a list of checks. -/
def firstOf (l : List (Option Finding)) : Option Finding := l.findSome? id

/-- The first finding over the numbers below `n`. -/
def firstBelow (n : Nat) (f : Nat → Option Finding) : Option Finding := (List.range n).findSome? f

/-- Names of an image record entry, a port, and a region (R397). -/
def imgName (record index : Nat) : Nat := nameOf 1 record index
def portName (p : Nat) : Nat := nameOf 4 0 p
def regionName (g stack : Nat) : Nat := nameOf 6 g stack

/-- A refusal of the image with the entry it concerns. -/
def imgBad (status record index : Nat) : Finding := { status := status, nameA := imgName record index }

/-! ### Framing (R394) -/

/-- Records with their framing: each header, body and padding; none where it does not hold (R394, R396 check 5). -/
def parseRecords : Nat → Bytes → Option (List (Nat × Bytes))
  | 0, b => if b.isEmpty then some [] else none
  | k + 1, b =>
    if b.isEmpty then some []
    else
      let n := fld b 4 4
      let pad := (8 - n % 8) % 8
      if b.length < 8 + n + pad || !zeros b 2 2 || !zeros b (8 + n) pad then none
      else (parseRecords k (b.drop (8 + n + pad))).map (fun r => (fld b 0 2, slice b 8 n) :: r)

/-- Whether a record type's body length is one that its layout allows (R395). -/
def imgLength (t : Nat) (b : Bytes) : Bool :=
  let n := b.length
  match t with
  | 0x01 => n == 32
  | 0x02 => decide (8 ≤ n) && (n - 8) % 72 == 0 && (decide (8 < fld b 0 4) || n == 8 + 72 * fld b 0 4)
  | 0x03 => n % 16 == 0 && decide (n ≤ 128)
  | 0x10 => n == 208
  | 0x11 => n == 1552
  | 0x12 => n == 32
  | 0x13 => n % 48 == 0
  | 0x14 => n % 8 == 0
  | 0x15 => n == 256
  | 0x16 => decide (16 ≤ n) && (n - 16) % 96 == 0 && (decide (98 < fld b 0 2) || n == 16 + 96 * fld b 0 2)
  | 0x17 => n == 40
  | 0x18 => n == 32
  | 0x19 => n == 256
  | 0x1A => decide (8 ≤ n) && (n - 8) % 4 == 0 && (decide (256 < fld b 0 2) || n == 8 + 4 * fld b 0 2)
  | 0x20 => n == 128
  | 0x21 => n % 16 == 0 && decide (n ≤ 1024)
  | _ => false

/-- The records an image must hold (R395). -/
def imgRequired : List Nat := [0x01, 0x02, 0x10, 0x11, 0x12, 0x19]

/-- Check 6: no record of a reserved type, out of order, repeated, or of a wrong length; then every required one (R396). -/
def checkTypes (recs : List (Nat × Bytes)) : Option Finding :=
  let types := recs.map (·.1)
  firstOf [
    firstBelow recs.length (fun i =>
      let r := recs.getD i (0, [])
      need (imgLength r.1 r.2 && (i == 0 || decide (types.getD (i - 1) 0 < r.1))) (imgBad (stImg 5) r.1 0)),
    imgRequired.findSome? (fun t => need (types.contains t) (imgBad (stImg 6) t 0))]

/-! ### The records' own checks (R396 check 7) -/

/-- MGMT_CONFIG (R398). -/
def checkMgmt (b : Bytes) : Option Finding :=
  need (decide (1024 ≤ fld b 0 2) && decide (u8 b 2 < 8) && bit (u8 b 2) 2 && zeros b 3 5 && zeros b 24 8) (imgBad (stImg 7) 0x01 0)

/-- MANAGER_KEYS (R399). -/
def checkKeys (b : Bytes) : Option Finding :=
  let es := entries 72 (b.drop 8)
  firstOf [
    need (decide (1 ≤ fld b 0 4) && decide (fld b 0 4 ≤ 8) && es.length == fld b 0 4 && zeros b 4 4) (imgBad (stImg 5) 0x02 headerIndex),
    firstBelow es.length (fun i =>
      let e := nth es i
      firstOf [
        need (onCurve (ptOf e) && u8 e 64 != 0 && decide (u8 e 64 < 8) && zeros e 65 7) (imgBad (stImg 5) 0x02 i),
        (findIdx (fun x => x.take 64 == e.take 64) (es.take i)).map (fun k =>
          { status := stImg 5, nameA := imgName 0x02 k, nameB := imgName 0x02 i })])]

/-- EVT_PINS (R400). -/
def checkEvt (b : Bytes) : Option Finding :=
  let es := entries 16 b
  firstBelow es.length (fun i =>
    let e := nth es i
    let w := fld e 4 4
    let p := fld e 8 8
    need (decide (u8 e 0 < 4) && decide (1 ≤ u8 e 1) && decide (u8 e 1 ≤ 4) && decide (u8 e 2 < 4) &&
        (if u8 e 1 = 2 then decide (2500 ≤ p) && decide (p ≤ 2 ^ 40) && decide (1 ≤ w) && decide (w < p) else w == 0 && p == 0))
      (imgBad (stImg 5) 0x03 i))

/-- TIME_CONFIG (R192). -/
def checkTime (b : Bytes) : Option Finding :=
  need (decide (u8 b 1 < 2) && fld b 2 2 != 0xFFFF && (List.range 8).all (fun i => decide (u8 b (4 + i) < 96) || u8 b (4 + i) == 0xFF) &&
      decide (1 ≤ fld b 12 2) && fld b 12 2 != 0xFFFF && decide (1 ≤ u8 b 14) && decide (u8 b 14 ≤ 99) && u8 b 15 == 0 &&
      (List.range 96).all (fun p => fld b (16 + 2 * p) 2 != 0x8000) && (u8 b 0 == 0 || bit (u8 b 1) 0))
    (imgBad (stImg 10) 0x10 0)

/-- LINK_CONFIG (R251). -/
def checkLink (b : Bytes) : Option Finding :=
  firstOf [
    firstBelow 16 (fun m => need (decide (u8 b m < 2)) (imgBad (stImg 11) 0x11 m)),
    firstBelow 96 (fun p =>
      let e := ent b 16 16 p
      need (decide (u8 e 0 < 4) && decide (u8 e 1 < 3) && decide (1 ≤ u8 e 2) && decide (u8 e 2 ≤ 30) && decide (u8 e 3 < 2) &&
          (u8 e 3 == 0 || decide (u8 e 4 < 96)) && zeros e 5 3 && u8 e 15 == 0)
        (imgBad (stImg 11) 0x11 (16 + p)))]

/-- Whether a group may take a direction (R284). -/
def groupOk (b : Bytes) (dir : Nat) : Bool :=
  let x := u8 b 2
  let y := u8 b 3
  match dir with
  | 0 => true
  | 1 => true
  | 2 => u8 b 0 != 3
  | 3 => u8 b 0 == 3 && (x + 1 != u8 b 4 || bit (u8 b 1) 0)
  | 4 => u8 b 0 == 3 && (x != 0 || bit (u8 b 1) 0)
  | 5 => u8 b 0 == 3 && (y + 1 != u8 b 5 || bit (u8 b 1) 1)
  | 6 => u8 b 0 == 3 && (y != 0 || bit (u8 b 1) 1)
  | _ => false

/-- ROUTE_CONFIG (R283, R284). -/
def checkRoute (b : Bytes) : Option Finding :=
  let role := u8 b 0
  let s := u8 b 6
  need (decide (1 ≤ role) && decide (role ≤ 3) && (s == 0 || (decide (6 ≤ s) && decide (s ≤ 24))) && u8 b 7 == 0 &&
      decide (256 ≤ fld b 20 2) && fld b 20 2 != 0xFFFF && decide (1024 ≤ fld b 22 2) && decide (1024 ≤ fld b 24 2) &&
      fld b 22 2 != fld b 24 2 && zeros b 26 6 &&
      (if role = 3 then
        decide (u8 b 1 < 4) && decide (1 ≤ u8 b 4) && decide (u8 b 4 ≤ 16) && decide (1 ≤ u8 b 5) && decide (u8 b 5 ≤ 16) &&
          decide (u8 b 2 < u8 b 4) && decide (u8 b 3 < u8 b 5) && (!bit (u8 b 1) 0 || decide (3 ≤ u8 b 4)) &&
          (!bit (u8 b 1) 1 || decide (3 ≤ u8 b 5))
      else zeros b 1 5) &&
      (List.range 12).all (fun g => groupOk b (u8 b (8 + g))) &&
      (role != 1 || (List.range 12).any (fun g => u8 b (8 + g) == 1)))
    (imgBad (stImg 13) 0x12 0)

/-- ETH_PORT entries of themselves (R296). -/
def checkEthPort (b : Bytes) : Option Finding :=
  let es := entries 48 b
  firstBelow es.length (fun i =>
    let e := nth es i
    need (decide (u8 e 0 < 98) && decide (u8 e 1 < 4) && zeros e 14 2 && !(es.take i).any (fun x => u8 x 0 == u8 e 0))
      { status := stImg 17, nameA := imgName 0x13 i, nameB := portName (u8 e 0) })

/-- L2_TABLE (R299). -/
def checkL2 (b : Bytes) : Option Finding :=
  let es := entries 8 b
  firstOf [
    need (decide (es.length ≤ 4096)) (imgBad (stImg 17) 0x14 4096),
    firstBelow es.length (fun i =>
      let e := nth es i
      firstOf [
        need (decide (u8 e 6 < 98) && decide (2 ≤ u8 e 7) && decide (u8 e 7 ≤ 5)) (imgBad (stImg 17) 0x14 i),
        (findIdx (fun x => x.take 6 == e.take 6) (es.take i)).map (fun k =>
          { status := stImg 17, nameA := imgName 0x14 k, nameB := imgName 0x14 i })])]

/-- MIRROR_CONFIG (R293). -/
def checkMirror (b : Bytes) : Option Finding :=
  firstBelow 8 (fun i =>
    let e := ent b 0 32 i
    let n := fld e 12 4
    let t := fld e 16 2
    need (decide (u8 e 0 < 3) && decide (u8 e 1 < 4) && decide (u8 e 3 < 16) && decide (u8 e 11 < 4) && zeros e 18 14 &&
        (u8 e 0 == 0 ||
          ((decide (u8 e 2 < 98) || u8 e 2 == 0xFF) && decide (u8 e 10 < 98) &&
            (if u8 e 0 = 1 then n == 0 && t == 0
             else decide (1 ≤ n) && decide (n ≤ 16777216) && decide (64 ≤ t) && decide (t ≤ 1024) && t % 64 == 0))))
      (imgBad (stImg 15) 0x15 i))

/-- The limits of a QUEUE_CONFIG entry: ingress of VC2 to VC7, output of VC0 to VC7, replay, analysis queues. -/
def queueLimits (e : Bytes) : List Nat := (List.range 19).map (fun i => fld e (8 + 4 * i) 4)

/-- A breach of QUEUE_CONFIG at a port: the port, then the entry. -/
def queueBad (p i : Nat) : Finding := { status := stImg 18, nameA := portName p, nameB := imgName 0x16 i }

/-- QUEUE_CONFIG, as far as it stands alone (R305, R307, R321). -/
def checkQueue (b : Bytes) : Option Finding :=
  let es := entries 96 (b.drop 16)
  firstOf [
    need (decide (fld b 0 2 ≤ 98) && u8 b 2 != 0 && zeros b 3 13) (imgBad (stImg 18) 0x16 headerIndex),
    firstBelow es.length (fun i =>
      let e := nth es i
      need (decide (u8 e 0 < 98) && !(es.take i).any (fun x => u8 x 0 == u8 e 0) && decide (u8 e 1 < 2) && zeros e 2 2 && zeros e 92 4 &&
          (List.range 4).all (fun v => u8 e (4 + v) != 0) && (queueLimits e).all (fun l => decide (l ≤ 1015808)) &&
          (List.range 4).all (fun v => fld e (8 + 4 * v) 4 == 0 || decide (64 ≤ fld e (8 + 4 * v) 4)) &&
          (List.range 6).all (fun v => fld e (32 + 4 * v) 4 == 0 || decide (64 ≤ fld e (32 + 4 * v) 4)) &&
          (List.range 4).all (fun a => fld e (68 + 4 * a) 4 == 0 || decide (160 ≤ fld e (68 + 4 * a) 4)) &&
          (!bit (u8 e 1) 0 || (fld e 84 4 != 0 && decide (16512 ≤ fld e 88 4) && decide (fld e 88 4 ≤ 268435456))))
        (queueBad (u8 e 0) i))]

/-- POOL_CONFIG (R310, R321). -/
def checkPool (b : Bytes) : Option Finding :=
  need ((List.range 4).all (fun i =>
        fld b (4 * i) 4 % 64 == 0 && decide (64 ≤ fld b (4 * i) 4) && decide (fld b (16 + 4 * i) 4 < fld b (4 * i) 4)) &&
      ((List.range 4).map (fun i => fld b (4 * i) 4 * blockSize i)).sum == 201326592 && decide (fld b 32 4 ≤ 16384) && zeros b 36 4)
    (imgBad (stImg 19) 0x17 0)

/-- The limits of numerics settings by group, in the layout of R180 (R182). -/
def silentOk (b : Bytes) : Bool := decide (fld b 0 4 ≤ 999999) && fld b 4 2 != 0 && decide (u8 b 6 < 2)
def overflowOk (b : Bytes) : Bool := fld b 8 4 != 0 && fld b 8 4 != 0xFFFFFFFF && fld b 12 2 != 0
def satOk (b : Bytes) : Bool := decide (fld b 16 4 ≤ 999999) && fld b 20 2 != 0
def streakOk (b : Bytes) : Bool := fld b 14 2 != 0
def histOk (b : Bytes) : Bool :=
  decide (1 ≤ u8 b 26) && decide (u8 b 26 ≤ 8) && decide (-126 ≤ sfld b 24 2) && decide (sfld b 24 2 ≤ 128 - 27 * (u8 b 26 : Int))
def settingsReserved (b : Bytes) : Bool := u8 b 7 == 0 && zeros b 22 2 && zeros b 27 5

/-- NUMERICS_DEFAULTS (R180, R182). -/
def checkNumerics (b : Bytes) : Option Finding :=
  need (silentOk b && overflowOk b && satOk b && streakOk b && histOk b && settingsReserved b) (imgBad (stImg 20) 0x18 0)

/-- Offset and size of region `g` on stack `k` (R328). -/
def regionOff (b : Bytes) (g k : Nat) : Nat := fld b (64 * g + 8 * k) 4
def regionSize (b : Bytes) (g k : Nat) : Nat := fld b (64 * g + 8 * k + 4) 4
/-- A stack's reservation in units of 4 KiB (R329). -/
def reserveUnits : Nat := 327680

/-- INTEGRITY_CONFIG: no region crosses the end of its reservation (R329). -/
def checkIntegrity (b : Bytes) : Option Finding :=
  firstBelow 4 (fun g => firstBelow 8 (fun k =>
    need (decide (regionOff b g k + regionSize b g k ≤ reserveUnits))
      { status := stImg 21, nameA := regionName g k, nameB := imgName 0x19 0 }))

/-- FAULT_CONFIG (R362). -/
def checkFault (b : Bytes) : Option Finding :=
  let es := entries 4 (b.drop 8)
  firstOf [
    need (decide (fld b 0 2 ≤ 256) && decide (u8 b 2 ≤ 5) && decide (u8 b 3 < 2) && zeros b 4 4) (imgBad (stImg 22) 0x1A headerIndex),
    firstBelow es.length (fun i =>
      let e := nth es i
      let src := fld e 0 2
      firstOf [
        need (isSource src) (imgBad (stImg 22) 0x1A i),
        (findIdx (fun x => fld x 0 2 == src) (es.take i)).map (fun k =>
          { status := stImg 22, nameA := imgName 0x1A k, nameB := imgName 0x1A i }),
        need (decide ((sourceOf src).min ≤ u8 e 2) && decide (u8 e 2 ≤ (sourceOf src).max) && u8 e 3 == 0) (imgBad (stImg 22) 0x1A i)])]

/-- The Silt extension's offset and size on a stack (R453). -/
def extOff (b : Bytes) (k : Nat) : Nat := fld b (32 + 8 * k) 4
def extSize (b : Bytes) (k : Nat) : Nat := fld b (36 + 8 * k) 4

/-- TRACE_CONFIG (R453, R454). -/
def checkTrace (b : Bytes) : Option Finding :=
  need (decide (u8 b 0 < 32) && decide (u8 b 1 ≤ 100) && (decide (u8 b 2 ≤ 5) || u8 b 2 == 0xFF) && zeros b 3 5 && zeros b 28 4 &&
      !bit (fld b 24 4) 0 && decide (fld b 24 4 < 4096) && decide (((List.range 8).map (extSize b)).sum ≤ 2097152) &&
      (List.range 8).all (fun k => decide (extOff b k + extSize b k ≤ reserveUnits)))
    (imgBad (stImg 23) 0x20 0)

/-- CAPTURE_CONFIG (R440). -/
def checkCapture (b : Bytes) : Option Finding :=
  let es := entries 16 b
  firstBelow es.length (fun i => need (captureValid (nth es i)) (imgBad (stImg 23) 0x21 i))

/-- A record's own checks. -/
def checkRecord (t : Nat) (b : Bytes) : Option Finding :=
  match t with
  | 0x01 => checkMgmt b
  | 0x02 => checkKeys b
  | 0x03 => checkEvt b
  | 0x10 => checkTime b
  | 0x11 => checkLink b
  | 0x12 => checkRoute b
  | 0x13 => checkEthPort b
  | 0x14 => checkL2 b
  | 0x15 => checkMirror b
  | 0x16 => checkQueue b
  | 0x17 => checkPool b
  | 0x18 => checkNumerics b
  | 0x19 => checkIntegrity b
  | 0x1A => checkFault b
  | 0x20 => checkTrace b
  | _ => checkCapture b

/-! ### Cross-record checks (R396 check 8, R401, R498) -/

/-- Two EVT_PINS entries on one pin (R401). -/
def crossPins (d : Dev) : Option Finding :=
  let es := d.evtEntries
  firstBelow es.length (fun i =>
    (findIdx (fun x => u8 x 0 == u8 (nth es i) 0) (es.take i)).map (fun k =>
      { status := stImg 8, nameA := imgName 0x03 k, nameB := imgName 0x03 i }))

/-- The names of those who claim a GTC comparator, in the order of R400. -/
def Dev.timerClaims (d : Dev) : List Nat :=
  let es := d.evtEntries
  ((List.range es.length).filter (fun i => u8 (nth es i) 1 == 1 || u8 (nth es i) 1 == 2)).map (imgName 0x03) ++
    ((List.range 2).filter (fun i => d.timeTrigger i != noKey)).map (imgName 0x20)

/-- A fifth claim of a comparator (R400). -/
def crossTimers (d : Dev) : Option Finding :=
  let l := d.timerClaims
  need (decide (l.length ≤ 4)) { status := stImg 9, nameA := l.getD 4 0, nameB := l.getD 3 0 }

/-- A MIRROR and a SAMPLE session on one analysis queue (R295). -/
def crossAnalysis (d : Dev) : Option Finding :=
  let es := d.mirrorEntries
  firstBelow es.length (fun i =>
    let e := nth es i
    (findIdx (fun x => u8 x 0 != 0 && u8 e 0 != 0 && u8 x 0 != u8 e 0 && u8 x 10 == u8 e 10 && u8 x 11 == u8 e 11) (es.take i)).map (fun k =>
      { status := stImg 16, nameA := imgName 0x15 k, nameB := imgName 0x15 i }))

/-- Every region of the reservation: its name, stack, offset and size (R329, R417, R453). -/
def Dev.regionSpans (d : Dev) : List (Nat × Nat × Nat × Nat) :=
  let i := d.img 0x19
  (List.range 4).flatMap (fun g => (List.range 8).map (fun k => (regionName g k, k, regionOff i g k, regionSize i g k))) ++
    (if d.hasImg 0x20 then (List.range 8).map (fun k => (regionName 0x100 k, k, extOff d.trace k, extSize d.trace k)) else []) ++
    [(regionName 0x101 7, 7, 262144, 65536)]

/-- Two regions of one stack that overlap (R329, R401). -/
def crossRegions (d : Dev) : Option Finding :=
  let l := d.regionSpans.filter (fun s => s.2.2.2 != 0)
  firstBelow l.length (fun i =>
    let s := l.getD i (0, 0, 0, 0)
    ((l.take i).find? (fun t => t.2.1 == s.2.1 && decide (t.2.2.1 < s.2.2.1 + s.2.2.2) && decide (s.2.2.1 < t.2.2.1 + t.2.2.2))).map
      (fun t => { status := stImg 21, nameA := t.1, nameB := s.1 }))

/-- A laser plan against the mode of a port it serves (R226, R252). -/
def crossLaser (d : Dev) : Option Finding :=
  let b := d.img 0x11
  firstBelow 16 (fun m => firstBelow 6 (fun i =>
    let p := 6 * m + i
    need (if u8 b m = 0 then decide (d.mode p < 2) else d.mode p != 1)
      { status := stImg 12, nameA := imgName 0x11 m, nameB := portName p }))

/-- An ETH_PORT entry for a port that is not in Ethernet mode (R296). -/
def crossEth (d : Dev) : Option Finding :=
  let es := entries 48 (d.img 0x13)
  firstBelow es.length (fun i =>
    need (d.ethernet (u8 (nth es i) 0)) { status := stImg 17, nameA := imgName 0x13 i, nameB := portName (u8 (nth es i) 0) })

/-- gmp_udp against encap_udp and mirror_udp (R398). -/
def crossUdp (d : Dev) : Option Finding :=
  need (d.gmpUdp != d.encapUdp && d.gmpUdp != d.mirrorUdp) { status := stImg 7, nameA := imgName 0x01 0, nameB := imgName 0x12 0 }

/-- A ring port's ingress below two packet buffers (R290). -/
def crossBubble (d : Dev) : Option Finding :=
  firstBelow 96 (fun p => [2, 3, 4, 5, 7].findSome? (fun v =>
    need (!d.ringPort p || d.mode p == 0 || decide (516 ≤ d.ingressLimit p v))
      { status := stImg 14, nameA := portName p, nameB := d.queueName p }))

/-- Whether a port is an analysis port (R293, R296). -/
def Dev.analysisPort (d : Dev) (p : Nat) : Bool := d.ethernet p && (d.ethEntry p).any (fun e => bit (u8 e 1) 1)

/-- A mirror session whose analysis port is none, or is its own port (R295). -/
def crossMirror (d : Dev) : Option Finding :=
  let es := d.mirrorEntries
  firstBelow es.length (fun i =>
    let e := nth es i
    need (u8 e 0 == 0 || (d.analysisPort (u8 e 10) && u8 e 10 != u8 e 2)) (imgBad (stImg 15) 0x15 i))

/-- The cells that a port's limits add up to. -/
def Dev.portCells (d : Dev) (p : Nat) : Nat :=
  ((List.range 6).map (fun v => d.ingressLimit p (v + 2))).sum + ((List.range 8).map (d.outLimit p)).sum + d.replayLimit p +
    ((List.range 4).map (d.analysisLimit p)).sum

/-- The checks of R307 that depend on other records. -/
def crossQueue (d : Dev) : Option Finding :=
  let es := entries 96 ((d.img 0x16).drop 16)
  firstOf [
    firstBelow es.length (fun i =>
      let e := nth es i
      let p := u8 e 0
      need (d.mode p != 0 &&
          (if d.fabric p then
            decide (512 ≤ fld e 64 4) && decide (16 ≤ fld e 24 4) && decide (16 ≤ fld e 56 4) && decide (64 ≤ fld e 28 4) && decide (64 ≤ fld e 60 4)
           else fld e 64 4 == 0 && fld e 32 4 == 0 && fld e 36 4 == 0 && fld e 24 4 == 0 && fld e 56 4 == 0 && decide (64 ≤ fld e 28 4) &&
            decide (64 ≤ fld e 60 4)))
        (queueBad p i)),
    need (decide (((List.range 98).map d.portCells).sum ≤ 1015808)) (imgBad (stImg 18) 0x16 headerIndex),
    firstBelow d.mirrorEntries.length (fun i =>
      let e := nth d.mirrorEntries i
      need (u8 e 0 == 0 || d.analysisLimit (u8 e 10) (u8 e 11) != 0)
        { status := stImg 18, nameA := portName (u8 e 10), nameB := imgName 0x15 i })]

/-- A host port enabled in gmp_ports without an ETH_PORT entry (R398). -/
def crossHost (d : Dev) : Option Finding :=
  firstBelow 2 (fun h =>
    need (!bit d.gmpPorts h || (d.ethEntry (96 + h)).isSome) (imgBad (stImg 7) 0x01 0))

/-- The cross-record checks in the order of R498. -/
def crossChecks (d : Dev) : Option Finding :=
  firstOf [crossPins d, crossTimers d, crossAnalysis d, crossRegions d, crossLaser d, crossEth d, crossUdp d, crossBubble d, crossMirror d,
    crossQueue d, crossHost d]

/-! ### The whole image (R393, R396) -/

/-- What a checked image gives. -/
structure Image where
  recs : List (Nat × Bytes)
  digest : Bytes
  signer : Bytes
  serial : Nat
  deriving DecidableEq, Repr

/-- How a check of the image comes out; the digests are zero where they could not be formed. -/
structure ImageCheck where
  finding : Option Finding
  image : Image
  deriving DecidableEq, Repr

/-- An image of which nothing is known. -/
def noImage : Image := { recs := [], digest := List.replicate 32 0#8, signer := List.replicate 32 0#8, serial := 0 }

/-- Where the image lies in the flash (R390). -/
def imageBase : Nat := 0x10000

/-- The image's header (R393, R396 check 2). -/
def headerOk (h : Bytes) : Bool :=
  let n := fld h 8 4
  slice h 0 4 == [0x56#8, 0x39#8, 0x36#8, 0x49#8] && fld h 4 2 == 1 && decide (1 ≤ fld h 6 2) && decide (fld h 6 2 ≤ 256) && n % 8 == 0 &&
    decide (320 ≤ n) && decide (n ≤ 16777216) && zeros h 12 4 && zeros h 24 8 && zeros h 96 32

/-- Checks 3 to 8 over an image whose header holds (R396). `d` gives nothing but the defaults. -/
def checkBody (b : Bytes) : ImageCheck :=
  let n := b.length
  let digest := sm3 (b.take (n - 96))
  let signer := slice b 32 64
  let img : Image := { recs := [], digest := digest, signer := sm3 (0x4B#8 :: signer), serial := fld b 16 8 }
  if slice b (n - 96) 32 ≠ digest then { finding := some { status := stImg 3 }, image := img }
  else if !sm2Verify signer digest (slice b (n - 64) 64) then { finding := some { status := stImg 4 }, image := img }
  else match parseRecords 256 (slice b 128 (n - 224)) with
    | none => { finding := some { status := stImg 2 }, image := img }
    | some recs =>
      let img := { img with recs := recs }
      if recs.length ≠ fld b 6 2 then { finding := some { status := stImg 2 }, image := img }
      else
        { finding := firstOf [checkTypes recs, recs.findSome? (fun r => checkRecord r.1 r.2), crossChecks { Dev.reset with image := recs }],
          image := img }

/-- The check of the flash's image (R396). -/
def Mach.checkImage (k : Mach) (flashOk : Bool) : ImageCheck :=
  if !flashOk then { finding := some { status := stImg 1 }, image := noImage }
  else
    let h := mreadBytes flashDefault k.flash imageBase 128
    if !headerOk h then { finding := some { status := stImg 2 }, image := noImage }
    else checkBody (mreadBytes flashDefault k.flash imageBase (fld h 8 4))

/-! ### Flash messages (R402) -/

/-- The image area's end (R433). -/
def imageEnd : Nat := 0x1010000

/-- Whether a session other than the given one has the flash (R402). -/
def Dev.flashTaken (d : Dev) (n : Nat) : Bool := d.keeper.flashClaim.any (· != n)

/-- The flash is claimed and its image area counts as written (R402, R427). -/
def Dev.claimFlash (d : Dev) (n : Nat) : Dev := d.modKeeper (fun k => { k with flashClaim := some n, flashWritten := true })

/-- GMP_FLASH_ERASE: one sector of 64 KiB. -/
def flashEraseRequest : Request :=
  { msg := 0x0053, right := .device, recovery := true, valid := fun b => b.length == 4 && fld b 0 4 % 65536 == 0,
    act := fun m s k =>
      let o := fld m.body 0 4
      if k.dev.flashTaken s.number then refuse stFlashBusy k
      else if o < imageBase ∨ imageEnd < o + 65536 then refuse stFlashRange k
      else if k.dev.power.nvmFault then refuse stFlashFail k
      else ({ k with flash := merase k.flash o 65536, dev := k.dev.claimFlash s.number }, some {}) }

/-- GMP_FLASH_WRITE: the bytes then hold what the verifying read returns. -/
def flashWriteRequest (readBack : Bytes) : Request :=
  { msg := 0x0054, right := .device, recovery := true, valid := fun b => decide (4 ≤ b.length),
    act := fun m s k =>
      let o := fld m.body 0 4
      let data := m.body.drop 4
      if k.dev.flashTaken s.number then refuse stFlashBusy k
      else if data = [] ∨ 256 < data.length ∨ 256 < o % 256 + data.length ∨ o < imageBase ∨ imageEnd < o + data.length then
        refuse stFlashRange k
      else if k.dev.power.nvmFault then refuse stFlashFail k
      else
        ({ k with flash := mwriteBytes flashDefault k.flash o (readBack.take data.length), dev := k.dev.claimFlash s.number },
          some { status := if readBack = data then 0 else stFlashFail }) }

/-- GMP_FLASH_READ: within the areas of R390. -/
def flashReadRequest : Request :=
  { msg := 0x0055, right := .read, recovery := true,
    valid := fun b => b.length == 8 && decide (1 ≤ fld b 4 4) && decide (fld b 4 4 ≤ 1024),
    act := fun m _ k =>
      let o := fld m.body 0 4
      let n := fld m.body 4 4
      if ¬ (o + n ≤ 4096 ∨ (imageBase ≤ o ∧ o + n ≤ imageEnd)) then refuse stFlashRange k
      else if k.dev.power.nvmFault then refuse stFlashFail k
      else (k, some { payload := mreadBytes flashDefault k.flash o n }) }

/-- GMP_FLASH_CHECK: checks 1 to 8 of R396, changing nothing. -/
def flashCheckRequest : Request :=
  { msg := 0x0056, right := .read, recovery := true, valid := fun b => b == [],
    act := fun _ _ k =>
      let c := k.checkImage (!k.dev.power.nvmFault)
      let f := c.finding.getD { status := 0 }
      (k, some { status := f.status, nameA := f.nameA, nameB := f.nameB, payload := c.image.digest ++ c.image.signer }) }

def execGmpFlashErase (m : GmpMsg) (s : State) : Host.Outcome State Fault Refusal := .next (gmpCommand flashEraseRequest m s)
def execGmpFlashWrite (m : GmpMsg) (readBack : Bytes) (s : State) : Host.Outcome State Fault Refusal :=
  .next (gmpCommand (flashWriteRequest readBack) m s)
def execGmpFlashRead (m : GmpMsg) (s : State) : Host.Outcome State Fault Refusal := .next (gmpCommand flashReadRequest m s)
def execGmpFlashCheck (m : GmpMsg) (s : State) : Host.Outcome State Fault Refusal := .next (gmpCommand flashCheckRequest m s)

end Sys2Proof.Machine
end

