-- ==== Sys2Proof/Machine/Boot.lean ====
section
/-! DEFINITION. Reset release and the cold start-up: pin test, identity, image, block configuration (R388, R391, R396, R402, R495,
R496). -/

namespace Sys2Proof.Machine

/-- The power-up pin test's findings (R495). -/
def Dev.pinFound (d : Dev) (g : Nat) (f : PinFinding) : Dev :=
  match g with
  | 0 => (d.recordFault (pinRecord 0 f)).modPower (fun x => if f.kind = 5 then { x with nvmReversed := true } else { x with nvmFault := true })
  | 1 => d.oobFault f
  | 2 => d.evtFault f
  | 3 => (d.recordFault (pinRecord 3 f)).modClock (fun c => { c with refOk := c.refOk && decide (f.kind = 8) })
  | _ => d.alertFault f

/-- The findings of the pin test, with the one that an absent REFCLK makes where none of them is about REFCLK (R496). -/
def Dev.pinFindings (d : Dev) (pins : List (Nat × PinFinding)) : List (Nat × PinFinding) :=
  if d.clock.refOk || pins.any (fun f => f.1 == 3) then pins
  else pins ++ [(3, { pin := 0, kind := 3, other := 0xFF, phase := 0, measured := 0 })]

def Dev.pinTest (d : Dev) (pins : List (Nat × PinFinding)) : Dev := (d.pinFindings pins).foldl (fun d f => d.pinFound f.1 f.2) d

/-! ### Identity (R391, R392) -/

/-- The private key of a seed (R391). -/
def keyOfSeed (seed : Nat) : Nat := seed % (sm2n - 1) + 1
/-- The check value of a key (R391). -/
def checkValue (pub : Bytes) : Bytes := sm3 (0x43#8 :: pub)
/-- The helper block's size (R390). -/
def helperSize : Nat := 4096
/-- A helper block: the check value, then the helper data, whose bytes and order the manual does not give (log entry 11). -/
def helperBlock (pub : Bytes) (n : Nat) : Bytes := checkValue pub ++ (List.range (helperSize - 32)).map (Config.helperByte n)

/-- The identity takes a key. -/
def Keeper.identity (k : Keeper) (priv state : Nat) : Keeper :=
  { k with identityPriv := priv, identityPub := sm2Pub priv, identityState := state }

/-- A new seed from the PUF's unstable cells is enrolled; the helper block is written where it can be. -/
def Mach.enrol (k : Mach) (store : Bool) : Mach :=
  let n := k.dev.freeCtr
  let priv := keyOfSeed k.dev.draw.1
  let dev := k.dev.draw.2.modKeeper (fun x => x.identity priv (if store then 1 else 2))
  { k with dev := dev, flash := if store then mwriteBytes flashDefault k.flash 0 (helperBlock (sm2Pub priv) n) else k.flash }

/-- The identity key is reconstructed or enrolled (R391). -/
def Mach.makeIdentity (k : Mach) (puf : PufOutcome) : Mach :=
  let readable := puf.readable && !k.dev.power.nvmFault
  let block := mreadBytes flashDefault k.flash 0 helperSize
  let priv := keyOfSeed puf.seed
  if readable && !block.all (· == 0xFF#8) && block.take 32 == checkValue (sm2Pub priv) then k.mod (·.modKeeper (fun x => x.identity priv 0))
  else k.enrol (readable && puf.writable)

/-! ### The image and the blocks it configures (R388, R396, R402) -/

/-- The image's outcome in IMAGE_STATUS; a GOOD image comes into force. -/
def Dev.takeImage (d : Dev) (c : ImageCheck) : Dev :=
  match c.finding with
  | some f => d.modKeeper (fun k => { k with imageState := .bad, imageStatus := f.status, nameA := f.nameA, nameB := f.nameB })
  | none =>
    { d with image := c.image.recs }.modKeeper (fun k =>
      { k with imageState := .good, imageDigest := c.image.digest, signerDigest := c.image.signer, imageSerial := c.image.serial })

/-- Every port begins its bring-up, or is DISABLED: by the image, or because the image is BAD (R238, R402). -/
def Dev.startPorts (d : Dev) : Dev :=
  let bad := d.keeper.imageState == .bad
  { d with
    ports := (List.range 98).map (fun p =>
      (p, { ({} : Port) with state := if bad || d.mode p == 0 then .disabled else .txTune, entryTick := d.clock.time })) }

/-- The capture probes that the image configures (R440). -/
def Dev.startProbes (d : Dev) : Dev :=
  let es := entries 16 (d.img 0x21)
  (List.range es.length).foldl (fun d i => d.setProbe i (nth es i)) d

/-- The functions that need REFCLK start: the out-of-band port, the ports and the election (R388, R496). -/
def Dev.startBlocks (d : Dev) : Dev :=
  ((d.modKeeper (fun k => { k with up := true })).startPorts.startProbes).elect

/-- Reset release as far as it concerns what came before it (R388, R483, R484). -/
def Dev.released (d : Dev) (refOk sfdpOk : Bool) : Dev :=
  let d := if d.power.pwrOk then d else d.coldReset
  (d.modPower (fun x => { x with released := true, cold := false, pwrOk := true, nvmFault := !sfdpOk })).modClock
    (fun c => { c with refOk := refOk })

/-- The blocks start, or the Keeper waits for REFCLK with ALERT_N held low (R496). -/
def Dev.startUp (d : Dev) : Dev :=
  if d.clock.refOk then d.startBlocks else (d.modPower (fun x => { x with refAbsent := true })).forceAlert true

/-- The cold start-up (R388). A release of a device that runs changes nothing. -/
def Mach.release (puf : PufOutcome) (refOk sfdpOk : Bool) (pins : List (Nat × PinFinding)) (k : Mach) : Mach :=
  if k.dev.power.released && k.dev.power.pwrOk then k
  else
    let k : Mach := { k.mod (fun d => (d.released refOk sfdpOk).pinTest pins) with depths := if k.dev.power.pwrOk then k.depths else [] }
    let k := k.makeIdentity puf
    let c := k.checkImage (!k.dev.power.nvmFault)
    k.mod (fun d => (d.takeImage c).startUp)

def execResetRelease (puf : PufOutcome) (refOk sfdpOk : Bool) (pins : List (Nat × PinFinding)) (s : State) :
    Host.Outcome State Fault Refusal :=
  .next (s.act s.dev.clock.time (Mach.release puf refOk sfdpOk pins))

/-- REFCLK has met its limits for 1 ms: start-up continues (R496). -/
def Dev.refResume (d : Dev) : Dev :=
  if d.power.refAbsent then
    (((d.modPower (fun x => { x with refAbsent := false })).modClock (fun c => { c with refOk := true })).forceAlert false).startBlocks
  else d

def execRefclkStartResume (now : Nat) (s : State) : Host.Outcome State Fault Refusal := .next (s.event now Dev.refResume)

/-! ### Device resets by GMP (R371, R402, R411) -/

/-- GMP_DEVICE_RESET, warm: the reply goes out before the reset starts. -/
def resetWarmRequest : Request :=
  { msg := 0x0052, right := .device, recovery := true, valid := fun b => b.length == 4 && u8 b 0 == 0 && zeros b 1 3,
    act := fun m s k =>
      if k.dev.keeper.imageState == .bad then refuse stRecoveryOnly k
      else (k.mod (fun d => (d.gmpReply s.number 0x0052 m.tag ({} : Reply).body).warmReset), none) }

/-- GMP_DEVICE_RESET, cold. -/
def resetColdRequest : Request :=
  { msg := 0x0052, right := .device, recovery := true, valid := fun b => b.length == 4 && u8 b 0 == 1 && zeros b 1 3,
    act := fun m s k => (k.mod (fun d => (d.gmpReply s.number 0x0052 m.tag ({} : Reply).body).coldReset), none) }

def execGmpDeviceResetWarm (m : GmpMsg) (s : State) : Host.Outcome State Fault Refusal := .next (gmpCommand resetWarmRequest m s)
def execGmpDeviceResetCold (m : GmpMsg) (s : State) : Host.Outcome State Fault Refusal := .next (gmpCommand resetColdRequest m s)

end Sys2Proof.Machine
end

