-- ==== Sys2Proof/Machine/PkgCheck.lean ====
section
/-! DEFINITION. The checks that a job package's records pass of themselves, in ascending type order and in entry order (R17, R63,
R76, R115 to R119, R128 to R133, R142, R155, R166, R181, R182, R185, R209 to R214, R277 to R282, R318, R327, R385, R387, R418 to
R423). -/

namespace Sys2Proof.Machine

/-- Names of a package record entry and of a job (R397). -/
def pkgName (record index : Nat) : Nat := nameOf 2 record index
def jobName (j : Nat) : Nat := nameOf 3 0 j

/-- A refusal of the package with the entry it concerns. -/
def pkgBad (status record index : Nat) : Finding := { status := status, nameA := pkgName record index }

/-- A record type of a LOAD package, with how often it stands (R419). -/
def pkgCounts : List (Nat × Nat × Nat) := [
  (0x101, 1, 1), (0x102, 1, 1), (0x103, 1, 1), (0x104, 1, 1), (0x105, 1, 1), (0x106, 1, 1), (0x107, 1, 1), (0x108, 1, 1), (0x109, 1, 1),
  (0x10A, 1, 1), (0x10B, 1, 16), (0x10C, 1, 16), (0x10D, 0, 1), (0x10E, 0, 1), (0x10F, 1, 1), (0x110, 0, 1), (0x111, 0, 1)]

/-- The record set of a REPLAN package (R424). -/
def replanTypes : List Nat := [0x104, 0x107, 0x10F, 0x110]

/-- Whether a record's body has a length that its layout allows; that of a program is R133's check 2. -/
def pkgLength (t : Nat) (b : Bytes) : Bool :=
  let n := b.length
  match t with
  | 0x101 => n == 64
  | 0x102 => n == 32
  | 0x103 => n == 16
  | 0x104 => n % 16 == 0
  | 0x105 => n % 8 == 0
  | 0x106 => n % 32 == 0
  | 0x107 => n % 12 == 0
  | 0x108 => n % 24 == 0
  | 0x109 => n % 16 == 0
  | 0x10A => n == 448
  | 0x10B => true
  | 0x10C => n == 8 + 16 * u8 b 1
  | 0x10D => n % 64 == 0
  | 0x10E => n == 4 + 40 * fld b 0 4
  | 0x10F => n == 32 + 8 * scClaims b + 24 * (scMb b + scTail b)
  | 0x110 => n % 16 == 0
  | _ => n % 16 == 0

/-- The record set of a LOAD package: ascending types, each as often as it may stand (R419); a wrong number of programs is
ST_PROG_ILLEGAL (R166). -/
def checkLoadSet (recs : List (Nat × Bytes)) : Option Finding :=
  let types := recs.map (·.1)
  let bad (t : Nat) : Finding := pkgBad stPkgMalformed t 0
  firstOf [
    types.findSome? (fun t => need (pkgCounts.any (fun c => c.1 == t)) (bad t)),
    firstBelow types.length (fun i => need (i == 0 || decide (types.getD (i - 1) 0 ≤ types.getD i 0)) (bad (types.getD i 0))),
    pkgCounts.findSome? (fun c => need (decide (c.2.1 ≤ types.count c.1) && decide (types.count c.1 ≤ c.2.2))
      (if c.1 = 0x10B then pkgBad stProgIllegal 0x10B 0 else bad c.1)),
    recs.findSome? (fun r => need (pkgLength r.1 r.2) (bad r.1))]

/-- The record set of a REPLAN package (R424). -/
def checkReplanSet (recs : List (Nat × Bytes)) : Option Finding :=
  let types := recs.map (·.1)
  let bad (t : Nat) : Finding := pkgBad stPkgMalformed t 0
  firstOf [
    types.findSome? (fun t => need (replanTypes.contains t) (bad t)),
    firstBelow types.length (fun i => need (i == 0 || decide (types.getD (i - 1) 0 < types.getD i 0)) (bad (types.getD i 0))),
    replanTypes.findSome? (fun t => need (types.contains t) (bad t)),
    recs.findSome? (fun r => need (pkgLength r.1 r.2) (bad r.1))]

/-- JOB_HEADER (R420, R17, R63, R115), with what R74 and R185 ask of the header alone. -/
def checkHeader (x : Job) (j : Nat) : Option Finding :=
  let b := x.header
  let a := x.group
  let n := fld b 4 4
  firstOf [
    need (u8 b 0 == j && decide (u8 b 1 < 64) && decide (bits (u8 b 1) 1 0 < 2) && decide (u8 b 2 < 128) && decide (x.level ≤ 16) &&
        (x.nfmt == 0) == (x.level == 0) && decide (2 ≤ u8 b 3) && decide (u8 b 3 ≤ 5) && n != 0 && decide (n < 2 ^ 17) &&
        decide (1 ≤ x.accum) && x.accum != 0xFFFF && decide (1 ≤ x.hangMs) && x.hangMs != 0xFFFF && u8 b 12 != 0 && u8 b 13 == 0 &&
        x.device != 0xFFFF && zeros b 30 2 && zeros b 36 28)
      (pkgBad stPkgMalformed 0x101 0),
    need (decide (n ≤ 65536)) (pkgBad stRankLimit 0x101 0),
    need (!x.lysros || (x.ovf == .infinity && decide (a < 7) && (x.level == 0 || x.nfmt == 1) &&
        !(decide (1 ≤ x.level) && decide (x.level < min a (treeK n)))))
      (pkgBad stArithConflict 0x101 0)]

/-- A ring size of JOB_FLAGS that is malformed (R330). -/
def mibBad (n : Nat) : Bool := (decide (1 ≤ n) && decide (n ≤ 15)) || n == 0xFFFFFFFF

/-- JOB_FLAGS (R327, R330, R282). -/
def checkFlags (x : Job) : Option Finding :=
  let b := x.rc 0x102
  need (decide (u8 b 0 < 16) && zeros b 1 3 && zeros b 20 12 && (!x.replayCompare || x.replayable) && (x.replayMib != 0) == x.replayCompare &&
      !(x.dlb && x.replayable) && !mibBad x.logMib && !mibBad x.replayMib)
    (pkgBad stPkgMalformed 0x102 0)

/-- RECOVERY (R385, R387). -/
def checkRecovery (x : Job) : Option Finding :=
  let b := x.rc 0x103
  firstOf [
    need (zeros b 8 8) (pkgBad stPkgMalformed 0x103 0),
    need (decide (1 ≤ fld b 0 4) && decide (fld b 0 4 < x.hangMs) && decide (1 ≤ x.recoveryMs) && x.recoveryMs != 0xFFFFFFFF)
      (pkgBad stRecoveryBudget 0x103 0)]

/-- RANK_TABLE (R277, R279, R301). -/
def checkRanks (d : Dev) (x : Job) (j : Nat) : Option Finding :=
  let es := x.rankEntries
  firstBelow es.length (fun i =>
    let e := nth es i
    let k := rtPaths e
    let ports := (List.range k).map (rtPort e)
    firstOf [
      need (u8 e 0 == j && decide (rtLog2 e ≤ 16) && decide (1 ≤ k) && decide (k ≤ 8) && decide (u8 e 5 < 2) && (!rtTerminal e || k == 1) &&
          zeros e 6 2 && ports.all (fun p => decide (p < 96)) && (List.range 8).all (fun q => decide (q < k) || rtPort e q == 0xFF))
        (pkgBad stPkgMalformed 0x104 i),
      need (rtBase e % 2 ^ rtLog2 e == 0 && decide (rtBase e < x.ranks) &&
          !(es.take i).any (fun y => rtLog2 y == rtLog2 e && rtBase y == rtBase e) &&
          ports.all (fun p => d.mode p != 0 && d.groupDir p != 0))
        { status := stRttConflict, nameA := jobName j, nameB := pkgName 0x104 i }])

/-- CHANNELS (R17, R419). -/
def checkChannels (x : Job) : Option Finding :=
  let es := x.channelEntries
  firstOf [
    need (decide (1 ≤ es.length) && decide (es.length ≤ 64)) (pkgBad stChannelLimit 0x105 0),
    firstBelow es.length (fun i =>
      let e := nth es i
      need (decide (u8 e 0 < 64) && zeros e 1 3 && !(es.take i).any (fun y => chnNumber y == chnNumber e)) (pkgBad stPkgMalformed 0x105 i))]

/-- BUCKETS (R421, R115, R90), without what concerns the tensor table. -/
def checkBuckets (x : Job) : Option Finding :=
  let es := x.bucketEntries
  let verdict (e : Bytes) : Bool := bkBucket e == verdictBucket
  firstOf [
    need (decide (1 ≤ es.length)) (pkgBad stPkgMalformed 0x106 0),
    firstBelow es.length (fun i =>
      let e := nth es i
      let before := es.take i
      need (decide (u8 e 2 < 64) && decide (u8 e 3 < 8) && bkElem e != 3 && decide (bkCtx e < 4096) && zeros e 11 1 && decide (fld e 8 4 < 2 ^ 20) &&
          decide (32 ≤ bkFrag e) && decide (bkFrag e ≤ 4096) && decide (1 ≤ bkCount e) && decide (bkCount e ≤ 2 ^ 30) &&
          decide (16 ≤ bkQuota e) && decide (bkQuota e ≤ 196608) && (bkTensor e == 0xFFFFF) == verdict e &&
          !before.any (fun y => bkBucket y == bkBucket e || bkCtx y == bkCtx e) &&
          x.channelEntries.any (fun c => chnNumber c == bkChannel e) &&
          !(verdict e && es.any (fun y => !verdict y && bkChannel y == bkChannel e)) &&
          (verdict e || !before.any (fun y => !verdict y && bkTensor y == bkTensor e && bkStochastic y != bkStochastic e)) &&
          (x.nfmt != 3 || (bkFrag e % 32 == 0 && (verdict e || bkFirst e % 32 == 0))))
        (pkgBad stPkgMalformed 0x106 i)),
    firstBelow es.length (fun i =>
      let e := nth es i
      need (!x.lysros || verdict e || (bkElem e != 2 && !(decide (1 ≤ x.level) && bkStochastic e))) (pkgBad stArithConflict 0x106 i))]

/-- NODE_TABLE (R422), without the tree depth; a port 96 or 97 is left to R300. -/
def checkNodes (x : Job) : Option Finding :=
  let es := x.nodeEntries
  let port (p : Nat) : Bool := decide (p < 98)
  firstBelow es.length (fun i =>
    let e := nth es i
    let inp := ndIn e
    let out := ndOut e
    need ((match ndKind e with
        | 1 => inp == 0xFF && (port out || out == 0xFF) && decide (1 ≤ nodeLevel (ndNode e))
        | 2 => (port inp || inp == 0xFE) && out == 0xFF
        | 3 => (port inp || inp == 0xFE) && (port out || out == 0xFF)
        | _ => false) && zeros e 5 3 && nodeValid 16 (ndNode e))
      (pkgBad stPkgMalformed 0x107 i))

/-- TENSOR_TABLE (R76, R116, R117, R153, R166), without the programs and recipes. -/
def checkTensors (x : Job) : Option Finding :=
  let es := x.tensorEntries
  let recipe (r : Nat) : Bool := decide (r < 32) || r == 0xFF
  firstOf [
    need (decide (1 ≤ es.length) && decide (es.length ≤ 1048575)) (pkgBad stTensorTable 0x108 0),
    firstBelow es.length (fun i =>
      let e := nth es i
      firstOf [
        need (decide (fld e 0 4 < 0xFFFFF)) (pkgBad stPkgMalformed 0x108 i),
        need ((i == 0 || decide (tnIndex (nth es (i - 1)) < tnIndex e)) && decide (1 ≤ tnCount e) &&
            decide (tnCount e ≤ 2 ^ 43) && decide (32 ≤ tnChunk e) && decide (tnChunk e ≤ 2 ^ 30) && tnChunk e % 32 == 0 &&
            decide (tnProgram e < 16) && decide (tnPolicy e < 3) && decide (u8 e 18 < 4) && decide (tnFormat e < 7) && recipe (tnGrad e) &&
            recipe (tnOut e) && decide (fld e 22 2 < 64))
          (pkgBad stTensorTable 0x108 i)])]

/-- The (tensor, chunk) pairs of the job in job-wide order (R118). -/
def Job.chunkOrder (x : Job) : List (Nat × Nat) := x.tensorEntries.flatMap (fun e => (List.range (tnChunks e)).map (fun k => (tnIndex e, k)))

/-- OWNER_MAP (R23, R119, R166). -/
def checkOwners (x : Job) : Option Finding :=
  let es := x.ownerEntries
  if 1048576 < (x.tensorEntries.map tnChunks).sum then some (pkgBad stOwnerMap 0x109 0)
  else
    let order := x.chunkOrder
    firstOf [
      need (es.length == order.length) (pkgBad stOwnerMap 0x109 0),
      firstBelow es.length (fun i =>
        let e := nth es i
        need (order.getD i (0, 0) == (fld e 0 4, owChunk e) && owOwner e != 0xFFFF && decide (u8 e 10 < 8) && u8 e 11 == 0 && owFrame e != 0xFFFFFFFF)
          (pkgBad stOwnerMap 0x109 i))]

/-- ALLOTMENT (R423, R115). -/
def checkAllotment (x : Job) : Option Finding :=
  let b := x.rc 0x10A
  firstOf [
    need ((List.range 56).all (fun i => fld b (8 * i) 8 % 4096 == 0)) (pkgBad stDepthsAllot 0x10A 0),
    need (decide (((List.range 8).map (fun k => x.allot k 5)).sum ≤ 64 * 2 ^ 30)) (pkgBad stPkgMalformed 0x10A 0)]

/-- Opcodes that R129 assigns. -/
def opcodes : List Nat := [
  0x00, 0x01, 0x02, 0x03, 0x04, 0x05, 0x06, 0x07, 0x08, 0x09, 0x0A, 0x0B, 0x10, 0x11, 0x12, 0x13, 0x14, 0x18, 0x19, 0x1A, 0x1B, 0x1C, 0x1D,
  0x1E, 0x20, 0x21, 0x22, 0x23, 0x24]

/-- Fields of an instruction word (R128). -/
def inOp (w : Nat) : Nat := bits w 5 0
def inDst (w : Nat) : Nat := bits w 11 6
def inA (w : Nat) : Nat := bits w 17 12
def inB (w : Nat) : Nat := bits w 23 18
def inC (w : Nat) : Nat := bits w 29 24
def inImm (w : Nat) : Nat := bits w 47 40

/-- Whether a stream is one that the program may name (R130, R133). -/
def streamOk (mask s : Nat) (load : Bool) : Bool :=
  match s with
  | 0 => load
  | 1 => true
  | 2 => bit mask 0
  | 3 => bit mask 1
  | 4 => bit mask 2
  | 5 => true
  | _ => false

/-- Whether an instruction is legal (R128 to R130, R133 check 3). -/
def instrLegal (mask w : Nat) : Bool :=
  let op := inOp w
  let pred (f : Nat) : Bool := decide (f < 8)
  opcodes.contains op && bits w 39 37 == 0 && bits w 63 48 == 0 &&
    (if 0x18 ≤ op ∧ op ≤ 0x1E then pred (inDst w) else true) &&
    (if op = 0x1C ∨ op = 0x1D then pred (inA w) && pred (inB w) else if op = 0x1E then pred (inA w) else true) &&
    (if op = 0x20 then streamOk mask (inImm w) true && (inImm w != 5 || inDst w == 0)
     else if op = 0x21 then streamOk mask (inImm w) false && (inImm w != 5 || inA w == 0)
     else if op = 0x24 then decide (1 ≤ bits (inImm w) 3 0) && decide (bits (inImm w) 3 0 ≤ 4) && decide (inImm w < 32)
     else true)

/-- One UPDATE_PROGRAM record (R132, R133, R166). -/
def checkProgram (x : Job) (rec : Bytes) (again : Bool) : Option Finding :=
  let i := u8 rec 0
  let b := rec.drop 8
  let n := pgCount b
  let ws := (List.range n).map (pgInstr b)
  let bad (st : Nat) : Finding := pkgBad st 0x10B i
  firstOf [
    need (decide (i < 16) && zeros rec 1 7 && !again) (bad stPkgMalformed),
    need (decide (1 ≤ n) && decide (n ≤ 128) && decide (pgConsts b ≤ 48)) (bad stProgIllegal),
    need (rec.length == 16 + 8 * n + 4 * pgConsts b) (bad stProgIllegal),
    need (decide (pgMask b < 8) && u8 b 3 == 0 && ws.all (instrLegal (pgMask b))) (bad stProgIllegal),
    need ((x.rcs 0x10C).any (fun t => u8 t 0 == pgLr b)) (bad stProgIllegal),
    need (decide ((ws.filter (fun w => inOp w == 0x24 && bit (inImm w) 4)).length ≤ 1)) (bad stPkgMalformed)]

/-- The UPDATE_PROGRAM records. -/
def checkPrograms (x : Job) : Option Finding :=
  let l := x.rcs 0x10B
  firstBelow l.length (fun i => checkProgram x (nth l i) ((l.take i).any (fun r => u8 r 0 == u8 (nth l i) 0)))

/-- The LR_TABLE records (R142, R166, R419). -/
def checkLr (x : Job) : Option Finding :=
  let l := x.rcs 0x10C
  firstBelow l.length (fun i =>
    let b := nth l i
    let es := entries 16 (b.drop 8)
    need (decide (u8 b 0 < 16) && !(l.take i).any (fun r => u8 r 0 == u8 b 0) && decide (1 ≤ u8 b 1) && decide (u8 b 1 ≤ 64) && zeros b 2 6 &&
        (List.range es.length).all (fun k =>
          zeros (nth es k) 6 2 && zeros (nth es k) 12 4 && (k == 0 || decide (fld (nth es (k - 1)) 0 6 < fld (nth es k) 0 6))))
      (pkgBad stPkgMalformed 0x10C (u8 b 0)))

/-- SCALE_RECIPES (R155, R166). -/
def checkRecipes (x : Job) : Option Finding :=
  let es := x.recipeEntries
  firstOf [
    need (decide (es.length ≤ 32)) (pkgBad stPkgMalformed 0x10D 32),
    firstBelow es.length (fun i =>
      let e := nth es i
      need (zeros e 7 57 &&
          (match rpKind e with
          | 1 => decide (-63 ≤ rpMin e) && decide (rpMin e ≤ rpInit e) && decide (rpInit e ≤ rpMax e) && decide (rpMax e ≤ 63) &&
              decide (1 ≤ rpWindow e) && rpWindow e != 0xFFFF
          | 2 => decide (1 ≤ rpWindow e) && decide (rpWindow e ≤ 1024) && decide (rpMargin e ≤ 15)
          | _ => false))
        (pkgBad stPkgMalformed 0x10D i))]

/-- The settings of one NUMERICS_WATCH entry: each group is in its limits where it is named, and zero where it is not (R181, R182). -/
def watchOk (mask : Nat) (b : Bytes) : Bool :=
  settingsReserved b &&
    (if bit mask 0 then silentOk b else zeros b 0 7) &&
    (if bit mask 1 then overflowOk b else zeros b 8 6) &&
    (if bit mask 2 then satOk b else zeros b 16 6) &&
    (if bit mask 3 then streakOk b else zeros b 14 2) &&
    (if bit mask 4 then histOk b else zeros b 24 3)

/-- NUMERICS_WATCH (R181, R182). -/
def checkWatch (x : Job) : Option Finding :=
  let es := x.watchEntries
  firstOf [
    need (decide (es.length ≤ 65536)) (pkgBad stPkgMalformed 0x10E headerIndex),
    firstBelow es.length (fun i =>
      let e := nth es i
      need ((x.tensorPos (fld e 0 4)).isSome && !(es.take i).any (fun y => fld y 0 4 == fld e 0 4) && decide (u8 e 4 < 32) && zeros e 5 3 &&
          watchOk (u8 e 4) (e.drop 8))
        (pkgBad stPkgMalformed 0x10E i))]

/-! ### The schedule's own checks (R209 to R214) -/

/-- Whether a resource word is assigned; the host ports are left to R300 (R212). -/
def resourceOk (r : Nat) : Bool :=
  let u := resUnit r
  match resClass r with
  | 0 => decide (u < 98)
  | 1 => decide (u < 98)
  | 2 => decide (u < 48)
  | 3 => decide (u < 8)
  | 4 => decide (u < 8)
  | 5 => decide (u < 96)
  | _ => false

/-- All slot entries of a schedule, counted over both sections. -/
def scSlots (s : Bytes) : List Bytes := scMbSlots s ++ scTailSlots s
/-- The ticks from a slot's start to the end of its occupied span (R214). -/
def slSpan (e : Bytes) : Nat := slLength e + slSlack e
def slEnd (e : Bytes) : Nat := slStart e + slSpan e

/-- A slot entry's fields (R211, R213, R214 check 1). -/
def slotOk (chunks : Nat) (e : Bytes) : Bool :=
  let k := slKind e
  slStart e != noStep && resourceOk (slResource e) && slLength e != 0 && slLength e != 0xFFFFFFFF && slSlack e != 0xFFFFFFFF &&
    (slSlack e == 0 || k == 1 || k == 5) && decide (1 ≤ k) && decide (k ≤ 7) && decide (u8 e 17 < 64) &&
    (if k = 4 ∨ k = 5 ∨ k = 6 then decide (slChunk e < chunks) else slChunk e == 0xFFFFFFFF)

/-- Ascending (start, resource) order within a section. -/
def slotsAscend (l : List Bytes) (i : Nat) : Bool :=
  i == 0 || (let a := nth l (i - 1); let b := nth l i
    decide (slStart a < slStart b) || (slStart a == slStart b && decide (slResource a ≤ slResource b)))

/-- The windows claimed on a resource (R210). -/
def Job.windowsOn (x : Job) (r : Nat) : Nat :=
  ((scClaimList x.sched).filter (fun c => clResource c == r)).foldl (fun m c => Nat.lor m (clMask c)) 0

/-- Whether a span from `start` for `n` ticks lies within claimed windows. -/
def spanClaimed (mask start n : Nat) : Bool :=
  if 9750 ≤ n then mask % 2 ^ 30 == 2 ^ 30 - 1
  else
    let a := start % 9750
    (List.range 31).all (fun k => let w := a / 325 + k; decide (a + n ≤ w * 325) || bit mask (w % 30))

/-- SCHEDULE of itself: R214 checks 1 and 2, and the refresh pass of check 3. -/
def checkSchedule (x : Job) : Option Finding :=
  let s := x.sched
  let claims := scClaimList s
  let nc := claims.length
  let mb := scMbSlots s
  let tail := scTailSlots s
  let bad (i : Nat) : Finding := pkgBad stPkgMalformed 0x10F i
  let chunks := x.ownerEntries.length
  let place (l : List Bytes) (base i : Nat) : Option Finding :=
    let e := nth l i
    need (spanClaimed (x.windowsOn (slResource e)) (slStart e) (slSpan e) &&
        !(l.take i).any (fun f => slResource f == slResource e && decide (slStart e < slEnd f)))
      (bad (base + i))
  firstOf [
    need (scPeriod s % 9750 == 0 && decide (9750 ≤ scPeriod s) && decide (scPeriod s ≤ 4290000000) && decide (1 ≤ mb.length) &&
        decide (mb.length ≤ 262143) && decide (1 ≤ tail.length) && decide (tail.length ≤ 262143) && decide (1 ≤ nc) && decide (nc ≤ 280) &&
        zeros s 14 2 && zeros s 22 2 && zeros s 24 8 && decide (scSpan s ≤ 2 ^ 48 - 2))
      (bad headerIndex),
    firstBelow nc (fun i =>
      let c := nth claims i
      need (resourceOk (clResource c) && zeros c 2 2 && decide (clMask c < 2 ^ 30)) (bad i)),
    firstBelow mb.length (fun i => need (slotOk chunks (nth mb i) && slotsAscend mb i) (bad (nc + i))),
    firstBelow tail.length (fun i => need (slotOk chunks (nth tail i) && slotsAscend tail i) (bad (nc + mb.length + i))),
    firstBelow mb.length (place mb nc),
    firstBelow tail.length (place tail (nc + mb.length)),
    firstBelow mb.length (fun i => need (decide (slEnd (nth mb i) ≤ scPeriod s)) (bad (nc + i))),
    need (decide (x.accum * scPeriod s + (tail.map slEnd).foldl max 0 ≤ scSpan s)) (bad headerIndex),
    firstBelow nc (fun i =>
      let c := nth claims i
      let r := clResource c
      need (resClass r != 4 || (bits (clMask c) (3 * resUnit r + 2) (3 * resUnit r)) == 0) (pkgBad stSchedRefresh 0x10F i))]

/-- OUTFLOW_FANOUT (R280, R301). -/
def checkFan (x : Job) (j : Nat) : Option Finding :=
  let es := x.fanEntries
  firstOf [
    need (decide (es.length ≤ 32768)) (pkgBad stPkgMalformed 0x110 32768),
    firstBelow es.length (fun i =>
      let e := nth es i
      need (u8 e 0 == j && decide (u8 e 1 < 128) && zeros e 2 2 && !(es.take i).any (fun y => u8 y 1 == u8 e 1)) (pkgBad stPkgMalformed 0x110 i))]

/-- SHAPER (R318, R321). -/
def checkShaper (x : Job) : Option Finding :=
  let es := entries 16 (x.rc 0x111)
  firstOf [
    need (decide (es.length ≤ 2)) (pkgBad stPkgMalformed 0x111 2),
    firstBelow es.length (fun i =>
      let e := nth es i
      need (decide (u8 e 0 < 2) && zeros e 1 3 && fld e 4 4 != 0 && decide (16512 ≤ fld e 8 4) && decide (fld e 8 4 ≤ 268435456) && zeros e 12 4 &&
          !(es.take i).any (fun y => u8 y 0 == u8 e 0))
        (pkgBad stPkgMalformed 0x111 i))]

/-- Every record's own checks for one type. -/
def checkPkgRecord (d : Dev) (x : Job) (j t : Nat) : Option Finding :=
  match t with
  | 0x101 => checkHeader x j
  | 0x102 => checkFlags x
  | 0x103 => checkRecovery x
  | 0x104 => checkRanks d x j
  | 0x105 => checkChannels x
  | 0x106 => checkBuckets x
  | 0x107 => checkNodes x
  | 0x108 => checkTensors x
  | 0x109 => checkOwners x
  | 0x10A => checkAllotment x
  | 0x10B => checkPrograms x
  | 0x10C => checkLr x
  | 0x10D => checkRecipes x
  | 0x10E => checkWatch x
  | 0x10F => checkSchedule x
  | 0x110 => checkFan x j
  | _ => checkShaper x

/-- The record checks of a package, in ascending type order. -/
def ownChecks (d : Dev) (x : Job) (j : Nat) (types : List Nat) : Option Finding := types.eraseDups.findSome? (checkPkgRecord d x j)

end Sys2Proof.Machine
end

