-- ==== Sys2Proof/Machine/PkgCross.lean ====
section
/-! DEFINITION. The checks of a job package across its records and against the loaded jobs (R30, R72, R92, R107, R115, R116, R121 to
R123, R134, R153, R166, R185, R214, R300, R309, R312, R314, R329, R331, R337, R421, R499). -/

namespace Sys2Proof.Machine

/-! ### Across the records -/

/-- A bucket with a context here but no slot in the section that its uses run in (R92). -/
def crossOpen (x : Job) : Option Finding :=
  let es := x.bucketEntries
  firstBelow es.length (fun i =>
    let e := nth es i
    let slots := if bkBucket e = verdictBucket then scTailSlots x.sched else scMbSlots x.sched
    need (slots.any (fun s => slChannel s == bkChannel e && slBucket s == bkBucket e)) (pkgBad stPkgMalformed 0x106 i))

/-- A node beyond its tree (R115), or one that Lysros-exact mode does not host (R185). -/
def crossNodes (x : Job) : Option Finding :=
  let es := x.nodeEntries
  firstBelow es.length (fun i =>
    let e := nth es i
    let k := treeK (x.treeRanks (ndBucket e))
    firstOf [
      need (nodeValid k (ndNode e)) (pkgBad stPkgMalformed 0x107 i),
      need (!(x.lysros && ndKind e == 1 && ndBucket e != verdictBucket && decide (nodeLevel (ndNode e) < min x.group k)))
        (pkgBad stArithConflict 0x107 i)])

/-- A tensor's program and recipes (R116, R153, R166). -/
def crossTensors (x : Job) : Option Finding :=
  let es := x.tensorEntries
  let kind (r : Nat) : Nat := rpKind (nth x.recipeEntries r)
  firstOf [
    firstBelow es.length (fun i =>
      let e := nth es i
      need ((x.rcs 0x10B).any (fun b => u8 b 0 == tnProgram e) &&
          (tnGrad e == 0xFF || (decide (tnGrad e < x.recipeEntries.length) && kind (tnGrad e) == 1)) &&
          (tnOut e == 0xFF || (decide (tnOut e < x.recipeEntries.length) && kind (tnOut e) == 2 && tnFormat e == 3)))
        (pkgBad stTensorTable 0x108 i)),
    need (decide ((es.filter (fun e => tnOut e != 0xFF)).length ≤ 65536)) (pkgBad stPkgMalformed 0x10D 0)]

/-- Bytes rounded up to 4 KiB (R121). -/
def page (n : Nat) : Nat := ceilDiv n 4096 * 4096

/-- The bytes of a chunk's frame (R121). -/
def Job.frameBytes (x : Job) (c : Nat) : Nat :=
  let t := x.tensor (owTensor (x.chunk c))
  let e := x.chunkElems c
  let arrays := 1 + ([0, 1, 2].filter (fun i => bit (pgMask (x.program (tnProgram t))) i)).length
  4096 + arrays * page (4 * e) + page (2 * e) + page (if tnBf16 t then 2 * e else 4 * e)

/-- Elements of a bucket that lie in a chunk. -/
def Job.shared (x : Job) (b : Bytes) (c : Nat) : Nat :=
  if bkTensor b = owTensor (x.chunk c) ∧ bkBucket b ≠ verdictBucket then
    min (bkFirst b + bkCount b) (x.chunkFirst c + x.chunkElems c) - max (bkFirst b) (x.chunkFirst c)
  else 0

/-- Elements of a bucket in the chunks of a list. -/
def Job.sharedAll (x : Job) (b : Bytes) (cs : List Nat) : Nat := (cs.map (x.shared b)).sum

/-- The inflow slots on a stack (R122, R123): two per channel, each as large as its largest bucket's range rooted there. -/
def Job.inflowBytes (x : Job) (k : Nat) : Nat :=
  let mine := x.owned.filter (fun c => owStack (x.chunk c) == k)
  (x.channelEntries.map (fun ch =>
    8 * ((x.bucketEntries.filter (fun b => bkChannel b == chnNumber ch)).map (fun b => x.sharedAll b mine)).foldl max 0)).sum

/-- The remainder copies on a stack: those of the elements whose chunk names it (R88, R122; log entry 27). -/
def Job.remainderBytes (x : Job) (k : Nat) : Nat :=
  let there := (List.range x.ownerEntries.length).filter (fun c => owStack (x.chunk c) == k)
  (x.nodeEntries.map (fun e =>
    if ndKind e = 1 ∧ ndBucket e ≠ verdictBucket ∧ x.isNarrow (ndNode e) then
      match x.bucket (ndBucket e) with
      | some b => 12 * x.sharedAll b there
      | none => 0
    else 0)).sum

/-- The recipe state, on the first stack with an allotment (R122; log entry 27). -/
def Job.recipeBytes (x : Job) (k : Nat) : Nat :=
  if (List.range 8).find? (fun i => x.allot i 1 != 0) = some k then
    72 * x.recipeEntries.length +
      ((x.tensorEntries.filter (fun e => tnOut e != 0xFF)).map (fun e => 8 + 4 * rpWindow (nth x.recipeEntries (tnOut e)))).sum
  else 0

/-- Frames and regions of the job on a stack: name, first byte and the byte after the last. -/
def Job.spans (x : Job) (k : Nat) : List (Nat × Nat × Nat) :=
  let frames := (x.owned.filter (fun c => owStack (x.chunk c) == k)).map (fun c =>
    let lo := x.allot k 0 + 4096 * owFrame (x.chunk c)
    (pkgName 0x109 c, lo, lo + x.frameBytes c))
  let region (f n : Nat) : Nat × Nat × Nat := (pkgName 0x10A k, x.allot k f, x.allot k f + n)
  frames ++ ([region 2 (x.inflowBytes k), region 3 (x.remainderBytes k), region 4 (x.allot k 5), region 6 (x.recipeBytes k)].filter
    (fun r => r.2.1 != r.2.2))

/-- Frames and regions lie in the allotment and do not overlap (R119, R122). -/
def crossSpans (x : Job) : Option Finding :=
  firstBelow 8 (fun k =>
    let l := x.spans k
    let lo := x.allot k 0
    let hi := lo + x.allot k 1
    firstBelow l.length (fun i =>
      let s := l.getD i (0, 0, 0)
      firstOf [
        need (decide (lo ≤ s.2.1) && decide (s.2.2 ≤ hi)) { status := stDepthsAllot, nameA := s.1 },
        ((l.take i).find? (fun t => decide (t.2.1 < s.2.2) && decide (s.2.1 < t.2.2))).map (fun t =>
          { status := stDepthsAllot, nameA := t.1, nameB := s.1 })]))

/-- The ports that the node table, the fan-out and the schedule name (R300). -/
def Job.namedPorts (x : Job) : List Nat :=
  let res (r : Nat) : List Nat := if resClass r ≤ 1 then [resUnit r] else []
  (x.nodeEntries.flatMap (fun e => [ndIn e, ndOut e])).filter (fun p => decide (p < 98)) ++
    x.fanEntries.flatMap (fun e => (List.range 96).filter (fun p => bit (fnMask e) p)) ++
    (scClaimList x.sched).flatMap (fun c => res (clResource c)) ++ (scSlots x.sched).flatMap (fun e => res (slResource e))

/-- An Ethernet-mode port where only a fabric port may stand (R300). -/
def crossEthPort (d : Dev) (x : Job) : Option Finding :=
  x.namedPorts.findSome? (fun p => need (!d.ethernet p) { status := stSchedEthPort, nameA := portName p })

/-- The flits of a TX slot as the package's checks count them (R309). -/
def slFlits (e : Bytes) : Nat := ceilDiv (slLength e * 75) 64

/-- The output queues that TX slots and the job's general VC need (R309). -/
def crossQueues (d : Dev) (x : Job) : Option Finding :=
  firstOf [
    (scSlots x.sched).findSome? (fun e =>
      need (slKind e != 2 || resClass (slResource e) != 1 || decide (slFlits e ≤ min (d.outLimit (resUnit (slResource e)) 0) (d.outLimit (resUnit (slResource e)) 1)))
        { status := stSchedQueue, nameA := portName (resUnit (slResource e)) }),
    (x.rankEntries.flatMap (fun e => (List.range (rtPaths e)).map (rtPort e))).findSome? (fun p =>
      need (d.ingressLimit p x.vc != 0 && d.outLimit p x.vc != 0)
        { status := stQueueZero, nameA := portName p, nameB := d.queueName p })]

/-- One slot enters the leaky measure of R337, in quarters of a byte; none where it passes 64 KiB. -/
def auditStep (base : Nat) (acc : Option (Nat × Nat)) (e : Bytes) : Option (Nat × Nat) :=
  match acc with
  | none => none
  | some (level, last) =>
    let t := base + slStart e
    let l := (level - 5 * (t - last)) + 4 * (64 * slFlits e)
    if l ≤ 4 * 65536 then some (l, t) else none

/-- Whether a channel's slots over one step stay within R337's bound. -/
def Job.auditFits (x : Job) (c : Nat) : Bool :=
  let mine (l : List Bytes) : List Bytes := l.filter (fun e => slChannel e == c && (slKind e == 1 || slKind e == 2))
  let mb := mine (scMbSlots x.sched)
  let p := scPeriod x.sched
  let micro := (List.range x.accum).foldl (fun a m => mb.foldl (auditStep (m * p)) a) (some (0, 0))
  ((mine (scTailSlots x.sched)).foldl (auditStep (x.accum * p)) micro).isSome

/-- The audited channels that the job uses, by their CHANNELS entry. -/
def Job.auditedEntries (x : Job) : List Nat :=
  (List.range x.channelEntries.length).filter (fun i => x.audited (chnNumber (nth x.channelEntries i)))

/-- The rate of audited channels (R337). -/
def crossAudit (x : Job) : Option Finding :=
  x.auditedEntries.findSome? (fun i => need (x.auditFits (chnNumber (nth x.channelEntries i))) (pkgBad stAuditRate 0x105 i))

/-- A SUM bucket against the tensor table (R421). -/
def crossBuckets (x : Job) : Option Finding :=
  let es := x.bucketEntries
  firstBelow es.length (fun i =>
    let e := nth es i
    need (bkBucket e == verdictBucket ||
        ((x.tensorPos (bkTensor e)).isSome && decide (bkFirst e + bkCount e ≤ tnCount (x.tensor (bkTensor e)))))
      (pkgBad stPkgMalformed 0x106 i))

/-- The checks across the records, in ascending order of the rules that state them (log entry 28). -/
def crossPackage (d : Dev) (x : Job) : Option Finding :=
  firstOf [crossOpen x, crossNodes x, crossTensors x, crossSpans x, crossEthPort d x, crossQueues d x, crossAudit x, crossBuckets x]

/-- Those of them that concern the records of a re-plan (R424). -/
def crossReplan (d : Dev) (x : Job) : Option Finding :=
  firstOf [crossOpen x, crossNodes x, crossEthPort d x, crossQueues d x, crossAudit x]

/-! ### Against the loaded jobs (R499) -/

/-- The loaded jobs other than `j`, in ascending number. -/
def Dev.others (d : Dev) (j : Nat) : List Nat := d.loaded.filter (· ≠ j)

/-- A sum over the loaded jobs other than `j`. -/
def Dev.sumOthers (d : Dev) (j : Nat) (f : Job → Nat) : Nat := ((d.others j).map (fun i => f (d.job i))).sum

/-- ST_CONTEXT_LIMIT: the total, then a context that another job holds. -/
def loadedContexts (d : Dev) (x : Job) (j : Nat) : Option Finding :=
  let es := x.bucketEntries
  firstOf [
    need (decide (es.length + d.sumOthers j (fun y => y.bucketEntries.length) ≤ 4096)) { status := stContextLimit, nameA := jobName j },
    firstBelow es.length (fun i =>
      ((d.others j).find? (fun o => (d.job o).bucketEntries.any (fun b => bkCtx b == bkCtx (nth es i)))).map (fun o =>
        { status := stContextLimit, nameA := pkgName 0x106 i, nameB := jobName o }))]

/-- ST_INTEGRITY_SPACE (R329). -/
def loadedIntegrity (d : Dev) (x : Job) (j : Nat) : Option Finding :=
  let mib (g : Nat) (f : Job → Nat) : Option Finding :=
    need (decide ((f x + d.sumOthers j f) * 2 ^ 20 ≤ d.regionBytes g)) { status := stIntegritySpace, nameA := regionName g 0 }
  let owned (k : Nat) (y : Job) : Nat := (y.owned.filter (fun c => owStack (y.chunk c) == k)).length
  firstOf [mib 0 Job.logMib, mib 2 Job.replayMib,
    firstBelow 8 (fun k => need (decide ((owned k x + d.sumOthers j (owned k)) * 64 ≤ 4096 * d.regionUnits 3 k))
      { status := stIntegritySpace, nameA := regionName 3 k })]

/-- ST_SCHED_CONFLICT: claims in order, jobs in ascending number (R30, R210). -/
def loadedConflict (d : Dev) (x : Job) (j : Nat) : Option Finding :=
  (scClaimList x.sched).findSome? (fun c =>
    ((d.others j).find? (fun o => Nat.land ((d.job o).windowsOn (clResource c)) (clMask c) != 0)).map (fun o =>
      { status := stSchedConflict, nameA := jobName j, nameB := jobName o }))

/-- Whether a unit that computes is there: not retired, or a Basin for which a spare stands in (R107, R114, R134). -/
def Dev.active (d : Dev) (r : Nat) : Bool :=
  match resClass r with
  | 2 => (d.unit (resUnit r)).state != .retired || (d.spareFor (resUnit r)).isSome
  | 3 => (d.unit (tarnUnit (resUnit r))).state != .retired
  | _ => true

/-- Sizes of the items that an RX slot brings (R311): contributions in the wire formats of the nodes that its port brings, or the
fragments of its channel's fan-out. -/
def Job.rxSizes (x : Job) (e : Bytes) : List Nat :=
  match x.bucket (slBucket e) with
  | some b =>
    if bkChannel b = slChannel e then
      (((x.nodesOf (bkBucket b)).filter (fun t => ndIn t == resUnit (slResource e))).map (fun t =>
        48 + payloadBytes (x.wireOf b (ndNode t)) (bkFrag b))).eraseDups
    else []
  | none =>
    ([0, 1].filter (fun k => x.fanPorts (slChannel e) k != [])).map (fun k => if k = 0 then x.outFragBytes (slChannel e) else x.resultBytes)

/-- The blocks of pool `q` that the items ending in `n` ticks of an RX slot need at most (R312). -/
def Job.rxBlocks (x : Job) (e : Bytes) (n q : Nat) : Nat :=
  ((x.rxSizes e).map (fun b => ((poolsFor b).filter (· == q)).length * ceilDiv (n * 75) (64 * flitsOf b))).foldl max 0

/-- Ticks of window `k` of a section that a slot's length covers. -/
def slOverlap (e : Bytes) (k : Nat) : Nat := min (slStart e + slLength e) (325 * (k + 1)) - max (slStart e) (325 * k)

/-- Blocks of pool `q` that the RX and Tarn slots of a section need in window `k`; a Tarn slot's fragments spread over its length. -/
def Job.allocIn (x : Job) (l : List Bytes) (q k : Nat) : Nat :=
  (l.map (fun e =>
    let n := slOverlap e k
    if n = 0 then 0
    else match slKind e with
      | 1 => x.rxBlocks e n q
      | 4 => ceilDiv ((((x.chunkSizes (slChunk e)).flatMap poolsFor).filter (· == q)).length * n) (slLength e)
      | _ => 0)).sum

/-- The greatest need in window `w` of any weir frame: a frame in which a slot starts, or the one after it. -/
def Job.allocPeak (x : Job) (q w : Nat) : Nat :=
  let over' (l : List Bytes) : Nat :=
    (l.flatMap (fun e => [slStart e / 9750, slStart e / 9750 + 1])).foldl (fun m f => max m (x.allocIn l q (30 * f + w))) 0
  max (over' (scMbSlots x.sched)) (over' (scTailSlots x.sched))

/-- The first entry of a section, of those of a kind, whose work is more than the entries of the same work can do at `rate` a tick. `base`
is the section's first entry number, and `same` says which entries do the same work. -/
def overRate (l : List Bytes) (base kind rate : Nat) (work : Bytes → Nat) (same : Bytes → Bytes → Bool) : Option Nat :=
  (l.findIdx? (fun e => slKind e == kind && decide (rate * ((l.filter (fun f => slKind f == kind && same e f)).map slLength).sum < work e))).map (base + ·)

/-- Entries of one bucket on one Basin, and of one chunk. -/
def sameBucket (e f : Bytes) : Bool := slBucket f == slBucket e && slChannel f == slChannel e && slResource f == slResource e
def sameChunk (e f : Bytes) : Bool := slChunk f == slChunk e

/-- The additions of a BASIN slot's bucket (R107): at each hosted node one for every child but the first, over every element. -/
def Job.additions (x : Job) (e : Bytes) : Nat :=
  match x.bucket (slBucket e) with
  | some b => if bkChannel b = slChannel e then
      bkCount b * ((x.hosted (bkBucket b)).map (fun w => (x.kids b w).length - 1)).sum else 0
  | none => 0

/-- The first entry with more additions, lane issue slots or hashed bytes than its unit provides: 64 lanes in a Basin, 8 in Lysros-exact
mode (R75, R107), 256 lanes in a Tarn (R134), and 128 bytes a tick in its hasher (R330, R342; DEDUCED, log entry 29). -/
def Job.unitRate (x : Job) : Option Nat :=
  let mb := scMbSlots x.sched
  let tail := scTailSlots x.sched
  let n := scMb x.sched
  let lanes := if x.lysros then 8 else 64
  let issue (e : Bytes) : Nat := x.chunkElems (slChunk e) * pgCount (x.program (tnProgram (x.tensor (owTensor (x.chunk (slChunk e))))))
  let hashed (e : Bytes) : Nat := (4 + (if tnBf16 (x.tensor (owTensor (x.chunk (slChunk e)))) then 2 else 4)) * x.chunkElems (slChunk e)
  (((overRate mb 0 3 lanes x.additions sameBucket).or (overRate tail n 3 lanes x.additions sameBucket)).or
    (overRate tail n 4 256 issue sameChunk)).or (overRate tail n 4 128 hashed sameChunk)

/-- ST_SCHED_RATE, then ST_RNG_OVERCOMMIT (R72, R76, R107, R134, R214, R312, R342; log entry 29). -/
def loadedRates (d : Dev) (x : Job) (j : Nat) : Option Finding :=
  let slots := scSlots x.sched
  let nc := scClaims x.sched
  let units (y : Job) : Nat :=
    (((scClaimList y.sched).filter (fun c => resClass (clResource c) == 5)).map (fun c => ((List.range 30).filter (bit (clMask c))).length)).sum
  firstOf [
    firstBelow slots.length (fun i =>
      let e := nth slots i
      need ((slKind e != 3 && slKind e != 4) || d.active (slResource e)) (pkgBad stSchedRate 0x10F (nc + i))),
    firstBelow 4 (fun q => firstBelow 30 (fun w =>
      need (decide (x.allocPeak q w + d.sumOthers j (fun y => y.allocPeak q w) ≤ 16 * 325)) (pkgBad stSchedRate 0x10F headerIndex))),
    x.unitRate.map (fun i => pkgBad stSchedRate 0x10F (nc + i)),
    need (decide (units x + d.sumOthers j units ≤ 96 * 30)) { status := stRngOvercommit, nameA := jobName j, nameB := pkgName 0x10F headerIndex }]

/-- ST_POOL_RESERVE (R314): the pool is named by POOL_CONFIG, a record of one body (R500; log entry 47). -/
def loadedPool (d : Dev) (x : Job) (j : Nat) : Option Finding :=
  let d := { d with jobs := tdel d.jobs j }
  firstBelow 4 (fun q =>
    need (decide ((x.reserveIn q : Int) ≤ (d.freeIn q : Int) - d.poolFloor q - d.outstanding q))
      { status := stPoolReserve, nameA := jobName j, nameB := nameOf 1 0x17 0 })

/-- Checks 3 to 12 of R499. -/
def loadedChecks (d : Dev) (x : Job) (j : Nat) : Option Finding :=
  let entriesOf (y : Job) : Nat := scMb y.sched + scTail y.sched
  firstOf [
    loadedContexts d x j,
    need (decide (x.rankEntries.length + d.sumOthers j (fun y => y.rankEntries.length) ≤ 131072)) { status := stRttFull, nameA := jobName j },
    need (decide (x.nodeEntries.length + d.sumOthers j (fun y => y.nodeEntries.length) ≤ 262144)) { status := stNodeTableFull, nameA := jobName j },
    firstBelow 8 (fun k =>
      need (decide (x.allot k 1 + d.sumOthers j (fun y => y.allot k 1) + 5 * 2 ^ 28 ≤ 2 ^ 37)) (pkgBad stDepthsAllot 0x10A k)),
    loadedIntegrity d x j,
    loadedConflict d x j,
    loadedRates d x j,
    need (decide (entriesOf x + d.sumOthers j entriesOf ≤ 1048576)) (pkgBad stSchedFull 0x10F headerIndex),
    loadedPool d x j,
    need (decide (x.auditedEntries.length + d.sumOthers j (fun y => y.auditedEntries.length) ≤ 64))
      { status := stAuditLimit, nameA := jobName j, nameB := pkgName 0x105 (x.auditedEntries.getLast?.getD 0) }]

/-- Checks 1 and 2 of R499. -/
def loadedFirst (d : Dev) (j : Nat) : Option Finding :=
  firstOf [
    need ((d.job j).state == .empty) { status := stJobBusy, nameA := jobName j },
    need (decide ((d.others j).length < 256)) { status := stJobLimit, nameA := jobName j }]

end Sys2Proof.Machine
end

