-- ==== Sys2Proof/Machine/Frame.lean ====
section
/-! DEFINITION. The frame of an owned chunk in the Depths: its layout, its elements, its statistics and its provenance anchor (R121,
R125, R339 to R342). -/

namespace Sys2Proof.Machine

/-! ### Layout (R121) -/

/-- The S arrays that a chunk's program declares, by number. -/
def Job.declared (x : Job) (c : Nat) : List Nat :=
  [1, 2, 3].filter (fun i => bit (pgMask (x.program (tnProgram (x.tensor (owTensor (x.chunk c)))))) (i - 1))

/-- The bytes of an accumulator element. -/
def Job.accWidth (x : Job) (c : Nat) : Nat := if tnBf16 (x.tensor (owTensor (x.chunk c))) then 2 else 4

/-- Where an array starts in the frame: 0 W, 1 to 3 S1 to S3, 4 Q, 5 ACC. -/
def Job.arrayOff (x : Job) (c a : Nat) : Nat :=
  let n := x.chunkElems c
  let s := x.declared c
  4096 + (if a = 0 then 0
    else if a = 4 then page (4 * n) * (1 + s.length)
    else if a = 5 then page (4 * n) * (1 + s.length) + page (2 * n)
    else page (4 * n) * (1 + (s.filter (fun i => decide (i < a))).length))

/-- The first byte of a chunk's frame in the Depths. -/
def Job.frameAt (x : Job) (c : Nat) : Nat := owStack (x.chunk c) * 2 ^ 37 + x.allot (owStack (x.chunk c)) 0 + 4096 * owFrame (x.chunk c)

/-- The bytes of one element of an array. -/
def Job.width (x : Job) (c a : Nat) : Nat := if a = 4 then 2 else if a = 5 then x.accWidth c else 4

/-- The first byte of element `i` of an array. -/
def Job.elemAt (x : Job) (c a i : Nat) : Nat := x.frameAt c + x.arrayOff c a + x.width c a * i

/-! ### Elements -/

/-- `n` bytes of the Depths as a number. -/
def Mach.word (k : Mach) (a n : Nat) : Nat := leVal (mreadBytes depthsDefault k.depths a n)
/-- Bytes written into the Depths. -/
def Mach.put (k : Mach) (a : Nat) (b : Bytes) : Mach := { k with depths := mwriteBytes depthsDefault k.depths a b }

/-- One element of an array as stored. -/
def Mach.elem (k : Mach) (x : Job) (c a i : Nat) : Nat := k.word (x.elemAt c a i) (x.width c a)
def Mach.putElem (k : Mach) (x : Job) (c a i v : Nat) : Mach := k.put (x.elemAt c a i) (leBytes (x.width c a) v)
/-- An element of W, S1, S2 or S3. -/
def Mach.fp (k : Mach) (x : Job) (c a i : Nat) : W32 := BitVec.ofNat 32 (k.elem x c a i)
/-- An accumulator element, widened (R124, R130). -/
def Mach.acc (k : Mach) (x : Job) (c i : Nat) : W32 :=
  if x.accWidth c = 2 then widen fmtBF16 (k.elem x c 5 i) else BitVec.ofNat 32 (k.elem x c 5 i)
/-- All of an array as stored, in ascending element order. -/
def Mach.arrayBytes (k : Mach) (x : Job) (c a : Nat) : Bytes :=
  mreadBytes depthsDefault k.depths (x.elemAt c a 0) (x.width c a * x.chunkElems c)
/-- W of a chunk. -/
def Mach.weights (k : Mach) (x : Job) (c : Nat) : List W32 := (List.range (x.chunkElems c)).map (k.fp x c 0)
/-- The accumulator of a chunk, widened. -/
def Mach.accs (k : Mach) (x : Job) (c : Nat) : List W32 := (List.range (x.chunkElems c)).map (k.acc x c)

/-! ### Statistics (R79, R125, R146) -/

/-- One level of the tree over a list: neighbours are added, and an element without one passes through (R79). The additions are numbered
from `n` on, and a disturbance may fall on one (R322). -/
def pairUp (o : Ovf) (h : Option (Nat × Hit)) : Nat → List Res → List Res
  | n, a :: b :: r =>
    let z := addR o a.v b.v (hitAt n h)
    { z with ev := a.ev.or (b.ev.or z.ev) } :: pairUp o h (n + 1) r
  | _, l => l

/-- tree_value of R79 over a list of leaves without narrowing: at most `fuel` levels. -/
def treeFold (o : Ovf) (h : Option (Nat × Hit)) : Nat → Nat → List Res → Res
  | 0, _, l => l.headD (val 0#32)
  | k + 1, n, l => if l.length ≤ 1 then l.headD (val 0#32) else treeFold o h k (n + l.length / 2) (pairUp o h n l)

/-- The tree sum of a list: +0 for the empty one. -/
def treeSum (o : Ovf) (l : List W32) : W32 := (treeFold o none 64 0 (l.map val)).v

/-- One row of at most 256 elements, from element `e` on, enters the lanes (R125): operation 1 of each element. -/
def laneRow (o : Ovf) (u : Option Upset) : Nat → List Res → List W32 → List Res
  | e, a :: as, g :: gs =>
    let z := fmaR o g g a.v (onElem u e 1)
    { z with ev := a.ev.or z.ev } :: laneRow o u (e + 1) as gs
  | _, as, _ => as

/-- A list in rows of `n`. -/
def rows {α : Type} (n : Nat) : Nat → List α → List (List α)
  | 0, _ => []
  | f + 1, l => if l.length ≤ n then [l] else l.take n :: rows n f (l.drop n)

/-- The sum of squares of R125, with the first check that failed in it: the lanes' sums, and then the tree over them, whose additions are
the operations from 2 on. -/
def sumSqR (o : Ovf) (l : List W32) (u : Option Upset) : Res :=
  treeFold o (u.map (fun x => (x.op - 2, x.hit)) |>.filter (fun _ => u.any (fun x => decide (2 ≤ x.op)))) 64 0
    (((rows 256 (l.length + 1) l).zipIdx).foldl (fun as r => laneRow o u (256 * r.2) as r.1) (List.replicate 256 (val 0#32)))
def sumSq (o : Ovf) (l : List W32) : W32 := (sumSqR o l none).v

/-- The largest magnitude (R125). -/
def amaxOf (l : List W32) : W32 := l.foldl (fun m w => maxf m (absf w)) 0#32

/-- The gradient flags of R146. -/
def gradFlags (l : List W32) : Nat := b2n (l.any (fun g => !isFinite g)) + 2 * b2n (l.any isInf)
/-- The weight flag of R146. -/
def weightFlag (l : List W32) : Nat := 4 * b2n (l.any (fun w => !isFinite w))

/-- wsq and amax are stored in the frame's header from W as it stands (R121, R125); a sum that failed a check is not stored (R326). The
check that failed is given. -/
def Mach.stampFrame (k : Mach) (x : Job) (c : Nat) (u : Option Upset := none) : Mach × Nat :=
  let w := k.weights x c
  let s := sumSqR x.ovf w u
  let k := if s.ev.check = 0 then k.put (x.frameAt c) (leBytes 4 s.v.toNat) else k
  (k.put (x.frameAt c + 4) (leBytes 4 (amaxOf w).toNat), s.ev.check)

/-! ### Provenance (R339 to R342) -/

/-- wdig of a chunk, of W as it stands. -/
def Mach.wdig (k : Mach) (x : Job) (c : Nat) : Bytes := ld k.dev.keeper.imageDigest (k.arrayBytes x c 0)
/-- gdig of a chunk, of its accumulator as it stands. -/
def Mach.gdig (k : Mach) (x : Job) (c : Nat) : Bytes := ld k.dev.keeper.imageDigest (k.arrayBytes x c 5)

/-- pdig of a tensor (R339). -/
def Job.pdig (x : Job) (t : Nat) : Bytes :=
  let e := x.tensor t
  let p := x.program (tnProgram e)
  sm3 (p ++ (x.lrTable (pgLr p)).flatMap (fun b => leBytes 6 b.1 ++ leBytes 4 b.2.toNat) ++ e)

/-- The anchor of R341. -/
def anchorOf (image wd : Bytes) (step : Nat) : Bytes := sm3 ([0x52#8] ++ image ++ wd ++ leBytes 6 step)

/-- Every owned chunk gets its anchor, from W as it stands (R341). -/
def Mach.anchors (k : Mach) (j step : Nat) : Mach :=
  let x := k.dev.job j
  x.owned.foldl (fun m c =>
    let wd := k.wdig x c
    m.mod (·.modJob j (fun y =>
      { y with wdig := tset y.wdig c wd, prov := tset y.prov c (anchorOf k.dev.keeper.imageDigest wd step) }))) k

end Sys2Proof.Machine
end

