-- ==== Sys2Proof/Machine/Package.lean ====
section
/-! DEFINITION. Package load and re-plan: the pieces, the end, and what an accepted package makes of the device (R15 to R19, R92, R95,
R156, R314, R331, R371, R375, R416 to R424, R499). -/

namespace Sys2Proof.Machine

/-! ### The pieces (R417) -/

/-- Where the package staging area lies in the Depths: the last 256 MiB of stack 7's reservation. -/
def stagingBase : Nat := 8 * 2 ^ 37 - 65536 * 4096

/-- The package header (R418). -/
def pkgHeaderOk (h : Bytes) : Bool :=
  slice h 0 4 == [0x56#8, 0x39#8, 0x36#8, 0x4A#8] && fld h 4 2 == 1 && decide (u8 h 6 < 2) && decide (64 ≤ fld h 8 4) &&
    decide (fld h 8 4 ≤ 268435456) && decide (1 ≤ fld h 12 4) && decide (fld h 12 4 ≤ 64) && zeros h 48 16

/-- The load that a GMP_PKG_BEGIN opens: its header's bytes count as received (log entry 30). -/
def newLoad (session : Nat) (h : Bytes) (now : Nat) : PkgLoad :=
  { session := session, header := h, job := u8 h 7, length := fld h 8 4, got := [(0, 64)], lastTick := now }

/-- GMP_PKG_BEGIN (R417). -/
def pkgBeginRequest : Request :=
  { msg := 0x0020, right := .job, valid := fun b => b.length == 64,
    act := fun m s k =>
      match k.dev.keeper.load with
      | some l => (k, some { status := stPkgBusy, nameA := jobName l.job })
      | none =>
        if !pkgHeaderOk m.body then refuse stPkgMalformed k
        else
          ({ k with dev := (k.dev.modKeeper (fun x => { x with load := some (newLoad s.number m.body k.dev.time) })).countDepths stagingBase 64 true,
                    depths := mwriteBytes depthsDefault k.depths stagingBase m.body }, some {}) }

/-- Whether GMP_PKG_DATA or GMP_PKG_END of a session and job is served: the load, or the refusal (R417). -/
def Dev.loadFor (d : Dev) (session job : Nat) : Except Reply PkgLoad :=
  match d.keeper.load with
  | none => .error { status := if (d.job job).state == .empty then stNoJob else stGmpMalformed }
  | some l =>
    if l.session ≠ session then .error { status := stPkgBusy, nameA := jobName l.job }
    else if l.job ≠ job then .error { status := stGmpMalformed }
    else .ok l

/-- A piece taken into the staging area. -/
def Mach.pkgPiece (k : Mach) (l : PkgLoad) (off : Nat) (data : Bytes) : Mach :=
  { k with dev := (k.dev.modKeeper (fun x =>
             { x with load := some { l with got := l.got ++ [(off, off + data.length)], lastTick := k.dev.time } })).countDepths
               stagingBase data.length true,
           depths := mwriteBytes depthsDefault k.depths (stagingBase + off) data }

/-- GMP_PKG_DATA (R417). -/
def pkgDataRequest : Request :=
  { msg := 0x0021, right := .job, valid := fun b => decide (8 ≤ b.length) && zeros b 1 3,
    act := fun m s k =>
      match k.dev.loadFor s.number (u8 m.body 0) with
      | .error r => (k, some r)
      | .ok l =>
        if l.length < fld m.body 4 4 + (m.body.length - 8) then refuse stGmpMalformed k
        else (k.pkgPiece l (fld m.body 4 4) (m.body.drop 8), some {}) }

/-- Whether the received ranges cover every byte below `n`. -/
def covered (got : List (Nat × Nat)) (n : Nat) : Bool :=
  decide (n ≤ (sortBy (fun a b => decide (a.1 ≤ b.1)) got).foldl (fun r g => if g.1 ≤ r then max r g.2 else r) 0)

/-! ### What an accepted package does -/

/-- The package digest of a re-planned job: the old one and the re-plan's (log entry 30). -/
def replanDigest (old new : Bytes) : Bytes := sm3 (old ++ new)

/-- SM3 of every record body (R371). -/
def tableDigests (recs : List (Nat × Bytes)) : Bytes := recs.flatMap (fun r => sm3 r.2)

/-- A recipe's state at package load (R156, R157). -/
def freshRecipe (e : Bytes) : Recipe := { s := if rpKind e = 1 then rpInit e else 0 }

/-- A job whose next step would be no step halts (R17, R378). -/
def Job.wrap (x : Job) (now : Nat) : Job := if x.nextStep = noStep then x.halt 3 now else x

/-- A job as its package leaves it: LOADED, its channels at their starting numbers (R18, R95, R156, R375). -/
def loadedJob (recs : List (Nat × Bytes)) (digest : Bytes) : Job :=
  let x : Job := { state := .loaded, recs := recs, pkgDigest := digest, tableDigest := tableDigests recs }
  { x with
    nextStep := x.startStep, homePaths := x.paths,
    chSeq := x.channelEntries.foldl (fun t e => tset t (chnNumber e) (chnStart e)) [],
    recipes := (List.range x.recipeEntries.length).map (fun i => (i, freshRecipe (nth x.recipeEntries i))) }

/-- The Basin that the schedule gives a bucket: the unit of its first BASIN entry, 0xFF where it has none. -/
def Job.basinOf (x : Job) (e : Bytes) : Nat :=
  match (scSlots x.sched).find? (fun s => slKind s == 3 && slChannel s == bkChannel e && slBucket s == bkBucket e) with
  | some s => resUnit (slResource s)
  | none => 0xFF

/-- A Basin, or the spare that stands in for it while it is out (R114). -/
def Dev.standing (d : Dev) (b : Nat) : Nat × Bool :=
  if b < 48 && d.unitDown b then
    match d.spareFor b with
    | some s => (s, true)
    | none => (b, false)
  else (b, false)

/-- The number of a bucket's first use: the channel's starting number and the bucket's place on the channel (R95). -/
def Job.firstSeq (x : Job) (e : Bytes) : Nat :=
  let start := ((x.channelEntries.find? (fun c => chnNumber c == bkChannel e)).map chnStart).getD 0
  let place := (x.channelBuckets (bkChannel e)).findIdx (fun b => bkBucket b == bkBucket e)
  (start + place) % 2 ^ 32

/-- A bucket's context, ARMED for its first use (R92). -/
def Dev.armedCtx (d : Dev) (x : Job) (j : Nat) (e : Bytes) : Ctx :=
  let b := d.standing (x.basinOf e)
  { state := .armed, job := j, channel := bkChannel e, bucket := bkBucket e, basin := b.1, spareBasin := b.2, sequence := x.firstSeq e,
    microBatch := if bkBucket e = verdictBucket then 0xFFFF else 0 }

/-- The contexts of a job's buckets leave FREE. -/
def Dev.armAll (d : Dev) (x : Job) (j : Nat) : Dev :=
  x.bucketEntries.foldl (fun d e => (d.modCtx (bkCtx e) (fun _ => d.armedCtx x j e)).siltCtx (bkCtx e) .free) d

/-- Each audited channel takes the lowest free digest engine (R331). -/
def Dev.takeEngines (d : Dev) (x : Job) (j : Nat) : Dev :=
  x.auditedEntries.foldl (fun d i =>
    match (List.range 64).find? (fun e => !thas d.audit.engines e) with
    | some e => { d with audit := { d.audit with engines := tset d.audit.engines e (j, chnNumber (nth x.channelEntries i)) } }
    | none => d) d

/-- A LOAD package is accepted. -/
def Dev.acceptLoad (d : Dev) (j : Nat) (recs : List (Nat × Bytes)) (digest : Bytes) : Dev :=
  let x := (loadedJob recs digest).wrap d.time
  ((d.modJob j (fun _ => x)).armAll x j).takeEngines x j

/-- The job's records with those of the re-plan in place of its own (R424). -/
def Job.replannedRecs (x : Job) (recs : List (Nat × Bytes)) : List (Nat × Bytes) :=
  sortBy (fun a b => decide (a.1 ≤ b.1)) (x.recs.filter (fun r => !replanTypes.contains r.1) ++ recs)

/-- A re-plan is accepted: the tables and the schedule change, the Outflow generation advances (R16, R375, R378). -/
def Dev.acceptReplan (d : Dev) (j : Nat) (recs : List (Nat × Bytes)) (digest : Bytes) : Dev :=
  let d := d.modJob j (fun x =>
    let all := x.replannedRecs recs
    { x with recs := all, pkgDigest := replanDigest x.pkgDigest digest, tableDigest := tableDigests all, replanned := true,
             outGen := (x.outGen + 1) % 2 ^ 16 })
  let x := d.job j
  x.bucketEntries.foldl (fun d e =>
    let b := d.standing (x.basinOf e)
    d.modCtx (bkCtx e) (fun c => { c with basin := b.1, spareBasin := b.2 })) d

/-! ### The end of a load -/

/-- A LOAD package's checks: records, across them, against the loaded jobs (R417, R419, R499). -/
def checkLoad (d : Dev) (j : Nat) (recs : List (Nat × Bytes)) : Option Finding :=
  let x : Job := { recs := recs }
  firstOf [checkLoadSet recs, ownChecks d x j (recs.map (·.1)), crossPackage d x, loadedFirst d j, loadedChecks d x j]

/-- The first NODE_TABLE entry in which a re-plan differs in more than its ports (R424). -/
def replanSite (old new : Job) : Option Finding :=
  let a := old.nodeEntries
  let b := new.nodeEntries
  firstBelow (max a.length b.length) (fun i =>
    let p := nth a i
    let q := nth b i
    need (p.length == q.length && p.take 3 == q.take 3 && p.drop 5 == q.drop 5) (pkgBad stReplanSite 0x107 i))

/-- A REPLAN package's checks, in the order of R424. -/
def checkReplan (d : Dev) (j : Nat) (recs : List (Nat × Bytes)) : Option Finding :=
  let old := d.job j
  let x : Job := { old with recs := old.replannedRecs recs }
  firstOf [
    checkReplanSet recs,
    need (old.state == .halted) { status := stReplanState, nameA := jobName j },
    ownChecks d x j replanTypes, crossReplan d x, replanSite old x, loadedChecks d x j]

/-- The refusal that a package meets, or its records (R417). -/
def Mach.checkPackage (k : Mach) (l : PkgLoad) (digest : Bytes) : Except Finding (List (Nat × Bytes)) :=
  let bytes := mreadBytes depthsDefault k.depths stagingBase l.length
  if !covered l.got l.length || sm3 bytes != digest then .error { status := stPkgDigest }
  else if slice l.header 16 32 ≠ k.dev.keeper.imageDigest then .error { status := stPkgImage }
  else match parseRecords 64 (bytes.drop 64) with
    | none => .error { status := stPkgMalformed }
    | some recs =>
      if recs.length ≠ fld l.header 12 4 then .error { status := stPkgMalformed }
      else
        match (if u8 l.header 6 = 0 then checkLoad k.dev l.job recs else checkReplan k.dev l.job recs) with
        | some f => .error f
        | none => .ok recs

/-- The load ends with its outcome. -/
def Mach.endLoad (k : Mach) (l : PkgLoad) (digest : Bytes) : Mach × Reply :=
  let closed := k.mod (fun d => (d.modKeeper (fun x => { x with load := none })).countDepths stagingBase l.length false)
  match k.checkPackage l digest with
  | .error f => (closed, { status := f.status, nameA := f.nameA, nameB := f.nameB })
  | .ok recs =>
    if u8 l.header 6 = 0 then ((closed.mod (·.acceptLoad l.job recs digest)).anchors l.job noStep, {})
    else (closed.mod (·.acceptReplan l.job recs digest), {})

/-- GMP_PKG_END (R417). -/
def pkgEndRequest : Request :=
  { msg := 0x0022, right := .job, valid := fun b => b.length == 36 && zeros b 1 3,
    act := fun m s k =>
      match k.dev.loadFor s.number (u8 m.body 0) with
      | .error r => (k, some r)
      | .ok l => let r := k.endLoad l (m.body.drop 4); (r.1, some r.2) }

/-- An open load ends after 10 s without a piece (R417). -/
def Dev.loadTimeout (d : Dev) : Dev :=
  match d.keeper.load with
  | some l => if l.lastTick + 10 * secTicks ≤ d.time then d.modKeeper (fun k => { k with load := none }) else d
  | none => d

def execGmpPkgBegin (m : GmpMsg) (s : State) : Host.Outcome State Fault Refusal := .next (gmpCommand pkgBeginRequest m s)
def execGmpPkgData (m : GmpMsg) (s : State) : Host.Outcome State Fault Refusal := .next (gmpCommand pkgDataRequest m s)
def execGmpPkgEnd (m : GmpMsg) (s : State) : Host.Outcome State Fault Refusal := .next (gmpCommand pkgEndRequest m s)
def execPkgLoadIdleTimeout (now : Nat) (s : State) : Host.Outcome State Fault Refusal := .next (s.event now Dev.loadTimeout)

end Sys2Proof.Machine
end

