-- ==== Sys2Proof/Machine/Job.lean ====
section
/-! DEFINITION. A job's launches, sections and halts: GMP_UNLOAD, GMP_LAUNCH, GMP_LAUNCH_CANCEL, GMP_ABANDON, GMP_JOB_HALT, the context
messages, and the sequencers' events (R20, R41, R92, R109, R162, R204 to R206, R216 to R219, R370, R371, R376 to R382, R501). -/

namespace Sys2Proof.Machine

/-! ### Unload (R20, R162) -/

/-- A GMP event about a checkpoint, to the sessions that take events; R359 gives it no source (log entry 31). -/
def Dev.ckptEvent (d : Dev) (j status step : Nat) (digest : Bytes) : Dev :=
  let body := leBytes 1 j ++ leBytes 1 0 ++ leBytes 2 status ++ leBytes 6 step ++ leBytes 22 0 ++ digest
  (d.eventSessions 0).foldl (fun d s => match d.session s.number with | some s => d.gmpNotify s 0x0080 body | none => d) d

/-- Packets of a queue pair that have not left are not sent (R162). -/
def Dev.dropRdma (d : Dev) (qp : Nat) : Dev :=
  ({ d with
    ports := d.ports.map (fun e => (e.1, { e.2 with waiting := e.2.waiting.filter (fun w => w.rdma.map RdmaOut.qp != some qp) })),
    own := d.own.filter (fun f => (f.rdma.bind Waiting.rdma).map RdmaOut.qp != some qp) } : Dev).moveOwn

/-- An open checkpoint ends early; with ST_CKPT_ABORTED its queue pair is in the error state (R161, R162). -/
def Dev.endCkpt (d : Dev) (j status : Nat) : Dev :=
  match d.keeper.ckpts.find? (fun e => e.1 == j) with
  | none => d
  | some (_, c) =>
    ((d.dropRdma c.qp).modKeeper (fun k =>
      { k with ckpts := tdel k.ckpts j,
               qps := if status = stCkptAborted then k.qps.map (fun q => if q.1 = c.qp then (q.1, { q.2 with error := true }) else q)
                      else k.qps })).ckptEvent j status c.step (List.replicate 32 0#8)

/-- A context has an open use of a launched step (R20). -/
def Ctx.openUse (x : Ctx) : Bool := x.abortable && x.launched

/-- A job is unloaded: open uses are aborted, its contexts are FREE, and everything it holds is released (R20). -/
def Dev.unloadJob (d : Dev) (j : Nat) : Dev :=
  let cs := d.ctxsOf j
  let d := cs.foldl (fun d c => if (d.ctx c).openUse then d.abortUse c stJobUnloaded (d.ownNode c) none else d) d
  let d := cs.foldl (fun d c => let was := (d.ctx c).state; (d.modCtx c (fun x => { x with state := .free })).siltCtx c was) d
  let d := d.poolFree (fun h => cs.contains h.holder || (decide (8192 ≤ h.holder) && h.job == j && h.reserved))
  let d := d.endCkpt j stCkptAborted
  { d with
    ctxs := d.ctxs.filter (fun e => !cs.contains e.1),
    jobs := tdel d.jobs j,
    audit := { d.audit with engines := d.audit.engines.filter (fun e => e.2.1 != j), outflow := d.audit.outflow.filter (fun u => u.job != j) } }

/-- GMP_UNLOAD. -/
def unloadRequest : Request :=
  { msg := 0x0023, right := .job, namesJob := true, valid := fun b => b.length == 4 && zeros b 1 3,
    act := onDev (fun m s d =>
      let j := u8 m.body 0
      if d.keeper.load.any (fun l => l.job == j && l.session != s.number) then (d, { status := stJobUnloadedBusy })
      else (d.unloadJob j, {})) }

def execGmpUnload (m : GmpMsg) (s : State) : Host.Outcome State Fault Refusal := .next (gmpCommand unloadRequest m s)

/-! ### Launches (R205, R206, R382, R501) -/

/-- Whether the reference STEP_HEAD of a step is loaded (R352). -/
def Job.hasRef (x : Job) (step : Nat) : Bool := x.refs.any (fun r => u8 r 0 == 1 && fld r 16 6 == step)

/-- The ticks from L to the end of the step span (R501). -/
def Job.spanTicks (x : Job) (completion : Bool) : Nat :=
  if completion then scSpan x.sched - x.accum * scPeriod x.sched else scSpan x.sched

/-- Check 2 of R205. -/
def Job.launchStepOk (x : Job) (step : Nat) (completion : Bool) : Bool :=
  if completion then x.state == .halted && x.replanned && x.rcStep != noStep && step == x.rcStep && (!x.isRoot || x.rootCommitted)
  else x.rcStep == noStep && step == x.nextStep && step != noStep

/-- The status that GMP_LAUNCH gets (R205). For an EMPTY job R19 names ST_JOB_INCOMPLETE and R413 ST_NO_JOB: the request answers ST_NO_JOB
before this is asked (DESIGN CHOICE, log entry 19). -/
def Dev.launchStatus (d : Dev) (j step l : Nat) (completion : Bool) : Nat :=
  let x := d.job j
  if !(x.state == .loaded || x.state == .running || (x.state == .halted && x.replanned)) then stJobIncomplete
  else if x.restoreBad then stRestoreIncomplete
  else if thas d.keeper.ckpts j then stCkptActive
  else if !x.launchStepOk step completion then stLaunchStep
  else if x.replayCompare && x.diverged then stReplayDiverged
  else if x.replayCompare && !x.hasRef step then stReplayNoref
  else if x.launch.isSome then stLaunchPending
  else if d.clock.state != .locked then stTimeInvalid
  else if l % 9750 ≠ 0 then stLaunchAlign
  else if l < d.gtc + 250000 then stLaunchLate
  else if d.gtc + 2500000000 < l then stLaunchFar
  else if l < x.nextLaunch then stLaunchEarly
  else stOk

/-- GMP_LAUNCH (R205, R414). -/
def launchRequest : Request :=
  { msg := 0x0030, right := .job, namesJob := true, valid := fun b => b.length == 24 && decide (u8 b 1 < 2) && zeros b 16 8,
    act := onDev (fun m _ d =>
      let j := u8 m.body 0
      let step := fld m.body 2 6
      let l := fld m.body 8 8
      let completion := bit (u8 m.body 1) 0
      let st := d.launchStatus j step l completion
      if st = stOk then (d.modJob j (fun x => { x with launch := some { tick := l, step := step, completion := completion } }), {})
      else (d, { status := st })) }

def execGmpLaunch (m : GmpMsg) (s : State) : Host.Outcome State Fault Refusal := .next (gmpCommand launchRequest m s)

/-- The status of GMP_LAUNCH_CANCEL (R501). -/
def Job.cancelStatus (x : Job) (step : Nat) : Nat :=
  match x.launch with
  | some l =>
    if l.step = step then (if l.stage = .pending then stOk else stLaunchArmed)
    else if x.rcStep = step ∧ step ≠ noStep then stLaunchArmed else stLaunchStep
  | none => if x.rcStep = step ∧ step ≠ noStep then stLaunchArmed else stLaunchStep

/-- GMP_LAUNCH_CANCEL (R501). -/
def launchCancelRequest : Request :=
  { msg := 0x0031, right := .job, namesJob := true, valid := fun b => b.length == 8 && u8 b 1 == 0,
    act := onDev (fun m _ d =>
      let j := u8 m.body 0
      let st := (d.job j).cancelStatus (fld m.body 2 6)
      (if st = stOk then d.modJob j (fun x => { x with launch := none }) else d, { status := st })) }

def execGmpLaunchCancel (m : GmpMsg) (s : State) : Host.Outcome State Fault Refusal := .next (gmpCommand launchCancelRequest m s)

/-- At L − 9,750 a pending launch is armed, or withheld when time is not launch-grade (R206), or while the device serves only GMP
(R362). -/
def Dev.armLaunch (j : Nat) (d : Dev) : Dev :=
  match (d.job j).launch with
  | none => d
  | some l =>
    if l.stage == .armed || d.tick + 9750 < l.tick then d
    else if d.launchGrade && !d.faults.held then d.modJob j (fun x => { x with launch := some { l with stage := .armed } })
    else d.withhold j

def execLaunchArm (job now : Nat) (s : State) : Host.Outcome State Fault Refusal := .next (s.event now (Dev.armLaunch job))

/-- The spare Basins that no context needs any longer: the Basin each stands for has passed its test (R370). -/
def Dev.spareDone (d : Dev) (s : Nat) : Bool :=
  let u := d.unit s
  u.state == .standingIn && (d.unit u.standsFor).returning && (d.ctxsWhere (fun x => x.basin == s)).isEmpty

/-- Basins that have passed their test take the job's slots back (R114). -/
def Dev.takeSlots (d : Dev) (j : Nat) : Dev :=
  (d.ctxsOf j).foldl (fun d c =>
    let x := d.ctx c
    let home := d.home x.basin
    if x.spareBasin && (d.unit home).returning then d.modCtx c (fun x => { x with basin := home, spareBasin := false }) else d) d

/-- A spare without contexts is free again, and every step under way is marked (R114, R219, R370). -/
def Dev.freeSpares (d : Dev) : Dev :=
  [48, 49].foldl (fun d s =>
    if d.spareDone s then
      ((d.modUnit (d.unit s).standsFor (fun v => { v with returning := false })).modUnit s
        (fun v => { v with state := .standby, standsFor := 0x7F })).markSteps 4
    else d) d

/-- How long after a launch tick the job's previous step ends on a die, its lag included; nothing where no step runs (R218). -/
def Job.lateBy (x : Job) (l lag : Nat) : Nat := if x.state == .running then x.launchTick + x.spanTicks x.completing + lag - l else 0

/-- The job as its step begins (R25, R206, R216, R218, R378, R380): what the step's start records. -/
def Job.begin (x : Job) (l : Launch) (late : Nat × Nat) (now : Nat) (ctxSeqs : Table (Nat × Nat)) : Job :=
  let y := if l.completion then x else { x.discardStep with rcPhase := 1, chSeqAtLaunch := x.chSeq, ctxSeqAtLaunch := ctxSeqs }
  { y with
    state := .running, haltCause := 0, replanned := false, stopped := false, launch := none, rcStep := l.step, launchTick := l.tick,
    beginTime := now, acted := [], returned := [], moved := [],
    lag0 := late.1, lag1 := late.2, causes := if l.completion then x.causes else 0,
    slackMin := if l.completion then x.slackMin else 0xFFFFFF, spareUsed := l.completion && x.spareUsed,
    runSection := some (if l.completion then .tail else .microBatch 0), nextLaunch := l.tick + x.spanTicks l.completion,
    outFormed := [], completing := l.completion }

/-- Whether a reset of some domain is under way (R367, R368). -/
def Dev.resetting (d : Dev) : Bool :=
  d.units.any (fun u => u.2.state == .resetting) || d.ctxs.any (fun c => c.2.state == .resetting) ||
    (List.range 96).any (fun p => d.fabric p && (d.port p).state == .txTune && decide (2 ≤ (d.port p).retrains))

/-- The causes of R219 that hold at the launch cycle: a late launch, holdover, a stretched or stopped die, a reset under way, a spare lane
that stands in for a lane of a port of the job (R243: every step that it overlaps), and a spare path that begins or ends with this
launch. -/
def Dev.markLaunch (d : Dev) (j late : Nat) : Dev :=
  let d := if late = 0 then d else d.markJob j 5
  let d := if d.resetting then d.markJob j 3 else d
  let d := if d.clock.state == .locked then d else d.markJob j 6
  let d := if (d.die 0).stretching.isSome || (d.die 1).stretching.isSome then d.markJob j 1 else d
  let d := if (d.job j).namedPorts.any d.laneSpare || (d.job j).sparePath != (d.job j).offHome then d.markJob j 4 else d
  if (d.die 0).stopped.isSome || (d.die 1).stopped.isSome then d.markJob j 2 else d

/-- The launch pulse on the pins that the image routes it to (R206, R400). -/
def Dev.launchPulse (d : Dev) (j : Nat) : Dev :=
  ((d.evtPinsOf 1).filter (fun e => !bit (u8 e 2) 1 || u8 e 3 == j)).foldl (fun d e => d.pulse (u8 e 0)) d

/-- Whether a spare carries part of the job here (R31). -/
def Dev.onSpare (d : Dev) (j : Nat) : Bool :=
  (d.ctxsOf j).any (fun c => (d.ctx c).spareBasin) || (d.job j).namedPorts.any d.laneSpare || (d.job j).sparePath

/-- Whether the job's sequencer goes on: RUNNING and not stopped. -/
def Job.live (x : Job) : Bool := x.state == .running && !x.stopped

/-- The sequencer reads the schedule memory and the job's tables for a section, with what error correction said of them (R359). -/
def Dev.readTables (d : Dev) (j : Nat) (tables : EccResult) : Dev :=
  let r : FaultRec := { source := 0x0A01, job := some j, step := (d.job j).rcStep }
  match tables with
  | .clean => d
  | .corrected => d.recordFault r
  | .uncorrectable => d.raiseFault { r with source := 0x0A04 }

/-- A section of a job that still goes on once its tables have been read. -/
def Dev.enterSection (d : Dev) (j : Nat) (tables : EccResult) (s : Section) : Dev :=
  let d := d.readTables j tables
  if (d.job j).live then d.modJob j (fun x => { x with runSection := some s }) else d

/-- The micro-batch m section starts at L + mP (R206). -/
def Dev.startMicro (j m : Nat) (tables : EccResult) (d : Dev) : Dev :=
  let x := d.job j
  let t := x.launchTick + m * scPeriod x.sched
  if x.live = true ∧ 1 ≤ m ∧ m < x.accum ∧ x.runSection = some (.microBatch (m - 1)) ∧ t ≤ d.tick then
    d.enterSection j tables (.microBatch m)
  else d

def execMicrobatchSectionStart (job m now : Nat) (s : State) (tables : EccResult := .clean) : Host.Outcome State Fault Refusal :=
  .next (s.event now (Dev.startMicro job m tables))

/-- The tail section starts at L + AP (R206). -/
def Dev.startTail (j : Nat) (tables : EccResult) (d : Dev) : Dev :=
  let x := d.job j
  let t := x.launchTick + x.accum * scPeriod x.sched
  if x.live = true ∧ x.runSection = some (.microBatch (x.accum - 1)) ∧ t ≤ d.tick then
    d.enterSection j tables .tail
  else d

def execTailSectionStart (job now : Nat) (s : State) (tables : EccResult := .clean) : Host.Outcome State Fault Refusal :=
  .next (s.event now (Dev.startTail job tables))

/-- The tick at which the tail section starts: L + AP, or L in a completion launch (R206, R501). -/
def Job.tailStart (x : Job) : Nat := x.launchTick + (if x.completing then 0 else x.accum * scPeriod x.sched)

/-- The greater lag of a job's dies now. -/
def Dev.lagMax (d : Dev) (x : Job) : Nat := max (d.lagOn x 0) (d.lagOn x 1)

/-- The tick at which the last tail slot ends, and the end of the step span, with a lag (R206, R378, R501). -/
def Job.tailEnd (x : Job) (lag : Nat) : Nat := x.tailStart + ((scTailSlots x.sched).map (fun e => slStart e + slLength e)).foldl max 0 + lag
def Job.spanEnd (x : Job) (lag : Nat) : Nat := x.launchTick + x.spanTicks x.completing + lag

/-- Whether the phases before OUTFLOW_DONE are behind the device: it owns nothing of the Verdict, or holds the vector, and an
owner has ended its Update (R378). -/
def Job.outflowReady (x : Job) : Bool :=
  if x.ownerIndex.isSome then x.rcPhase == 4 || x.rcPhase == 5 else if x.onList then decide (3 ≤ x.rcPhase) else true

/-- The last tail slot has ended, lag included: OUTFLOW_DONE (R378). -/
def Job.outflowEnds (x : Job) (lag tick : Nat) : Job :=
  if x.rcStep ≠ noStep ∧ x.tailEnd lag ≤ tick ∧ x.outflowReady then { x with rcPhase := 5 } else x

/-- The step span has ended, lag included: the section is over once the step is at OUTFLOW_DONE, or has ended (R206, R501). -/
def Job.spanEnds (x : Job) (lag tick : Nat) : Job :=
  if x.spanEnd lag ≤ tick ∧ (x.rcPhase = 5 ∨ x.rcStep = noStep) then { x with runSection := none } else x

/-- STEP_SPAN_END: the end of the last tail slot, and the end of the span. -/
def Dev.endSpan (j : Nat) (d : Dev) : Dev :=
  let x := d.job j
  if x.live = true ∧ x.runSection = some .tail then d.modJob j (fun x => (x.outflowEnds (d.lagMax x) d.tick).spanEnds (d.lagMax x) d.tick) else d

def execStepSpanEnd (job now : Nat) (s : State) : Host.Outcome State Fault Refusal := .next (s.event now (Dev.endSpan job))

/-! ### Abandonment and halts (R41, R379, R380) -/

/-- GMP_ABANDON (R380). -/
def abandonRequest : Request :=
  { msg := 0x0033, right := .job, namesJob := true, valid := fun b => b.length == 8 && u8 b 1 == 0,
    act := onDev (fun m _ d =>
      let j := u8 m.body 0
      let x := d.job j
      if x.rcStep = noStep ∨ fld m.body 2 6 ≠ x.rcStep then (d, { status := stLaunchStep })
      else if 3 ≤ x.rcPhase ∨ x.rootCommitted then (d, { status := stAbandonLate })
      else (d.abandonStep j, {})) }

def execGmpAbandon (m : GmpMsg) (s : State) : Host.Outcome State Fault Refusal := .next (gmpCommand abandonRequest m s)

/-- The uncommitted step ends INTERRUPTED (R31, R41): its number does not advance. -/
def Dev.interrupt (d : Dev) (j : Nat) : Dev :=
  let x := d.job j
  if x.rcStep = noStep then d
  else
    let d := ((d.modJob j Job.dropCompare).writeStatus j x.rcStep 4 x.shr).endRecords j x.rcStep []
    let d := d.modJob j (fun x =>
      { x.discardStep with rcStep := noStep, rcPhase := 0, rootCommitted := false, verdictRaised := false, runSection := none, stopped := true })
    let d := d.dropOutflow j
    let d := (d.ctxsOf j).foldl (fun d c => d.modCtx c (fun x => { x with launched := false })) d
    { d with audit := { d.audit with outflow := d.audit.outflow.filter (fun u => u.job != j) } }

/-- The job halts; with owner_lost the cause is 5, and with verdict_done its step is interrupted (R41, R379). -/
def Dev.haltJob (d : Dev) (j : Nat) (ownerLost verdictDone : Bool) : Dev :=
  let d := d.modJob j (fun x => x.gmpHalt d.time)
  let d := if ownerLost then d.modJob j (fun x => { x with haltCause := 5, launch := none }) else d
  if ownerLost && verdictDone then d.interrupt j else d

/-- GMP_JOB_HALT (R379): the reply follows once the sequencer has stopped. -/
def jobHaltRequest : Request :=
  { msg := 0x0034, right := .job, namesJob := true,
    valid := fun b => b.length == 4 && decide (u8 b 1 < 4) && u8 b 1 != 2 && zeros b 2 2,
    act := fun m s k =>
      (k.mod (fun d => (d.haltJob (u8 m.body 0) (bit (u8 m.body 1) 0) (bit (u8 m.body 1) 1)).waitHalt (u8 m.body 0) s.number m.tag), none) }

def execGmpJobHalt (m : GmpMsg) (s : State) : Host.Outcome State Fault Refusal := .next (gmpCommand jobHaltRequest m s)

/-! ### Contexts by GMP (R92, R109) -/

/-- Whether a job holds a context. -/
def Dev.holds (d : Dev) (j c : Nat) : Bool := (d.ctx c).state != .free && (d.ctx c).job == j

/-- GMP_CTX_RESET (R92). -/
def ctxResetRequest : Request :=
  { msg := 0x0035, right := .job, namesJob := true, valid := fun b => b.length == 4 && u8 b 1 == 0,
    act := onDev (fun m _ d =>
      let c := fld m.body 2 2
      if d.holds (u8 m.body 0) c then (((if (d.ctx c).abortable then d.abortCtx c stCtxReset (d.ownNode c) none else d)).resetCtx c, {}) else (d, { status := stGmpMalformed })) }

def execGmpCtxReset (m : GmpMsg) (s : State) : Host.Outcome State Fault Refusal := .next (gmpCommand ctxResetRequest m s)

/-- GMP_CTX_ABORT (R109): the use is aborted with ST_MEMBER_RESET. -/
def ctxAbortRequest : Request :=
  { msg := 0x0036, right := .job, namesJob := true,
    valid := fun b => b.length == 8 && u8 b 1 == 0 && fld b 4 2 == stMemberReset && zeros b 6 2,
    act := onDev (fun m _ d =>
      let c := fld m.body 2 2
      if d.holds (u8 m.body 0) c then (d.abortAll [c] stMemberReset, {}) else (d, { status := stGmpMalformed })) }

def execGmpCtxAbort (m : GmpMsg) (s : State) : Host.Outcome State Fault Refusal := .next (gmpCommand ctxAbortRequest m s)

/-! ### The restarted Keeper (R371) -/

/-- The Keeper is back after a warm reset: a job whose tables fail their check raises TABLE_UNCORR and is unloaded. -/
def Dev.keeperBack (corrupt : List Nat) (d : Dev) : Dev :=
  if d.power.warm.isNone || d.keeper.up then d
  else
    let d := d.modKeeper (fun k => { k with up := true })
    let d := (d.loaded.filter corrupt.contains).foldl (fun d j => (d.raiseFault { source := 0x0A04, job := some j }).unloadJob j) d
    d.warmOver

def execKeeperRestarted (corrupt : List Nat) (now : Nat) (s : State) : Host.Outcome State Fault Refusal :=
  .next (s.event now (Dev.keeperBack corrupt))

end Sys2Proof.Machine
end

