-- ==== Sys2Proof/Machine/Rng.lean ====
section
/-! DEFINITION. The counter-based random generator (R67 to R71). -/

namespace Sys2Proof.Machine

/-- 32-bit rotate left (R69). -/
def rotl32 (v : W32) (n : Nat) : W32 := v.rotateLeft n

/-- Four 32-bit words: a counter block or a key. -/
structure Quad where
  w0 : W32
  w1 : W32
  w2 : W32
  w3 : W32
  deriving DecidableEq, Repr

/-- The round constants times the round number, added to the key (R69). -/
def roundKey (k : Quad) (i : Nat) : Quad :=
  let n : W32 := BitVec.ofNat 32 i
  ⟨k.w0 + n * 0x6A1D3F55#32, k.w1 + n * 0xC2B58E27#32, k.w2 + n * 0x3B7E15A3#32, k.w3 + n * 0x91F46CD9#32⟩

def Quad.xor (a b : Quad) : Quad := ⟨a.w0 ^^^ b.w0, a.w1 ^^^ b.w1, a.w2 ^^^ b.w2, a.w3 ^^^ b.w3⟩

/-- One half of a round: the two add, exclusive-or and rotate pairs with their rotation counts. -/
def halfRound (x : Quad) (r3 r1 : Nat) : Quad :=
  let a := x.w0 + x.w1
  let d := rotl32 (x.w3 ^^^ a) r3
  let c := x.w2 + d
  let b := rotl32 (x.w1 ^^^ c) r1
  ⟨a, b, c, d⟩

/-- One round of R69. -/
def rngRound (k : Quad) (x : Quad) (i : Nat) : Quad := (halfRound (halfRound x 13 7) 17 11).xor (roundKey k i)

/-- The permutation of R69: key first, then rounds 1 to 10. -/
def permute (x k : Quad) : Quad := ([1, 2, 3, 4, 5, 6, 7, 8, 9, 10]).foldl (rngRound k) (x.xor k)

/-- The use codes of R70. -/
inductive RngUse where
  | narrowing
  | accumulator
  | update
  | outflow
  deriving DecidableEq, Repr

def RngUse.code : RngUse → Nat
  | .narrowing => 0
  | .accumulator => 1
  | .update => 2
  | .outflow => 3

/-- What names one draw: the counter's fields (R67) and the key's (R68). -/
structure Draw where
  seed : W64
  step : Nat
  microBatch : Nat
  tensor : Nat
  element : Nat
  use : RngUse
  node : Nat := 0xFFFFFFFF
  deriving DecidableEq, Repr

/-- The 128-bit counter of R67. -/
def Draw.counter (d : Draw) : Nat :=
  (d.element / 8) % 2 ^ 40 + d.tensor % 2 ^ 20 * 2 ^ 40 + d.microBatch % 2 ^ 16 * 2 ^ 60 +
    d.step % 2 ^ 48 * 2 ^ 76 + d.use.code * 2 ^ 124

/-- A 128-bit number as four words, least significant first (R67). -/
def quadOf (c : Nat) : Quad :=
  ⟨BitVec.ofNat 32 c, BitVec.ofNat 32 (c / 2 ^ 32), BitVec.ofNat 32 (c / 2 ^ 64), BitVec.ofNat 32 (c / 2 ^ 96)⟩

/-- The key of R68. -/
def Draw.key (d : Draw) : Quad :=
  ⟨d.seed.setWidth 32, (d.seed >>> 32).setWidth 32,
    BitVec.ofNat 32 (match d.use with | .narrowing => d.node | _ => 0xFFFFFFFF), 0x7A3C19E5#32⟩

/-- The output block Y (R69). -/
def Draw.block (d : Draw) : Nat :=
  let y := permute (quadOf d.counter) d.key
  y.w0.toNat + y.w1.toNat * 2 ^ 32 + y.w2.toNat * 2 ^ 64 + y.w3.toNat * 2 ^ 96

/-- The 16-bit random word of the draw's element (R69). -/
def Draw.word (d : Draw) : Nat := d.block / 2 ^ (16 * (d.element % 8)) % 2 ^ 16

end Sys2Proof.Machine
end

