-- ==== Sys2Proof/Machine/Reduce.lean ====
section
/-! DEFINITION. The arithmetic of a reduction tree: payloads, node values, narrowing with its remainders, and the counts of the monitor
points INPUT and NARROW (R79, R80, R85 to R90, R104, R105, R145, R167 to R173, R186 to R188). -/

namespace Sys2Proof.Machine

/-! ### Fragments of a bucket (R100, R105) -/

/-- The offsets of a bucket's fragments, and the elements of the one at `off`. -/
def fragOffs (b : Bytes) : List Nat := (List.range (ceilDiv (bkCount b) (bkFrag b))).map (· * bkFrag b)
def fragLen (b : Bytes) (off : Nat) : Nat := min (bkFrag b) (bkCount b - off)

/-- The values of a payload of `n` elements (R44, R49, R105). -/
def decodeWire (o : Ovf) (wire n : Nat) (p : Bytes) : List W32 :=
  (List.range n).map (fun i =>
    match wire with
    | 0 => BitVec.ofNat 32 (fld p (4 * i) 4)
    | 1 => widen fmtBF16 (fld p (2 * i) 2)
    | 2 => widen fmtFP16 (fld p (2 * i) 2)
    | _ => (b32Decode o (u8 p (33 * (i / 32))) (u8 p (33 * (i / 32) + 1 + i % 32))).v)

/-- The bytes that `n` elements from element `e` on take in a payload. -/
def wireSlice (wire : Nat) (p : Bytes) (e n : Nat) : Bytes :=
  match wire with
  | 0 => slice p (4 * e) (4 * n)
  | 1 => slice p (2 * e) (2 * n)
  | 2 => slice p (2 * e) (2 * n)
  | _ => slice p (33 * (e / 32)) (33 * ceilDiv n 32)

/-- desc_hash of a use (R104). -/
def descHashOf (op elem count tree seq : Nat) : Nat :=
  fld (sm3 (leBytes 1 op ++ leBytes 1 elem ++ leBytes 2 0 ++ leBytes 4 count ++ leBytes 4 tree ++ leBytes 4 seq)) 0 4

/-! ### A node's addition (R79, R85) -/

/-- Whether a bucket's node narrows (R85). -/
def Job.narrows (x : Job) (b : Bytes) (w : Nat) : Bool := bkBucket b != verdictBucket && x.isNarrow w

/-- The addition at a node, on element `i` of the bucket (R79, R145, R186); `h` is a disturbance of it (R322). -/
def Job.nodeAdd (x : Job) (b : Bytes) (i : Nat) (l r : W32) (h : Option Hit := none) : LRes :=
  let add : LRes := let z := addR x.ovf l r h; { v := z.v, ev := z.ev }
  if bkBucket b = verdictBucket then (if i < x.tensorEntries.length then { v := l ||| r } else add)
  else if x.lysros then lysrosAdd l r h
  else add

/-- The values of a node's sums, how many were flushed, and the first residue check that failed. -/
structure Sums where
  vals : List W32
  flushed : Nat := 0
  check : Nat := 0
  deriving DecidableEq, Repr

/-- Two lists added element by element from element `i` on: operation `n` of each element. -/
def Job.addLists (x : Job) (b : Bytes) (u : Option Upset) (n : Nat) : Nat → List W32 → List W32 → Sums
  | i, l :: ls, r :: rs =>
    let z := x.nodeAdd b i l r (onElem u i n)
    let t := x.addLists b u n (i + 1) ls rs
    { vals := z.v :: t.vals, flushed := z.flushed + t.flushed, check := firstCheck z.ev.check t.check }
  | _, _, _ => { vals := [] }

/-- The children of a node added in order, as operations 0 and on: a lone child passes through. -/
def Job.addKids (x : Job) (b : Bytes) (off : Nat) (u : Option Upset) : List (List W32) → Sums
  | [] => { vals := [] }
  | v :: r => r.zipIdx.foldl (fun a w =>
      let z := x.addLists b u w.2 off a.vals w.1
      { vals := z.vals, flushed := a.flushed + z.flushed, check := firstCheck a.check z.check }) { vals := v }

/-! ### Narrowing (R64 to R66, R86, R87, R187) -/

/-- A list of values in a narrower format: their encodings and values, and their events. -/
structure NarrowList where
  enc : Bytes
  vals : List W32
  evs : List Ev
  nanBlocks : Nat := 0
  deriving DecidableEq, Repr

/-- Conversion to BF16 or FP16 element by element. -/
def narrowScalars (o : Ovf) (f : Fmt) (rd : Nat → Rnd) (l : List W32) : NarrowList :=
  let r := l.zipIdx.map (fun e => narrow o f (rd e.2) e.1)
  { enc := r.flatMap (fun z => leBytes 2 z.v), vals := r.map (fun z => widen f z.v), evs := r.map NRes.ev }

/-- One B32 block of at most 32 elements, filled with +0 (R46 to R49); `i` is its first element. -/
def narrowBlock (o : Ovf) (rd : Nat → Rnd) (i : Nat) (l : List W32) : NarrowList :=
  let full := (l ++ List.replicate 32 0#32).take 32
  let s := b32Scale full
  let r := full.zipIdx.map (fun e => b32Elem o s (rd (i + e.2)) e.1)
  let y := r.map (fun z => b32Decode o s z.v)
  { enc := leBytes 1 s ++ r.flatMap (fun z => leBytes 1 z.v), vals := (y.map Res.v).take l.length,
    evs := ((r.zip y).map (fun z => z.1.ev.or z.2.ev)).take l.length, nanBlocks := b2n (decide (s = 0xFF)) }

/-- A list of values in B32 blocks. -/
def narrowBlocks (o : Ovf) (rd : Nat → Rnd) (l : List W32) : NarrowList :=
  let bs := (rows 32 (l.length + 1) l).zipIdx.map (fun e => narrowBlock o rd (32 * e.2) e.1)
  { enc := bs.flatMap NarrowList.enc, vals := bs.flatMap NarrowList.vals, evs := bs.flatMap NarrowList.evs,
    nanBlocks := (bs.map NarrowList.nanBlocks).sum }

/-- Narrowing to the job's narrowed format: 1 BF16, 2 FP16, 3 B32. -/
def narrowTo (o : Ovf) (fmt : Nat) (rd : Nat → Rnd) (l : List W32) : NarrowList :=
  match fmt with
  | 1 => narrowScalars o fmtBF16 rd l
  | 2 => narrowScalars o fmtFP16 rd l
  | _ => narrowBlocks o rd l

/-- What a node yields over one fragment: its values, their wire encoding, the remainders it writes, and the counts of R173 by the
offset of their field. -/
structure NodeOut where
  vals : List W32
  enc : Bytes
  rem : Option (List W32) := none
  counts : Table Nat := []
  /-- The first residue check that failed, 0 where none did (R326). -/
  check : Nat := 0
  deriving DecidableEq, Repr

/-- The remainder of one element (R86). -/
def remainderOf (o : Ovf) (w y : W32) (h : Option Hit := none) : Res := if isFinite w && isFinite y then subR o w y h else { v := 0#32 }

/-- narrow_node of R86: `e` are the remainders read. Element `i`'s addition is operation `n` of element `off` + `i`, and the remainder's
subtraction the one after; the conversion between them has no checker (R325). -/
def narrowNode (o : Ovf) (fmt : Nat) (rd : Nat → Rnd) (v e : List W32) (u : Option Upset := none) (n off : Nat := 0) : NodeOut :=
  let w := (v.zip e).zipIdx.map (fun p => addR o p.1.1 p.1.2 (onElem u (off + p.2) n))
  let z := narrowTo o fmt rd (w.map Res.v)
  let r := ((w.map Res.v).zip z.vals).zipIdx.map (fun p => remainderOf o p.1.1 p.1.2 (onElem u (off + p.2) (n + 1)))
  let ev := ((w.map Res.ev).zip (z.evs.zip (r.map Res.ev))).map (fun p => p.1.or (p.2.1.or p.2.2))
  let count (f : Ev → Bool) : Nat := (ev.filter f).length
  { vals := z.vals, enc := z.enc, rem := some (r.map Res.v),
    counts := [(48, v.length), (56, count Ev.overflow), (64, count Ev.saturated), (72, count Ev.underflow),
      (80, (z.vals.filter (fun y => !isFinite y)).length), (88, z.nanBlocks)],
    check := (ev.map Ev.check).foldl firstCheck 0 }

/-- lysros_narrow over a fragment (R187): every remainder is +0. -/
def lysrosNode (v : List W32) : NodeOut :=
  let r := v.map lysrosNarrow
  let count (f : Ev → Bool) : Nat := (r.filter (fun z => f z.ev)).length
  { vals := r.map LRes.v, enc := r.flatMap (fun z => leBytes 2 (z.v.toNat / 2 ^ 16)), rem := some (v.map (fun _ => 0#32)),
    counts := [(48, v.length), (56, count Ev.overflow), (64, count Ev.saturated), (72, count Ev.underflow),
      (80, (r.filter (fun z => !isFinite z.v)).length), (96, (r.map LRes.flushed).sum)] }

/-- The rounding of element `i` of a bucket at a narrowing node: its own random word under stochastic rounding (R87). -/
def Job.narrowRnd (x : Job) (b : Bytes) (step micro w i : Nat) : Rnd :=
  if bkStochastic b then
    .sr ({ seed := x.seed, step := step, microBatch := micro, tensor := bkTensor b, element := bkFirst b + i, use := .narrowing, node := w } : Draw).word
  else .rne

/-- The value of a node from its children's values (R79, R80, R86, R186). -/
def Job.nodeOut (x : Job) (b : Bytes) (step micro w off : Nat) (kids : List (List W32)) (e : List W32) (u : Option Upset := none) : NodeOut :=
  let s := x.addKids b off u kids
  let ftzs : Table Nat := if x.lysrosOn b then [(96, s.flushed)] else []
  if x.narrows b w then
    let r := if x.lysros then lysrosNode s.vals
      else narrowNode x.ovf x.nfmt (fun i => x.narrowRnd b step micro w (off + i)) s.vals e u (kids.length - 1) off
    { r with counts := r.counts ++ ftzs, check := firstCheck s.check r.check }
  else { vals := s.vals, enc := s.vals.flatMap (fun v => leBytes 4 v.toNat), counts := ftzs, check := s.check }

/-! ### What a device holds for a use -/

/-- The bucket entry of a context. -/
def Dev.bucketOf (d : Dev) (c : Nat) : Bytes := ((d.job (d.ctx c).job).bucket (d.ctx c).bucket).getD (leBytes 32 0)

/-- The fragment of the current use from a node at an offset. -/
def Ctx.fragOf (x : Ctx) (w off : Nat) : Option Frag :=
  x.frags.find? (fun f => chSeq f.header == x.sequence && chNode f.header == w && chFrag f.header == off)

/-- A hosted node's value over the fragment at an offset. -/
def Ctx.nodeOf (x : Ctx) (w off : Nat) : Option NodeVal := x.nodes.find? (fun v => v.node == w && v.frag == off)

/-- A child's values, and how many lwiden flushed (R44, R49, R186). -/
structure Kid where
  node : Nat
  vals : List W32
  flushed : Nat
  deriving DecidableEq, Repr

/-- Widened leaf values in Lysros-exact mode (R186). -/
def lysrosLeaf (w : Nat) (l : List W32) : Kid :=
  let r := l.map lwiden
  { node := w, vals := r.map LRes.v, flushed := (r.map LRes.flushed).sum }

/-- The value of a child of a hosted node at an offset, where it is available: hosted here, or arrived. -/
def Dev.kid (d : Dev) (c w off : Nat) : Option Kid :=
  let x := d.ctx c
  let j := d.job x.job
  let b := d.bucketOf c
  match x.nodeOf w off with
  | some v => some { node := w, vals := v.vals, flushed := 0 }
  | none =>
    (x.fragOf w off).map (fun f =>
      let l := decodeWire j.ovf (j.wireOf b w) (fragLen b off) f.payload
      if j.lysrosOn b && nodeLevel w == 0 then lysrosLeaf w l else { node := w, vals := l, flushed := 0 })

/-- The counts of INPUT for a node's children (R167, R173, R188). -/
def inputCounts (ks : List Kid) : Table Nat :=
  let bad (k : Kid) : Nat := (k.vals.filter (fun v => !isFinite v)).length
  [(16, (ks.map (fun k => k.vals.length)).sum),
   (24, ((ks.filter (fun k => nodeLevel k.node == 0)).map bad).sum),
   (32, ((ks.filter (fun k => nodeLevel k.node != 0)).map bad).sum),
   (96, (ks.map Kid.flushed).sum)]

/-- The lowest rank among leaves that hold a non-finite value. -/
def firstBadRank (ks : List Kid) : Nat :=
  ((ks.filter (fun k => nodeLevel k.node == 0 && k.vals.any (fun v => !isFinite v))).map (fun k => nodeIndex k.node)).foldl min 0xFFFFFFFF

/-- Counts added to a table by offset. -/
def addCounts (t : Table Nat) (l : Table Nat) : Table Nat := l.foldl (fun t e => if e.2 = 0 then t else tmod 0 t e.1 (· + e.2)) t

/-- The remainder copies of a node over a fragment. -/
def Job.remOf (x : Job) (b w off : Nat) : Option Rem := x.rems.find? (fun r => r.bucket == b && r.node == w && r.frag == off)

/-- The remainders that a use reads: committed in micro-batch 0, else the copy of the micro-batch before (R88). -/
def Job.remIn (x : Job) (b w off n micro : Nat) : List W32 :=
  match x.remOf b w off with
  | some r => if micro = 0 then r.committed else r.working.getD r.committed
  | none => List.replicate n 0#32

/-- What a hosted node comes to over one fragment (R80, R86). -/
def Dev.nodeValue (d : Dev) (c w off : Nat) (ks : List Kid) (u : Option Upset := none) : NodeOut :=
  let x := d.ctx c
  let j := d.job x.job
  let b := d.bucketOf c
  j.nodeOut b (d.useStep c) x.microBatch w off (ks.map Kid.vals) (j.remIn x.bucket w off (fragLen b off) x.microBatch) u

/-- A hosted node's value over one fragment, its remainders and its counts join the use (R80, R86, R170). -/
def Dev.keepNode (d : Dev) (c w off : Nat) (ks : List Kid) (r : NodeOut) : Dev :=
  d.modCtx c (fun x =>
    { x with
      nodes := x.nodes ++ [{ frag := off, node := w, vals := r.vals, enc := r.enc }],
      remW := match r.rem with
        | some e => x.remW ++ [{ frag := off, node := w, vals := e }]
        | none => x.remW,
      useCounts := if x.bucket = verdictBucket then x.useCounts else addCounts x.useCounts (inputCounts ks ++ r.counts),
      firstNonfinite := min x.firstNonfinite (firstBadRank ks) })

/-- Fragments that have been combined or passed on leave staging (R106, STAGE_RD_BYTES). -/
def Dev.releaseFrags (d : Dev) (c : Nat) (p : Frag → Bool) : Dev :=
  let mine := ((d.ctx c).frags.filter (fun f => !f.taken && p f)).filter (fun f => decide (f.port < 96))
  let d := mine.foldl (fun d f => d.poolFreeItem (ctxHolder c) (fragItem f.header)) d
  let d := d.countDev 0x101 ((mine.map (fun f => 48 + f.payload.length)).sum)
  d.modCtx c (fun x => { x with frags := x.frags.map (fun f => if p f then { f with taken := true } else f) })

/-- Whether every hosted node of the use has its value over every fragment, and at a root without a node the leaf has come. -/
def Dev.computed (d : Dev) (c : Nat) : Bool :=
  let x := d.ctx c
  let j := d.job x.job
  let b := d.bucketOf c
  (fragOffs b).all (fun off => (j.hosted x.bucket).all (fun w => (x.nodeOf w off).isSome))

/-- Whether this device is the site of a bucket's root: it hosts it, or, where the root is a leaf, it owns the bucket. -/
def Job.rootHere (x : Job) (b : Bytes) : Bool :=
  if x.depth b = 0 then (if bkBucket b = verdictBucket then x.isRoot else x.owned.any (fun c => decide (0 < x.shared b c)))
  else (x.hosted (bkBucket b)).contains (x.root b)

/-- The root's values over the whole bucket, where they are all available. -/
def Dev.rootVals (d : Dev) (c : Nat) : Option (List W32) :=
  let j := d.job (d.ctx c).job
  let b := d.bucketOf c
  let parts := (fragOffs b).map (fun off => (d.kid c (j.root b) off).map Kid.vals)
  if parts.all Option.isSome then some (parts.flatMap (fun p => p.getD [])) else none

end Sys2Proof.Machine
end

