-- ==== Sys2Proof/Machine/Replay.lean ====
section
/-! DEFINITION. Produced digests and their comparison with the reference records (R346 to R356). -/

namespace Sys2Proof.Machine

/-! ### Reference records (R351) -/

/-- The reference record of a type, step and key, by its body. -/
def Job.reference (x : Job) (typ step : Nat) (key : Bytes → Bool) : Option Bytes :=
  ((x.refs.find? (fun r => u8 r 0 == typ && fld r 16 6 == step && key (r.drop 32))).map (fun r => r.drop 32))

def Job.refHead (x : Job) (step : Nat) : Option Bytes := x.reference 1 step (fun _ => true)
def Job.refProv (x : Job) (step tensor chunk : Nat) : Option Bytes :=
  x.reference 2 step (fun b => bits (fld b 0 4) 19 0 == tensor && fld b 4 4 == chunk)
def Job.refNode (x : Job) (step micro tensor chunk node : Nat) : Option Bytes :=
  x.reference 3 step (fun b => bits (fld b 0 4) 19 0 == tensor && fld b 4 4 == chunk && fld b 8 4 == node && fld b 12 2 == micro)

/-! ### Comparison (R353 to R356) -/

/-- What a comparison names. -/
structure Site where
  phase : Nat
  tensor : Nat
  chunk : Nat
  node : Nat := 0
  micro : Nat := 0xFFFF
  deriving DecidableEq, Repr

/-- The place of a divergence in the order of R355 within one step. -/
def Site.order (s : Site) : Nat :=
  ((((s.phase * 2 ^ 16 + s.micro) * 2 ^ 20 + s.tensor) * 2 ^ 32 + s.chunk) * 2 ^ 5 + nodeLevel s.node) * 2 ^ 17 + nodeIndex s.node

/-- The REPLAY_REPORT body of a divergence, its count apart (R356). -/
def reportBody (s : Site) (outs : Nat × Nat) (produced ref : Bytes) : Bytes :=
  leBytes 1 s.phase ++ leBytes 3 0 ++ leBytes 4 s.tensor ++ leBytes 4 s.chunk ++ leBytes 4 s.node ++ leBytes 2 s.micro ++ leBytes 2 0 ++
    leBytes 4 0 ++ leBytes 1 outs.1 ++ leBytes 1 outs.2 ++ leBytes 6 0 ++ produced ++ ref

/-- Whether comparisons run in the job's step (R354). A device off the Verdict result list learns of scale_history_reset with the commit
token only, which then drops them (R32). -/
def Job.compares (x : Job) : Bool := x.replayCompare && !x.shr

/-- One comparison of a produced record with its reference: `same` says whether the compared fields agree. -/
def Job.compare (x : Job) (s : Site) (same : Bool) (outs : Nat × Nat) (produced ref : Bytes) : Job :=
  if same then { x with compared := true }
  else
    { x with
      compared := true, diverged := true, divergences := x.divergences + 1,
      least := match x.least with
        | some l => if s.order < l.1 then some (s.order, reportBody s outs produced ref) else some l
        | none => some (s.order, reportBody s outs produced ref) }

/-- A digest compared with the reference's, where there is one; `first` marks the record's first comparison, which counts a missing
reference: REPLAY_NOREF counts it when the step ends (R354). -/
def Dev.compareDigest (d : Dev) (j : Nat) (s : Site) (first : Bool) (produced : Bytes) (ref : Option Bytes) : Dev :=
  if !(d.job j).compares then d
  else match ref with
    | none => d.modJob j (fun x => { x with norefs := x.norefs + b2n first })
    | some r => d.modJob j (fun x => x.compare s (produced == r) (0, 0) produced r)

/-! ### NODE_DIGEST records (R348) -/

/-- The NODE_DIGEST body. -/
def nodeDigestBody (tensor chunk node micro fmt : Nat) (digest : Bytes) : Bytes :=
  leBytes 4 tensor ++ leBytes 4 chunk ++ leBytes 4 node ++ leBytes 2 micro ++ leBytes 1 fmt ++ leBytes 1 0 ++ digest

/-- The order of NODE_DIGEST records in a batch (R346). -/
def nodeDigestOrder (b : Bytes) : Nat :=
  (((fld b 12 2 * 2 ^ 20 + fld b 0 4) * 2 ^ 32 + fld b 4 4) * 2 ^ 5 + nodeLevel (fld b 8 4)) * 2 ^ 17 + nodeIndex (fld b 8 4)

/-- Hosted nodes of a bucket that add or narrow, and the leaves consumed here, by a hosted node or as the root of a tree of one rank: the
nodes that have a record (R348). -/
def Job.digestNodes (x : Job) (b : Bytes) : List Nat × List Nat :=
  let hosted := x.hosted (bkBucket b)
  (hosted.filter (fun w => decide (2 ≤ (x.kids b w).length) || x.narrows b w),
    ((if x.depth b = 0 ∧ x.rootHere b = true then [x.root b] else []) ++ hosted.flatMap (x.kids b)).filter (fun w => nodeLevel w == 0))

/-- The nodes of a use that have a record here, each with its format and its bytes over the whole bucket. -/
def Dev.digested (d : Dev) (c : Nat) : List (Nat × Nat × Bytes) :=
  let x := d.ctx c
  let j := d.job x.job
  let b := d.bucketOf c
  let offs := fragOffs b
  let l := j.digestNodes b
  l.1.map (fun w => (w, if w = j.root b then 0 else j.wireOf b w, offs.flatMap (fun o => ((x.nodeOf w o).map NodeVal.enc).getD []))) ++
    l.2.map (fun w => (w, bkElem b, offs.flatMap (fun o => ((x.fragOf w o).map Frag.payload).getD [])))

/-- The chunks that a bucket lies in, with the bucket's elements of each: chunk, first element in the bucket, count. -/
def Job.bucketChunks (x : Job) (b : Bytes) : List (Nat × Nat × Nat) :=
  ((List.range x.ownerEntries.length).filter (fun c => decide (0 < x.shared b c))).map (fun c =>
    (c, max (bkFirst b) (x.chunkFirst c) - bkFirst b, x.shared b c))

/-- A use's NODE_DIGEST records are gathered and compared at its commit point (R346, R353). -/
def Dev.nodeDigests (d : Dev) (c : Nat) : Dev :=
  let x := d.ctx c
  let j := d.job x.job
  let b := d.bucketOf c
  let step := d.useStep c
  if !j.detail || x.bucket == verdictBucket then d
  else
    let recs := (j.bucketChunks b).flatMap (fun k => (d.digested c).map (fun n =>
      nodeDigestBody (bkTensor b) (owChunk (j.chunk k.1)) n.1 x.microBatch n.2.1
        (ld d.keeper.imageDigest (wireSlice n.2.1 n.2.2 k.2.1 k.2.2))))
    let d := d.modJob x.job (fun y => { y with nodeDigests := y.nodeDigests ++ recs })
    recs.foldl (fun d r =>
      let s : Site := { phase := 0, tensor := fld r 0 4, chunk := fld r 4 4, node := fld r 8 4, micro := x.microBatch }
      d.compareDigest x.job s true (slice r 16 32)
        ((j.refNode step x.microBatch s.tensor s.chunk s.node).map (fun q => slice q 16 32))) d

end Sys2Proof.Machine
end

