-- ==== Sys2Proof/Machine/Transc.lean ====
section
/-! DEFINITION. Reciprocal, square roots, exponential, logarithm, remainder arithmetic and the learning-rate schedule (R135 to R142). -/

namespace Sys2Proof.Machine

/-- The value `y * 2^n` re-rounded by `finish` (before R135); `y` is a normal FP32 value. -/
def scaleF (o : Ovf) (y : W32) (n : Int) (s : Bool) (h : Option Hit := none) : Res := finish o s (expU y + n) (sigU y * 8) h

/-- The exponent and 24-bit significand with bit 23 set of a finite non-zero value. -/
def normE (x : W32) : Int := expU x - ((24 : Int) - bitLen (sigU x))
def normM (x : W32) : Nat := sigU x * 2 ^ (24 - bitLen (sigU x))
/-- The FP32 value m * 2^-23, in [1, 2). -/
def normF (x : W32) : W32 := BitVec.ofNat 32 (0x3F800000 + (normM x - 2 ^ 23))

/-- T / 2^16 as FP32 for a positive T. -/
def q16 (t : Nat) : W32 := BitVec.ofNat 32 (roundFin .infinity fmtFP32 .rne false t (-16)).v

/-- The table of R136: the integer nearest to 2^25 / (2i + 513), over 2^16. -/
def tRcp (i : Nat) : W32 := q16 ((2 ^ 26 + (2 * i + 513)) / (2 * (2 * i + 513)))

/-- The table of R137: ⌊2^16 / √c + 1/2⌋ over 2^16, with c = (257 + 2j) / 256, doubled when bit 7 of i is set.
(2T - 1)² c ≤ 2^34 says T is the floor. -/
def tRsq (i : Nat) : W32 :=
  let num := (257 + 2 * (i % 128)) * (if i / 128 % 2 = 1 then 2 else 1)
  q16 ((isqrt (2 ^ 34 * 256 / num) + 1) / 2)

/-- Part 0 of `tExp`. -/
def tExp0 : List Nat :=
  [0x3F3504F3, 0x3F36FD92, 0x3F38FBAF, 0x3F3AFF5B, 0x3F3D08A4, 0x3F3F179A, 0x3F412C4D, 0x3F4346CD, 0x3F45672A, 0x3F478D75, 0x3F49B9BE, 0x3F4BEC15, 0x3F4E248C, 0x3F506334, 0x3F52A81E, 0x3F54F35B]
/-- Part 1 of `tExp`. -/
def tExp1 : List Nat :=
  [0x3F5744FD, 0x3F599D16, 0x3F5BFBB8, 0x3F5E60F5, 0x3F60CCDF, 0x3F633F89, 0x3F65B907, 0x3F68396A, 0x3F6AC0C7, 0x3F6D4F30, 0x3F6FE4BA, 0x3F728177, 0x3F75257D, 0x3F77D0DF, 0x3F7A83B3, 0x3F7D3E0C]
/-- Part 2 of `tExp`. -/
def tExp2 : List Nat :=
  [0x3F800000, 0x3F8164D2, 0x3F82CD87, 0x3F843A29, 0x3F85AAC3, 0x3F871F62, 0x3F88980F, 0x3F8A14D5, 0x3F8B95C2, 0x3F8D1ADF, 0x3F8EA43A, 0x3F9031DC, 0x3F91C3D3, 0x3F935A2B, 0x3F94F4F0, 0x3F96942D]
/-- Part 3 of `tExp`. -/
def tExp3 : List Nat :=
  [0x3F9837F0, 0x3F99E046, 0x3F9B8D3A, 0x3F9D3EDA, 0x3F9EF532, 0x3FA0B051, 0x3FA27043, 0x3FA43516, 0x3FA5FED7, 0x3FA7CD94, 0x3FA9A15B, 0x3FAB7A3A, 0x3FAD583F, 0x3FAF3B79, 0x3FB123F6, 0x3FB311C4]
/-- Part 4 of `tExp`. -/
def tExp4 : List Nat :=
  [0x3FB504F3]
/-- 2^(j/64) for j from -32 to 32, rounded to nearest even (R138), worked out from that definition to 120 digits. -/
def tExp : List Nat := tExp0 ++ tExp1 ++ tExp2 ++ tExp3 ++ tExp4
/-- Part 0 of `tInv`. -/
def tInv0 : List Nat :=
  [0x3FAAAAAB, 0x3FA72F05, 0x3FA3D70A, 0x3FA0A0A1, 0x3F9D89D9, 0x3F9A90E8, 0x3F97B426, 0x3F94F209, 0x3F924925, 0x3F8FB824, 0x3F8D3DCB, 0x3F8AD8F3, 0x3F888889, 0x3F864B8A, 0x3F842108, 0x3F820821]
/-- Part 1 of `tInv`. -/
def tInv1 : List Nat :=
  [0x3F800000, 0x3F7C0FC1, 0x3F783E10, 0x3F74898D, 0x3F70F0F1, 0x3F6D7304, 0x3F6A0EA1, 0x3F66C2B4, 0x3F638E39, 0x3F607038, 0x3F5D67C9, 0x3F5A740E, 0x3F579436, 0x3F54C77B, 0x3F520D21, 0x3F4F6475]
/-- Part 2 of `tInv`. -/
def tInv2 : List Nat :=
  [0x3F4CCCCD, 0x3F4A4588, 0x3F47CE0C, 0x3F4565C8, 0x3F430C31, 0x3F40C0C1, 0x3F3E82FA, 0x3F3C5264, 0x3F3A2E8C, 0x3F381703, 0x3F360B61, 0x3F340B41, 0x3F321643, 0x3F302C0B, 0x3F2E4C41, 0x3F2C7692]
/-- 64 / j for j from 48 to 95, rounded to nearest even (R139). -/
def tInv : List Nat := tInv0 ++ tInv1 ++ tInv2
/-- Part 0 of `tLog`. -/
def tLog0 : List Nat :=
  [0xBED47FCD, 0xBEC544BF, 0xBEB6587A, 0xBEA7B7DF, 0xBE995FF9, 0xBE8B4E03, 0xBE7AFEC6, 0xBE5FE33A, 0xBE4544C5, 0xBE2B1EE2, 0xBE116D6E, 0xBDF058D8, 0xBDBEB02F, 0xBD8DD98A, 0xBD3B9C9B, 0xBCBA1FA1]
/-- Part 1 of `tLog`. -/
def tLog1 : List Nat :=
  [0x00000000, 0x3CB73CB3, 0x3D35D690, 0x3D8759C9, 0x3DB31FB7, 0x3DDE420E, 0x3E0462C4, 0x3E195751, 0x3E2E00D1, 0x3E42615F, 0x3E567AEF, 0x3E6A4F70, 0x3E7DE0B5, 0x3E88983F, 0x3E92203D, 0x3E9B8925]
/-- Part 2 of `tLog`. -/
def tLog2 : List Nat :=
  [0x3EA4D3C2, 0x3EAE00D1, 0x3EB71110, 0x3EC0052D, 0x3EC8DDD3, 0x3ED19BAF, 0x3EDA3F60, 0x3EE2C97E, 0x3EEB3A9E, 0x3EF39355, 0x3EFBD42A, 0x3F01FED4, 0x3F060828, 0x3F0A0650, 0x3F0DF98A, 0x3F11E20E]
/-- -log2 of the entry of `tInv`, rounded to nearest even (R139), worked out from that definition to 120 digits. -/
def tLog : List Nat := tLog0 ++ tLog1 ++ tLog2


/-- An entry of a table of encodings. -/
def tab32 (t : List Nat) (i : Nat) : W32 := BitVec.ofNat 32 (t.getD i 0)

/-- A step's result, with no event but a failed check: the inner steps of a function set none (R169). -/
def Res.inner (r : Res) (n : Nat) : Res := { v := r.v, ev := { check := if n = 0 then r.ev.check else n } }
def Res.neg (r : Res) : Res := { r with v := Sys2Proof.Machine.neg r.v }

/-- The inner multiply-add, multiply, addition and subtraction of a function: step `n`, where a disturbance `h` may fall. -/
def fm (h : Option (Nat × Hit)) (n : Nat) (a b c : Res) : Res :=
  (fmaR .infinity a.v b.v c.v (hitAt n h)).inner ((a.ev.or (b.ev.or c.ev)).check)
def ml (h : Option (Nat × Hit)) (n : Nat) (a b : Res) : Res := (mulR .infinity a.v b.v (hitAt n h)).inner (a.ev.or b.ev).check
def ad (h : Option (Nat × Hit)) (n : Nat) (a b : Res) : Res := (addR .infinity a.v b.v (hitAt n h)).inner (a.ev.or b.ev).check

/-- A function's result: the last step, with the check that failed in an earlier one. -/
def Res.after (r : Res) (y : Res) : Res := r.checked y.ev.check

/-- The last step of a function, numbered 15 (R135). -/
def lastStep (o : Ovf) (h : Option (Nat × Hit)) (y : Res) (n : Int) (s : Bool) : Res := (scaleF o y.v n s (hitAt 15 h)).after y

/-- rcp (R135, R136). -/
def rcpR (o : Ovf) (x : W32) (h : Option (Nat × Hit) := none) : Res :=
  if isNaN x then { v := quiet x }
  else if isInf x then { v := zeroOf (sgn x) }
  else if isZero x then { v := infOf (sgn x) }
  else
    let f := val (normF x)
    let y0 := val (tRcp (normM x / 2 ^ 15 % 256))
    let y1 := fm h 1 y0 (fm h 0 f.neg y0 (val fOne)) y0
    let y2 := fm h 3 y1 (fm h 2 f.neg y1 (val fOne)) y1
    lastStep o h y2 (-(normE x)) (sgn x)
def rcpf (o : Ovf) (x : W32) : W32 := (rcpR o x).v

/-- The common core of the square roots (R137): g, the even exponent, and y. -/
def rsqrtCore (h : Option (Nat × Hit)) (x : W32) : Res × Int × Res :=
  let e := normE x
  let odd := e % 2
  let g := if odd = 1 then ml h 0 (val (normF x)) (val fTwo) else val (normF x)
  let y0 := val (tRsq (odd.toNat * 128 + normM x / 2 ^ 16 % 128))
  let y1 := fm h 4 (ml h 1 y0 (val fHalf)) (fm h 3 g.neg (ml h 2 y0 y0) (val fOne)) y0
  let y2 := fm h 8 (ml h 5 y1 (val fHalf)) (fm h 7 g.neg (ml h 6 y1 y1) (val fOne)) y1
  (g, e - odd, y2)

/-- rsqrt (R135, R137). -/
def rsqrtR (o : Ovf) (x : W32) (h : Option (Nat × Hit) := none) : Res :=
  if isNaN x then { v := quiet x }
  else if isZero x then { v := infOf (sgn x) }
  else if sgn x then { v := qNaN, ev := { invalid := true } }
  else if isInf x then { v := 0#32 }
  else let (_, e2, y) := rsqrtCore h x; lastStep o h y (-e2 / 2) false
def rsqrtf (o : Ovf) (x : W32) : W32 := (rsqrtR o x).v

/-- sqrt (R135, R137). -/
def sqrtR (o : Ovf) (x : W32) (h : Option (Nat × Hit) := none) : Res :=
  if isNaN x then { v := quiet x }
  else if isZero x then { v := x }
  else if sgn x then { v := qNaN, ev := { invalid := true } }
  else if isInf x then { v := x }
  else
    let (g, e2, y) := rsqrtCore h x
    let q := ml h 9 g y
    let d := fm h 10 q.neg q g
    lastStep o h (fm h 12 (ml h 11 y (val fHalf)) d q) (e2 / 2) false
def sqrtf (o : Ovf) (x : W32) : W32 := (sqrtR o x).v

/-- A finite value as an integer multiple of 2^-149. -/
def fixed149 (x : W32) : Int :=
  let v : Int := (sigU x * 2 ^ (expU x + 126).toNat : Nat)
  if sgn x then -v else v

/-- Round a quotient to the nearest integer, ties to even. -/
def roundHalfEven (n : Int) (d : Nat) : Int :=
  let q := n / (d : Int)
  let r := n % (d : Int)
  if 2 * r > d ∨ (2 * r = d ∧ q % 2 = 1) then q + 1 else q

/-- The encodings of the coefficients of R138. -/
def c1 : W32 := 0x3F317218#32
def c2 : W32 := 0x3E75FDF0#32
def c3 : W32 := 0x3D635847#32
def c4 : W32 := 0x3C1D955B#32

/-- exp2 (R135, R138). -/
def exp2R (o : Ovf) (x : W32) (h : Option (Nat × Hit) := none) : Res :=
  if isNaN x then { v := quiet x }
  else if isInf x then { v := if sgn x then 0#32 else x }
  else if isZero x then { v := fOne }
  else if cmpLe (fp32Int 128) x then overflowTo o false
  else if cmpLt x (fp32Int (-151)) then { v := 0#32, ev := { underflow := true } }
  else
    let n := roundHalfEven (fixed149 x) (2 ^ 149)
    let f := ad h 0 (val x) (val (fp32Int n)).neg
    let j := fixed149 f.v * 64 / (2 ^ 149 : Int)
    let g := ad h 2 f (ml h 1 (val (fp32Int j)) (val (pow2f (-6)))).neg
    let p := fm h 6 g (fm h 5 g (fm h 4 g (fm h 3 g (val c4) (val c3)) (val c2)) (val c1)) (val fOne)
    lastStep o h (ml h 7 (val (tab32 tExp (j + 32).toNat)) p) n false
def exp2f (o : Ovf) (x : W32) : W32 := (exp2R o x).v

/-- The coefficients of R139. -/
def a1 : W32 := 0x3FB8AA3B#32
def a2 : W32 := 0xBF38AA3B#32
def a3 : W32 := 0x3EF6384F#32
def a4 : W32 := 0xBEB8AA3B#32

/-- log2 (R135, R139). -/
def log2R (o : Ovf) (x : W32) (h : Option (Nat × Hit) := none) : Res :=
  if isNaN x then { v := quiet x }
  else if isZero x then { v := infOf true }
  else if sgn x then { v := qNaN, ev := { invalid := true } }
  else if isInf x then { v := x }
  else
    let big := decide (0xC00000 ≤ normM x)
    let g := if big then ml h 0 (val (normF x)) (val fHalf) else val (normF x)
    let e := if big then normE x + 1 else normE x
    let j := (fixed149 g.v * 64 / (2 ^ 149 : Int)).toNat
    let r := fm h 1 g (val (tab32 tInv (j - 48))) (val (neg fOne))
    let q := ml h 5 r (fm h 4 r (fm h 3 r (fm h 2 r (val a4) (val a3)) (val a2)) (val a1))
    let s := ad h 6 (val (tab32 tLog (j - 48))) q
    let z := (addR o (fp32Int e) s.v (hitAt 15 h)).after s
    { z with ev := { z.ev with underflow := z.ev.underflow || isZero z.v } }
def log2f (o : Ovf) (x : W32) : W32 := (log2R o x).v

/-! ### Remainder arithmetic (R51, R140) -/

/-- The signed significand of R140. -/
def sval (x : W32) : Int := if sgn x then -(sigU x : Int) else (sigU x : Int)

/-- exp of R140, not below -126. -/
def expQ (x : W32) : Int := max (if isZero x then -126 else normE x) (-126)

/-- Truncation of `a * 2^k` toward zero. -/
def truncShift (a : Int) (k : Int) : Int :=
  let t : Int := (shiftT a.natAbs k : Nat)
  if a < 0 then -t else t

/-- The FP32 value nearest to `t * 2^unit`, ties toward +∞, as sign, significand and exponent of its last
place, the exponent range unbounded above. -/
def nearestTiesUp (t : Int) (unit : Int) : Int × Int :=
  let fl : Int := (bitLen t.natAbs : Int) - 1 + unit
  let qe : Int := max fl (-126) - 23
  let d : Nat := 2 ^ (qe - unit).toNat
  if qe ≤ unit then (t * 2 ^ (unit - qe).toNat, qe) else ((2 * t + d) / (2 * (d : Int)), qe)

/-- A weight and its remainder word. -/
structure QRes where
  w : W32
  q : Int
  ev : Ev := {}
  deriving DecidableEq, Repr

/-- qadd (R140). -/
def qadd (o : Ovf) (w u : W32) (q : Int) (h : Option Hit := none) : QRes :=
  let plain : QRes := let r := addR o w u h; { w := r.v, q := 0, ev := r.ev }
  if !isFinite w || !isFinite u then plain
  else
    let ew := expQ w
    let unit := ew - 39
    let k := expQ u - ew + 16
    if !isZero u && decide (k > 18) then plain
    else
      let ui := if isZero u then 0 else truncShift (sval u) k
      let t := sval w * 2 ^ 16 + q + ui
      if t = 0 then { w := if isZero w then w else 0#32, q := 0 }
      else
        let (n, qe) := nearestTiesUp t unit
        let sg := decide (t < 0)
        let r := roundFin o fmtFP32 .rne sg n.natAbs qe
        if r.ev.overflow then { w := (overflowTo o sg).v, q := 0, ev := (overflowTo o sg).ev }
        else
          let w2 : W32 := BitVec.ofNat 32 r.v
          let ulpE := expQ w2 - 23
          -- d = t·2^unit − value(w2), in units of 2^unit; then q2 = d · 2^16 / ulp(w2)
          let lo := min unit (min qe (ulpE - 16))
          let d := t * 2 ^ (unit - lo).toNat - n * 2 ^ (qe - lo).toNat
          let q2 := roundHalfEven d (2 ^ (ulpE - 16 - lo).toNat)
          { w := w2, q := clampInt (-32768) 32767 q2, ev := { underflow := decide (n = 0) } }

/-! ### Learning-rate schedule (R142) -/

/-- The learning rate at step number `t`, not before the breakpoint at `s0`. -/
def lrBetween (o : Ovf) (t : Nat) : Nat → W32 → List (Nat × W32) → W32
  | _, v0, [] => v0
  | s0, v0, (s1, v1) :: r =>
    if t < s1 then
      fmaf o (subf o v1 v0) (mulf o (fp32Int ((t : Int) - s0)) (rcpf o (fp32Int ((s1 : Int) - s0)))) v0
    else lrBetween o t s1 v1 r

/-- lr of R142. -/
def lrValue (o : Ovf) (t : Nat) : List (Nat × W32) → W32
  | [] => 0#32
  | (s0, v0) :: r => if t ≤ s0 then v0 else lrBetween o t s0 v0 r

end Sys2Proof.Machine
end

