-- ==== Sys2Proof/Machine/Verdict.lean ====
section
/-! DEFINITION. The Verdict: an owner's leaf, the results of the whole vector, and the fragments that carry it (R144 to R150, R157). -/

namespace Sys2Proof.Machine

/-! ### Outflow fragments held for TX slots (R154, R280, R314) -/

/-- The link session of what a holder holds: a port's current one (R374). -/
def Dev.holderGen (d : Dev) (holder : Nat) : Nat := if portHolder 0 ≤ holder then (d.port (holder - portHolder 0)).linkGen else 0

/-- A fragment of the device's own or one received, held until TX slots have moved it to its ports. A Tarn or a port whose reservation is
used up keeps it without a block, and so does the Verdict context, which has none (R313; log entry 21). -/
def Dev.holdOut (d : Dev) (j holder channel : Nat) (ports : List Nat) (header payload : Bytes)
    (route : Bytes := []) : Dev :=
  if ports = [] then d
  else
    let item := j * 2 ^ 64 + (d.job j).outItem
    let n := header.length + payload.length
    let d := if holder < tarnHolder 0 then d else (d.poolTake (.reservation j) holder item n).2
    let f : OutHeld :=
      { holder := holder, item := item, channel := channel, ports := ports, header := header, payload := payload, gen := d.holderGen holder,
        route := route }
    (d.countDev 0x100 n).modJob j (fun x => { x with outItem := x.outItem + 1, outHeld := x.outHeld ++ [f] })

/-- A held fragment has left by a port; with its last port it leaves staging. -/
def Dev.outLeft (d : Dev) (j p : Nat) (f : OutHeld) : Dev :=
  let rest := f.ports.filter (· != p)
  if rest = [] then
    ((d.poolFreeItem f.holder f.item).countDev 0x101 (f.header.length + f.payload.length)).modJob j (fun x =>
      { x with outHeld := x.outHeld.filter (fun g => g.item != f.item) })
  else d.modJob j (fun x => { x with outHeld := x.outHeld.map (fun g => if g.item = f.item then { g with ports := rest } else g) })

/-! ### The owner's leaf (R125, R144, R146) -/

/-- Word `i` of the owner's leaf: `hdr` gives a chunk's stored wsq and amax. -/
def Job.leafWord (x : Job) (hdr : Nat → Nat × Nat) (wflag : Nat → Nat) (i : Nat) : W32 :=
  let t := x.tensorEntries.length
  if i < t then
    let mine := (x.chunksOfTensor (tnIndex (nth x.tensorEntries i))).filter x.owned.contains
    BitVec.ofNat 32 (mine.foldl (fun a c => Nat.lor a (Nat.lor ((x.chunkStats.find? (fun e => e.1 == c)).map (fun e => e.2.flags) |>.getD 0) (wflag c))) 0)
  else
    let c := (i - t) / 3
    if x.owned.contains c then
      match (i - t) % 3 with
      | 0 => ((x.chunkStats.find? (fun e => e.1 == c)).map (fun e => e.2.gsq)).getD 0#32
      | 1 => BitVec.ofNat 32 (hdr c).1
      | _ => BitVec.ofNat 32 (hdr c).2
    else 0#32

/-- The owner's leaf of the Verdict, from its chunks' statistics and frames. -/
def Mach.verdictLeaf (k : Mach) (j : Nat) : List W32 :=
  let x := k.dev.job j
  (List.range x.vecWordCount).map (x.leafWord (fun c => (k.word (x.frameAt c) 4, k.word (x.frameAt c + 4) 4))
    (fun c => weightFlag (k.weights x c)))

/-- A fragment of the leaf as the Verdict context holds it: made here, under port 0xFE (R422). -/
def leafFrag (x : Job) (j : Nat) (ctx : Ctx) (b : Bytes) (idx step tick off : Nat) (words : List W32) : Frag :=
  let n := fragLen b off
  let payload := ((words.drop off).take n).flatMap (fun w => leBytes 4 w.toNat)
  { port := 0xFE, payload := payload, tick := tick, spilled := false,
    header := mkContribution 1 j ctx.channel 0 ctx.generation 0xFFFF ctx.sequence (nodeWord 0 idx) step 2 0 0 verdictBucket (x.treeId b)
      (descHashOf 2 0 (bkCount b) (x.treeId b) ctx.sequence) (bkCount b) off n }

/-- Once every chunk it owns has been folded for the last micro-batch, an owner enters the Verdict context (R25 item 3). -/
def Mach.enterVerdict (k : Mach) (j : Nat) : Mach :=
  let x := k.dev.job j
  match x.bucket verdictBucket, x.ownerIndex with
  | some b, some idx =>
    let ctx := k.dev.ctx (bkCtx b)
    let done := x.owned.all (fun c => thas x.chunkStats c)
    let entered := ctx.frags.any (fun f => f.port == 0xFE && chSeq f.header == ctx.sequence)
    if !done || entered || !(ctx.state == .armed || ctx.state == .opened) then k
    else
      let words := k.verdictLeaf j
      k.mod (·.modCtx (bkCtx b) (fun c =>
        { c with frags := c.frags ++ (fragOffs b).map (fun off => leafFrag x j ctx b idx x.rcStep k.dev.tick off words) }))
  | _, _ => k

/-! ### The results (R147, R148, R157) -/

/-- s of a tensor in force (R131, R156). -/
def Job.scaleOf (x : Job) (e : Bytes) : Int := if tnGrad e = 0xFF then 0 else (tget {} x.recipes (tnGrad e)).s

/-- The clip factor (R148). -/
def clipFactor (o : Ovf) (m g : W32) : W32 :=
  if !isFinite m || !cmpLt 0#32 m || !isFinite g then fOne
  else
    let r := sqrtf o g
    if cmpLt m r then mulf o m (rcpf o r) else fOne

/-- The results of a whole vector (R147). -/
def Job.results (x : Job) (v : List W32) : VerdictRes :=
  let es := x.tensorEntries
  let t := es.length
  let bad (i : Nat) : Bool := bit (v.getD i 0#32).toNat 0
  let stepSkip := es.zipIdx.any (fun e => tnPolicy e.1 == 2 && bad e.2)
  let skips := es.zipIdx.map (fun e => stepSkip || (tnPolicy e.1 == 1 && bad e.2))
  let words (e : Bytes) (k : Nat) : List W32 := (x.chunksOfTensor (tnIndex e)).map (fun c => v.getD (t + 3 * c + k) 0#32)
  let scales := es.map x.scaleOf
  let gs := es.zipIdx.map (fun e => mulf x.ovf (treeSum x.ovf (words e.1 0)) (pow2f (-2 * scales.getD e.2 0)))
  let sum := treeSum x.ovf (es.zipIdx.map (fun e => if tnClip e.1 && !skips.getD e.2 false then gs.getD e.2 0#32 else 0#32))
  { outcome := if stepSkip then 2 else if skips.any id then 1 else 0,
    skips := skips, gsumsq := gs, wsumsq := es.map (fun e => treeSum x.ovf (words e 1)),
    wamax := es.map (fun e => (words e 2).foldl maxf 0#32), globalSum := sum, clip := clipFactor x.ovf x.clipNorm sum, scales := scales }

/-- Whether the Verdict skips a tensor; none before the Verdict. -/
def Job.skipped (x : Job) (t : Nat) : Option Bool :=
  match x.vres, x.tensorPos t with
  | some r, some p => some (r.skips.getD p false)
  | _, _ => none

/-- The AMAX_HISTORY windows after a Verdict (R157). -/
def Job.pushAmax (x : Job) (r : VerdictRes) : Job :=
  { x with
    recipes := x.tensorEntries.zipIdx.foldl (fun t e =>
      if tnOut e.1 = 0xFF then t
      else
        let h := rpWindow (nth x.recipeEntries (tnOut e.1))
        tmod {} t (tnOut e.1) (fun rc =>
          { rc with windows := tmod [] rc.windows (tnIndex e.1) (fun w => let w := w ++ [r.wamax.getD e.2 0#32]; w.drop (w.length - h)) })) x.recipes }

/-- The decision over a remainder: committed or discarded (R88 items 4 and 5). -/
def Rem.decide (r : Rem) (skip : Bool) : Rem :=
  if skip then { r with working := none } else { r with committed := r.working.getD r.committed, working := none }

/-- The decisions reach the remainders of every bucket whose last use has passed its commit point here. -/
def Dev.decideRems (d : Dev) (j : Nat) : Dev :=
  let x := d.job j
  d.modJob j (fun y =>
    { y with rems := y.rems.map (fun r =>
        match x.bucket r.bucket with
        | some b =>
          if (d.ctx (bkCtx b)).launched then r
          else match x.skipped (bkTensor b) with
            | some s => r.decide s
            | none => r
        | none => r) })

/-- The comparison of the Verdict with the reference STEP_HEAD (R353). -/
def Dev.compareVerdict (d : Dev) (j : Nat) (r : VerdictRes) : Dev :=
  let x := d.job j
  if !x.compares then d
  else match x.refHead x.rcStep with
    | none => d.modJob j (fun x => { x with norefs := x.norefs + 1 })
    | some h =>
      let v := d.vdig j
      let sameV := v == slice h 32 32
      let sameO := u8 h 0 == r.outcome
      let s : Site := { phase := 2, tensor := 0xFFFFF, chunk := 0xFFFFFFFF }
      d.modJob j (fun y => y.compare s (sameV && sameO) (if sameV then (r.outcome, u8 h 0) else (0, 0)) v (slice h 32 32))

/-- wdig and prov of a chunk: the running step's, or the last ended one's (R342). -/
def Job.wdigNow (x : Job) (c : Nat) : Bytes := if thas x.stepProv c then (tget ([], []) x.stepProv c).1 else tget [] x.wdig c
def Job.provNow (x : Job) (c : Nat) : Bytes := if thas x.stepProv c then (tget ([], []) x.stepProv c).2 else tget [] x.prov c

/-- The comparison of a chunk's decision and weights (R353, phase WEIGHT). -/
def Dev.compareWeight (d : Dev) (j c : Nat) (skip : Bool) : Dev :=
  let x := d.job j
  let e := x.chunk c
  if !x.compares then d
  else match x.refProv x.rcStep (owTensor e) (owChunk e) with
    | none => d
    | some r =>
      let w := x.wdigNow c
      d.modJob j (fun y => y.compare { phase := 3, tensor := owTensor e, chunk := owChunk e } (w == slice r 48 32 && b2n skip == u8 r 8) (0, 0) w
        (slice r 48 32))

/-- The Verdict completes at a device that holds the whole vector (R147, R378). -/
def Dev.completeVerdict (d : Dev) (j : Nat) : Dev :=
  let x := d.job j
  let r := x.results x.vector
  let d := d.modJob j (fun y => { (y.pushAmax r) with vres := some r, rcPhase := max y.rcPhase 3 })
  let d := (d.decideRems j).compareVerdict j r
  (d.job j).owned.foldl (fun d c =>
    if (d.job j).skipped (owTensor ((d.job j).chunk c)) = some true then d.compareWeight j c true else d) d

/-! ### VERDICT_RESULT (R147, R150, R382) -/

/-- The fragments of the retained vector. -/
def Job.resultFrags (x : Job) (j : Nat) (replay : Bool) : List (Bytes × Bytes) :=
  match x.bucket verdictBucket, x.vseq with
  | some b, some q =>
    let v := x.vector
    (List.range (ceilDiv v.length 4096)).map (fun i =>
      let part := (v.drop (4096 * i)).take 4096
      (mkOutflow 0x12 j (bkChannel b) (2 * b2n replay) q.2 0 q.1 0xFFFFF x.rcStep 0 0 (4096 * i) part.length (List.replicate 32 0#8),
       vecBytes part))
  | _, _ => []

/-- The root site holds the vector's fragments for its TX slots. -/
def Dev.holdResult (d : Dev) (j : Nat) (replay : Bool) : Dev :=
  let x := d.job j
  match x.bucket verdictBucket with
  | some b => (x.resultFrags j replay).foldl (fun d f => d.holdOut j (ctxHolder (bkCtx b)) (bkChannel b) (x.fanPorts (bkChannel b) 1) f.1 f.2) d
  | none => d

/-- The words that a fragment brings. -/
def Job.takeWords (x : Job) (off : Nat) (words : List W32) : Job :=
  { x with vecWords := words.zipIdx.foldl (fun t e => if thas t (off + e.2) then t else tset t (off + e.2) e.1) x.vecWords }

/-- Whether the whole vector is held. -/
def Job.vecWhole (x : Job) : Bool := decide (x.vecWordCount ≤ x.vecWords.length)

/-! ### The launch cycle (R206, R382) -/

/-- The step starts (R206, R379): the contexts' current uses are the step's, and their hang time runs afresh; at a completion launch the
root site holds the retained vector for its TX slots again (R382). -/
def Dev.startStep (d : Dev) (j : Nat) (l : Launch) : Dev :=
  let late (die : Nat) : Nat := (d.job j).lateBy l.tick (d.lagOn (d.job j) die)
  let (late0, late1) := (late 0, late 1)
  let d := d.takeSlots j
  let seqs := (d.ctxsOf j).map (fun c => (c, ((d.ctx c).sequence, (d.ctx c).microBatch)))
  let d := (d.dropOutflow j).modJob j (fun x => x.begin l (late0, late1) d.time seqs)
  let d := (d.ctxsOf j).foldl (fun d c => d.modCtx c (fun x =>
    { x with launched := x.launched || !l.completion, openTick := d.time })) d
  let d := if l.completion && (d.job j).isRoot then d.holdResult j true else d
  let d := (d.markLaunch j (max late0 late1)).modJob j (fun x => { x with spareUsed := x.spareUsed || d.onSpare j, offHome := x.sparePath })
  ((d.freeSpares).launchPulse j).siltLaunch j l.step l.tick false l.completion

/-- The launch cycle (R204, R206): an armed launch starts its step, unless time is not launch-grade. A job whose tables cannot be read is
HALTED, and its launch is gone (R359, R360). -/
def Dev.launchNow (j : Nat) (tables : EccResult) (d : Dev) : Dev :=
  match (d.job j).launch with
  | none => d
  | some l =>
    if l.stage != .armed || d.tick < l.tick then d
    else
      let d := d.readTables j tables
      if (d.job j).launch.isNone then d
      else if d.launchGrade && !d.faults.held then d.startStep j l
      else d.withhold j

def execLaunchCycle (job now : Nat) (s : State) (tables : EccResult := .clean) : Host.Outcome State Fault Refusal :=
  .next (s.event now (Dev.launchNow job tables))

end Sys2Proof.Machine
end

