-- ==== Sys2Proof/Machine/Owner.lean ====
section
/-! DEFINITION. What an owner does with its chunks: the fold into the accumulator, the update program, and the forming of Outflow, with
what the monitor counts of each (R124 to R131, R142, R151 to R154, R167 to R172, R340). -/

namespace Sys2Proof.Machine

/-! ### Settings and counts of the monitor (R168, R172, R180, R181) -/

/-- The settings of a tensor: the image's, with the groups that NUMERICS_WATCH replaces. -/
def Dev.settings (d : Dev) (x : Job) (t : Nat) : Bytes :=
  let base := d.numericsDefaults
  match x.watchEntries.find? (fun e => bits (fld e 0 4) 19 0 == t) with
  | none => base
  | some e =>
    let s := e.drop 8
    let pick (g o n : Nat) : Bytes := if bit (u8 e 4) g then slice s o n else slice base o n
    pick 0 0 8 ++ pick 1 8 6 ++ pick 3 14 2 ++ pick 2 16 6 ++ slice base 22 2 ++ pick 4 24 3 ++ slice base 27 5

def histBase (s : Bytes) : Int := sfld s 24 2
def histWidth (s : Bytes) : Nat := u8 s 26

/-- The bin of a value (R172). -/
def histBin (s : Bytes) (v : W32) : Nat :=
  if isZero v then 0
  else if isSub v then 1
  else if !isFinite v then 31
  else
    let e := (expF v : Int) - 127 - histBase s
    if e < 0 then 2 else min 30 (3 + e.toNat / histWidth s)

/-- A histogram at a field offset, as counts by offset. -/
def histCounts (s : Bytes) (o : Nat) (l : List W32) : Table Nat := l.foldl (fun t v => tmod 0 t (o + 8 * histBin s v) (· + 1)) []

/-- How many values of a list meet a condition. -/
def countIf (p : W32 → Bool) (l : List W32) : Nat := (l.filter p).length

/-- Counts added to a tensor's block of the running step. -/
def Job.addNumerics (x : Job) (t : Nat) (l : Table Nat) : Job := { x with tnum := tmod [] x.tnum t (fun b => addCounts b l) }

/-- The counts of the final accumulator values (R171). -/
def gradCounts (s : Bytes) (l : List W32) : Table Nat :=
  [(24, countIf isZero l), (32, countIf isSub l), (40, countIf isInf l), (48, countIf isNaN l)] ++ histCounts s 160 l

/-! ### The fold (R124) -/

/-- One element of the fold: the new element as stored, and its events. A sum that fails its check is not stored (R326). -/
def foldElem (o : Ovf) (bf16 : Bool) (m : Nat) (rd : Rnd) (old root : W32) (h : Option Hit := none) : NRes :=
  if m = 0 then (if bf16 then narrow o fmtBF16 rd root else { v := root.toNat })
  else
    let s := addR o old root h
    if s.ev.check ≠ 0 then { v := if bf16 then old.toNat / 2 ^ 16 else old.toNat, ev := { check := s.ev.check } }
    else if bf16 then
      let z := narrow o fmtBF16 rd s.v
      { z with ev := z.ev.or s.ev }
    else { v := s.v.toNat, ev := s.ev }

/-- The draw of an accumulator element (R70, R124). -/
def Job.accRnd (x : Job) (step m t e : Nat) : Rnd :=
  .sr ({ seed := x.seed, step := step, microBatch := m, tensor := t, element := e, use := .accumulator } : Draw).word

/-- The folded elements of a chunk: `roots` are the inflow over it, `e0` the first element in the tensor, `n` their number. -/
def Mach.foldList (k : Mach) (x : Job) (c step m e0 n : Nat) (roots : List W32) (u : Option Upset := none) : List NRes :=
  let t := owTensor (x.chunk c)
  let bf := tnBf16 (x.tensor t)
  (List.range n).map (fun q =>
    let e := e0 + q
    foldElem x.ovf bf m (x.accRnd step m t e) (k.acc x c (e - x.chunkFirst c)) (roots.getD q 0#32)
      (onElem u (e - x.chunkFirst c) 0))

/-- Elements of a list of results whose event holds, as indices from `e0`. -/
def eventAt (e0 : Nat) (l : List NRes) : List Nat := (l.zipIdx.filter (fun z => z.1.ev.overflow)).map (fun z => e0 + z.2)

/-- A fold of a chunk failed a check (R326): the chunk has no statistics in this step. -/
def Dev.foldFailed (d : Dev) (j c check element : Nat) : Dev := d.modJob j (fun y => { y with unsound := y.unsound ++ [(c, check, element)] })

/-- The statistics of a chunk after the last micro-batch (R125, R146, R171, R353 phase GRAD); none where a check failed in the sum. -/
def Mach.chunkDone (k : Mach) (j c : Nat) (u : Option Upset := none) : Mach :=
  let x := k.dev.job j
  let e := x.chunk c
  let g := k.accs x c
  let gd := k.gdig x c
  let s := k.dev.settings x (owTensor e)
  let sq := sumSqR x.ovf g u
  if sq.ev.check ≠ 0 then k.mod (·.foldFailed j c sq.ev.check ((u.map Upset.element).getD 0))
  else k.mod (fun d =>
    (d.modJob j (fun y =>
      ({ y with chunkStats := tset y.chunkStats c { gsq := sq.v, flags := gradFlags g, gdig := gd } }).addNumerics (owTensor e) (gradCounts s g))).compareDigest j
      { phase := 1, tensor := owTensor e, chunk := owChunk e, node := nodeWord (treeK x.ranks) 0 } true gd
      ((x.refProv x.rcStep (owTensor e) (owChunk e)).map (fun r => slice r 16 32)))

/-- A use's inflow is folded into one owned chunk (R84, R124). Where a residue check fails in some fold of the step, the chunk has no
statistics (R326). -/
def Mach.foldChunk (k : Mach) (j c : Nat) (b : Bytes) (m : Nat) (u : Option Upset) (roots : List W32) : Mach :=
  let x := k.dev.job j
  let e0 := max (bkFirst b) (x.chunkFirst c)
  let out := k.foldList x c x.rcStep m e0 (x.shared b c) roots u
  let bad := (out.map (fun z => z.ev.check)).foldl firstCheck 0
  let k := k.put (x.elemAt c 5 (e0 - x.chunkFirst c)) (out.flatMap (fun z => leBytes (x.accWidth c) z.v))
  let k := k.mod (·.modJob j (fun y =>
    { y with foldOverflow := tmod [] y.foldOverflow (owTensor (x.chunk c)) (fun l => (l ++ eventAt e0 out).eraseDups) }))
  let k := if bad = 0 then k else k.mod (·.foldFailed j c bad ((u.map Upset.element).getD 0))
  if m + 1 = x.accum ∧ !(k.dev.job j).unsound.any (fun e => e.1 == c) then k.chunkDone j c u else k

/-- A use's inflow is folded into every chunk of the bucket that is owned here; `bad` is a disturbance of one chunk's fold. -/
def Mach.foldUse (k : Mach) (j : Nat) (b : Bytes) (m : Nat) (bad : Option (Nat × Upset)) (inflow : Table (List W32)) : Mach :=
  inflow.foldl (fun k e => k.foldChunk j e.1 b m (bad.bind (fun u => if u.1 = e.1 then some u.2 else none)) e.2) k

/-! ### Update programs (R126 to R131) -/

/-- One lane's registers, the values stored by stream, and the element's events. -/
structure Lane where
  v : Table W32 := []
  p : List Bool := [true, false, false, false, false, false, false, false]
  q : Int := 0
  st : Table Nat := []
  ev : Ev := {}
  deriving DecidableEq, Repr

/-- What an element's program reads: its streams, its constants, and its random word; and a disturbance of one of its instructions. -/
structure LaneIn where
  ovf : Ovf
  streams : Table Nat
  consts : List W32
  rnd : Nat
  hit : Option (Nat × Nat × Hit) := none
  deriving DecidableEq, Repr

def Lane.pred (l : Lane) (i : Nat) : Bool := l.p.getD i false
def Lane.setPred (l : Lane) (i : Nat) (b : Bool) : Lane := if i = 0 then l else { l with p := l.p.set i b }
/-- A source: a register, or a constant. -/
def Lane.src (l : Lane) (i : LaneIn) (konst : Bool) (n : Nat) : W32 := if konst then i.consts.getD n 0#32 else tget 0#32 l.v n
/-- A result in a register, with its events. -/
def Lane.put (l : Lane) (n : Nat) (r : Res) : Lane := { l with v := tset l.v n r.v, ev := l.ev.or r.ev }

/-- The format of a CVT (R129). -/
def cvtFmt (imm : Nat) : Fmt :=
  match imm % 16 with
  | 1 => fmtBF16
  | 2 => fmtFP16
  | 3 => fmtE4M3
  | _ => fmtE5M2

/-- CVT: narrowed and widened back. -/
def cvtR (i : LaneIn) (imm : Nat) (a : W32) : Res :=
  let z := narrow i.ovf (cvtFmt imm) (if bit imm 4 then .sr i.rnd else .rne) a
  { v := widen (cvtFmt imm) z.v, ev := { z.ev with invalid := z.ev.invalid || (isNaN (widen (cvtFmt imm) z.v) && !isNaN a) } }

/-- QADD and QSUB (R129, R140, R141). -/
def Lane.qop (l : Lane) (i : LaneIn) (n : Nat) (a u : W32) (h : Option Hit) : Lane :=
  let r := qadd i.ovf a u l.q h
  { l with v := tset l.v n r.w, q := r.q, ev := l.ev.or r.ev }

/-- The operations whose result is a v register, by opcode; a disturbance falls on one of an instruction's inner steps. -/
def valueOp (i : LaneIn) (op imm : Nat) (a b c : W32) (h : Option (Nat × Hit) := none) : Option Res :=
  match op with
  | 0x01 => some (addR i.ovf a b (hitAt 0 h))
  | 0x02 => some (subR i.ovf a b (hitAt 0 h))
  | 0x03 => some (mulR i.ovf a b (hitAt 0 h))
  | 0x04 => some (fmaR i.ovf a b c (hitAt 0 h))
  | 0x05 => some (fmaR i.ovf (neg a) b c (hitAt 0 h))
  | 0x06 => some { v := minf a b }
  | 0x07 => some { v := maxf a b }
  | 0x08 => some { v := a }
  | 0x09 => some { v := absf a }
  | 0x0A => some { v := neg a }
  | 0x0B => some (if isFinite a then { v := a } else { v := b, ev := { fixnf := true } })
  | 0x10 => some (rcpR i.ovf a h)
  | 0x11 => some (sqrtR i.ovf a h)
  | 0x12 => some (rsqrtR i.ovf a h)
  | 0x13 => some (exp2R i.ovf a h)
  | 0x14 => some (log2R i.ovf a h)
  | 0x24 => some (cvtR i imm a)
  | _ => none

/-- The compares and predicate operations, by opcode. -/
def predOp (l : Lane) (op w : Nat) (a b : W32) : Option Bool :=
  match op with
  | 0x18 => some (cmpLt a b)
  | 0x19 => some (cmpLe a b)
  | 0x1A => some (cmpEq a b)
  | 0x1B => some (!isFinite a)
  | 0x1C => some (l.pred (inA w % 8) && l.pred (inB w % 8))
  | 0x1D => some (l.pred (inA w % 8) || l.pred (inB w % 8))
  | 0x1E => some (!l.pred (inA w % 8))
  | _ => none

/-- LD: qr from stream Q, else a register (R129, R130). -/
def Lane.load (l : Lane) (i : LaneIn) (w : Nat) : Lane :=
  if inImm w = 5 then { l with q := signed16 (tget 0 i.streams 5) }
  else { l with v := tset l.v (inDst w) (BitVec.ofNat 32 (tget 0 i.streams (inImm w))) }

/-- ST: qr to stream Q, else a value. -/
def Lane.store (l : Lane) (w : Nat) (a : W32) : Lane :=
  { l with st := tset l.st (inImm w) (if inImm w = 5 then intBits 16 l.q else a.toNat) }

/-- One instruction (R127 to R130), number `n` of its program. -/
def Lane.run (i : LaneIn) (l : Lane) (w : Nat) (n : Nat := 0) : Lane :=
  if l.pred (bits w 35 33) == bit w 36 then l
  else
    let a := l.src i (bit w 30) (inA w)
    let b := l.src i (bit w 31) (inB w)
    let c := l.src i (bit w 32) (inC w)
    let h := i.hit.bind (fun e => if e.1 = n then some e.2 else none)
    match valueOp i (inOp w) (inImm w) a b c h with
    | some r => l.put (inDst w) r
    | none =>
      match predOp l (inOp w) w a b with
      | some p => l.setPred (inDst w % 8) p
      | none =>
        match inOp w with
        | 0x20 => l.load i w
        | 0x21 => l.store w a
        | 0x22 => l.qop i (inDst w) a b (hitAt 0 h)
        | 0x23 => l.qop i (inDst w) a (neg b) (hitAt 0 h)
        | _ => l

/-- A program over one element. -/
def runProgram (i : LaneIn) (prog : Bytes) : Lane :=
  (List.range (pgCount prog)).foldl (fun l n => l.run i (pgInstr prog n) n) {}

/-- The constants k0 to k63 of a tensor (R131). -/
def Job.constsOf (x : Job) (t : Nat) (r : VerdictRes) : List W32 :=
  let e := x.tensor t
  let p := x.program (tnProgram e)
  let i := (x.tensorPos t).getD 0
  (List.range 48).map (pgConst p) ++
    [fp32Int (x.rcStep + 1), lrValue x.ovf x.rcStep (x.lrTable (pgLr p)), mulf x.ovf r.clip (pow2f (-(r.scales.getD i 0))),
      r.gsumsq.getD i 0#32, r.wsumsq.getD i 0#32, r.globalSum, r.clip, fp32Int x.accum, r.wamax.getD i 0#32] ++ List.replicate 7 0#32

/-- What element `i` of a chunk gives its program. -/
def Mach.laneIn (k : Mach) (x : Job) (c : Nat) (consts : List W32) (i : Nat) (u : Option Upset := none) : LaneIn :=
  let t := owTensor (x.chunk c)
  { ovf := x.ovf, consts := consts, hit := u.bind (fun y => if y.element = i then some (y.instr, y.op, y.hit) else none),
    streams := (0, (k.acc x c i).toNat) :: ([1, 2, 3, 4].filter (fun s => decide (s = 1) || (x.declared c).contains (s - 1))).map
        (fun s => (s, k.elem x c (s - 1) i)) ++ [(5, k.elem x c 4 i)],
    rnd := ({ seed := x.seed, step := x.rcStep, microBatch := 0xFFFF, tensor := t, element := x.chunkFirst c + i, use := .update } : Draw).word }

/-- The streams that an element's program stored reach its arrays (R127). -/
def Mach.storeLane (k : Mach) (x : Job) (c i : Nat) (l : Lane) : Mach :=
  l.st.foldl (fun k s => k.putElem x c (if s.1 = 5 then 4 else s.1 - 1) i s.2) k

/-- The counts of UPDATE (R171). -/
def updateCounts (evs : List Ev) : Table Nat :=
  let n (f : Ev → Bool) : Nat := (evs.filter f).length
  [(64, n Ev.overflow), (72, n Ev.saturated), (80, n Ev.invalid), (88, n Ev.underflow), (96, n Ev.fixnf)]

/-- The program runs over every element of a chunk; the stores of an element whose check failed are suppressed (R326). -/
def Mach.runChunk (k : Mach) (x : Job) (c : Nat) (consts : List W32) (u : Option Upset) : Mach × List Ev :=
  let prog := x.program (tnProgram (x.tensor (owTensor (x.chunk c))))
  (List.range (x.chunkElems c)).foldl (fun a i =>
    let l := runProgram (k.laneIn x c consts i u) prog
    (if l.ev.check = 0 then a.1.storeLane x c i l else a.1, a.2 ++ [l.ev])) (k, [])

/-- The provenance digest (R340). -/
def provOf (prev image pd wd0 gd wd1 : Bytes) (step : Nat) (skip : Bool) (consts : List W32) : Bytes :=
  sm3 ([0x50#8] ++ prev ++ image ++ pd ++ wd0 ++ gd ++ wd1 ++ leBytes 6 step ++ leBytes 1 (b2n skip) ++
    (if skip then List.replicate 36 0#8 else (slice (vecBytes consts) (4 * 48) 36)))

/-- wdig and prov of a chunk after its Update (R340, R342). -/
def Mach.stampProv (k : Mach) (j c : Nat) (skip : Bool) (consts : List W32) : Mach :=
  let x := k.dev.job j
  let t := owTensor (x.chunk c)
  let wd0 := tget [] x.wdig c
  let wd1 := if skip then wd0 else k.wdig x c
  let gd := ((x.chunkStats.find? (fun e => e.1 == c)).map (fun e => e.2.gdig)).getD (List.replicate 32 0#8)
  let pv := provOf (tget [] x.prov c) k.dev.keeper.imageDigest (x.pdig t) wd0 gd wd1 x.rcStep skip consts
  k.mod (·.modJob j (fun y => { y with stepProv := tset y.stepProv c (wd1, pv) }))

/-- A chunk counts as updated; with the last one the owner's Update has ended (R378). -/
def Dev.markUpdated (d : Dev) (j c : Nat) : Dev :=
  d.modJob j (fun x =>
    let l := x.updated ++ [c]
    { x with updated := l, rcPhase := if x.rcPhase = 3 ∧ x.owned.all l.contains then 4 else x.rcPhase })

/-- The Update of one chunk (R25 item 5): the program over an applied one, nothing over a skipped one; and the check that failed in it, 0
where none did. A disturbance past the program's last instruction falls on the statistics of the weights. -/
def Mach.updateChunk (k : Mach) (j c : Nat) (r : VerdictRes) (u : Option Upset) : Mach × Nat :=
  let x := k.dev.job j
  let t := owTensor (x.chunk c)
  let skip := (x.skipped t).getD false
  let consts := x.constsOf t r
  if skip then (k.stampProv j c true consts, 0)
  else
    let z := k.runChunk x c consts u
    let st := z.1.stampFrame x c (u.filter (fun y => y.instr == pgCount (x.program (tnProgram (x.tensor t)))))
    let k := st.1.mod (·.modJob j (fun y => y.addNumerics t (updateCounts z.2)))
    ((k.stampProv j c false consts).mod (·.compareWeight j c false), firstCheck ((z.2.map Ev.check).foldl firstCheck 0) st.2)

/-! ### Outflow (R151 to R157) -/

/-- k of an AMAX_HISTORY recipe for a tensor (R157). -/
def Job.outScale (x : Job) (e : Bytes) : Int :=
  if tnOut e = 0xFF then 0
  else
    let a := ((tget [] (tget {} x.recipes (tnOut e)).windows (tnIndex e))).foldl maxf 0#32
    if isZero a || !isFinite a then 0
    else clampInt (-126) 126 (15 - (rpMargin (nth x.recipeEntries (tnOut e)) : Int) - floorLog2 a)

/-- The next state of a GRADIENT_SCALE recipe at a counted step end (R156); `bad` says whether a governed tensor had a non-finite
gradient. -/
def stepRecipe (e : Bytes) (r : Recipe) (bad : Bool) : Recipe :=
  if bad then { r with s := max (r.s - 1) (rpMin e), count := 0 }
  else if rpWindow e ≤ r.count + 1 then { r with s := min (r.s + 1) (rpMax e), count := 0 }
  else { r with count := r.count + 1 }

/-- Whether a tensor that recipe `i` governs has nonfinite_grad in the Verdict vector. -/
def Job.recipeBad (x : Job) (i : Nat) : Bool :=
  x.tensorEntries.zipIdx.any (fun e => tnGrad e.1 == i && bit (tget 0#32 x.vecWords e.2).toNat 0)

/-- The gradient scale that the next step's contributions carry (R151, R156). -/
def Job.nextScale (x : Job) (e : Bytes) : Int :=
  if tnGrad e = 0xFF then 0
  else (stepRecipe (nth x.recipeEntries (tnGrad e)) (tget {} x.recipes (tnGrad e)) (x.recipeBad (tnGrad e))).s

/-- The rounding of an Outflow element (R153). -/
def Job.outRnd (x : Job) (t e : Nat) (stoch : Bool) : Rnd :=
  if stoch then .sr ({ seed := x.seed, step := x.rcStep, microBatch := 0xFFFF, tensor := t, element := e, use := .outflow } : Draw).word else .rne

/-- A fragment's weights in an Outflow format (R153): `e0` is its first element in the tensor, `i0` in the chunk, `scale` its k. The
multiplication by 2^k is operation 0 of each element; the conversions have no checker (R325). -/
def Job.outList (x : Job) (t fmt : Nat) (scale : Int) (e0 : Nat) (w : List W32) (u : Option Upset := none) (i0 : Nat := 0) : NarrowList :=
  match fmt with
  | 0 => { enc := vecBytes w, vals := w, evs := w.map (fun _ => {}) }
  | 1 => narrowScalars x.ovf fmtBF16 (fun _ => .rne) w
  | 2 => narrowScalars x.ovf fmtBF16 (fun i => x.outRnd t (e0 + i) true) w
  | 3 =>
    let m := if tnOut (x.tensor t) = 0xFF then w.map (fun v => ({ v := v } : Res)) 
      else w.zipIdx.map (fun v => mulR x.ovf v.1 (pow2f scale) (onElem u (i0 + v.2) 0))
    let z := narrowScalars x.ovf fmtFP16 (fun _ => .rne) (m.map Res.v)
    { z with evs := (m.zip z.evs).map (fun p => p.1.ev.or p.2) }
  | 4 => narrowBlocks x.ovf (fun _ => .rne) w
  | 5 => narrowBlocks x.ovf (fun i => x.outRnd t (e0 + i) true) w
  | _ => { enc := w.flatMap (fun v => leBytes 2 (splitHi v)) ++ w.flatMap (fun v => leBytes 2 (splitLo v)), vals := w, evs := w.map (fun _ => {}) }

/-- The counts of OUTFLOW (R171). -/
def outCounts (s : Bytes) (w : List W32) (z : NarrowList) : Table Nat :=
  let n (f : Ev → Bool) : Nat := (z.evs.filter f).length
  [(104, countIf isZero w), (112, countIf isSub w), (120, countIf (fun v => !isFinite v) w), (128, n Ev.overflow), (136, n Ev.saturated),
    (144, n Ev.underflow), (152, countIf isNaN z.vals)] ++ histCounts s 416 w

/-- The Outflow fragments that a chunk takes, and how many lie before it on its channel in the step (R154). -/
def Job.chunkFrags (x : Job) (c : Nat) : Nat := ceilDiv (x.chunkElems c) 4096
def Job.fragsBefore (x : Job) (c : Nat) : Nat :=
  let ch (i : Nat) : Nat := tnChannel (x.tensor (owTensor (x.chunk i)))
  ((x.owned.filter (fun i => decide (i < c) && ch i == ch c)).map x.chunkFrags).sum

/-- One fragment of a chunk's Outflow: header and payload. -/
def Job.outFrag (x : Job) (j c : Nat) (prov : Bytes) (w : List W32) (u : Option Upset) (i : Nat) : (Bytes × Bytes) × NarrowList :=
  let t := owTensor (x.chunk c)
  let e := x.tensor t
  let part := (w.drop (4096 * i)).take 4096
  let e0 := x.chunkFirst c + 4096 * i
  let z := x.outList t (tnFormat e) (x.outScale e) e0 part u (4096 * i)
  let seq := (tget 0 x.outSeq (tnChannel e) + x.fragsBefore c + i) % 2 ^ 32
  ((mkOutflow 0x11 j (tnChannel e) (b2n ((x.skipped t).getD false) + 2 * b2n x.completing) x.outGen (x.outScale e) seq t x.rcStep (tnFormat e)
      (x.nextScale e) e0 part.length prov, z.enc), z)

/-- A chunk's Outflow is formed: its fragments wait for TX slots, its values are counted once in the step, and its provenance is
compared (R154, R167, R353 phase PROV). -/
def Mach.formOutflow (k : Mach) (j c : Nat) (u : Option Upset) : Mach × Nat :=
  let x := k.dev.job j
  let en := x.chunk c
  let e := x.tensor (owTensor en)
  let w := k.weights x c
  let pv := x.provNow c
  let fs := (List.range (x.chunkFrags c)).map (x.outFrag j c pv w u)
  let s := k.dev.settings x (owTensor en)
  let bad := (fs.flatMap (fun f => f.2.evs.map Ev.check)).foldl firstCheck 0
  if bad ≠ 0 then (k, bad)
  else (k.mod (fun d =>
    let d := fs.foldl (fun d f => d.holdOut j (tarnHolder (owStack en)) (tnChannel e) (x.fanPorts (tnChannel e) 0) f.1.1 f.1.2) d
    let d := d.modJob j (fun y => { y with outFormed := y.outFormed ++ [c] })
    if x.outCounted.contains c then d
    else
      let z : NarrowList := { enc := [], vals := fs.flatMap (fun f => f.2.vals), evs := fs.flatMap (fun f => f.2.evs) }
      let d := d.modJob j (fun y => ({ y with outCounted := y.outCounted ++ [c] }).addNumerics (owTensor en) (outCounts s w z))
      d.compareDigest j { phase := 4, tensor := owTensor en, chunk := owChunk en } false pv
        ((x.refProv x.rcStep (owTensor en) (owChunk en)).map (fun r => slice r 80 32))), 0)

end Sys2Proof.Machine
end

