-- ==== Sys2Proof/Machine/Context.lean ====
section
/-! DEFINITION. Reduction contexts: what a received fragment or notice does, and the life of a use from its opening to its commit point
(R84, R91 to R99, R106, R108 to R114, R149, R150). -/

namespace Sys2Proof.Machine

/-! ### Receiving a fragment (R97 to R99, R106, R108) -/

/-- The context that a header's job, channel and bucket name here (R108 check 1). -/
def Dev.ctxFor (d : Dev) (h : Bytes) : Option Nat :=
  match (d.job (chJob h)).bucketEntries.find? (fun e => bkBucket e == chBucket h && bkChannel e == chChannel h) with
  | some e => if (d.ctx (bkCtx e)).state == .free then none else some (bkCtx e)
  | none => none

/-- The reserved bits of a contribution header. -/
def chReservedOk (h : Bytes) : Bool := decide (u8 h 2 < 64) && decide (u8 h 3 < 2) && u8 h 25 == 0 && fld h 46 2 == 0

/-- A tree_id whose fields hold valid values (R103, R115). -/
def treeIdOk (t : Nat) : Bool :=
  decide (t < 2 ^ 25) && decide (bits t 16 0 ≤ 65535) && decide (bits t 21 17 ≤ 16) && (bits t 21 17 == 0 || bits t 23 22 != 0)

/-- The node of a header lies in the header's own tree, at the level its kind asks for (R101, R108, R115). -/
def chNodeOk (h : Bytes) : Bool :=
  nodeValid (treeK (bits (chTree h) 16 0 + 1)) (chNode h) && ((nodeLevel (chNode h) == 0) == (chKind h == 1))

/-- micro_batch, step, formats and element count (R100, R115). -/
def chFieldsOk (h : Bytes) : Bool :=
  (if chOp h = 2 then chMicro h == 0xFFFF else decide (chMicro h ≤ 65533)) && chStep h != noStep && decide (chElem h ≤ 2) &&
    decide (chWire h ≤ 3) && decide (1 ≤ chCount h) && decide (chCount h ≤ 2 ^ 30)

/-- frag_offset, frag_count and payload length against the bucket's fragment size (R100, R105). -/
def chRangeOk (f : Nat) (h payload : Bytes) : Bool :=
  decide (chFrag h < chCount h) && chFrag h % f == 0 && chFragCount h == min f (chCount h - chFrag h) &&
    payload.length == payloadBytes (chWire h) (chFragCount h)

/-- A Verdict leaf's flag words have no reserved bit set (R146); `t` is the job's tensor count. -/
def verdictLeafOk (t : Nat) (h payload : Bytes) : Bool :=
  chOp h != 2 || chKind h != 1 || (List.range (min (chFragCount h) (t - chFrag h))).all (fun i => decide (fld payload (4 * i) 4 < 8))

/-- Check 3 of R108. -/
def chFormOk (x : Job) (b h payload : Bytes) : Bool :=
  chReservedOk h && chFieldsOk h && treeIdOk (chTree h) && chNodeOk h && chRangeOk (bkFrag b) h payload &&
    verdictLeafOk x.tensorEntries.length h payload

/-- Check 4 of R108: a child source or a node passed on, on its port. -/
def Job.expects (x : Job) (b h : Bytes) (port : Nat) : Bool :=
  (x.nodesOf (bkBucket b)).any (fun e => (ndKind e == 2 || ndKind e == 3) && ndNode e == chNode h && ndIn e == port)

/-- Check 6 of R108: against the bucket's descriptor and the fragments accepted for the use. -/
def Job.descOk (x : Job) (b h : Bytes) (frags : List Frag) : Bool :=
  chOp h == bkOp b && chElem h == bkElem b && chCount h == bkCount b && chTree h == x.treeId b &&
    frags.all (fun f => Sys2Proof.Machine.chSeq f.header != Sys2Proof.Machine.chSeq h || chHash f.header == chHash h)

/-- Whether a header's wire_format is the one that R101 and R105 ask of its own elem_type, tree_id and node level (check 5). -/
def chWireOk (h : Bytes) : Bool :=
  let l := bits (chTree h) 21 17
  if chKind h = 1 then chWire h == chElem h
  else if l = 0 ∨ nodeLevel (chNode h) < l then chWire h == 0
  else chWire h == bits (chTree h) 23 22

/-- Checks 3 to 6 of R108: the status of the first that fails. -/
def Job.fragStatus (x : Job) (b : Bytes) (frags : List Frag) (port : Nat) (h payload : Bytes) : Option Nat :=
  if !chFormOk x b h payload then some stCtxMalformed
  else if !x.expects b h port then some stTreeUnexpected
  else if !chWireOk h then some stFormatMismatch
  else if !x.descOk b h frags then some stDescMismatch
  else none

/-- The bytes of a job's spilled fragments, and its spill region (R106, R122). -/
def Dev.spilledBytes (d : Dev) (j : Nat) : Nat :=
  (((d.ctxsOf j).flatMap (fun c => (d.ctx c).frags.filter (fun f => f.spilled && !f.taken))).map (fun f => 48 + f.payload.length)).sum
def Job.spillRegion (x : Job) : Nat := ((List.range 8).map (fun k => x.allot k 5)).sum

/-- An accepted fragment is digested, and joins its context's held ones (R332). -/
def Dev.keepFrag (d : Dev) (c port : Nat) (route h payload : Bytes) (spilled : Bool) : Dev :=
  let f : Frag :=
    { port := port, header := h, payload := payload, tick := d.tick, spilled := spilled, gen := (d.port port).linkGen, route := route }
  (d.modCtx c (fun x => { x with frags := x.frags ++ [f], spilled := x.spilled || spilled })).digestFrag c port false h payload

/-- A fragment that staging does not take goes to the spill region, or aborts the context (R106, R315). -/
def Dev.spillFrag (d : Dev) (c port : Nat) (route h payload : Bytes) (refused : Bool) : Dev :=
  let n := 48 + payload.length
  let j := chJob h
  if (d.job j).spillRegion < d.spilledBytes j + n then d.abortCtx c stSpillFull (d.ownNode c) none
  else ((d.countJob j 0x013 (b2n refused)).countJob j 0x014 n).keepFrag c port route h payload true

/-- A fragment that has passed every check is held (R28, R106). -/
def Dev.takeFrag (d : Dev) (c port : Nat) (route h payload : Bytes) : Dev :=
  let b := d.bucketOf c
  match d.poolTake (.context (chJob h) (bkQuota b * 1024)) (ctxHolder c) (fragItem h) (48 + payload.length) with
  | (.taken, d) => (d.countDev 0x100 (48 + payload.length)).keepFrag c port route h payload false
  | (.overQuota, d) => d.spillFrag c port route h payload false
  | (.refused, d) => d.spillFrag c port route h payload true

/-- The same fragment has been received already (R99). -/
def Ctx.holds (x : Ctx) (h : Bytes) : Bool :=
  x.frags.any (fun f => chSeq f.header == chSeq h && chNode f.header == chNode h && chFrag f.header == chFrag h)

/-- How a header's generation stands to its context's (R98): the counter of the drop, or none. -/
def genDrop (gen ctx : Nat) : Option Nat := if gen = ctx then none else if serialAfter 16 gen ctx then some 0x005 else some 0x004

/-- A fragment for a context, from the generation on (R97, R98, R108). -/
def Dev.ctxFrag (d : Dev) (c port : Nat) (route h payload : Bytes) : Dev :=
  let x := d.ctx c
  let j := d.job (chJob h)
  if x.state == .aborted || x.state == .resetting then d.countJob (chJob h) 0x007 1
  else match genDrop (chGen h) x.generation with
    | some n => d.countJob (chJob h) n 1
    | none =>
      if chSeq h ≠ x.sequence ∧ serialAfter 32 (chSeq h) x.sequence = false then d.countJob (chJob h) 0x003 1
      else if 3 < serialDist 32 (chSeq h) x.sequence then d.abortCtx c stSeqWindow (d.ownNode c) none
      else match j.fragStatus (d.bucketOf c) x.frags port h payload with
        | some st => d.abortCtx c st (d.ownNode c) none
        | none => if x.holds h then d.countJob (chJob h) 0x006 1 else d.takeFrag c port route h payload

/-- A LEAF or PARTIAL fragment (R108), with the route header it came with. -/
def Dev.fragmentRx (port : Nat) (route h payload : Bytes) (d : Dev) : Dev :=
  if (d.job (chJob h)).state == .empty then d.countJob (chJob h) 0x001 1
  else if chKind h = 7 then d
  else if ¬ ((chKind h = 1 ∨ chKind h = 2) ∧ (chOp h = 1 ∨ chOp h = 2)) then d.countJob (chJob h) 0x002 1
  else match d.ctxFor h with
    | none => d.countJob (chJob h) 0x002 1
    | some c => (d.countJob (chJob h) 0x009 (b2n (chReplay h))).ctxFrag c port route h payload

def execFragmentRx (port : Nat) (header payload : Bytes) (now : Nat) (s : State) (route : Bytes := []) : Host.Outcome State Fault Refusal :=
  .next (s.event now (Dev.fragmentRx port route header payload))

/-! ### Abort notices (R108, R110, R113) -/

/-- The status of a notice that passes its one check. -/
def noticeStatus (h payload : Bytes) : Option Nat :=
  let st := fld payload 0 2
  if payload.length = 8 ∧ zeros payload 2 6 = true ∧ chReservedOk h = true ∧ 0x0301 ≤ st ∧ st ≤ 0x030D then some st else none

/-- A notice is sent on, once per sequence and generation (R110). -/
def Dev.forwardNotice (d : Dev) (c port : Nat) (h : Bytes) (st : Nat) : Dev :=
  if (d.ctx c).forwarded.contains (chSeq h, chGen h) then d
  else d.sendNotices c (chSeq h) (chGen h) (chStep h) (chMicro h) st (chNode h) (some port)

/-- A notice that has passed its check acts by its sequence (R110). -/
def Dev.actNotice (d : Dev) (c port : Nat) (h : Bytes) (st : Nat) : Dev :=
  let x := d.ctx c
  if chSeq h = x.sequence then d.abortCtx c st (chNode h) (some port)
  else if serialAfter 32 (chSeq h) x.sequence then
    if 3 < serialDist 32 (chSeq h) x.sequence then d.abortCtx c stSeqWindow (d.ownNode c) none
    else
      let d := d.forwardNotice c port h st
      if x.heldAborts.any (fun a => a.seq == chSeq h) then d
      else d.modCtx c (fun x =>
        { x with heldAborts := x.heldAborts ++ [{ seq := chSeq h, gen := chGen h, status := st, node := chNode h, port := port }] })
  else (d.forwardNotice c port h st).countJob (chJob h) 0x008 1

/-- A notice for a context, from the generation on. -/
def Dev.ctxNotice (d : Dev) (c port : Nat) (h payload : Bytes) : Dev :=
  let x := d.ctx c
  if x.state == .aborted || x.state == .resetting then d.countJob (chJob h) 0x007 1
  else match genDrop (chGen h) x.generation with
    | some n => d.countJob (chJob h) n 1
    | none => match noticeStatus h payload with
      | some st => d.actNotice c port h st
      | none => d.abortCtx c stCtxMalformed (d.ownNode c) none

/-- An ABORT packet (R108, R110). -/
def Dev.noticeRx (port : Nat) (h payload : Bytes) (d : Dev) : Dev :=
  if chKind h ≠ 7 then d
  else if (d.job (chJob h)).state == .empty then d.countJob (chJob h) 0x001 1
  else if ¬ (chOp h = 1 ∨ chOp h = 2) then d.countJob (chJob h) 0x002 1
  else match d.ctxFor h with
    | none => d.countJob (chJob h) 0x002 1
    | some c => d.ctxNotice c port h payload

def execAbortNoticeRx (port : Nat) (header payload : Bytes) (now : Nat) (s : State) : Host.Outcome State Fault Refusal :=
  .next (s.event now (Dev.noticeRx port header payload))

/-! ### Opening (R92, R114) -/

/-- Entries of both sections: those of the micro-batches first. -/
def Job.entryCount (x : Job) : Nat := scMb x.sched + scTail x.sched

/-- The tick at which round `m` of an entry has its section start: a micro-batch's, or the tail's (R206, R501). -/
def Job.roundStart (x : Job) (i m : Nat) : Nat := if i < scMb x.sched then x.launchTick + m * scPeriod x.sched else x.tailStart

/-- Whether that section has started. -/
def Job.begun (x : Job) (i m : Nat) : Bool :=
  match x.runSection with
  | some (.microBatch k) => decide (i < scMb x.sched ∧ m ≤ k)
  | some .tail => true
  | none => false

/-- The tick at which a round of an entry is due by its lag, before any wait for a window (R216). -/
def Dev.dueAt (d : Dev) (j i m : Nat) : Nat :=
  let x := d.job j
  let e := scSlot x.sched i
  x.roundStart i m + slStart e + d.lagOn x (resDie (slResource e))

/-- The round of its section that a context's current use falls in. -/
def Ctx.round (x : Ctx) : Nat := if x.bucket = verdictBucket then 0 else x.microBatch

/-- The entry with the scheduled open slot of a context's use (R92): the one of its section that starts earliest and names its bucket. -/
def Dev.openEntry (d : Dev) (c : Nat) : Option Nat :=
  let x := d.ctx c
  let s := (d.job x.job).sched
  let mine := (List.range (scMb s + scTail s)).filter (fun i =>
    (decide (scMb s ≤ i) == decide (x.bucket = verdictBucket)) && slChannel (scSlot s i) == x.channel && slBucket (scSlot s i) == x.bucket)
  (sortBy (fun a b => decide (slStart (scSlot s a) ≤ slStart (scSlot s b))) mine).head?

/-- Whether the scheduled open slot of a context's use is reached (R92). -/
def Dev.openSlot (d : Dev) (c : Nat) : Bool :=
  let x := d.ctx c
  (d.openEntry c).any (fun i => (d.job x.job).begun i x.round && decide (d.dueAt x.job i x.round ≤ d.tick))

/-- A use may open: its slot is reached and the channel's previous use is past its commit point. In the tail of a completion launch none
does (R382). -/
def Dev.mayOpen (d : Dev) (c : Nat) : Bool :=
  let x := d.ctx c
  let j := d.job x.job
  x.state == .armed && x.launched && j.live && !j.completing && tget 0 j.chSeq x.channel == x.sequence && d.openSlot c

/-- The use opens (R92): held fragments are released for combining, and the hang timer starts. A use whose Basin is out of service without a
spare is aborted with ST_BASIN_FAULT (R114); the same where that Basin is still in its test after a reset, which R370 leaves open (DESIGN
CHOICE, log entry 56). -/
def Dev.openCtx (c : Nat) (d : Dev) : Dev :=
  if !d.mayOpen c then d
  else if d.unitDown (d.ctx c).basin then d.abortCtx c stBasinFault (d.ownNode c) none
  else
    let x := d.ctx c
    let d := d.modCtx c (fun x =>
      { x with state := .opened, openTick := d.time, spilled := x.frags.any (fun f => f.spilled && chSeq f.header == x.sequence) })
    let d := d.siltCtx c .armed
    if x.bucket = verdictBucket ∧ (d.job x.job).onList = true then d.modJob x.job (fun j => { j with rcPhase := max j.rcPhase 2 }) else d

def execCtxOpen (ctx now : Nat) (s : State) : Host.Outcome State Fault Refusal := .next (s.event now (Dev.openCtx ctx))

/-- The last hosted node of the use has been computed (R92). -/
def Dev.drainCtx (c : Nat) (d : Dev) : Dev :=
  if (d.ctx c).state == .opened && d.computed c then
    (d.modCtx c (fun x => { x with state := .draining })).siltCtx c .opened
  else d

def execCtxDrain (ctx now : Nat) (s : State) : Host.Outcome State Fault Refusal := .next (s.event now (Dev.drainCtx ctx))

/-! ### The commit point (R84, R93, R95, R110, R170) -/

/-- The port by which a hosted node's value leaves; none where it is consumed here or is the root. -/
def Job.outPort (x : Job) (b w : Nat) : Option Nat :=
  ((x.nodesOf b).find? (fun e => ndKind e == 1 && ndNode e == w)).bind (fun e => if ndOut e < 96 then some (ndOut e) else none)

/-- The port by which a node passed on leaves. -/
def Job.passPort (x : Job) (b w : Nat) : Option Nat :=
  ((x.nodesOf b).find? (fun e => ndKind e == 3 && ndNode e == w)).bind (fun e => if ndOut e < 96 then some (ndOut e) else none)

/-- The nodes that the device passes on for a bucket. -/
def Job.passed (x : Job) (b : Nat) : List Nat :=
  (((x.nodesOf b).filter (fun e => ndKind e == 3)).map ndNode).filter (fun w => (x.passPort b w).isSome)

/-- Whether a flit of a use that a test names waits in an output queue, or for its acknowledgement (R93, R272). -/
def Dev.inFlight (d : Dev) (p : Nat × Nat × Nat → Bool) : Bool :=
  d.ports.any (fun e => e.2.feed.any (fun f => f.2.use.any p) || e.2.outQ.any (fun q => q.2.any (fun f => f.use.any p)) || e.2.retained.any (fun r => r.use.any p))

/-- Whether an output of an earlier use of a channel has not yet been accepted by its next hop (R96). -/
def Dev.outputsBefore (d : Dev) (j ch seq : Nat) : Bool :=
  let earlier (q : Nat) : Bool := serialAfter 32 seq q
  d.ctxs.any (fun e => e.2.job == j && e.2.channel == ch && e.2.frags.any (fun f =>
      !f.taken && earlier (chSeq f.header) && ((d.job j).passPort e.2.bucket (chNode f.header)).isSome)) ||
    d.inFlight (fun u => u.1 == j && u.2.1 == ch && earlier u.2.2)

/-- Whether the next hop has accepted every output of the use at the link layer (R93): hosted values with a port, and every node passed
on. -/
def Dev.outputsSent (d : Dev) (c : Nat) : Bool :=
  let x := d.ctx c
  let j := d.job x.job
  let b := d.bucketOf c
  (fragOffs b).all (fun off =>
    (j.hosted x.bucket).all (fun w => (j.outPort x.bucket w).isNone || (x.nodeOf w off).any NodeVal.sent) &&
      (j.passed x.bucket).all (fun w => (x.fragOf w off).any Frag.taken)) &&
    !d.inFlight (· == (x.job, x.channel, x.sequence))

/-- The use's counts join the step's (R170, R173). -/
def Job.addSite (x : Job) (t : Nat) (hosts : Bool) (u : Ctx) : Job :=
  if !hosts then x
  else
    { x with
      snum := tmod [] x.snum t (fun b => addCounts b u.useCounts),
      firstNonfinite := tmod 0xFFFFFFFF x.firstNonfinite t (min u.firstNonfinite) }

/-- A written remainder copy becomes the one that the next micro-batch reads, or takes the Verdict's decision (R88). In Lysros-exact mode the
committed copy is written as +0 too (R187). -/
def Job.commitRem (x : Job) (b : Nat) (v : NodeVal) (decision : Option Bool) : Job :=
  let r := ((x.remOf b v.node v.frag).getD { bucket := b, node := v.node, frag := v.frag, committed := v.vals.map (fun _ => 0#32) })
  let r := { r with working := some v.vals, committed := if x.lysros then r.committed.map (fun _ => 0#32) else r.committed }
  { x with rems := x.rems.filter (fun q => !(q.bucket == b && q.node == v.node && q.frag == v.frag)) ++
      [match decision with | some s => r.decide s | none => r] }

def Job.commitRems (x : Job) (u : Ctx) (t : Nat) : Job :=
  u.remW.foldl (fun x v => x.commitRem u.bucket v (if u.microBatch + 1 = x.accum then x.skipped t else none)) x

/-- The arrival skew of a use (R441): last arrival minus first. -/
def Ctx.skew (x : Ctx) : Nat :=
  let ts := (x.frags.filter (fun f => chSeq f.header == x.sequence && decide (f.port < 96))).map Frag.tick
  ts.foldl max 0 - ts.foldl min (ts.foldl max 0)

/-- A context moves on to its bucket's next use (R92, R95). -/
def Ctx.advance (x : Ctx) (uses accum : Nat) (keep : Frag → Bool) : Ctx :=
  let verdict := decide (x.bucket = verdictBucket)
  let last := verdict || decide (accum ≤ x.microBatch + 1)
  { x with
    state := .armed, status := 0, sequence := (x.sequence + uses) % 2 ^ 32,
    microBatch := if verdict then 0xFFFF else if last then 0 else x.microBatch + 1, launched := x.launched && !last,
    frags := x.frags.filter (fun f => chSeq f.header != x.sequence || keep f), nodes := [], remW := [], useCounts := [],
    firstNonfinite := 0xFFFFFFFF, digests := x.digests.filter (fun u => serialAfter 32 u.seq x.sequence) }

/-- The number of uses on a channel from one use of a bucket to its next (R95). -/
def Job.stride (x : Job) (c : Nat) : Nat := (x.channelBuckets c).length

/-- A held notice aborts the use that has become the current one (R110). -/
def Dev.nextUse (d : Dev) (c : Nat) : Dev :=
  let x := d.ctx c
  match x.heldAborts.find? (fun a => a.seq == x.sequence) with
  | none => d
  | some a =>
    let d := d.modCtx c (fun x => { x with heldAborts := x.heldAborts.filter (fun q => q.seq != x.sequence) })
    d.abortCtx c a.status a.node (some a.port)

/-- The use is done (R92, R93): its records and counts are written, and the context is ARMED for the next. -/
def Dev.finishUse (d : Dev) (c : Nat) : Dev :=
  let x := d.ctx c
  let j := d.job x.job
  let b := d.bucketOf c
  let hosts := decide (x.bucket ≠ verdictBucket) && decide (j.hosted x.bucket ≠ [])
  let d := (((d.nodeDigests c).auditUse c false).sample 1 c x.skew).modJob x.job (fun y =>
    { ((y.addSite (bkTensor b) hosts x).commitRems x (bkTensor b)) with
      chSeq := tset y.chSeq x.channel ((x.sequence + 1) % 2 ^ 32) })
  let d := d.poolFree (fun h => h.holder == ctxHolder c && x.frags.any (fun f =>
    chSeq f.header == x.sequence && !f.taken && (j.passPort x.bucket (chNode f.header)).isNone && fragItem f.header == h.item))
  let d := d.modCtx c (fun y => y.advance (j.stride x.channel) j.accum (fun f => !f.taken && (j.passPort x.bucket (chNode f.header)).isSome))
  (d.siltCtx c .draining).nextUse c

/-- The Verdict use at a device of the result list: its sequence and generation are recorded, and the root site writes the result
(R147, R150, R377). -/
def Dev.verdictCommit (d : Dev) (c : Nat) (roots : Option (List W32)) : Dev :=
  let x := d.ctx c
  let j := d.job x.job
  let d := if j.onList then d.modJob x.job (fun y => { y with vseq := some (x.sequence, x.generation) }) else d
  match roots with
  | none => d
  | some v =>
    ((d.modJob x.job (fun y => { (y.takeWords 0 v) with rootCommitted := true })).holdResult x.job false).completeVerdict x.job

/-- Whether the schedule writes a chunk's root values of a bucket with an HBM_WR slot. -/
def Job.inflowSlots (x : Job) (b : Bytes) (c : Nat) : Bool :=
  (scMbSlots x.sched).any (fun e => slKind e == 6 && slChannel e == bkChannel b && slBucket e == bkBucket b && slChunk e == c)

/-- The chunks of a bucket that are owned here. -/
def Job.chunksHere (x : Job) (b : Bytes) : List Nat := x.owned.filter (fun c => decide (0 < x.shared b c))

/-- The root values of a use that fall into one chunk. -/
def Job.rootPart (x : Job) (b : Bytes) (c : Nat) (roots : List W32) : List W32 :=
  (roots.drop (max (bkFirst b) (x.chunkFirst c) - bkFirst b)).take (x.shared b c)

/-- Whether the inflow slot of a channel and sequence number is free over a chunk: the fold of the use two numbers earlier has ended
(R123). -/
def Job.inflowFree (x : Job) (ch seq c : Nat) : Bool :=
  x.inflow.all (fun v => v.channel != ch || v.slot != seq % 2 || (v.seq == seq && v.chunk != c))

/-- A use's root values in its channel's inflow slot, over one chunk. -/
def Job.putInflow (x : Job) (b : Bytes) (ch seq c : Nat) (roots : List W32) : Job :=
  { x with inflow := x.inflow ++ [{ channel := ch, slot := seq % 2, chunk := c, seq := seq, vals := x.rootPart b c roots }] }

/-- The inflow of a use over one chunk. -/
def Job.inflowOf (x : Job) (ch seq c : Nat) : Option (List W32) :=
  (x.inflow.find? (fun v => v.channel == ch && v.seq == seq && v.chunk == c)).map Inflow.vals

/-- The inflow of a use, by chunk: as HBM_WR slots have written it, or the root's values where the schedule gives the chunk no such slot
(DESIGN CHOICE, log entry 58). None where a slot has still to write. -/
def Job.inflowAll (x : Job) (b : Bytes) (ch seq : Nat) (roots : List W32) : Option (Table (List W32)) :=
  let l := (x.chunksHere b).map (fun c => (c, if x.inflowSlots b c then x.inflowOf ch seq c else some (x.rootPart b c roots)))
  if l.all (fun e => e.2.isSome) then some (l.map (fun e => (e.1, e.2.getD []))) else none

/-- A DRAINING use passes its commit point; `bad` is a disturbance of one chunk's fold. Where its root is here that is an act of the
job's sequencer, which a halted job no longer makes (R379). -/
def Mach.commitUse (k : Mach) (c : Nat) (bad : Option (Nat × Upset)) : Mach :=
  let d := k.dev
  let x := d.ctx c
  let j := d.job x.job
  let b := d.bucketOf c
  if x.state != .draining then k
  else if j.rootHere b then
    match d.rootVals c with
    | none => k
    | some v =>
      if j.stopped then k
      else if x.bucket = verdictBucket then k.mod (fun d => (d.verdictCommit c (some v)).finishUse c)
      else match j.inflowAll b x.channel x.sequence v with
        | none => k
        | some l =>
          let k := (k.foldUse x.job b x.microBatch bad l).mod (·.modJob x.job (fun y =>
            { y with inflow := y.inflow.filter (fun v => !(v.channel == x.channel && v.seq == x.sequence)) }))
          (k.mod (·.finishUse c)).enterVerdict x.job
  else if d.outputsSent c then
    k.mod (fun d => ((if x.bucket = verdictBucket then d.verdictCommit c none else d).finishUse c))
  else k

def execCtxCommit (ctx now : Nat) (s : State) : Host.Outcome State Fault Refusal := .next (s.act now (fun k => k.commitUse ctx none))

/-! ### Hang, reset and the Verdict's absence (R92, R112, R149, R379) -/

/-- The hang time-out of a use has passed (R112); none runs while the job is HALTED (R379). -/
def Dev.hangCtx (c : Nat) (d : Dev) : Dev :=
  let x := d.ctx c
  let j := d.job x.job
  if (x.state == .opened || x.state == .draining) && j.state != .halted && decide (x.openTick + j.hangTicks < d.time) then
    d.abortCtx c stHangTimeout (d.ownNode c) none
  else d

def execHangTimeout (ctx now : Nat) (s : State) : Host.Outcome State Fault Refusal := .next (s.event now (Dev.hangCtx ctx))

/-- A context reset is complete (R92): the next generation, the same sequence. The slots of its bucket may then serve the replayed use
again (DESIGN CHOICE, log entry 59). -/
def Dev.resetDone (c : Nat) (d : Dev) : Dev :=
  if (d.ctx c).state == .resetting then
    let d := d.modJob (d.ctx c).job (fun x => { x with moved := [] })
    (d.modCtx c (fun x =>
      { x with state := .armed, status := 0, spilled := false, generation := (x.generation + 1) % 2 ^ 16, forwarded := [] })).siltCtx c .resetting
  else d

def execCtxResetComplete (ctx now : Nat) (s : State) : Host.Outcome State Fault Refusal := .next (s.event now (Dev.resetDone ctx))

/-- A device of the result list still lacks the whole vector at the hang time-out (R149). -/
def Dev.verdictLate (j : Nat) (d : Dev) : Dev :=
  let x := d.job j
  match x.bucket verdictBucket with
  | none => d
  | some b =>
    if x.onList && x.vres.isNone && x.state != .halted && x.rcPhase == 2 && !x.verdictRaised &&
        decide ((d.ctx (bkCtx b)).openTick + x.hangTicks < d.time) then
      (d.modJob j (fun y => { y with verdictRaised := true })).recordFault { source := 0x0E03, job := some j, step := x.rcStep }
    else d

def execVerdictMissing (job now : Nat) (s : State) : Host.Outcome State Fault Refusal := .next (s.event now (Dev.verdictLate job))

/-! ### Outflow and VERDICT_RESULT (R149 to R154) -/

/-- The fields of an Outflow header that every device checks, for a kind (R151 to R154). -/
def outFormOk (kind : Nat) (h payload : Bytes) : Bool :=
  ohKind h == kind && decide (u8 h 2 < 64) && decide (u8 h 3 < 4) && decide (fld h 12 4 < 2 ^ 20) && ohStep h != noStep &&
    (if kind = 0x11 then decide (ohFormat h ≤ 6) else ohFormat h == 0 && ohTensor h == 0xFFFFF) && decide (ohOff h < 2 ^ 43) &&
    zeros h 34 14 && decide (1 ≤ ohCount h) && decide (ohCount h ≤ 4096) && payload.length == outPayload (ohFormat h) (ohCount h)

/-- Whether a fan-out entry matches a channel and kind: 0 WEIGHTS, 1 VERDICT_RESULT (R280). -/
def Job.hasFan (x : Job) (chan fan : Nat) : Bool := x.fanEntries.any (fun e => fnChannel e == chan && fnKind e == fan)

/-- A received Outflow fragment that passes the checks waits for the ports of its fan-out, but the one it came on (R154, R280). -/
def Dev.forwardOut (d : Dev) (port fan : Nat) (route h payload : Bytes) : Dev :=
  d.holdOut (ohJob h) (portHolder port) (ohChannel h) (((d.job (ohJob h)).fanPorts (ohChannel h) fan).filter (· != port)) h payload route

/-- A WEIGHTS fragment is received (R154); a kind that R152 reserves is malformed. -/
def Dev.outflowRx (port : Nat) (route h payload : Bytes) (d : Dev) : Dev :=
  if (d.job (ohJob h)).state == .empty then d.countJob (ohJob h) 0x001 1
  else if ohKind h = 0x12 then d
  else if outFormOk 0x11 h payload && (d.job (ohJob h)).hasFan (ohChannel h) 0 then
    (d.digestOut port false h payload).forwardOut port 0 route h payload
  else d.countJob (ohJob h) 0x00A 1

def execOutflowRx (port : Nat) (header payload : Bytes) (now : Nat) (s : State) (route : Bytes := []) : Host.Outcome State Fault Refusal :=
  .next (s.event now (Dev.outflowRx port route header payload))

/-- Whether the job takes VERDICT_RESULT fragments (R150). -/
def Job.takesResults (x : Job) : Bool := x.state == .running || (x.state == .halted && x.replanned)

/-- What a device of the list does with a fragment (R150): takes it, or the counter of its drop. -/
inductive ResultFate where
  | take
  | stale
  | dup
  | drop
  deriving DecidableEq, Repr

def Job.resultFate (x : Job) (h : Bytes) : ResultFate :=
  match x.vseq with
  | none => if ohStep h ≠ x.rcStep then .stale else .drop
  | some q =>
    if ohStep h ≠ x.rcStep ∨ ohGen h ≠ q.2 then .stale
    else if !x.takesResults || ohSeq h != q.1 then .drop
    else if (List.range (ohCount h)).all (fun i => thas x.vecWords (ohOff h + i)) then .dup
    else .take

/-- A fragment's words are taken; with the last one the Verdict completes (R147). -/
def Dev.takeResult (d : Dev) (h payload : Bytes) : Dev :=
  let j := ohJob h
  let d := d.modJob j (fun x => x.takeWords (ohOff h) (decodeWire x.ovf 0 (ohCount h) payload))
  if (d.job j).vecWhole && (d.job j).vres.isNone then d.completeVerdict j else d

/-- Whether a range lies in the vector, at a device that has a buffer for it (R11): one of the result list. -/
def Job.resultFits (x : Job) (h : Bytes) : Bool := !x.onList || decide (ohOff h + ohCount h ≤ x.vecWordCount)

/-- A VERDICT_RESULT fragment (R150): forwarded by the fan-out, and taken at a device of the result list; one that is dropped there is
forwarded, but not digested as received (R332). A range past the vector makes it malformed, and it is counted in OUT_MALFORMED (R11; the
counter is a DESIGN CHOICE, log entry 36). -/
def Dev.resultRx (port : Nat) (route h payload : Bytes) (d : Dev) : Dev :=
  let j := ohJob h
  let x := d.job j
  if x.state == .empty then d.countJob j 0x001 1
  else if ohKind h ≠ 0x12 then d
  else if !(outFormOk 0x12 h payload && x.hasFan (ohChannel h) 1 && x.resultFits h) then d.countJob j 0x00A 1
  else
    let d := if !x.onList || x.resultFate h == .take then d.digestOut port false h payload else d
    let d := d.forwardOut port 1 route h payload
    if !x.onList then d
    else match x.resultFate h with
      | .take => d.takeResult h payload
      | .stale => d.countJob j 0x004 1
      | .dup => d.countJob j 0x006 1
      | .drop => d

def execVerdictResultRx (port : Nat) (header payload : Bytes) (now : Nat) (s : State) (route : Bytes := []) : Host.Outcome State Fault Refusal :=
  .next (s.event now (Dev.resultRx port route header payload))

end Sys2Proof.Machine
end

