-- ==== Sys2Proof/Machine/Slots.lean ====
section
/-! DEFINITION. What the slots of a compiled schedule do, and the lag of a sequencer that runs behind it (R208, R211 to R220, R326). -/

namespace Sys2Proof.Machine

/-! ### When a slot acts (R210, R213, R216) -/

/-- The start of the present or next claimed window of a job on a resource, from tick `t` on. -/
def Job.nextClaim (x : Job) (res t : Nat) : Nat :=
  let w (k : Nat) : Nat := (t / 325 + k) % 30
  if x.claimsNow res (w 0) then t
  else match ((List.range 30).map (· + 1)).find? (fun k => x.claimsNow res (w k)) with
    | some k => (t / 325 + k) * 325
    | none => t

/-- Lag added on a die. -/
def Job.addLag (x : Job) (die n : Nat) : Job := if die = 0 then { x with lag0 := x.lag0 + n } else { x with lag1 := x.lag1 + n }

/-- How often entry `i` acts in a launch: once a micro-batch, or once in the tail (R206, R501). -/
def Job.rounds (x : Job) (i : Nat) : Nat := if i < scMb x.sched then (if x.completing then 0 else x.accum) else 1

/-- The place of an entry's action in its section, by which actions are ordered (R215, R216): its start, or the release cycle of what it
takes. -/
def slPlace (e : Bytes) (take : Bool) : Nat := slStart e + (if take then slLength e + slSlack e else 0)

/-- How many rounds of an entry have their place before tick `t`. -/
def Job.roundsBefore (x : Job) (i place t : Nat) : Nat :=
  let first := x.roundStart i 0 + place
  if t ≤ first then 0 else if i < scMb x.sched then min (x.rounds i) (ceilDiv (t - first) (scPeriod x.sched)) else 1

/-- Whether every action of a die with its place before tick `t` has been taken (R216: slots act in the order of their ticks). -/
def Job.inOrder (x : Job) (die t : Nat) : Bool :=
  (List.range x.entryCount).all (fun k =>
    let e := scSlot x.sched k
    resDie (slResource e) != die ||
      (decide (x.roundsBefore k (slPlace e (slKind e == 1)) t ≤ tget 0 x.acted k) &&
        (slKind e != 5 || decide (x.roundsBefore k (slPlace e true) t ≤ tget 0 x.returned k))))

/-- Whether the job's slots of a kind act: its sequencer goes on, or its Update runs to the end (R379). -/
def Job.acts (x : Job) (kind : Nat) : Bool := x.live || (kind == 4 && x.updating)

/-- Whether entry `i` is one of a kind whose slots act now on their die. -/
def Dev.slotActs (d : Dev) (j i kind : Nat) : Bool :=
  let x := d.job j
  let e := scSlot x.sched i
  decide (i < x.entryCount) && slKind e == kind && x.acts kind && (d.die (resDie (slResource e))).stopped.isNone

/-- Round `m` of a slot begins: its entry, and the device with the round counted and the lag that a wait for a claimed window adds. An
Update that runs to its end in a HALTED job does not wait for other slots. -/
def Dev.takeSlot (d : Dev) (j i kind : Nat) : Option (Bytes × Dev) :=
  let x := d.job j
  let e := scSlot x.sched i
  let m := tget 0 x.acted i
  let die := resDie (slResource e)
  let due := x.nextClaim (slResource e) (d.dueAt j i m)
  if d.slotActs j i kind && decide (m < x.rounds i) && x.begun i m && decide (due ≤ d.tick) &&
      (!x.live || x.inOrder die (x.roundStart i m + slPlace e (kind == 1))) then
    some (e, d.modJob j (fun y => { y.addLag die (due - d.dueAt j i m) with acted := tset y.acted i (m + 1), moved := tdel y.moved i }))
  else none

/-- A slot in round `m`: a round that has begun goes on, and the next one begins. -/
def Dev.slotIn (d : Dev) (j i kind m : Nat) : Option (Bytes × Dev) :=
  if m < tget 0 (d.job j).acted i then (if d.slotActs j i kind then some (scSlot (d.job j).sched i, d) else none)
  else d.takeSlot j i kind

/-- A slot in its latest round, or in the next one if that is due. -/
def Dev.slotNow (d : Dev) (j i kind : Nat) : Option (Bytes × Dev) :=
  (d.takeSlot j i kind).or (if tget 0 (d.job j).acted i = 0 then none else d.slotIn j i kind 0)

/-! ### Inputs of the scheduled plane (R215, R216, R219, R220, R441) -/

/-- Whether a unit of a slot's class is out of service. -/
def Dev.slotDown (d : Dev) (e : Bytes) : Bool :=
  match resClass (slResource e) with
  | 3 => d.unitDown (tarnUnit (resUnit (slResource e))) || d.unitDown (stackUnit (resUnit (slResource e)))
  | 4 => d.unitDown (stackUnit (resUnit (slResource e)))
  | _ => false

/-- The release cycle of round `m` of an entry, lag included (R215). -/
def Dev.releaseAt (d : Dev) (j i m : Nat) : Nat :=
  let e := scSlot (d.job j).sched i
  d.dueAt j i m + slLength e + slSlack e

/-- A round's input has arrived at a tick: late, it adds lag; else its slack is measured. -/
def Dev.inputAt (d : Dev) (j i m arrival : Nat) : Dev :=
  let x := d.job j
  let e := scSlot x.sched i
  let release := d.releaseAt j i m
  let nominal := release - slSlack e
  let d := d.sample 3 j (arrival - (x.roundStart i m + slStart e + slLength e))
  if release < arrival then (d.modJob j (fun y => y.addLag (resDie (slResource e)) (arrival - release))).markJob j 0
  else d.modJob j (fun y => { y with slackMin := min y.slackMin (min (release - max arrival nominal) 0xFFFFFE) })

/-- The sequence of a context's use in round `m` of its section; none where that use is done (R95). -/
def Dev.roundSeq (d : Dev) (c m : Nat) : Option Nat :=
  let x := d.ctx c
  if x.bucket = verdictBucket then some x.sequence
  else if m < x.microBatch then none
  else some ((x.sequence + (m - x.microBatch) * (d.job x.job).stride x.channel) % 2 ^ 32)

/-- The fragments of a use that a port brings: one for each child source or node passed on, over each fragment (R101). -/
def Dev.expectedOn (d : Dev) (b : Bytes) (j p : Nat) : Nat :=
  (((d.job j).nodesOf (bkBucket b)).filter (fun e => (ndKind e == 2 || ndKind e == 3) && ndIn e == p)).length * (fragOffs b).length

/-- The fragments that fit into a slot's length (R304). -/
def slFrags (e : Bytes) (bytes : Nat) : Nat := slLength e * 75 / (64 * flitsOf bytes)

/-- Of the fragments that a port brings for a bucket's use, how many must be there for an RX entry: its share and that of the entries
before it, and all of them for the last. -/
def Dev.neededFor (d : Dev) (j i : Nat) (b : Bytes) : Nat :=
  let x := d.job j
  let e := scSlot x.sched i
  let same (k : Nat) : Bool :=
    let f := scSlot x.sched k
    slKind f == 1 && slResource f == slResource e && slChannel f == slChannel e && slBucket f == slBucket e &&
      (decide (k < scMb x.sched) == decide (i < scMb x.sched))
  let all := d.expectedOn b j (resUnit (slResource e))
  if (List.range x.entryCount).any (fun k => decide (i < k) && same k) then
    min all (((List.range (i + 1)).filter same).map (fun k => slFrags (scSlot x.sched k) (48 + payloadBytes 0 (bkFrag b)))).sum
  else all

/-- When the last byte of an RX slot's input arrived (R215): what FRAGMENT_RX recorded of its bucket's use. `told` is the tick that the
command tells, for a slot that brings no contributions here. None is still on its way; where the use is done or discarded, nothing is
waited for. -/
def Dev.rxArrival (d : Dev) (j i m told : Nat) : Option Nat :=
  let x := d.job j
  let e := scSlot x.sched i
  match x.bucket (slBucket e) with
  | none => some told
  | some b =>
    let c := bkCtx b
    let n := d.neededFor j i b
    if bkChannel b ≠ slChannel e ∨ d.expectedOn b j (resUnit (slResource e)) = 0 then some told
    else if (d.ctx c).state == .aborted || (d.ctx c).state == .resetting || x.completing then some 0
    else match d.roundSeq c m with
      | none => some 0
      | some q =>
        let ts := sortBy (fun a b => decide (a ≤ b)) (((d.ctx c).frags.filter (fun f =>
          f.port == resUnit (slResource e) && chSeq f.header == q)).map Frag.tick)
        if ts.length < n then none else some (ts.getD (n - 1) 0)

/-- An RX slot's release cycle: its data is taken, on time or at its arrival. -/
def Dev.rxRelease (j i told : Nat) (d : Dev) : Dev :=
  let m := tget 0 (d.job j).acted i
  match d.takeSlot j i 1, d.rxArrival j i m told with
  | some (_, d'), some arrival => if d.tick < max arrival (d'.releaseAt j i m) then d else d'.inputAt j i m arrival
  | _, _ => d

def execRxSlotRelease (job entry arrival now : Nat) (s : State) : Host.Outcome State Fault Refusal :=
  .next (s.event now (Dev.rxRelease job entry arrival))

/-- Bytes moved on a stack by a slot (R439). -/
def Dev.hbmBytes (d : Dev) (j : Nat) (e : Bytes) (write : Bool) : Dev :=
  let s := resUnit (slResource e)
  let n := Config.slotBytes (slLength e) ((d.job j).chunkElems (slChunk e))
  (d.countStack s (b2n write) n).countStack s (2 + b2n write) n

/-- An access of the Depths that the schedule issues (R213): listed, and its bytes counted. -/
def Dev.hbmAccess (d : Dev) (j : Nat) (e : Bytes) (write : Bool) : Dev :=
  (d.send (.hbm (resUnit (slResource e)) (slChannel e) write d.tick)).hbmBytes j e write

/-- An HBM_RD slot issues its read. What it reads, a chunk's frame or what a context keeps in Depths, is taken when it has returned. -/
def Dev.hbmRead (j i : Nat) (d : Dev) : Dev :=
  match d.takeSlot j i 5 with
  | none => d
  | some (e, d') => if d.slotDown e then d else d'.hbmAccess j e false

def execHbmRdSlot (job entry now : Nat) (s : State) : Host.Outcome State Fault Refusal := .next (s.event now (Dev.hbmRead job entry))

/-- The use whose root values an HBM_WR slot writes: its bucket's, where the chunk is owned here and the bucket is rooted here. -/
def Dev.writes (d : Dev) (j : Nat) (e : Bytes) : Option (Bytes × Nat) :=
  let x := d.job j
  match x.bucket (slBucket e) with
  | none => none
  | some b =>
    if bkChannel b = slChannel e ∧ x.owned.contains (slChunk e) = true ∧ 0 < x.shared b (slChunk e) ∧ x.rootHere b = true then some (b, bkCtx b)
    else none

/-- An HBM_WR slot (R123, R213): the root values of its DRAINING use go to the inflow slot that the parity of the use's sequence number
names, once that slot is free. An entry that names no rooted bucket only makes its access. -/
def Dev.hbmWrite (j i : Nat) (d : Dev) : Dev :=
  let x := d.job j
  let e := scSlot x.sched i
  match d.writes j e with
  | none =>
    match d.takeSlot j i 6 with
    | none => d
    | some (e, d') => if d.slotDown e then d else d'.hbmAccess j e true
  | some (b, c) =>
    let u := d.ctx c
    match d.slotIn j i 6 u.microBatch, d.rootVals c with
    | some (_, d'), some v =>
      if d.slotDown e || u.state != .draining || !x.inflowFree u.channel u.sequence (slChunk e) then d
      else (d'.hbmAccess j e true).modJob j (fun y => y.putInflow b u.channel u.sequence (slChunk e) v)
    | _, _ => d

def execHbmWrSlot (job entry now : Nat) (s : State) : Host.Outcome State Fault Refusal := .next (s.event now (Dev.hbmWrite job entry))

/-- The fault of a Depths read that was not clean (R359, R363): an entry that names a bucket reads what its context keeps there, another
one the chunk's frame (DEDUCED, log entry 32). Bucket 0xFFFF, the Verdict context's (R211), counts as another one: the Verdict keeps nothing
in Depths of its own (DESIGN CHOICE, log entry 32). -/
def Dev.eccFault (d : Dev) (j : Nat) (e : Bytes) (ecc : EccResult) : Dev :=
  let s := resUnit (slResource e)
  let step := (d.job j).rcStep
  let frame : FaultRec := { source := 0x0603, unit := some s, job := some j, step := step }
  match ecc with
  | .clean => d
  | .corrected => d.raiseFault { source := 0x0601, unit := some s, job := some j, step := step }
  | .uncorrectable =>
    match (d.job j).bucket (slBucket e) with
    | some b =>
      if bkBucket b = verdictBucket then d.raiseFault frame
      else d.raiseFault (d.useFault 0x0602 (some s) (bkCtx b) stDepthsFault [])
    | none => d.raiseFault frame

/-- Read data that came back to the controller's return buffer at tick `arrival` is taken at its release cycle, or at its arrival where
that is later (R215). -/
def Dev.hbmReturn (j i arrival : Nat) (ecc : EccResult) (d : Dev) : Dev :=
  let x := d.job j
  let e := scSlot x.sched i
  let m := tget 0 x.returned i
  if d.slotActs j i 5 && decide (m < tget 0 x.acted i) && decide (max arrival (d.releaseAt j i m) ≤ d.tick) &&
      x.inOrder (resDie (slResource e)) (x.roundStart i m + slPlace e true) then
    ((d.modJob j (fun y => { y with returned := tset y.returned i (m + 1) })).inputAt j i m arrival).eccFault j e ecc
  else d

def execHbmRdReturn (job entry arrival : Nat) (ecc : EccResult) (now : Nat) (s : State) : Host.Outcome State Fault Refusal :=
  .next (s.event now (Dev.hbmReturn job entry arrival ecc))

/-! ### BASIN slots (R79, R80, R213, R326) -/

/-- The number that a residue fault reports for a check: 1 to 11, which for a comparison that has none of its own is not fixed. -/
def reportedCheck (n : Nat) : Nat := if n ≤ 11 then n else 1 + Config.checkNumber n % 11

/-- The detail of a residue fault (R363). -/
def residueDetail (check place element : Nat) : Bytes := leBytes 1 (reportedCheck check) ++ leBytes 3 0 ++ leBytes 4 place ++ leBytes 8 element

/-- The children of a hosted node over a fragment, where all are available (R80). -/
def Dev.kidsOf (d : Dev) (c w off : Nat) : Option (List Kid) :=
  let ks := ((d.job (d.ctx c).job).kids (d.bucketOf c) w).map (fun k => d.kid c k off)
  if ks.all Option.isSome then some (ks.filterMap id) else none

/-- Whether a node of a use can be computed over a fragment now. -/
def Dev.mayCompute (d : Dev) (c w off : Nat) : Bool :=
  let x := d.ctx c
  x.state == .opened && ((d.job x.job).hosted x.bucket).contains w && (fragOffs (d.bucketOf c)).contains off && (x.nodeOf w off).isNone &&
    !d.unitDown x.basin

/-- A residue check failed in a Basin or its tile: the use aborts (R326). -/
def Dev.basinUpset (d : Dev) (c check element : Nat) : Dev :=
  d.raiseFault (d.useFault 0x0401 (some (d.ctx c).basin) c stBasinFault (residueDetail check c element))

/-- A hosted node is computed over one fragment, and the children it takes leave staging. A value whose check fails never leaves. -/
def Dev.basinNode (d : Dev) (c w off : Nat) (ks : List Kid) (u : Option Upset) : Dev :=
  let n := fragLen (d.bucketOf c) off * (ks.length - 1)
  let r := d.nodeValue c w off ks u
  if r.check ≠ 0 then d.basinUpset c r.check ((u.map Upset.element).getD 0)
  else
  let d := (d.keepNode c w off ks r).count (ctrIdx 6 (d.ctx c).basin 0) n
  d.releaseFrags c (fun f => chSeq f.header == (d.ctx c).sequence && chFrag f.header == off && (ks.map Kid.node).contains (chNode f.header))

/-- Whether a child that a node takes over a fragment lies in a staging block: it came by a port, and is not spilled to Depths. -/
def Dev.stagedKid (d : Dev) (c off : Nat) (ks : List Kid) : Bool :=
  (d.ctx c).frags.any (fun f => !f.spilled && chSeq f.header == (d.ctx c).sequence && chFrag f.header == off &&
    (ks.map Kid.node).contains (chNode f.header))

/-- A hosted node over one fragment with what error correction said of the staging blocks that it reads (R359): an uncorrectable error
aborts the use, and nothing is computed. -/
def Dev.basinReads (d : Dev) (c w off : Nat) (ks : List Kid) (u : Option Upset) (staging : EccResult) : Dev :=
  match (if d.stagedKid c off ks then staging else .clean) with
  | .clean => d.basinNode c w off ks u
  | .corrected => (d.recordFault { source := 0x0A01, job := some (d.ctx c).job, step := d.useStep c }).basinNode c w off ks u
  | .uncorrectable => d.raiseFault (d.useFault 0x0A02 none c stBasinFault [])

/-- Whether a context's use has nothing for a BASIN slot of round `m`: it is discarded, past, or hosts no node. -/
def Dev.basinIdle (d : Dev) (c m : Nat) : Bool :=
  let x := d.ctx c
  x.state == .aborted || x.state == .resetting || x.state == .draining || (x.bucket != verdictBucket && decide (m < x.microBatch)) ||
    ((d.job x.job).hosted x.bucket).isEmpty

/-- One output of the tile of a use's Basin (R59): its products are counted. -/
def Dev.basinTile (d : Dev) (c : Nat) (fs : List (W32 × W32)) (u : Option Upset) : Dev :=
  let x := d.ctx c
  let r := tileSum (d.job x.job).ovf (u.map (fun y => (y.op, y.hit))) fs
  if r.ev.check ≠ 0 then d.basinUpset c r.ev.check ((u.map Upset.element).getD 0)
  else ({ d with tiles := tset d.tiles x.basin r.v }).count (ctrIdx 6 x.basin 1) fs.length

/-- A BASIN slot over one hosted node and one fragment, or over the tile of the Basin, in the round of the use; a slot with nothing to
compute passes idle. -/
def Dev.basinSlot (j i : Nat) (work : BasinWork) (upset : Option Upset) (staging : EccResult) (d : Dev) : Dev :=
  let x := d.job j
  let idle : Dev := match d.takeSlot j i 3 with | some (_, d') => d' | none => d
  match x.bucket (slBucket (scSlot x.sched i)) with
  | none => idle
  | some b =>
    let c := bkCtx b
    if bkChannel b ≠ slChannel (scSlot x.sched i) ∨ d.basinIdle c (tget 0 x.acted i) = true then idle
    else match d.slotIn j i 3 (d.ctx c).round, work with
      | some (_, d'), .node w off =>
        match d.kidsOf c w off with
        | some ks => if d.mayCompute c w off then d'.basinReads c w off ks upset staging else d
        | none => d
      | some (_, d'), .tile fs => if (d.ctx c).state == .opened && !d.unitDown (d.ctx c).basin then d'.basinTile c fs upset else d
      | none, _ => d

def execBasinSlot (job entry : Nat) (work : BasinWork) (upset : Option Upset) (staging : EccResult) (now : Nat) (s : State) :
    Host.Outcome State Fault Refusal :=
  .next (s.event now (Dev.basinSlot job entry work upset staging))

/-! ### TARN slots (R84, R124 to R131, R213, R326, R379) -/

/-- The context of an entry's channel and bucket whose DRAINING use covers a chunk that roots here. -/
def Dev.foldCtx (d : Dev) (j : Nat) (e : Bytes) : Option Nat :=
  let x := d.job j
  (x.bucketEntries.find? (fun b => bkBucket b == slBucket e && bkChannel b == slChannel e && (d.ctx (bkCtx b)).state == .draining &&
    decide (0 < x.shared b (slChunk e)) && x.rootHere b)).map bkCtx

/-- A residue check failed in a Tarn, before or after the Verdict (R326). -/
def Dev.tarnUpset (d : Dev) (j c check element : Nat) : Dev :=
  let x := d.job j
  d.raiseFault { source := if x.vres.isSome then 0x0502 else 0x0501, unit := some (owStack (x.chunk c)), job := some j, step := x.rcStep,
                 detail := residueDetail check c element }

/-- The fold of a chunk's DRAINING use. -/
def Mach.tarnFold (k : Mach) (j ctx c : Nat) (upset : Option Upset) : Mach :=
  let n := (k.dev.job j).unsound.length
  let k := k.commitUse ctx (upset.map (fun u => (c, u)))
  match ((k.dev.job j).unsound.drop n).head? with
  | some e => k.mod (·.tarnUpset j e.1 e.2.1 e.2.2)
  | none => k

/-- The Update of a HALTED job has ended: its sequencer stops (R379). -/
def Dev.updateEnd (d : Dev) (j : Nat) : Dev :=
  if (d.job j).state == .halted && (d.job j).rcPhase != 3 then
    (d.modJob j (fun x => { x with stopped := true, runSection := none })).haltDone
  else d

/-- The Update of a chunk. -/
def Mach.tarnUpdate (k : Mach) (j c : Nat) (upset : Option Upset) : Mach :=
  let x := k.dev.job j
  match x.vres with
  | none => k
  | some r =>
    if x.rcPhase ≠ 3 ∨ x.updated.contains c = true then k
    else
      let t := owStack (x.chunk c)
      let n := if (x.skipped (owTensor (x.chunk c))).getD false then 0
        else x.chunkElems c * pgCount (x.program (tnProgram (x.tensor (owTensor (x.chunk c)))))
      let k := k.mod (fun d => (d.modJob j (fun y => { y with updateStarted := true })).count (ctrIdx 7 t 0) n)
      let z := k.updateChunk j c r upset
      if z.2 ≠ 0 then z.1.mod (·.tarnUpset j c z.2 ((upset.map Upset.element).getD 0))
      else z.1.mod (fun d => (d.markUpdated j c).updateEnd j)

/-- Whether it is a chunk's turn: the chunks that the package lists before it on its channel have been formed (R154). -/
def Job.outTurn (x : Job) (c : Nat) : Bool :=
  let ch (i : Nat) : Nat := tnChannel (x.tensor (owTensor (x.chunk i)))
  x.owned.all (fun i => !(decide (i < c) && ch i == ch c) || x.outFormed.contains i)

/-- The Outflow of a chunk, once its tensor's Update has ended here and in its turn (R14, R154). -/
def Mach.tarnOutflow (k : Mach) (j c : Nat) (upset : Option Upset) : Mach :=
  let x := k.dev.job j
  let mine := (x.chunksOfTensor (owTensor (x.chunk c))).filter x.owned.contains
  if !x.live || x.vres.isNone || !mine.all x.updated.contains || x.outFormed.contains c || !x.outTurn c then k
  else
    let z := k.formOutflow j c upset
    if z.2 ≠ 0 then z.1.mod (·.tarnUpset j c z.2 ((upset.map Upset.element).getD 0)) else z.1

/-- The machine of a slot, where it acts. -/
def Mach.inSlot (k : Mach) (t : Option (Bytes × Dev)) (f : Mach → Mach) : Mach :=
  match t with
  | some (_, d) => f { k with dev := d }
  | none => k

/-- A TARN slot over one chunk (R213). The chunk's tensor's Update and Outflow follow the Verdict, which may come after the slot's tick:
the slot is then the one whose round has begun. A slot with nothing to do passes idle. -/
def Mach.tarnSlot (j i : Nat) (work : TarnWork) (upset : Option Upset) (k : Mach) : Mach :=
  let d := k.dev
  let x := d.job j
  let e := scSlot x.sched i
  let c := slChunk e
  let idle := k.inSlot (d.takeSlot j i 4) id
  if d.slotDown e || !x.owned.contains c || owStack (x.chunk c) != resUnit (slResource e) then idle
  else
    match work with
    | .fold =>
      match d.foldCtx j e with
      | some ctx => if x.live then k.inSlot (d.slotIn j i 4 (d.ctx ctx).round) (·.tarnFold j ctx c upset) else k
      | none => idle
    | .update => if x.vres.isSome && x.updated.contains c then idle else k.inSlot (d.slotIn j i 4 0) (·.tarnUpdate j c upset)
    | .outflow => if x.outFormed.contains c then idle else k.inSlot (d.slotIn j i 4 0) (·.tarnOutflow j c upset)

def execTarnSlot (job entry : Nat) (work : TarnWork) (upset : Option Upset) (now : Nat) (s : State) : Host.Outcome State Fault Refusal :=
  .next (s.act now (Mach.tarnSlot job entry work upset))

/-! ### TX slots (R83, R96, R154, R213, R309) -/

/-- What a TX slot can move by a port. -/
inductive TxItem where
  | node (ctx node frag : Nat)
  | pass (ctx : Nat) (f : Frag)
  | out (f : OutHeld)
  deriving DecidableEq, Repr

/-- A hosted node's value as a PARTIAL (R100, R104, R105). -/
def Dev.partialOf (d : Dev) (c w off : Nat) : Bytes :=
  let x := d.ctx c
  let j := d.job x.job
  let b := d.bucketOf c
  mkContribution 2 x.job x.channel 0 x.generation x.microBatch x.sequence w (d.useStep c) (bkOp b) (bkElem b) (j.wireOf b w) x.bucket (j.treeId b)
      (descHashOf (bkOp b) (bkElem b) (bkCount b) (j.treeId b) x.sequence) (bkCount b) off (fragLen b off) ++
    ((x.nodeOf w off).map NodeVal.enc).getD []

/-- The content of a packet. -/
def Dev.txContent (d : Dev) : TxItem → Bytes
  | .node c w off => d.partialOf c w off
  | .pass _ f => f.header ++ f.payload
  | .out f => f.header ++ f.payload

/-- Fragments that a context passes on by a port now: of its open use, or left from a use past its commit point. -/
def Dev.passItems (d : Dev) (c p : Nat) : List TxItem :=
  let x := d.ctx c
  let j := d.job x.job
  let live := x.state == .opened || x.state == .draining
  (x.frags.filter (fun f => !f.taken && j.passPort x.bucket (chNode f.header) == some p &&
    ((live && chSeq f.header == x.sequence) || serialAfter 32 x.sequence (chSeq f.header)))).map (.pass c)

/-- Node values that a DRAINING use sends by a port. -/
def Dev.nodeItems (d : Dev) (c p : Nat) : List TxItem :=
  let x := d.ctx c
  let j := d.job x.job
  if x.state != .draining then []
  else
    (x.nodes.filter (fun v => !v.sent && j.outPort x.bucket v.node == some p)).map (fun v => .node c v.node v.frag)

/-- What an entry can move: its bucket's outputs, then the Outflow held for its channel and port. -/
def Dev.txItems (d : Dev) (j : Nat) (e : Bytes) : List TxItem :=
  let p := resUnit (slResource e)
  let x := d.job j
  let ctx := match x.bucket (slBucket e) with
    | some b => if bkChannel b = slChannel e then d.passItems (bkCtx b) p ++ d.nodeItems (bkCtx b) p else []
    | none => []
  ctx ++ (x.outHeld.filter (fun f => f.channel == slChannel e && f.ports.contains p)).map .out

/-- The use that an item is an output of: job, channel and sequence (R93, R96). -/
def Dev.itemUse (d : Dev) (j : Nat) : TxItem → Option (Nat × Nat × Nat)
  | .node c _ _ => some (j, (d.ctx c).channel, (d.ctx c).sequence)
  | .pass c f => some (j, (d.ctx c).channel, chSeq f.header)
  | .out _ => none

/-- One item leaves by a port (R262, R263, R332). -/
def Dev.txSend (d : Dev) (j p : Nat) (t : TxItem) : Dev :=
  let content := d.txContent t
  let h := content.take 48
  match t with
  | .node c w off =>
    let d := (d.sendPacket p 0 (routeFor 1 j 0 0 content ++ content) (d.itemUse j t)).digestFrag c p true h (content.drop 48)
    d.modCtx c (fun x => { x with nodes := x.nodes.map (fun v => if v.node = w ∧ v.frag = off then { v with sent := true } else v) })
  | .pass c f =>
    let d := (d.sendPacket p 0 (onwardRoute f.route 1 j 0 0 content ++ content) (d.itemUse j t)).digestFrag c p true f.header f.payload
    d.releaseFrags c (fun g => g.header == f.header)
  | .out f =>
    let d := (d.sendPacket p 1 (onwardRoute f.route 2 j f.channel 1 content ++ content)).digestOut p true f.header f.payload
    d.outLeft j p f

/-- Whether an item may leave now: every output of the channel's earlier uses has been accepted by its next hop (R96). -/
def Dev.txMay (d : Dev) (j : Nat) (t : TxItem) : Bool :=
  match d.itemUse j t with
  | none => true
  | some (_, ch, q) => !d.outputsBefore j ch q

/-- Items of entry `i` in order, as many as fit into what is left of the `room` flits of its round. -/
def Dev.txMany (j i p room : Nat) : List TxItem → Dev → Dev
  | [], d => d
  | t :: r, d =>
    let n := tget 0 (d.job j).moved i + flitsOf (d.txContent t).length
    if room < n ∨ d.txMay j t = false then d
    else Dev.txMany j i p room r ((d.txSend j p t).modJob j (fun y => { y with moved := tset y.moved i n }))

/-- Whether a staged item came in during an earlier session of its link (R374). Spilled fragments are in Depths, not in staging. -/
def Dev.staleItem (d : Dev) (t : TxItem) : Bool :=
  match t with
  | .node _ _ _ => false
  | .pass _ f => !f.spilled && decide (f.port < 96) && f.gen != (d.port f.port).linkGen
  | .out f => f.gen != d.holderGen f.holder

/-- A stale item is discarded, and its blocks are counted in LINK_STALE_DROP. -/
def Dev.dropItem (d : Dev) (j : Nat) (t : TxItem) : Dev :=
  match t with
  | .node _ _ _ => d
  | .pass c f =>
    ((d.poolFreeItem (ctxHolder c) (fragItem f.header)).countDev 0x106 (poolsFor (48 + f.payload.length)).length).modCtx c (fun x =>
      { x with frags := x.frags.filter (fun g => g.header != f.header) })
  | .out f =>
    ((d.poolFreeItem f.holder f.item).countDev 0x106 (poolsFor (f.header.length + f.payload.length)).length).modJob j (fun x =>
      { x with outHeld := x.outHeld.filter (fun g => g.item != f.item) })

/-- A TX slot on a fabric port whose link is UP, in its latest round. -/
def Dev.txSlot (j i : Nat) (d : Dev) : Dev :=
  match d.slotNow j i 2 with
  | none => d
  | some (e, d') =>
    let p := resUnit (slResource e)
    if resClass (slResource e) = 1 ∧ d'.up p = true ∧ d'.fabric p = true then
      let ts := d'.txItems j e
      Dev.txMany j i p (slRoom e) (ts.filter (fun t => !d'.staleItem t)) ((ts.filter d'.staleItem).foldl (fun d t => d.dropItem j t) d')
    else d'

def execTxSlot (job entry now : Nat) (s : State) : Host.Outcome State Fault Refusal := .next (s.event now (Dev.txSlot job entry))

/-! ### RNG slots and refresh (R67 to R72, R208) -/

/-- The use of a code of R70. -/
def useOf (code : Nat) : RngUse :=
  match code with
  | 0 => .narrowing
  | 1 => .accumulator
  | 2 => .update
  | _ => .outflow

/-- The block that a generator unit computes. -/
def Job.rngBlock (x : Job) (use node m t e : Nat) : Nat :=
  ({ seed := x.seed, step := x.rcStep, microBatch := if use ≤ 1 then m else 0xFFFF, tensor := t, element := e, use := useOf use, node := node } : Draw).block

/-- An RNG slot: its unit computes one block. -/
def Dev.rngSlot (j i use node m t e : Nat) (d : Dev) : Dev :=
  match d.takeSlot j i 7 with
  | none => d
  | some (s, d') => if 4 ≤ use then d' else { d' with gens := tset d'.gens (resUnit (slResource s)) ((d.job j).rngBlock use node m t e) }

def execRngSlot (job entry use node microBatch tensor element now : Nat) (s : State) : Host.Outcome State Fault Refusal :=
  .next (s.event now (Dev.rngSlot job entry use node microBatch tensor element))

/-- A refresh of a Depths stack, in one of its windows (R208); a parked stack is not refreshed. -/
def Dev.refresh (st : Nat) (d : Dev) : Dev :=
  if st < 8 ∧ 3 * st ≤ d.window ∧ d.window ≤ 3 * st + 2 ∧ d.power.depthsParked = false then
    { d with refreshed := tset d.refreshed st d.tick }
  else d

def execHbmRefresh (stack now : Nat) (s : State) : Host.Outcome State Fault Refusal := .next (s.event now (Dev.refresh stack))

end Sys2Proof.Machine
end

