-- ==== Sys2Proof/Machine/StepEnd.lean ====
section
/-! DEFINITION. The end of a step: the statistics blocks, the alarms, the scale recipes, the logbook batch and the commit token (R25 item
7, R31, R156, R158, R171 to R178, R183, R346 to R348, R376). -/

namespace Sys2Proof.Machine

/-! ### Statistics blocks (R171, R173) -/

/-- A tensor's counts in the step, by the offset of their field. -/
def Job.tensorCount (x : Job) (t o : Nat) : Nat :=
  if o = 56 then (tget [] x.foldOverflow t).length else tget 0 (tget [] x.tnum t) o
def Job.siteCount (x : Job) (t o : Nat) : Nat := tget 0 (tget [] x.snum t) o

/-- Elements of the owner's portion of a tensor. -/
def Job.portion (x : Job) (t : Nat) : Nat := (((x.chunksOfTensor t).filter x.owned.contains).map x.chunkElems).sum

/-- Tensors of which the device owns a chunk, and those for which it hosted a node, in ascending order. -/
def Job.ownedTensors (x : Job) : List Nat := (x.tensorEntries.map tnIndex).filter (fun t => decide (0 < x.portion t))
def Job.siteTensors (x : Job) : List Nat := (x.tensorEntries.map tnIndex).filter (fun t => thas x.snum t)

/-- Alarms of R176: 0 SILENT_TENSOR, 1 OVERFLOW, 2 SATURATION, 3 NONFINITE_STREAK. -/
def alarmKey (t alarm : Nat) (site : Bool) : Nat := 8 * t + 4 * b2n site + alarm
def Job.alarm (x : Job) (t alarm : Nat) (site : Bool) : Alarm := tget {} x.alarms (alarmKey t alarm site)

/-- An alarm's run setting (R180). -/
def runSetting (s : Bytes) (alarm : Nat) : Nat :=
  match alarm with
  | 0 => fld s 4 2
  | 1 => fld s 12 2
  | 2 => fld s 20 2
  | _ => fld s 14 2

/-- The TENSOR_NUMERICS block of a tensor (R171). -/
def Job.tensorBlock (x : Job) (s : Bytes) (t : Nat) : Bytes :=
  let active (a : Nat) : Nat := b2n (x.alarm t a false).active
  leBytes 4 t ++ leBytes 6 x.stStep ++
    leBytes 1 (pack [(0, b2n ((x.skipped t).getD false)), (1, b2n x.stShr), (2, b2n x.lysros), (3, active 0), (4, active 1), (5, active 2),
      (6, active 3), (7, b2n ([0, 1, 2, 3].any (fun a => runSetting s a == 0xFFFF)))]) ++
    leBytes 1 (histWidth s) ++ slice s 24 2 ++ leBytes 2 0 ++ leBytes 8 (x.portion t) ++
    (List.range 81).flatMap (fun i => leBytes 8 (x.tensorCount t (24 + 8 * i)))

/-- A count of a SITE_NUMERICS block, which stops at all-ones. -/
def siteField (n : Nat) : Bytes := leBytes 8 (min n (2 ^ 64 - 1))

/-- The SITE_NUMERICS block of a tensor (R173). -/
def Job.siteBlock (x : Job) (t : Nat) : Bytes :=
  leBytes 4 t ++ leBytes 6 x.stStep ++
    leBytes 1 (pack [(0, b2n x.lysros), (1, b2n (x.alarm t 1 true).active), (2, b2n (x.alarm t 2 true).active)]) ++ leBytes 5 0 ++
    [16, 24, 32].flatMap (fun o => siteField (x.siteCount t o)) ++ leBytes 4 (tget 0xFFFFFFFF x.firstNonfinite t) ++ leBytes 4 0 ++
    [48, 56, 64, 72, 80, 88, 96].flatMap (fun o => siteField (x.siteCount t o))

/-! ### Alarms (R176 to R178) -/

/-- An alarm's condition in one step: the counts that enter it, whether it met, and the elements; none where it is not evaluated. -/
structure Cond where
  counts : List Nat
  met : Bool
  /-- elements or n_elements, and whether it is the condition's denominator. -/
  elems : Nat
  share : Bool := false
  deriving DecidableEq, Repr

/-- The condition of an alarm at an owner (R176). -/
def Job.ownerCond (x : Job) (s : Bytes) (t alarm : Nat) : Option Cond :=
  let c := x.tensorCount t
  let n := x.portion t
  match alarm with
  | 0 =>
    let l := [c 24, if bit (u8 s 6) 0 then c 32 else 0]
    some { counts := l, met := decide (fld s 0 4 * n < l.sum * 1000000), elems := n, share := true }
  | 1 => let l := [c 56, c 64, c 128]; some { counts := l, met := decide (fld s 8 4 ≤ l.sum), elems := n }
  | 2 => let l := [c 72, c 136]; some { counts := l, met := decide (fld s 16 4 * n < l.sum * 1000000), elems := n, share := true }
  | _ => let l := [c 40, c 48]; some { counts := l, met := decide (1 ≤ l.sum), elems := n }

/-- The condition of an alarm at a site (R176). -/
def Job.siteCond (x : Job) (s : Bytes) (t alarm : Nat) : Option Cond :=
  let n := x.siteCount t 48
  match alarm with
  | 1 => some { counts := [x.siteCount t 56], met := decide (fld s 8 4 ≤ x.siteCount t 56), elems := n }
  | 2 =>
    if n = 0 then none
    else some { counts := [x.siteCount t 64], met := decide (fld s 16 4 * n < x.siteCount t 64 * 1000000), elems := n, share := true }
  | _ => none

/-- The alarm after one evaluated step, and whether it was raised (some true) or cleared (some false) (R177). -/
def Alarm.step (a : Alarm) (run : Nat) (met : Bool) : Alarm × Option Bool :=
  if run = 0xFFFF then (a, none)
  else if met then
    let n := min (a.run + 1) 65535
    if n = run && !a.active then ({ run := n, active := true }, some true) else ({ a with run := n }, none)
  else ({ run := 0, active := false }, if a.active then some false else none)

/-- The event and the Silt record of a raised or cleared alarm (R178, R363, R446). No condition has more than three counts, so the record
leaves out the fourth of R446, which is always 0, and fits the 48 bytes of R444 (DESIGN CHOICE, log entry 62). -/
def Dev.reportAlarm (d : Dev) (j step t alarm : Nat) (site raised : Bool) (run : Nat) (c : Cond) : Dev :=
  let flags := b2n raised + 2 * b2n site
  let d := d.siltWrite {
    typ := 0x06
    job := j
    body := leBytes 4 t ++ leBytes 6 step ++ leBytes 1 alarm ++ leBytes 1 flags ++ leBytes 2 run ++ leBytes 2 0 ++
      ((c.counts ++ [0, 0, 0]).take 3).flatMap (leBytes 8) ++ leBytes 8 c.elems }
  d.recordFault {
    source := 0x0801 + alarm
    job := some j
    step := step
    cleared := !raised
    detail := leBytes 4 t ++ leBytes 1 alarm ++ leBytes 1 flags ++ leBytes 2 run ++ leBytes 8 c.counts.sum ++
      leBytes 8 (if c.share then c.elems else 0) }

/-- One alarm of one tensor in one role. -/
def Dev.evalAlarm (d : Dev) (j t alarm : Nat) (site : Bool) : Dev :=
  let x := d.job j
  let s := d.settings x t
  match (if site then x.siteCond s t alarm else x.ownerCond s t alarm) with
  | none => d
  | some c =>
    let r := (x.alarm t alarm site).step (runSetting s alarm) c.met
    let d := d.modJob j (fun y => { y with alarms := tset y.alarms (alarmKey t alarm site) r.1 })
    match r.2 with
    | some raised => d.reportAlarm j x.stStep t alarm site raised r.1.run c
    | none => d

/-- Every alarm of the step, in the order of R178; of one alarm that changes in both roles, the owner's first (DESIGN CHOICE, log entry
62). -/
def Dev.evalAlarms (d : Dev) (j : Nat) : Dev :=
  let x := d.job j
  (x.tensorEntries.map tnIndex).foldl (fun d t =>
    [0, 1, 2, 3].foldl (fun d a =>
      let d := if x.ownedTensors.contains t then d.evalAlarm j t a false else d
      if x.siteTensors.contains t then d.evalAlarm j t a true else d) d) d

/-! ### Scale recipes (R156, R158, R183) -/

/-- The history depth of a job (R158). -/
def Job.historyDepth (x : Job) : Nat := (x.recipeEntries.map rpWindow).foldl max 0

/-- The GRADIENT_SCALE recipes at a counted step end (R156). -/
def Job.stepRecipes (x : Job) : Job :=
  { x with
    recipes := (List.range x.recipeEntries.length).foldl (fun t i =>
      let e := nth x.recipeEntries i
      if rpKind e = 1 then tmod {} t i (fun r => stepRecipe e r (x.recipeBad i)) else t) x.recipes }

/-- The SCALE_HISTORY record and its event (R183, R446). -/
def Dev.reportHistory (d : Dev) (j step : Nat) (refilled : Bool) : Dev :=
  let n := (d.job j).historyDepth
  (d.siltWrite { typ := 0x07, job := j, body := leBytes 6 step ++ leBytes 1 (b2n refilled) ++ leBytes 1 0 ++ leBytes 2 n ++ leBytes 6 0 }).recordFault
    { source := if refilled then 0x0806 else 0x0805, job := some j, step := step, detail := leBytes 2 n }

/-- scale_history_reset counts a step, and clears at the one that reaches the history depth (R158, R183). -/
def Dev.countHistory (d : Dev) (j step : Nat) : Dev :=
  let x := d.job j
  if !x.shr then d
  else if x.shrCount + 1 < x.historyDepth then d.modJob j (fun y => { y with shrCount := y.shrCount + 1 })
  else (d.modJob j (fun y => { y with shr := false, shrCount := 0 })).reportHistory j step true

/-! ### The batch (R346 to R348) -/

/-- The CHUNK_PROV body of an owned chunk. -/
def Job.chunkProv (x : Job) (c : Nat) : Bytes :=
  let e := x.chunk c
  leBytes 4 (owTensor e) ++ leBytes 4 (owChunk e) ++ leBytes 1 (b2n ((x.skipped (owTensor e)).getD false)) ++ leBytes 7 0 ++
    ((x.chunkStats.find? (fun s => s.1 == c)).map (fun s => s.2.gdig)).getD (List.replicate 32 0#8) ++ x.wdigNow c ++ x.provNow c

/-- The records of a step between STEP_HEAD and REPLAY_REPORT. -/
def Dev.stepRecords (d : Dev) (j : Nat) : List (Nat × Bytes) :=
  let x := d.job j
  (if x.vres.isSome then x.owned.map (fun c => (2, x.chunkProv c)) else []) ++
    (sortBy (fun a b => decide (nodeDigestOrder a ≤ nodeDigestOrder b)) x.nodeDigests).map (fun b => (3, b)) ++
    x.ownedTensors.map (fun t => (4, x.tensorBlock (d.settings x t) t)) ++ x.siteTensors.map (fun t => (5, x.siteBlock t))

/-! ### The commit token (R25, R376) -/

/-- Outflow numbers that a step takes on a channel (R154). -/
def Job.outUsed (x : Job) : Table Nat :=
  x.owned.foldl (fun t c =>
    let ch := tnChannel (x.tensor (owTensor (x.chunk c)))
    tset t ch ((tget 0 t ch + x.chunkFrags c) % 2 ^ 32)) x.outSeq

/-- The job after an ended step (R25, R351, R376, R385). -/
def Job.nextUp (x : Job) (step now : Nat) : Job :=
  ({ x with
    rcStep := noStep, rcPhase := 0, rootCommitted := false, verdictRaised := false, budgetExceeded := false, nextStep := step + 1,
    outSeq := x.outUsed, vecWords := [], refs := x.refs.filter (fun r => fld r 16 6 != step) } : Job).wrap now

/-- The step's comparisons are counted, or dropped where its scale_history_reset is set (R354). -/
def Dev.settleCompare (d : Dev) (j : Nat) (shr : Bool) : Dev :=
  let x := d.job j
  if x.replayCompare && shr then (d.countJob j 0x010 1).modJob j Job.dropCompare else d.countJob j 0x011 x.norefs

/-- The provenance of the step is kept (R342). -/
def Job.keepProv (x : Job) : Job :=
  { x with wdig := x.stepProv.foldl (fun t e => tset t e.1 e.2.1) x.wdig, prov := x.stepProv.foldl (fun t e => tset t e.1 e.2.2) x.prov,
           stepProv := [] }

/-- A step ends APPLIED, PARTIAL or SKIPPED: status, recipes, alarms, records, and the next step (R25 item 7). -/
def Dev.endStep (d : Dev) (j outcome : Nat) (shr : Bool) : Dev :=
  let x := d.job j
  let step := x.rcStep
  let d := d.settleCompare j shr
  let d := d.writeStatus j step outcome shr
  let d := (d.sample 7 j (d.job j).tmLag).evalAlarms j
  let d := d.endRecords j step (d.stepRecords j)
  let d := (d.auditOutflow j step).modJob j (fun y => if y.onList then y.stepRecipes else y)
  let d := if x.onList then d.countHistory j step else d
  d.modJob j (fun y => y.keepProv.nextUp step d.time)

/-- GMP_COMMIT (R376): a device of the result list writes its own outcome and mark, another one the token's (R32). -/
def commitRequest : Request :=
  { msg := 0x0032, right := .job, namesJob := true, valid := fun b => b.length == 8 && decide (u8 b 1 < 32) && decide (u8 b 1 % 16 ≤ 2),
    act := onDev (fun m _ d =>
      let j := u8 m.body 0
      let x := d.job j
      if x.rcStep = noStep ∨ fld m.body 2 6 ≠ x.rcStep then (d, { status := stCommitStep })
      else if x.rcPhase ≠ 5 then (d, { status := stCommitEarly })
      else if x.onList then (d.endStep j ((x.vres.map VerdictRes.outcome).getD 0) x.shr, {})
      else (d.endStep j (u8 m.body 1 % 16) (bit (u8 m.body 1) 4), {})) }

def execGmpCommit (m : GmpMsg) (s : State) : Host.Outcome State Fault Refusal := .next (gmpCommand commitRequest m s)

end Sys2Proof.Machine
end

