-- ==== Sys2Proof/Machine/Fabric.lean ====
section
/-! DEFINITION. The receive side of a fabric link: data flits, link-level retry, CTRL flits, and the heads of packets (R261 to R276, R465). -/

namespace Sys2Proof.Machine

/-! ### The link trailer (R261, R262) -/

def trType (t : Nat) : Nat := bits t 2 0
def trVc (t : Nat) : Nat := bits t 5 3
def trSeq (t : Nat) : Nat := bits t 29 6
def trBad (t : Nat) : Bool := bits t 31 30 != 0 || trType t == 7

/-! ### Retry (R271, R272) -/

/-- The retry timer, 2d + 1,500 ticks. -/
def Dev.retryTicks (d : Dev) (p : Nat) : Nat := (2 * (d.port p).delay / 65536).toNat + 1500

/-- A NAK for the expected number is due, once per retry timer (R271 items 3 and 4). -/
def Dev.nak (d : Dev) (p : Nat) : Dev :=
  let x := d.port p
  if x.nakFor = some x.rxExpected ∧ d.tick < x.nakTick + d.retryTicks p then d
  else d.modPort p (fun x => ({ x with nakFor := some x.rxExpected, nakTick := d.tick, ctrlNak := true } : Port).due d.tick)

/-- The link's retry budget is spent, or a replay from a sequence number begins (R272 items 2 to 4). -/
def Dev.replay (d : Dev) (p e : Nat) : Dev :=
  if (d.port p).retained = [] then d
  else if 8 ≤ (d.port p).replays then d.linkDown p 0x0B .txTune
  else (d.countPort p 0x03 1).modPort p (fun x =>
    { x with replays := x.replays + 1, replayPos := some e, replayFrom := e, replayTick := d.tick })

/-- An ack frees the flits before it (R272 item 1). -/
def Dev.takeAck (d : Dev) (p e : Nat) : Dev :=
  let x := d.port p
  let rest := x.retained.filter (fun r => !serialAfter 24 e r.seq)
  if rest.length < x.retained.length then d.modPort p (fun x => { x with retained := rest, replays := 0, ackTick := d.tick }) else d

/-- A NAK: a replay begins unless one from the same number began within a retry timer (R272 item 2). -/
def Dev.takeNak (d : Dev) (p e : Nat) : Dev :=
  let x := d.port p
  if x.replays ≠ 0 ∧ x.replayFrom = e ∧ d.tick < x.replayTick + d.retryTicks p then d else d.replay p e

/-- A CTRL flit (R270, R272, R275). -/
def Dev.takeCtrl (d : Dev) (p : Nat) (b : Bytes) : Dev :=
  if u8 b 0 ≠ 1 then d.countPort p 0x1D 1
  else
    let e := bits (fld b 4 4) 23 0
    let d := (d.takeAck p e).modPort p (fun x =>
      { x with limit := (List.range 6).foldl (fun t i => tset t (i + 2) (fld b (8 + 4 * i) 4)) x.limit })
    if bit (u8 b 1) 0 then d.takeNak p e else d

/-! ### The Gauge's taps (R465) -/

/-- The account of a packet's head. -/
def headAccount (h : Bytes) : Nat := if rhClass h = 1 ∨ rhClass h = 2 ∨ rhClass h = 4 then rhJob h else 256

/-- A data flit is counted at the port and charged to the account of its packet's head on its VC. -/
def Dev.flitBytes (d : Dev) (p vc : Nat) (tx : Bool) (ftype : Nat) (data : Bytes) : Dev :=
  let key := vc + 8 * b2n tx
  let d := if ftype = 1 ∨ ftype = 4 then
      d.modPort p (fun x => { x with taps := tset x.taps key { cls := rhClass data, job := headAccount data } })
    else d
  d.portBytes (tget { cls := 0, job := 256 } (d.port p).taps key).job p tx 64

/-! ### Packets on an input VC (R265, R276, R286) -/

/-- A packet that waits on an input VC changes: the newest one, which is still arriving. -/
def Dev.modArriving (d : Dev) (p v : Nat) (f : Waiting → Waiting) : Dev :=
  d.modPort p (fun x =>
    { x with waiting := x.waiting.map (fun w => if w.inVc = v ∧ w.inPort = p ∧ w.complete = false then f w else w) })

/-- Whether the arriving packet of an input VC still waits for its output. -/
def Dev.stillWaits (d : Dev) (p v : Nat) : Bool := (d.port p).waiting.any (fun w => w.inVc == v && w.inPort == p && !w.complete)

/-- A flit after the head of a packet that is forwarded. -/
def Dev.onward (d : Dev) (p v : Nat) (f : QFlit) : Dev :=
  if d.stillWaits p v then
    d.modArriving p v (fun w => { w with got := w.got ++ [f.data], complete := f.isTail, bad := f.ftype == 6 })
  else d.cross p v { f with src := p, gen := (d.port p).linkGen }

/-- The packet of an input VC ends; a whole one that is consumed or forwarded is mirrored as received. At an Ethernet-mode port the
frame has been mirrored (R294). -/
def Dev.endRx (d : Dev) (p v : Nat) (bad : Bool) : Dev :=
  match (d.port p).rx.find? (fun e => e.1 == v) with
  | none => d
  | some (_, o) =>
    let b := packetBytes (o.head ++ o.got.flatten)
    let d := d.modPort p (fun x => { x with rx := tdel x.rx v })
    if bad || o.fate == Fate.dropped || d.ethernet p then d else d.mirror false p (some (b.take 16)) b

/-- The packet is cut short (R265): a forwarding device ends it with TAIL_BAD, a consuming one discards it. -/
def Dev.truncate (d : Dev) (p v : Nat) (fate : Fate) : Dev :=
  let d := d.countPort p 0x22 1
  let d := if fate == Fate.forwarded then d.onward p v tailBad else d
  d.endRx p v true

/-- What the flit numbered `k` of `n` does to its packet, once it has been taken: the rules on tails (R265). -/
def tailFault (ftype k n : Nat) : Bool :=
  let tail := decide (ftype = 3 ∨ ftype = 4)
  (tail && decide (k < n)) || (!tail && decide (ftype ≠ 6) && decide (n ≤ k))

/-- A head's sample record, where it is consumed or dropped (R291). -/
def Dev.sampleEnd (d : Dev) (samp : Bool) (p v out : Nat) (h : Bytes) : Dev := if samp then d.sampleHead p out v 0 0 (bit (rhFlags h) 0) h else d

/-- A head flit is checked and routed (R265). -/
def Dev.headRx (d : Dev) (p v ftype : Nat) (h : Bytes) : Dev :=
  let n := flitsOf (rhLength h)
  let (samp, d) := d.countHead p h
  let (d, r) := d.route p v h
  let rx (fate : Fate) (d : Dev) : Dev := d.modPort p (fun x => { x with rx := tset x.rx v { head := h, got := [], need := n, fate := fate } })
  match r with
  | .dropped => (rx .dropped (d.sampleEnd samp p v 0xFF h)).returnCredit p v 1
  | .consumed => (rx .consumed (d.sampleEnd samp p v 0xFE h)).returnCredit p v 1
  | .onward hop =>
    rx .forwarded (d.addWait p
      { inPort := p, inVc := v, outPort := hop.out, outVc := hop.vc, queue := hop.queue, head := h, asRx := h, flits := n, arrive := d.tick,
        path := hop.path, dlb := hop.dlb, sampled := samp, gen := (d.port p).linkGen, complete := decide (ftype = 4 ∧ n = 1) })

/-- The fate of the packet that is open on an input VC. -/
def Dev.rxFate (d : Dev) (p v : Nat) : Option OpenRx := ((d.port p).rx.find? (fun e => e.1 == v)).map (·.2)

/-- A head flit arrives: what was still open on its VC ends, its packet begins, and a packet of one flit ends with it. -/
def Dev.takeHead (d : Dev) (p v ftype : Nat) (h : Bytes) : Dev :=
  let d := match d.rxFate p v with
    | some o => if o.fate == Fate.dropped then d.endRx p v true else d.truncate p v o.fate
    | none => d
  let d := d.headRx p v ftype h
  match d.rxFate p v with
  | none => d
  | some o =>
    if o.fate == Fate.dropped then (if ftype = 4 then d.endRx p v true else d)
    else if tailFault ftype 1 o.need then d.truncate p v o.fate
    else if ftype = 4 then d.endRx p v false
    else d

/-- A flit after the head (R265). Flits that belong to no open packet are discarded, and their credits returned. -/
def Dev.takeRest (d : Dev) (p v ftype : Nat) (data : Bytes) : Dev :=
  match d.rxFate p v with
  | none => d.returnCredit p v 1
  | some o =>
    let k := o.got.length + 2
    let tail := decide (ftype = 3 ∨ ftype = 6)
    let d := d.modPort p (fun x => { x with rx := tset x.rx v { o with got := o.got ++ [data] } })
    if o.fate == Fate.dropped then
      let d := d.returnCredit p v 1
      if tail then d.endRx p v true else d
    else if tailFault ftype k o.need then (d.returnCredit p v 1).truncate p v o.fate
    else
      let d := if o.fate == Fate.forwarded && ftype != 6 then d else d.returnCredit p v 1
      let d := if o.fate == Fate.forwarded then d.onward p v { ftype := ftype, data := data } else d
      if tail then d.endRx p v (ftype == 6) else d

/-- A flit enters the ingress account of its VC, a cell of the output-queue memory; VC0 and VC1 have none (R266, R275, R302). -/
def Dev.enterIngress (d : Dev) (p v n : Nat) : Dev :=
  if v < 2 then d else (d.countDev 0x102 (64 * n)).modPort p (fun x => { x with ingress := tmod 0 x.ingress v (· + n) })

/-- An accepted data flit: the receiver's account, the counters, and its packet (R271, R275). -/
def Dev.takeFlit (d : Dev) (p v ftype : Nat) (data : Bytes) : Dev :=
  let d := (d.flitBytes p v false ftype data).enterIngress p v 1
  if ftype = 1 ∨ ftype = 4 then d.takeHead p v ftype data else d.takeRest p v ftype data

/-- A data flit in an undamaged slot (R271). -/
def Dev.takeData (d : Dev) (p trailer : Nat) (data : Bytes) : Dev :=
  let x := d.port p
  let seq := trSeq trailer
  if seq = x.rxExpected then
    (d.modPort p (fun x => ({ x with rxExpected := (x.rxExpected + 1) % 2 ^ 24, nakFor := none } : Port).due d.tick)).takeFlit p (trVc trailer)
      (trType trailer) data
  else if serialAfter 24 seq x.rxExpected then d.nak p
  else d.countPort p 0x1E 1

/-- A flit slot that carries data or control arrives (R231, R261, R271). -/
def Dev.slotRx (d : Dev) (p slot trailer : Nat) (data : Bytes) (ctrl : Bool) : Dev :=
  if !d.takesFlits p then d
  else if (d.port p).damaged.contains slot then d.nak p
  else if trBad trailer then (d.countPort p 0x1D 1).nak p
  else if trType trailer = 5 then (if ctrl then d.takeCtrl p data else d)
  else if trType trailer = 0 ∨ ctrl = true then d
  else d.takeData p trailer data

def execDataFlitRx (port slot trailer : Nat) (data : Bytes) (now : Nat) (s : State) : Host.Outcome State Fault Refusal :=
  .next (s.event now (fun d => d.slotRx port slot trailer data false))

def execCtrlFlitRx (port slot trailer : Nat) (data : Bytes) (now : Nat) (s : State) : Host.Outcome State Fault Refusal :=
  .next (s.event now (fun d => d.slotRx port slot trailer data true))

/-- The retry timer of a port runs out (R272 item 3). -/
def Dev.retryTimeout (p : Nat) (d : Dev) : Dev :=
  match (d.port p).retained with
  | [] => d
  | r :: _ => if max r.tick (d.port p).ackTick + d.retryTicks p ≤ d.tick then d.replay p r.seq else d

def execRetryTimer (port now : Nat) (s : State) : Host.Outcome State Fault Refusal := .next (s.event now (Dev.retryTimeout port))

/-- A head flit by itself, as one that has come out of a decapsulated frame (R265, R298). -/
def Dev.headCommand (p v ftype : Nat) (h : Bytes) (d : Dev) : Dev :=
  if decide (ftype = 1 ∨ ftype = 4) && (d.port p).state == .up then (d.enterIngress p v 1).takeHead p v ftype h else d

def execPacketHeadRx (port vc ftype : Nat) (head : Bytes) (now : Nat) (s : State) : Host.Outcome State Fault Refusal :=
  .next (s.event now (Dev.headCommand port vc ftype head))

end Sys2Proof.Machine
end

