-- ==== Sys2Proof/Machine/Switch.lean ====
section
/-! DEFINITION. The start of general-plane heads: queue, gate, buckets, rings and fair queuing, the move to the escape channel, and the
windows of the weir frame (R222, R282, R286 to R289, R316 to R320). -/

namespace Sys2Proof.Machine

/-! ### Gates (R222, R320) -/

/-- Whether an output's gate is open to the general plane in window `w`. -/
def Port.gateOpen (x : Port) (w : Nat) : Bool := !bit x.closed (w % 30)

/-- The tick at which the gate closes, after window `w` of a tick; none where no window is closed. -/
def Port.gateCloses (x : Port) (tick : Nat) : Option Nat :=
  ((List.range 30).find? (fun i => !x.gateOpen (tick / 325 + i))).map (fun i => (tick / 325 + i) * 325)

/-- The gate test of R320 for a head of `n` flits behind `m` in its queue. -/
def Dev.gatePasses (d : Dev) (out n m : Nat) : Bool :=
  let x := d.port out
  x.gateOpen (d.tick / 325) && (match x.gateCloses d.tick with
    | some t => decide (d.tick + ceilDiv ((n + m) * 64) 75 + 64 ≤ t)
    | none => true)

/-! ### Waiting heads -/

/-- The heads that are the oldest of their input VC, none of whose flits still waits to cross (R286). -/
def Dev.firsts (d : Dev) : List (Nat × Waiting) :=
  d.ports.flatMap (fun e => (e.2.waiting.zipIdx.filter (fun w =>
    !(e.2.waiting.take w.2).any (fun u => u.inPort == w.1.inPort && u.inVc == w.1.inVc) && (tget [] e.2.moving w.1.inVc).isEmpty &&
      (d.heldBy w.1.inPort w.1.inVc).isNone)).map (fun w => (e.1, w.1)))

/-! ### The tests of R316 -/

/-- The credits of R289: the limit less the flits sent. An Ethernet-mode output has no credit to wait for. -/
def Dev.credits (d : Dev) (out v : Nat) : Nat :=
  let x := d.port out
  (tget 0 x.limit v + 2 ^ 32 - tget 0 x.sentVc v) % 2 ^ 32

/-- head_may_start (R289). -/
def Dev.headMayStart (d : Dev) (inPort out v : Nat) : Bool :=
  if d.ethernet out then true
  else if !d.ringPort out || d.onRing inPort out then decide (1 ≤ d.credits out v)
  else if d.waits.any (fun w => d.wantsOut out v w.2 && d.onRing w.2.inPort out) then false
  else decide (516 ≤ d.credits out v)

/-- Test 4: the turn rule and head_may_start. The device's own packets may leave anywhere. -/
def Dev.turnPasses (d : Dev) (w : Waiting) (out v : Nat) : Bool :=
  turnOk v (if w.inPort < 98 then d.direction w.inPort else 1) (d.direction out) && d.headMayStart w.inPort out v

/-- Test 1: the output VC is free, and its queue has a free cell. -/
def Dev.queuePasses (d : Dev) (out v : Nat) : Bool := !thas (d.port out).holder v && d.room out v

/-- The job injection bucket's rate and burst, where it covers a head (R318). -/
def Dev.injectionOf (d : Dev) (w : Waiting) : Option (Nat × Nat) :=
  let x := d.job w.queue
  if w.rdma.isNone && decide (w.queue < 256) && x.terminal w.inPort then x.shaper 0 else none

/-- The job checkpoint bucket's rate and burst, where it covers a packet (R318). -/
def Dev.ckptOf (d : Dev) (w : Waiting) : Option (Nat × Nat) := if w.rdma.isSome then (d.job w.queue).shaper 1 else none

/-- The core cycle count that a port's bucket refills by: that of the crossbar's half on the port's die (R317, R475). -/
def Dev.cyclesAt (d : Dev) (p : Nat) : Nat := if resDie p = 0 then d.clock.cycles else d.clock.cycles1

/-- Test 3: every bucket that covers the head holds enough (R317, R318). A job's buckets refill by die 0, where the Keeper is (DESIGN
CHOICE, log entry 64). -/
def Dev.bucketsPass (d : Dev) (w : Waiting) (out : Nat) : Bool :=
  let now := d.clock.cycles
  (match d.portBucket out with | some b => (d.port out).bucket.ok b.1 b.2 (d.cyclesAt out) w.flits | none => true) &&
    (match d.injectionOf w with | some b => (d.job w.queue).injection.ok b.1 b.2 now w.flits | none => true) &&
    (match d.ckptOf w with | some b => (d.job w.queue).ckptBucket.ok b.1 b.2 now w.flits | none => true)

/-- The buckets are charged when the head starts. -/
def Dev.chargeBuckets (d : Dev) (w : Waiting) (out : Nat) : Dev :=
  let now := d.clock.cycles
  let d := match d.portBucket out with
    | some b => d.modPort out (fun x => { x with bucket := x.bucket.take b.1 (d.cyclesAt out) w.flits })
    | none => d
  let d := match d.injectionOf w with
    | some b => d.modJob w.queue (fun x => { x with injection := x.injection.take b.1 now w.flits })
    | none => d
  match d.ckptOf w with
  | some b => d.modJob w.queue (fun x => { x with ckptBucket := x.ckptBucket.take b.1 now w.flits })
  | none => d

/-- Whether a head passes the tests 1 to 4 on an output; VC7 takes no bucket (R316). -/
def Dev.passes (d : Dev) (w : Waiting) (out v : Nat) : Bool :=
  d.queuePasses out v && d.gatePasses out w.flits (tget [] (d.port out).outQ v).length && (v == 7 || d.bucketsPass w out) && d.turnPasses w out v

/-- The path that load balancing takes: of those on a link that is UP that would let the head start, the one with the shortest queue
(R282). -/
def Dev.choosePath (d : Dev) (w : Waiting) (v : Nat) : Option Nat :=
  let depth (p : Nat) : Nat := (tget [] (d.port p).outQ v).length
  ((d.pathsOf w).filter (fun p => d.up p && d.passes w p v)).foldl (fun b p => match b with
    | none => some p
    | some q => if depth p < depth q then some p else some q) none

/-- Whether a head can start on an output now. -/
def Dev.ready (d : Dev) (w : Waiting) (out v : Nat) : Bool := if w.dlb then d.choosePath w v == some out else d.passes w out v

/-- What a head that fails a test counts, once for its wait (QUEUE_HOLD, GATE_WAIT; R308, R320). -/
def Dev.countWait (d : Dev) (at' : Nat) (w : Waiting) (out v : Nat) : Dev :=
  let hold := !d.room out v && !w.holdCounted
  let gate := !d.gatePasses out w.flits (tget [] (d.port out).outQ v).length && !w.gateCounted
  if hold || gate then
    ((d.countPort out 0x27 (b2n hold)).countPort out 0x28 (b2n gate)).modWait at' w (fun a =>
      some { a with holdCounted := a.holdCounted || hold, gateCounted := a.gateCounted || gate })
  else d

/-! ### The start (R286, R316, R319) -/

/-- The flits of a waiting packet that have arrived. -/
def Waiting.flitList (w : Waiting) : List QFlit :=
  let n := w.got.length
  ({ ftype := if w.complete && n == 0 then 4 else 1, data := sentHead w.head, src := w.inPort, gen := w.gen } : QFlit) ::
    w.got.zipIdx.map (fun g =>
      { ftype := if w.complete && g.2 + 1 == n then (if w.bad then 6 else 3) else 2, data := g.1, src := w.inPort, gen := w.gen })

/-- A packet starts: it holds the output VC, and what has come of it crosses. -/
def Dev.startPacket (d : Dev) (w : Waiting) (out v : Nat) : Dev :=
  let queued := (tget [] (d.port out).outQ v).length
  let d := if w.sampled then d.sampleHead w.inPort out v w.path queued (bit (rhFlags w.head) 0) w.asRx else d
  let d := d.modPort out (fun x => { x with holder := tset x.holder v (inputCode w.inPort w.inVc), building := tset x.building v [] })
  w.flitList.foldl (fun d f => d.cross w.inPort w.inVc f) d

/-- A RoCEv2 packet leaves its port (R159), in a frame of account 256 (R465) that mirror sessions copy (R294). -/
def Dev.startRdma (d : Dev) (out : Nat) (r : RdmaOut) : Dev :=
  let q := tget Qp.none d.keeper.qps r.qp
  let f := rdmaFrame ((d.ethEntry out).getD []) q r
  ((d.send (.rdma out q.remoteMac q.remoteIp q.remoteQpn r.psn r.write q.rkey r.va r.bytes)).portBytes 256 out true (f.length + 4)).mirror true out none f

/-- A job queue's weight (R268, R305). -/
def Dev.queueWeight (d : Dev) (n : Nat) : Nat := if n = 256 then d.ethWeight else (d.job n).vcWeight

/-- The winner starts: buckets and tags are charged, and its record is gone (R317, R319). A load-balanced head that its Ethernet output
refuses is dropped (R297). -/
def Dev.startHead (d : Dev) (at' : Nat) (w : Waiting) (out v : Nat) : Dev :=
  match (if w.dlb then d.ethRefuses out w.head else none) with
  | some c => (d.countPort out c 1).refuseWait at' w
  | none =>
    let lvl := d.jobLevel out v
    let w' := if w.dlb then { w with path := (d.pathsOf w).idxOf out } else w
    let d := (if v = 7 then d else d.chargeBuckets w out).modWait at' w (fun _ => none)
    let more := d.waits.any (fun u => d.wantsOut out v u.2 && u.2.queue == w.queue)
    let d := if v = 7 then d else
      (d.modPort out (fun x => { x with jobLevels := tset x.jobLevels v (lvl.serve w.queue w.flits (d.queueWeight w.queue) more) })).refair w
    match w.rdma with
    | some r => (d.startRdma out r).moveOwn
    | none => d.startPacket w' out v

/-- The oldest of a list of heads. -/
def oldest (l : List (Nat × Waiting)) : Option (Nat × Waiting) :=
  l.foldl (fun b w => match b with
    | none => some w
    | some c => if w.2.arrive < c.2.arrive then some w else some c) none

/-- The head that starts on an output and VC: on VC7 the oldest, else the oldest of the job queue with the smallest start tag among
those that pass the tests; heads on the ring come first (R288, R316, R319). -/
def Dev.winner (d : Dev) (out v : Nat) : Option (Nat × Waiting) :=
  let ringFirst (l : List (Nat × Waiting)) : List (Nat × Waiting) :=
    let ring := l.filter (fun w => d.onRing w.2.inPort out)
    if ring.isEmpty then l else ring
  let l := d.firsts.filter (fun w => d.wantsOut out v w.2)
  if v = 7 then (oldest (ringFirst l)).filter (fun w => d.ready w.2 out v)
  else
    let ok := ringFirst (l.filter (fun w => d.ready w.2 out v))
    match (d.jobLevel out v).pick ((List.range 257).filter (fun n => ok.any (fun w => w.2.queue == n))) with
    | none => none
    | some n => oldest (ok.filter (fun w => w.2.queue == n))

/-- Packets of an earlier link session are discarded when they are next read (R374, LINK_STALE_DROP). -/
def Dev.dropStaleHeads (d : Dev) (out v : Nat) : Dev :=
  (d.waits.filter (fun w => d.wantsOut out v w.2 && decide (w.2.inPort < 96) && w.2.gen != (d.port w.2.inPort).linkGen)).foldl
    (fun d w => (d.countDev 0x106 (1 + w.2.got.length)).dropWait w.1 w.2) d

/-- HEAD_START on an output VC (R316). A device held by a fatal fault serves only GMP (R362). -/
def Dev.headStart (out v : Nat) (d : Dev) : Dev :=
  if !d.up out || d.faults.held then d
  else
    let d := (d.pullTo out).dropStaleHeads out v
    match d.winner out v with
    | some w => d.startHead w.1 w.2 out v
    | none => (d.firsts.filter (fun w => d.wantsOut out v w.2)).foldl (fun d w => d.countWait w.1 w.2 out v) d

def execHeadStart (port vc now : Nat) (s : State) : Host.Outcome State Fault Refusal := .next (s.event now (Dev.headStart port vc))

/-! ### The escape channel (R287) -/

/-- Path 0 of a waiting head. -/
def Dev.escapePort (d : Dev) (w : Waiting) : Nat :=
  if w.queue = 256 then w.outPort
  else match (d.job w.queue).rankEntry (rhDst w.head) with
    | some e => rtPort e 0
    | none => w.outPort

/-- The head as it is on VC7: escaped is set. -/
def escapedHead (h : Bytes) : Bytes := h.take 9 ++ leBytes 1 (Nat.lor (rhFlags h) 1) ++ h.drop 10

/-- A head of an input VC that has waited escape_wait ticks moves to VC7. The output that it takes then may refuse it (R285, R297). -/
def Dev.escape (p v : Nat) (d : Dev) : Dev :=
  match d.firsts.find? (fun w => w.1 == p && w.2.inPort == p && w.2.inVc == v && w.2.outVc != 7 && w.2.rdma.isNone) with
  | none => d
  | some (at', w) =>
    let out := d.escapePort w
    if d.tick < w.arrive + d.escapeWait ∨ (d.pathsOf w).any (fun q => d.up q && d.ready w q w.outVc) then d
    else if !turnOk 7 (d.direction p) (d.direction out) then (d.countPort p 0x24 1).refuseWait at' w
    else match d.ethRefuses out w.head with
      | some c => (d.countPort out c 1).refuseWait at' w
      | none =>
        ((d.countPort out 0x25 1).modWait at' w (fun a =>
          some { a with outVc := 7, outPort := out, path := 0, dlb := false, head := escapedHead a.head, gateCounted := false, holdCounted := false })).refair w

def execEscapeEnter (port vc now : Nat) (s : State) : Host.Outcome State Fault Refusal := .next (s.event now (Dev.escape port vc))

/-! ### Window boundaries (R222, R320) -/

/-- The windows of an output that RUNNING jobs claim. -/
def Dev.closedMask (d : Dev) (p : Nat) : Nat :=
  (d.jobs.filter (fun e => e.2.state == .running)).foldl (fun m e =>
    ((scClaimList e.2.sched).filter (fun c => clResource c == 0x1000 + p)).foldl (fun m c => Nat.lor m (clMask c)) m) 0

/-- The packets in an output queue: those that a tail ends, and one more whose tail is still to come. -/
def packetsIn (q : List QFlit) : Nat :=
  (q.filter QFlit.isTail).length + (match q.getLast? with | some f => if f.isTail then 0 else 1 | none => 0)

/-- Each packet that the closing gate holds back is counted once (GATE_OVERRUN). -/
def Dev.overruns (d : Dev) (p : Nat) : Dev :=
  [2, 3, 4, 5, 7].foldl (fun d v =>
    let n := packetsIn (tget [] (d.port p).outQ v)
    (d.countPort p 0x29 (n - tget 0 (d.port p).overrun v)).modPort p (fun x => { x with overrun := tset x.overrun v n })) d

/-- A head that waits for an output whose gate has opened begins a new wait if it fails the test again. -/
def Dev.newWait (d : Dev) (p : Nat) : Dev :=
  { d with
    ports := d.ports.map (fun e =>
      (e.1, { e.2 with waiting := e.2.waiting.map (fun a => if (d.pathsOf a).contains p then { a with gateCounted := false } else a) })) }

/-- One output at a window boundary: the mask that is now in force, and its gate. -/
def Dev.windowAt (d : Dev) (p : Nat) : Dev :=
  let w := d.tick / 325
  let was := (d.port p).gateOpen (w + 29)
  let d := d.modPort p (fun x => { x with closed := d.closedMask p })
  let open' := (d.port p).gateOpen w
  if was && !open' then d.overruns p
  else if !was && open' then d.newWait p
  else d

/-- A boundary of the weir frame's windows, once for each window and at its start: the GTC may step over the window's first tick (R13,
R222). -/
def Dev.boundary (d : Dev) : Dev :=
  let w := d.tick / 325
  if w = d.clock.window ∨ 2 ≤ d.tick % 325 then d
  else ((List.range 98).foldl (fun d p => d.windowAt p) d).modClock (fun c => { c with window := w })

def execWindowBoundary (now : Nat) (s : State) : Host.Outcome State Fault Refusal := .next (s.event now Dev.boundary)

end Sys2Proof.Machine
end

