-- ==== Sys2Proof/Machine/Ckpt.lean ====
section
/-! DEFINITION. Checkpoints: queue pairs, the record stream, push and pull, and how a checkpoint ends (R89, R159 to R163, R166). -/

namespace Sys2Proof.Machine

/-! ### Queue pairs (R159) -/

def Dev.qp (d : Dev) (n : Nat) : Option Qp := (d.keeper.qps.find? (fun q => q.1 == n)).map (·.2)

/-- The job whose open checkpoint uses a queue pair. -/
def Dev.qpUser (d : Dev) (n : Nat) : Option (Nat × Ckpt) := d.keeper.ckpts.find? (fun e => e.2.qp == n)

/-- The path MTU of a code. -/
def mtuOf (code : Nat) : Nat := 1024 * 2 ^ code

/-- A queue pair as its setup leaves it; what the device chooses is free. -/
def Dev.setupQp (d : Dev) (b : Bytes) : Dev × Reply :=
  let (q, d) := d.draw
  let (k, d) := d.draw
  let (w, d) := d.draw
  let qp : Qp :=
    { port := u8 b 1, mtu := mtuOf (u8 b 2), remoteQpn := fld b 4 4, psn := fld b 8 4, rkey := fld b 12 4, remoteVa := fld b 16 8,
      remoteMac := fld b 24 6, remoteIp := fld b 32 16, localQpn := q % 2 ^ 24, localRkey := k % 2 ^ 32, windowVa := w % 2 ^ 64 }
  (d.modKeeper (fun x => { x with qps := tset x.qps (u8 b 0) qp }),
    { payload := leBytes 4 qp.localQpn ++ leBytes 4 qp.localRkey ++ leBytes 8 qp.windowVa })

/-- GMP_QP_SETUP. A queue pair that an open checkpoint uses: ST_CKPT_QP (DESIGN CHOICE, log entry 51). -/
def qpSetupRequest : Request :=
  { msg := 0x0040, right := .job,
    valid := fun b => b.length == 48 && decide (u8 b 2 < 3) && u8 b 3 == 0 && decide (fld b 4 4 < 2 ^ 24) && decide (fld b 8 4 < 2 ^ 24) && zeros b 30 2,
    act := onDev (fun m _ d =>
      if 64 ≤ u8 m.body 0 then (d, { status := stCkptQp })
      else if !d.ethernet (u8 m.body 1) then (d, { status := stGmpMalformed })
      else if (d.qpUser (u8 m.body 0)).isSome then (d, { status := stCkptQp })
      else d.setupQp m.body) }

def execGmpQpSetup (m : GmpMsg) (s : State) : Host.Outcome State Fault Refusal := .next (gmpCommand qpSetupRequest m s)

/-! ### Records (R163) -/

/-- A record: its header with the digest of its data, and its data. -/
def ckptRecord (typ j key off count node step mask : Nat) (data : Bytes) : Bytes :=
  leBytes 1 typ ++ leBytes 1 j ++ leBytes 2 0 ++ leBytes 4 key ++ leBytes 8 off ++ leBytes 4 count ++ leBytes 4 node ++ leBytes 6 step ++
    leBytes 1 mask ++ leBytes 1 0 ++ sm3 data ++ data

/-- Governed tensors of an AMAX_HISTORY recipe, ascending. -/
def Job.governed (x : Job) (i : Nat) : List Nat := (x.tensorEntries.filter (fun e => tnOut e == i)).map tnIndex

/-- The data of a RECIPE_STATE record. -/
def Job.recipeData (x : Job) (i : Nat) : Bytes :=
  let e := nth x.recipeEntries i
  let r := tget {} x.recipes i
  e ++ (if rpKind e = 1 then leBytes 4 (r.s % 2 ^ 32).toNat ++ leBytes 4 r.count
    else
      let g := x.governed i
      leBytes 4 g.length ++ leBytes 4 0 ++ g.flatMap (fun t =>
        let w := tget [] r.windows t
        leBytes 4 t ++ leBytes 4 w.length ++ w.flatMap (fun v => leBytes 4 v.toNat)))

def Job.recipeRecord (x : Job) (j step i : Nat) : Bytes :=
  let b := x.recipeData i
  ckptRecord 3 j i 0 b.length 0 step 0 b

/-- The arrays of a chunk that a checkpoint holds, in order: W, the declared S arrays, Q. -/
def Job.savedArrays (x : Job) (c : Nat) : List Nat := [0] ++ x.declared c ++ [4]

/-- The mask of the arrays that a chunk's program declares (R132). -/
def Job.maskOf (x : Job) (c : Nat) : Nat := pgMask (x.program (tnProgram (x.tensor (owTensor (x.chunk c)))))

/-- CHUNK_STATE of an owned chunk. -/
def Mach.chunkRecord (k : Mach) (j step c : Nat) : Bytes :=
  let x := k.dev.job j
  ckptRecord 1 j (owTensor (x.chunk c)) (x.chunkFirst c) (x.chunkElems c) 0 step (x.maskOf c)
    ((x.savedArrays c).flatMap (fun a => k.arrayBytes x c a))

/-- Hosted narrowing nodes with their buckets, in ascending (tensor, node word, offset). -/
def Job.narrowSites (x : Job) : List (Bytes × Nat) :=
  let l := x.bucketEntries.flatMap (fun b => ((x.hosted (bkBucket b)).filter (x.narrows b)).map (fun w => (b, w)))
  let key (e : Bytes × Nat) : Nat := (bkTensor e.1 * 2 ^ 32 + e.2) * 2 ^ 64 + bkFirst e.1
  sortBy (fun a b => decide (key a ≤ key b)) l

/-- The committed remainder of a node over its bucket; zeros where nothing has been committed (R88). -/
def Job.committedWords (x : Job) (b : Bytes) (w : Nat) : List W32 :=
  (fragOffs b).flatMap (fun o => ((x.remOf (bkBucket b) w o).map (·.committed)).getD (List.replicate (fragLen b o) 0#32))

/-- EF_REMAINDER of a hosted narrowing node. -/
def Job.remainderRecord (x : Job) (j step : Nat) (e : Bytes × Nat) : Bytes :=
  ckptRecord 2 j (bkTensor e.1) (bkFirst e.1) (bkCount e.1) e.2 step 0 ((x.committedWords e.1 e.2).flatMap (fun v => leBytes 4 v.toNat))

/-- The data of MANIFEST over the earlier records; the signature's nonce is free. The record count is that of the earlier records, which
R163 leaves open (DESIGN CHOICE, log entry 51). -/
def manifestData (recs : List Bytes) (image : Bytes) (priv nonce : Nat) : Bytes :=
  let h := leBytes 8 recs.length ++ sm3 (recs.flatMap (·.take 64)) ++ image
  h ++ sm2Sign priv (scalarOf nonce) h

/-- Every record of the stream but MANIFEST (R160 item 3). -/
def Mach.streamRecords (k : Mach) (j step : Nat) : List Bytes :=
  let x := k.dev.job j
  (if x.onList then (List.range x.recipeEntries.length).map (x.recipeRecord j step) else []) ++ x.owned.map (k.chunkRecord j step) ++
    x.narrowSites.map (x.remainderRecord j step)

/-! ### Packets (R159, R318) -/

/-- Packets of a stream in pieces of the path MTU: the first sequence number and address, then one more each. -/
def rdmaPackets (qp mtu psn va : Nat) (write : Bool) (data : Bytes) : List RdmaOut :=
  (chunksOf mtu data).zipIdx.map (fun c =>
    { qp := qp, psn := (psn + c.2) % 2 ^ 24, write := write, va := va + mtu * c.2, bytes := c.1 })

/-- The bytes of a RoCEv2 frame around its data: a WRITE's headers, or those of an answer to a READ. -/
def rdmaHead (write : Bool) : Nat := if write then 98 else 86

/-- Packets wait at their output port, on the job's VC and under its checkpoint bucket, as the device reserve has cells for them (R302,
R308, R318). -/
def Dev.queueRdma (d : Dev) (j port : Nat) (rs : List RdmaOut) : Dev :=
  let x := d.job j
  let wait (r : RdmaOut) : Waiting :=
    { inPort := 255, inVc := 1000 + j, outPort := port, outVc := x.vc, queue := j, head := mkRoute clP2p j 0 0 r.bytes.length x.vc 0 1 0,
      flits := ceilDiv (rdmaHead r.write + r.bytes.length) 64, arrive := d.tick, path := 0, rdma := some r, complete := true }
  d.sendOwn (rs.map (fun r => { port := port, rdma := some (wait r) }))

/-! ### A checkpoint request (R160, R161) -/

/-- Whether step `s` is the last one ended here, whatever its outcome (R31), with no launch since and none pending (R160). -/
def Job.ckptStepOk (x : Job) (step : Nat) : Bool := x.lastEnded == step && step != noStep && x.rcStep == noStep && x.launch.isNone

/-- Whether a queue pair can carry a new checkpoint. -/
def Dev.qpReady (d : Dev) (n : Nat) : Bool := (d.qp n).any (fun q => !q.error) && (d.qpUser n).isNone

/-- What GMP_CKPT is refused with (R160). The spec gives no status for a job whose checkpoint is open, or for a queue pair in use or in
error: ST_CKPT_ACTIVE and ST_CKPT_QP (DESIGN CHOICE, log entry 51). -/
def Dev.ckptStatus (d : Dev) (j qp step : Nat) : Nat :=
  if thas d.keeper.ckpts j then stCkptActive
  else if !(d.job j).ckptStepOk step then stCkptState
  else if !d.qpReady qp then stCkptQp
  else stOk

/-- The owned arrays are read for the stream (R439). -/
def Dev.readArrays (d : Dev) (j : Nat) : Dev :=
  let x := d.job j
  x.owned.foldl (fun d c => (x.savedArrays c).foldl (fun d a => d.countDepths (x.elemAt c a 0) (x.width c a * x.chunkElems c) false) d) d

/-- The stream is formed, and pushed or offered. A stream longer than the remote region ends the checkpoint. -/
def Mach.openCkpt (k : Mach) (j qp step length : Nat) (pull : Bool) : Mach :=
  let recs := k.streamRecords j step
  let (nonce, d) := k.dev.draw
  let m := manifestData recs d.keeper.imageDigest d.keeper.identityPriv nonce
  let stream := recs.flatten ++ ckptRecord 4 j 0 0 m.length 0 step 0 m
  let q := (d.qp qp).getD Qp.none
  let d := if !pull && decide (length < stream.length) then d.ckptEvent j stCkptSpace step (List.replicate 32 0#8)
    else
      let c : Ckpt := { job := j, pull := pull, qp := qp, step := step, length := length, stream := stream, manifest := sm3 m }
      let d := (d.readArrays j).modKeeper (fun x => { x with ckpts := tset x.ckpts j c })
      if pull then d
      else
        let rs := rdmaPackets qp q.mtu q.psn q.remoteVa true stream
        (d.queueRdma j q.port rs).modKeeper (fun x => { x with qps := tset x.qps qp { q with psn := (q.psn + rs.length) % 2 ^ 24 } })
  { k with dev := d }

/-- GMP_CKPT. -/
def ckptRequest : Request :=
  { msg := 0x0041, right := .job, namesJob := true,
    valid := fun b => b.length == 20 && decide (u8 b 1 < 2) && u8 b 3 == 0 && zeros b 10 2,
    act := fun m _ k =>
      let j := u8 m.body 0
      let step := fld m.body 4 6
      let st := k.dev.ckptStatus j (u8 m.body 2) step
      if st = stOk then (k.openCkpt j (u8 m.body 2) step (fld m.body 12 8) (u8 m.body 1 == 1), some {}) else refuse st k }

def execGmpCkpt (m : GmpMsg) (s : State) : Host.Outcome State Fault Refusal := .next (gmpCommand ckptRequest m s)

/-! ### Reads, completion and abort (R160 to R162) -/

/-- A remote access error NAK. -/
def Dev.nakRead (d : Dev) (q : Qp) (psn : Nat) : Dev :=
  (d.send (.rdmaNak q.port q.remoteMac q.remoteIp q.remoteQpn psn)).portBytes 256 q.port true 82

/-- A queue pair fails: its checkpoint ends with ST_CKPT_ABORTED. -/
def Dev.failQp (d : Dev) (n : Nat) : Dev :=
  match d.qpUser n with
  | some (j, _) => d.endCkpt j stCkptAborted
  | none => d.modKeeper (fun k => { k with qps := k.qps.map (fun q => if q.1 = n then (q.1, { q.2 with error := true }) else q) })

/-- The bytes of the window that a READ asks for, where they lie within it. -/
def Ckpt.window (c : Ckpt) (q : Qp) (va length : Nat) : Option Bytes :=
  if c.pull ∧ q.windowVa ≤ va ∧ 1 ≤ length ∧ va - q.windowVa + length ≤ min c.length c.stream.length then
    some (slice c.stream (va - q.windowVa) length)
  else none

/-- RDMA_READ_RX: served from the window, or refused with a NAK that puts the queue pair into the error state. A device held by a fatal
fault serves only GMP (R362). -/
def Dev.readRx (n psn va length : Nat) (d : Dev) : Dev :=
  match d.qp n with
  | none => d.countDev 0x107 1
  | some q =>
    if !d.up q.port || d.faults.held then d
    else
      let d := d.portBytes 256 q.port false 98
      if q.error then d.nakRead q psn
      else match (d.qpUser n).bind (fun c => (c.2.window q va length).map (fun b => (c.1, b))) with
        | some (j, b) => d.queueRdma j q.port (rdmaPackets n q.mtu psn va false b)
        | none => (d.nakRead q psn).failQp n

def execRdmaReadRx (qp psn va length now : Nat) (s : State) : Host.Outcome State Fault Refusal :=
  .next (s.event now (Dev.readRx qp psn va length))

/-- Whether packets of a queue pair still wait, for a cell of the reserve or at their port. -/
def Dev.sending (d : Dev) (qp : Nat) : Bool :=
  d.waits.any (fun w => w.2.rdma.map RdmaOut.qp == some qp) || d.own.any (fun f => (f.rdma.bind Waiting.rdma).map RdmaOut.qp == some qp)

/-- CKPT_COMPLETE: once nothing of the stream waits any more, the event with the manifest digest. -/
def Dev.ckptDone (j : Nat) (d : Dev) : Dev :=
  match d.keeper.ckpts.find? (fun e => e.1 == j) with
  | none => d
  | some (_, c) =>
    if d.sending c.qp then d
    else (d.modKeeper (fun k => { k with ckpts := tdel k.ckpts j })).ckptEvent j stOk c.step c.manifest

def execCkptComplete (job now : Nat) (s : State) : Host.Outcome State Fault Refusal := .next (s.event now (Dev.ckptDone job))

/-- CKPT_ABORTED: a queue pair error or the loss of its link. -/
def execCkptAborted (job now : Nat) (s : State) : Host.Outcome State Fault Refusal := .next (s.event now (fun d => d.endCkpt job stCkptAborted))

end Sys2Proof.Machine
end

