-- ==== Sys2Proof/Machine/Eth.lean ====
section
/-! DEFINITION. Frames received on Ethernet-mode ports, host ports and the out-of-band port: decapsulation, the Keeper's answers and the
L2 table (R257, R298, R299, R308, R313, R405, R429). -/

namespace Sys2Proof.Machine

/-! ### The fields of a frame (R297) -/

def frDst (f : Bytes) : Bytes := slice f 0 6
def frSrc (f : Bytes) : Bytes := slice f 6 6
/-- A big-endian field. -/
def beFld (f : Bytes) (off n : Nat) : Nat := (slice f off n).foldl (fun v b => 256 * v + b.toNat) 0
def frType (f : Bytes) : Nat := beFld f 12 2
def frIpv6 (f : Bytes) : Bool := frType f == 0x86DD && u8 f 14 / 16 == 6
def frNext (f : Bytes) : Nat := u8 f 20
def frHops (f : Bytes) : Nat := u8 f 21
def frSrcIp (f : Bytes) : Bytes := slice f 22 16
def frDstIp (f : Bytes) : Bytes := slice f 38 16
def frDport (f : Bytes) : Nat := beFld f 56 2
/-- The IPv6 payload that the header's length gives. -/
def frPayload (f : Bytes) : Bytes := slice f 54 (beFld f 18 2)

/-- A group address: multicast or broadcast. -/
def isGroup (mac : Bytes) : Bool := u8 mac 0 % 2 == 1

/-- Whether a checksum over the pseudo-header comes out right. -/
def sumGood (f : Bytes) (next : Nat) : Bool := inetSum (frSrcIp f) (frDstIp f) next (frPayload f) == 0

/-! ### The Keeper's answers (R429) -/

/-- The solicited target (RFC 4861). -/
def nsTarget (f : Bytes) : Bytes := slice f 62 16

/-- A sound ICMPv6 message of a type. -/
def icmpIs (f : Bytes) (typ : Nat) : Bool := frIpv6 f && frNext f == 58 && u8 f 54 == typ && u8 f 55 == 0 && sumGood f 58

/-- An ICMPv6 message with its checksum, in a frame. -/
def icmpFrame (srcMac dstMac src dst : Bytes) (hops : Nat) (typ : Nat) (rest : Bytes) : Bytes :=
  let m (sum : Nat) : Bytes := beBytes 1 typ ++ [0#8] ++ beBytes 2 sum ++ rest
  dstMac ++ srcMac ++ [0x86#8, 0xDD#8] ++ ipv6 0 0 (4 + rest.length) 58 hops src dst ++ m (inetSum src dst 58 (m 0))

/-- The answer to a Neighbor Solicitation: a Neighbor Advertisement that names this address. One from the unspecified address is
answered to all nodes. -/
def neighborReply (mac f : Bytes) : Bytes :=
  let dad := zeros (frSrcIp f) 0 16
  let allNodes : Bytes := [0xFF#8, 0x02#8] ++ List.replicate 13 0#8 ++ [1#8]
  icmpFrame mac (if dad then [0x33#8, 0x33#8, 0#8, 0#8, 0#8, 1#8] else frSrc f) (nsTarget f) (if dad then allNodes else frSrcIp f) 255 136
    ([if dad then 0x20#8 else 0x60#8, 0#8, 0#8, 0#8] ++ nsTarget f ++ [2#8, 1#8] ++ mac)

/-- The answer to an Echo Request. -/
def echoReply (mac f : Bytes) : Bytes := icmpFrame mac (frSrc f) (frDstIp f) (frSrcIp f) 64 129 ((frPayload f).drop 4)

/-- What the Keeper answers at one of its addresses, if anything. -/
def keeperAnswer (mac : Bytes) (ips : List Bytes) (f : Bytes) : Option Bytes :=
  if icmpIs f 135 && frHops f == 255 && ips.contains (nsTarget f) then some (neighborReply mac f)
  else if icmpIs f 128 && ips.contains (frDstIp f) then some (echoReply mac f)
  else none

/-- The out-of-band port's addresses (R429). -/
def Keeper.oobMac (k : Keeper) : Bytes := 0x02#8 :: k.identityDigest.take 5
def Keeper.linkLocal (k : Keeper) : Bytes := [0xFE#8, 0x80#8] ++ List.replicate 6 0#8 ++ k.identityDigest.take 8
def Dev.oobAddresses (d : Dev) : List Bytes :=
  let ip := slice (d.img 0x01) 8 16
  d.keeper.linkLocal :: (if zeros ip 0 16 then [] else [ip])

/-- OOB_FRAME_RX: a frame that is no GMP datagram. -/
def Dev.oobFrame (f : Bytes) (fcsOk : Bool) (d : Dev) : Dev :=
  if !fcsOk || !d.keeper.up || !(frDst f == d.keeper.oobMac || isGroup (frDst f)) then d
  else match keeperAnswer d.keeper.oobMac d.oobAddresses f with
    | some r => d.send (.eth 98 (r ++ fcsOf r))
    | none => d.countDev 0x107 1

def execOobFrameRx (frame : Bytes) (fcsOk : Bool) (now : Nat) (s : State) : Host.Outcome State Fault Refusal :=
  .next (s.event now (Dev.oobFrame frame fcsOk))

/-! ### Packets out of frames (R298 item 1, R308) -/

/-- A whole packet enters on a VC of an Ethernet-mode port, as if its flits had arrived there. -/
def Dev.enterPacket (d : Dev) (p v : Nat) (bytes : Bytes) : Dev :=
  let fl := packetFlits bytes false
  if 2 ≤ v ∧ d.ingressLimit p v < tget 0 (d.port p).ingress v + fl.length then d.countPort p 0x2F 1
  else fl.foldl (fun d f => if f.ftype = 1 ∨ f.ftype = 4 then d.takeHead p v f.ftype f.data else d.takeRest p v f.ftype f.data)
    (d.enterIngress p v fl.length)

/-- Whether a frame is one to be decapsulated. -/
def isEncap (e f : Bytes) (port : Nat) : Bool :=
  epEncap e && frDst f == epLocalMac e && frIpv6 f && frDstIp f == epLocalIp e && frNext f == 17 && frDport f == port

/-- What must hold of it: the UDP checksum and length, the encapsulation header, and the route header's length. -/
def encapGood (f : Bytes) : Bool :=
  (frPayload f).length + 54 == f.length && beFld f 58 2 + 54 == f.length && beFld f 60 2 != 0 && sumGood f 17 && decide (82 ≤ f.length) &&
    u8 f 62 == 1 && decide (u8 f 63 < 8) && zeros f 64 2 && rhLength (f.drop 66) + 82 == f.length

def Dev.decap (d : Dev) (p : Nat) (f : Bytes) : Dev :=
  if encapGood f then d.enterPacket p (u8 f 63) (f.drop 66) else d.countPort p 0x2D 1

/-! ### Frames to the Keeper (R298 item 2, R313, R429) -/

/-- Datagrams that other commands bring: GMP on an enabled host port, and RoCEv2 (R405, R159). -/
def Dev.ownRow (d : Dev) (p : Nat) (f : Bytes) : Bool :=
  frIpv6 f && frNext f == 17 && (frDport f == 4791 || (frDport f == d.gmpUdp && decide (96 ≤ p) && bit d.gmpPorts (p - 96)))

/-- A frame handed to the Keeper holds buffer blocks of its port until it has been handled. -/
def Dev.toKeeper (d : Dev) (p : Nat) (e f : Bytes) : Dev :=
  match d.poolTake .keeper (portHolder p) 0 f.length with
  | (.taken, d) =>
    let d := match (if d.keeper.up then keeperAnswer (epLocalMac e) [epLocalIp e] f else none) with
      | some r => (d.mirror true p none r).sendFrame p 256 r
      | none => d.countDev 0x107 1
    d.poolFreeItem (portHolder p) 0
  | (_, d) => d.countPort p 0x30 1

/-! ### The L2 table (R298 item 3, R299) -/

/-- A frame enters the fabric as an ETH_FRAME packet; hops_left is 32 as it leaves here. -/
def Dev.l2Forward (d : Dev) (p : Nat) (f : Bytes) : Dev :=
  match d.l2Entry (frDst f) with
  | none => d.countPort p 0x2E 1
  | some e =>
    if l2Port e = p then d.countPort p 0x2E 1
    else d.enterPacket p (l2Vc e) (mkRoute clEth 0 0 0 f.length (l2Vc e) 0 33 0 ++ f)

/-! ### ETH_FRAME_RX (R257, R298) -/

/-- The rule of R298 that applies first. -/
def Dev.handleFrame (d : Dev) (p : Nat) (f : Bytes) : Dev :=
  let e := (d.ethEntry p).getD []
  if isEncap e f d.encapUdp then d.decap p f
  else if (e != [] && frDst f == epLocalMac e) || isGroup (frDst f) then (if d.ownRow p f then d else d.toKeeper p e f)
  else d.l2Forward p f

/-- The account of a received frame (R465). -/
def Dev.frameAccount (d : Dev) (p : Nat) (f : Bytes) : Nat :=
  if isEncap ((d.ethEntry p).getD []) f d.encapUdp && encapGood f then rhJob (f.drop 66) else 256

/-- The route header in a frame that carries a packet, for mirror sessions (R293). -/
def Dev.frameRoute (d : Dev) (p : Nat) (f : Bytes) : Option Bytes :=
  if isEncap ((d.ethEntry p).getD []) f d.encapUdp && encapGood f then some (slice f 66 16) else none

/-- The checks of R257; `frame` is without FCS. A device held by a fatal fault serves only GMP (R362). -/
def Dev.ethRx (p : Nat) (f : Bytes) (fcsOk : Bool) (d : Dev) : Dev :=
  if !d.ethernet p || !d.up p then d
  else
    let d := d.portBytes (d.frameAccount p f) p false (f.length + 4)
    if 9216 < f.length + 4 then d.countPort p 0x2A 1
    else if f.length + 4 < 64 then d.countPort p 0x2A 1
    else if !fcsOk then d.countPort p 0x2B 1
    else if frType f = 0x8808 then d.countPort p 0x2C 1
    else if d.faults.held then d
    else (d.mirror false p (d.frameRoute p f) f).handleFrame p f

def execEthFrameRx (port : Nat) (frame : Bytes) (fcsOk : Bool) (now : Nat) (s : State) : Host.Outcome State Fault Refusal :=
  .next (s.event now (Dev.ethRx port frame fcsOk))

end Sys2Proof.Machine
end

