-- ==== Sys2Proof/Machine/LinkTx.lean ====
section
/-! DEFINITION. The transmit side of a fabric link: the frame header, the order in which flit slots are filled, replays, and CTRL flits
(R229, R230, R261, R266, R267, R269, R270, R272 to R275, R319 VC level). -/

namespace Sys2Proof.Machine

/-! ### The frame header (R230) -/

/-- A frame header of this device. -/
def Dev.frameHeader (d : Dev) (p sleep wake : Nat) : Bytes :=
  let x := d.port p
  let h := leBytes 2 0xC3A5 ++ leBytes 1 1 ++ leBytes 1 (pack [(0, b2n (x.state != .up)), (1, b2n (decide (x.txSpareFor < 8)))]) ++
    leBytes 1 (if x.txSpareFor < 8 then x.txSpareFor else 0xFF) ++ leBytes 1 sleep ++ leBytes 2 x.rxMask ++
    leBytes 8 (if sleep = 0 then 2 ^ 64 - 1 else wake) ++ leBytes 8 x.frameCount ++ leBytes 12 0
  h ++ leBytes 4 (crc32c h)

/-! ### Flit slots (R261, R267) -/

/-- A flit slot: 64 bytes and the link trailer. -/
def flitSlot (ftype vc seq : Nat) (data : Bytes) : Bytes := data ++ leBytes 4 (pack [(0, ftype), (3, vc), (6, seq)])

def idleSlot : Bytes := flitSlot 0 0 0 (List.replicate 64 0#8)

/-- The CTRL flit that a port would send (R270). -/
def Port.ctrlFlit (x : Port) : Bytes :=
  leBytes 1 1 ++ leBytes 1 (b2n x.ctrlNak) ++ leBytes 2 0 ++ leBytes 4 x.rxExpected ++
    (List.range 6).flatMap (fun i => leBytes 4 (tget 0 x.grant (i + 2))) ++ leBytes 32 0

/-- A CTRL flit goes out. -/
def Dev.sendCtrl (d : Dev) (p : Nat) : Dev × Bytes :=
  (d.modPort p (fun x => { x with ctrlDue := none, ctrlNak := false }), flitSlot 5 0 0 (d.port p).ctrlFlit)

/-- Whether a CTRL flit is forced: it carries a NAK, or would not leave within 512 ticks (R273). -/
def Dev.ctrlForced (d : Dev) (p : Nat) : Bool :=
  let x := d.port p
  x.ctrlNak || x.ctrlDue.any (fun t => decide (t + 512 ≤ d.tick + 64))

/-- A retained flit is sent again, and the replay goes on to the next one (R272 item 2). -/
def Dev.resend (d : Dev) (p : Nat) (r : Retained) : Dev × Bytes :=
  let rest := (d.port p).retained.filter (fun q => serialAfter 24 q.seq r.seq)
  (((d.countPort p 0x02 1).countDev 0x103 64).modPort p (fun x =>
    { x with replayPos := rest.head?.map Retained.seq, retained := x.retained.map (fun q => if q.seq = r.seq then { q with tick := d.tick } else q) }),
    flitSlot r.ftype r.vc r.seq r.data)

/-- The flit from which a replay goes on. -/
def Port.nextReplay (x : Port) : Option Retained :=
  match x.replayPos with
  | none => none
  | some e => x.retained.find? (fun r => r.seq == e || serialAfter 24 r.seq e)

/-- The flit at the front of an output queue. -/
def Port.front (x : Port) (v : Nat) : Option QFlit := (tget [] x.outQ v).head?

/-- Whether a VC has a flit that may go: credit for VC2 to VC7, and an open gate for the general plane (R267, R275, R320). -/
def Dev.vcReady (d : Dev) (p v : Nat) : Bool :=
  let x := d.port p
  (x.front v).isSome && (decide (v < 2) || serialAfter 32 (tget 0 x.limit v) (tget 0 x.sentVc v)) &&
    (decide (v < 2) || v == 6 || x.gateOpen (d.tick / 325)) && (x.state == .up || v == 6)

/-- A flit of a VC goes out and is retained (R269, R272 item 1). -/
def Dev.sendFlit (d : Dev) (p v : Nat) (f : QFlit) : Dev × Bytes :=
  let seq := (d.port p).txSeq
  let d := d.modPort p (fun x =>
    { x with outQ := tset x.outQ v ((tget [] x.outQ v).drop 1), txSeq := (seq + 1) % 2 ^ 24,
             retained := x.retained ++ [{ seq := seq, vc := v, ftype := f.ftype, data := f.data, tick := d.tick, use := f.use }],
             sentVc := if v < 2 then x.sentVc else tmod 0 x.sentVc v (fun n => (n + 1) % 2 ^ 32),
             overrun := if f.isTail then tmod 0 x.overrun v (· - 1) else x.overrun })
  ((d.countDev 0x103 64).flitBytes p v true f.ftype f.data, flitSlot f.ftype v seq f.data)

/-- Cells of an earlier link session are discarded when they are read (R374). -/
def Dev.dropStaleCells (d : Dev) (p v : Nat) : Dev :=
  let q := tget [] (d.port p).outQ v
  let keep := q.dropWhile (fun f => decide (f.src < 96) && f.gen != (d.port f.src).linkGen)
  if keep.length < q.length then (d.countDev 0x106 (q.length - keep.length)).modPort p (fun x => { x with outQ := tset x.outQ v keep }) else d

/-- The general VC whose turn it is, by the VC level (R267 item 6, R319). -/
def Dev.generalVc (d : Dev) (p : Nat) : Option Nat := (d.port p).vcLevel.pick ([2, 3, 4, 5].filter (d.vcReady p))

/-- The VC of the next data flit, in the order of R267 items 2 to 6. -/
def Dev.nextVc (d : Dev) (p : Nat) : Option Nat := ([6, 0, 1, 7].find? (d.vcReady p)).or (d.generalVc p)

/-- The VC level wakes for queues that hold flits. -/
def Dev.wakeVcs (d : Dev) (p : Nat) : Dev :=
  d.modPort p (fun x => { x with vcLevel := [2, 3, 4, 5].foldl (fun l v => if tget [] x.outQ v = [] then l else l.wake v) x.vcLevel })

/-- The VC level is served by one flit. -/
def Dev.serveVc (d : Dev) (p v : Nat) : Dev :=
  if 2 ≤ v ∧ v ≤ 5 then
    d.modPort p (fun x => { x with vcLevel := x.vcLevel.serve v 1 (d.vcWeight p v) (decide (2 ≤ (tget [] x.outQ v).length)) })
  else d

/-- A new data flit, a CTRL flit that is due, or IDLE (R267 items 2 to 8). No new data flit goes out while retained flits fill the
replay allotment (R274). -/
def Dev.newSlot (d : Dev) (p : Nat) : Dev × Bytes :=
  let d := (List.range 8).foldl (fun d v => d.dropStaleCells p v) d
  let rest : Dev × Bytes := if (d.port p).ctrlDue.isSome then d.sendCtrl p else (d, idleSlot)
  if d.replayLimit p ≤ (d.port p).retained.length then rest
  else
    match d.nextVc p with
    | none => rest
    | some v =>
      match (d.port p).front v with
      | none => rest
      | some f => (d.serveVc p v).sendFlit p v f

/-- One flit slot (R267). -/
def Dev.fillSlot (d : Dev) (p : Nat) : Dev × Bytes :=
  if (d.port p).state != .up && (d.port p).state != .calibrate then (d, idleSlot)
  else if d.ctrlForced p then d.sendCtrl p
  else
    match (d.port p).nextReplay with
    | some r => d.resend p r
    | none => d.newSlot p

/-! ### The frame (R229) -/

/-- The 75 slots of a frame. -/
def Dev.fillFrame (d : Dev) (p : Nat) : Dev × Bytes :=
  (List.range 75).foldl (fun a _ => let r := a.1.fillSlot p; (r.1, a.2 ++ r.2)) (d, [])

/-- A link frame goes out. -/
def Dev.sendLinkFrame (d : Dev) (p sleep wake : Nat) : Dev :=
  let (d, slots) := ((d.pullTo p).wakeVcs p).fillFrame p
  let bytes := d.frameHeader p sleep wake ++ slots
  let lanes := framePrecoded bytes (d.port p).precoder (d.port p).txSpareFor
  (d.send (.frame p bytes (lanes.map (fun l => l.2.map levelOf)))).modPort p (fun x =>
    { x with frameCount := (x.frameCount + 1) % 2 ^ 64, precoder := lanes.map (fun l => (l.1, l.2.getLastD 0)),
             txChange := x.txChange && decide (8 ≤ x.txSpareFor) })

/-- Whether a transmit direction sends data frames: its countdown is over, and it does not sleep (R238, R245). -/
def Dev.sendsFrames (d : Dev) (p : Nat) : Bool :=
  let x := d.port p
  d.fabric p && x.txSleep == 0 && (x.state == .up || x.state == .calibrate || (x.state == .handshake && x.sending))

/-- The flits of a TX slot that wait for an output, without those of the packet that is open on a VC. -/
def cutFeed (v : Nat) : List (Nat × QFlit) → List (Nat × QFlit)
  | [] => []
  | (w, f) :: r => if w = v then (if f.isTail then r else cutFeed v r) else (w, f) :: cutFeed v r

/-- The cell at the front of an output queue cannot be read: its packet ends there with TAIL_BAD, and the rest of the packet is
discarded, what has not yet crossed with it (R265, R275, R359). -/
def Dev.badCell (d : Dev) (p v : Nat) : Dev :=
  match tget [] (d.port p).outQ v with
  | [] => d
  | f :: r =>
    let rest := if f.isTail then r else (r.dropWhile (fun q => !q.isTail)).drop 1
    let d := d.modPort p (fun x => { x with outQ := tset x.outQ v ({ f with ftype := 6, data := tailBad.data } :: rest) })
    let d := if (f :: r).any QFlit.isTail then d
      else match (d.port p).holder.find? (fun h => h.1 == v) with
        | some h => (d.dropMoving h).modPort p (fun x => { x with holder := tdel x.holder v, building := tdel x.building v })
        | none => d.modPort p (fun x => { x with feed := cutFeed v x.feed })
    d.raiseFault { source := 0x0A03 }

/-- What error correction says of the cell of the next data flit (R359). -/
def Dev.readCell (d : Dev) (p : Nat) (cell : EccResult) : Dev :=
  match cell, d.nextVc p with
  | .corrected, some _ => d.recordFault { source := 0x0A01 }
  | .uncorrectable, some v => d.badCell p v
  | _, _ => d

/-- LINK_FRAME_TX (R267). -/
def Dev.frameTx (p : Nat) (cell : EccResult) (d : Dev) : Dev :=
  if d.sendsFrames p then ((d.pullTo p).readCell p cell).sendLinkFrame p 0 0 else d

def execLinkFrameTx (port now : Nat) (s : State) (cell : EccResult := .clean) : Host.Outcome State Fault Refusal :=
  .next (s.event now (Dev.frameTx port cell))

end Sys2Proof.Machine
end

