-- ==== Sys2Proof/Machine/LinkUp.lean ====
section
/-! DEFINITION. Blind bring-up, received frame headers, the spare lane and sleep (R231, R233, R236 to R247, R254 to R258, R275, R374). -/

namespace Sys2Proof.Machine

/-! ### Entries (R238) -/

/-- A port's info field changes: one training frame with it. Every later frame that repeats it is not listed (log entry 34). -/
def Dev.train (d : Dev) (p rxReady : Nat) : Dev := if d.fabric p then d.sendTraining p rxReady 0 else d

/-- A port enters a state of bring-up and sends what it asks for. -/
def Dev.enterLink (d : Dev) (p : Nat) (st : LinkState) : Dev :=
  let d := d.setLink p st
  match st with
  | .acquire => d.train p 0
  | .handshake => d.train p 1
  | .fault => d.train p 0
  | _ => d

/-- A bring-up that fails: its cause, and LINK_DOWN at the first failure since the port was last UP, and again where the neighbour check
first finds the port MISCABLED (R238, R256, R359). -/
def Dev.bringupFails (d : Dev) (p cause : Nat) (st : LinkState) : Dev :=
  let first := !(d.port p).acquireRaised || decide (cause = 0x03 ∧ (d.port p).cause ≠ 0x03)
  let d := (d.modPort p (fun x => { x with cause := cause, acquireRaised := true })).enterLink p st
  if first then d.raiseFault (d.linkDownRecord p) else d

/-- The lanes that a port's transmitter has: 9 rings in fabric mode, 8 in mode 2, 4 in mode 3 and at a host port (R225, R257). -/
def Dev.ringsNeeded (d : Dev) (p rings : Nat) : Bool :=
  let n (k : Nat) : Nat := ((List.range k).filter (fun i => bit rings i)).length
  match d.mode p with
  | 1 => decide (8 ≤ n 9)
  | 2 => n 8 == 8
  | _ => n 4 == 4

/-- Whether a port's bring-up goes on: the blocks run, its transmitter is not dark, and the device is not held (R362, R388). -/
def Dev.bringsUp (d : Dev) (p : Nat) : Bool := decide (p < 98) && d.power.released && !d.darkPort p && !(d.faults.held && decide (p < 96))

/-- The rings that are locked show which lines the feed delivers (R248, R253): a line that was missing and is locked to is present again.
The line power measured then is a free value. -/
def Dev.feedGood (d : Dev) (p rings : Nat) : Dev :=
  let x := d.port p
  let lines := if d.fabric p then Nat.lor (if x.feedState = 0 then x.lines else 0) (rings % 512) else 1
  if x.feedState = 0 ∧ lines = x.lines then d
  else
    let (v, d) := d.draw
    d.modPort p (fun x => { x with feedState := 0, lines := lines, feedPower := v % 65536 })

/-- TX_TUNE passes to ACQUIRE (R238). -/
def Dev.ringsLocked (p rings : Nat) (d : Dev) : Dev :=
  if d.bringsUp p && (d.port p).state == .txTune && d.ringsNeeded p rings then
    ((d.feedGood p rings).modPort p (fun x =>
      { x with txBad := if d.fabric p then (List.range 9).filter (fun i => !bit rings i) else [] })).enterLink p .acquire
  else d

def execTxRingsLocked (port rings now : Nat) (s : State) : Host.Outcome State Fault Refusal := .next (s.event now (Dev.ringsLocked port rings))

/-! ### Time-outs (R238) -/

/-- Whether a state has lasted `n` ticks on a port that is bringing up. -/
def Dev.lasted (d : Dev) (p : Nat) (st : LinkState) (n : Nat) : Bool :=
  d.bringsUp p && (d.port p).state == st && decide ((d.port p).entryTick + n ≤ d.time)

/-- TX_TUNE's cause: a WDM feed with fewer than 8 lines, or rings that do not lock. -/
def Dev.tuneCause (d : Dev) (p : Nat) : Nat :=
  if d.fabric p ∧ (d.port p).feedState = 0 ∧ ((List.range 9).filter (fun i => bit (d.port p).lines i)).length < 8 then 0x07 else 0x0A

def Dev.tuneTimeout (p : Nat) (d : Dev) : Dev :=
  if d.lasted p .txTune (300 * msTicks) then d.bringupFails p (d.tuneCause p) .fault else d

def execTxTuneTimeout (port now : Nat) (s : State) : Host.Outcome State Fault Refusal := .next (s.event now (Dev.tuneTimeout port))

/-- ACQUIRE's cause by what the receiver found; the manual names none for other findings, and one of its three is free then. -/
def Dev.acquireCause (d : Dev) (f : AcquireFinding) : Nat × Dev :=
  match f with
  | .noLight => (0x01, d)
  | .swapped => (0x02, d)
  | .modeMismatch => (0x0E, d)
  | .other => let (v, d) := d.draw; ([0x01, 0x02, 0x0E].getD (v % 3) 0x01, d)

def Dev.acquireTimeout (p : Nat) (f : AcquireFinding) (d : Dev) : Dev :=
  if d.lasted p .acquire (200 * msTicks) then let (c, d) := d.acquireCause f; d.bringupFails p c .acquire else d

def execAcquireTimeout (port : Nat) (finding : AcquireFinding) (now : Nat) (s : State) : Host.Outcome State Fault Refusal :=
  .next (s.event now (Dev.acquireTimeout port finding))

/-- IDENTIFY's time-out; where no check has failed its cause is a free one of the two a check could give. -/
def Dev.identifyTimeout (p : Nat) (d : Dev) : Dev :=
  if d.lasted p .identify (10 * msTicks) then
    let (v, d) := d.draw
    d.bringupFails p ([0x04, 0x0D].getD (v % 2) 0x04) .fault
  else d

def execIdentifyTimeout (port now : Nat) (s : State) : Host.Outcome State Fault Refusal := .next (s.event now (Dev.identifyTimeout port))

def Dev.handshakeTimeout (p : Nat) (d : Dev) : Dev :=
  if d.lasted p .handshake (100 * msTicks) then d.bringupFails p 0x0C .acquire else d

def execHandshakeTimeout (port now : Nat) (s : State) : Host.Outcome State Fault Refusal := .next (s.event now (Dev.handshakeTimeout port))

def Dev.calibrateTimeout (p : Nat) (d : Dev) : Dev :=
  if d.lasted p .calibrate msTicks then d.bringupFails p 0x11 .acquire else d

def execCalibrateTimeout (port now : Nat) (s : State) : Host.Outcome State Fault Refusal := .next (s.event now (Dev.calibrateTimeout port))

/-- FAULT ends after 250 ms; a held device stays in it (R362). -/
def Dev.backoff (p : Nat) (d : Dev) : Dev := if d.lasted p .fault (250 * msTicks) then d.enterLink p .txTune else d

def execFaultBackoffExpiry (port now : Nat) (s : State) : Host.Outcome State Fault Refusal := .next (s.event now (Dev.backoff port))

/-! ### Training frames (R237, R239, R240) -/

def inLane (i : Nat) : Nat := bits i 3 0
def inPortOf (i : Nat) : Nat := bits i 11 4
def inMask (i : Nat) : Nat := bits i 20 12
def inReady (i : Nat) : Bool := bit i 21
def inCount (i : Nat) : Nat := bits i 26 22
def inDev (i : Nat) : Nat := bits i 87 32
def inRack (i : Nat) : Nat := bits i 103 88

/-- A bad crc or a reserved value (R237). -/
def infoBad (i : Nat) : Bool :=
  decide (8 < inLane i) || decide (95 < inPortOf i) || decide (16 < inCount i) || bits i 31 27 != 0 || bits i 111 104 != 0 ||
    bits i 127 112 != crc16 112 (i % 2 ^ 112)

/-- The lanes of a direction as a mask. -/
def laneMask (l : List (Nat × Nat)) : Nat := (l.map (fun e => inLane e.2)).foldl (fun m b => Nat.lor m (2 ^ b)) 0

/-- The check of IDENTIFY that fails first, if any (R239, R240). -/
def Dev.identifyFault (d : Dev) (p : Nat) (l : List (Nat × Nat)) (skew : Nat) : Option Nat :=
  let i := (l.headD (0, 0)).2
  let e := d.linkEntry p
  if (l.map (fun x => inLane x.2)).eraseDups.length ≠ l.length then some 0x04
  else if l.any (fun x => inPortOf x.2 != inPortOf i || inDev x.2 != inDev i) then some 0x04
  else if 512 < skew then some 0x0D
  else if bit (u8 e 3) 0 && !(inPortOf i == u8 e 4 && inDev i == fld e 8 7) then some 0x03
  else none

/-- IDENTIFY: lanes are mapped, and the neighbour is recorded (R239, R240). A lane that failed stays retired until a retrain (R244). -/
def Dev.identify (d : Dev) (p : Nat) (l : List (Nat × Nat)) (skew : Nat) : Dev :=
  let i := (l.headD (0, 0)).2
  let d := d.modPort p (fun x => { x with neighbourPort := inPortOf i, neighbourId := inDev i, neighbourRack := inRack i })
  match d.identifyFault p l skew with
  | some c => d.bringupFails p c .fault
  | none =>
    let moved := l.any (fun x => x.1 != inLane x.2)
    let d := d.modPort p (fun x =>
      { x with rxMask := laneMask l, rxLanes := laneMask l, remapped := moved, peerMask := inMask i,
               retired := x.retired ++ (List.range 9).filter (fun b => !bit (laneMask l) b && !x.retired.contains b) })
    let d := if moved then d.raiseFault { source := 0x0102, unit := some p } else d
    d.enterLink p .handshake

/-- Entry into CALIBRATE: a new link session, and the numbering, retry and credits begin afresh (R269, R275, R374). -/
def Dev.enterCalibrate (d : Dev) (p : Nat) : Dev :=
  (d.modPort p (fun x => ({ x with
    linkGen := (x.linkGen + 1) % 2 ^ 16, frameCount := 0, txSeq := 0, retained := [], rxExpected := 0, nakFor := none, replayPos := none,
    replays := 0, grant := (List.range 6).map (fun i => (i + 2, d.ingressLimit p (i + 2))), limit := [], sentVc := [], ingress := [],
    rx := [], damaged := [], ctrlNak := false, ctrlDue := none, taps := [] } : Port).due d.tick)).enterLink p .calibrate

/-- HANDSHAKE passes to CALIBRATE once the peer's data frames have shown 4 valid headers and this end sends data frames (R238). -/
def Dev.handshakeDone (d : Dev) (p : Nat) : Dev :=
  if (d.port p).state == .handshake && (d.port p).sending && decide (4 ≤ (d.port p).dataRun) then d.enterCalibrate p else d

/-- The countdown: 16 training frames, then data frames (R238). -/
def Dev.countDown (d : Dev) (p : Nat) : Dev :=
  let d := forN 16 (fun i d => d.sendTraining p 1 (16 - i)) d
  (d.modPort p (fun x => { x with sending := true, precoder := [], trainTime := none })).handshakeDone p

/-- A spare lane begins to stand in (R219, R243): running steps whose job names the port use a spare (R31), and every running step has
cause SPARE_CHANGED. -/
def Dev.spareSteps (d : Dev) (p : Nat) : Dev :=
  (d.loaded.foldl (fun d j =>
    if (d.job j).namedPorts.contains p then d.modJob j (fun x => { x with spareUsed := x.spareUsed || x.running }) else d) d).markSteps 4

/-- The peer's lane mask: the transmit direction moves a lane that is not received onto S (R243 step 2). -/
def Dev.takePeerMask (d : Dev) (p mask : Nat) : Dev :=
  let d := d.modPort p (fun x => { x with peerMask := mask })
  let x := d.port p
  match (List.range 8).find? (fun l => !bit x.peerMask l) with
  | some l => if x.txSpareFor = 0xF ∧ bit x.peerMask 8 = true then (d.modPort p (fun x => { x with txSpareFor := l, txChange := true })).spareSteps p else d
  | none => d

/-- HANDSHAKE: the peer's rx_ready in 4 consecutive frames starts the countdown. The peer's own countdown tells where its data frames
begin, and its lane mask which lane of this direction S has to carry from the first. -/
def Dev.handshakeFrame (d : Dev) (p : Nat) (l : List (Nat × Nat)) : Dev :=
  let i := (l.headD (0, 0)).2
  let n := if inReady i then (d.port p).readyRun + 1 else 0
  let d := d.modPort p (fun x => { x with readyRun := n, countdown := max x.countdown (inCount i) })
  let d := if inReady i then d.takePeerMask p (inMask i) else d
  if 4 ≤ n ∧ (d.port p).sending = false then d.countDown p else d

/-- ACQUIRE: 8 wavelengths with a valid info field in 4 consecutive frames. -/
def Dev.acquireFrame (d : Dev) (p n : Nat) : Dev :=
  let run := if 8 ≤ n then (d.port p).infoRun + 1 else 0
  let d := d.modPort p (fun x => { x with infoRun := run })
  if 4 ≤ run then d.enterLink p .identify else d

/-- Training frames on an UP link: the exit from sleep, or a peer that has gone back to bring-up (R245, R247, R255). -/
def Dev.trainingWhileUp (d : Dev) (p lanes : Nat) : Dev :=
  let x := d.port p
  if x.rxSleep ≠ 0 ∧ x.rxExit < (if x.rxSleep = 1 then 2 else 16) then d.modPort p (fun x => { x with rxExit := x.rxExit + 1 })
  else if 2 ≤ lanes then d.linkDown p 0x10 .txTune
  else d

/-- A training frame (R237). -/
def Dev.trainingRx (p : Nat) (infos : List (Nat × Nat)) (skew : Nat) (d : Dev) : Dev :=
  if !d.fabric p || (d.port p).state == .disabled then d
  else
    let valid := infos.filter (fun e => !infoBad e.2)
    let d := d.countPort p 0x19 (infos.length - valid.length)
    let good := valid.filter (fun e => !(d.port p).retired.contains (inLane e.2))
    match (d.port p).state with
    | .acquire => d.acquireFrame p good.length
    | .identify => if 8 ≤ good.length then d.identify p good skew else d
    | .handshake => if good = [] then d.modPort p (fun x => { x with readyRun := 0 }) else d.handshakeFrame p good
    | .up => d.trainingWhileUp p infos.length
    | _ => d

def execTrainingFrameRx (port : Nat) (infos : List (Nat × Nat)) (skew now : Nat) (s : State) : Host.Outcome State Fault Refusal :=
  .next (s.event now (Dev.trainingRx port infos skew))

/-! ### The spare lane (R243, R244) -/

/-- A direction with a second bad lane goes down at once (R244). -/
def Dev.tooFewLanes (d : Dev) (p : Nat) : Dev := d.linkDown p 0x05 .txTune

/-- A receive lane fails: it is retired, and its bit is cleared from the next header on (R243 step 1). -/
def Dev.rxLaneFails (d : Dev) (p lane : Nat) : Dev :=
  let x := d.port p
  if x.retired.contains lane then d
  else if x.retired ≠ [] ∧ (lane ≠ 8 ∨ x.retired.any (fun l => l != 8)) then d.tooFewLanes p
  else
    let d := d.modPort p (fun x =>
      { x with retired := x.retired ++ [lane], rxMask := x.rxMask - (if bit x.rxMask lane then 2 ^ lane else 0), corrWindow := tdel x.corrWindow lane,
               rxLanes := if lane = 8 then x.rxLanes - (if bit x.rxLanes 8 then 256 else 0) else x.rxLanes,
               spareChange := x.spareChange || decide (lane ≠ 8) })
    if lane = 8 then d.raiseFault { source := 0x0104, unit := some p } else d

/-- The transmit lanes that do not serve: those lost at this end, and the one that S carries for the peer. -/
def Port.txLost (x : Port) : List Nat := x.txBad ++ (if x.txSpareFor < 8 ∧ x.txSpareFor ∉ x.txBad then [x.txSpareFor] else [])

/-- A transmit lane is lost: the peer will see it dark and ask for the spare (R243, R256). With a lane lost before, or S in use, the
direction goes down (R244). -/
def Dev.txLaneFails (d : Dev) (p lane : Nat) : Dev :=
  let x := d.port p
  if x.txLost.contains lane then d.modPort p (fun x => { x with txBad := if x.txBad.contains lane then x.txBad else x.txBad ++ [lane] })
  else if x.txLost ≠ [] then d.tooFewLanes p
  else
    let d := d.modPort p (fun x => { x with txBad := x.txBad ++ [lane], txChange := x.txChange || decide (lane ≠ 8) })
    if lane = 8 then d.raiseFault { source := 0x0104, unit := some p } else d

/-- LANE_FAIL: a lane of an UP or calibrating fabric link fails. -/
def Dev.laneFails (p : Nat) (transmit : Bool) (lane : Nat) (d : Dev) : Dev :=
  if !d.takesFlits p || decide (8 < lane) then d
  else if transmit then d.txLaneFails p lane
  else d.rxLaneFails p lane

def execLaneFail (port : Nat) (transmit : Bool) (lane : Nat) (_reason : LaneReason) (now : Nat) (s : State) : Host.Outcome State Fault Refusal :=
  .next (s.event now (Dev.laneFails port transmit lane))

/-- Every receive wavelength is dark (R256). -/
def Dev.goesDark (p : Nat) (d : Dev) : Dev := if d.up p && decide (p < 98) then d.linkDown p 0x01 .txTune else d

def execNoLight (port now : Nat) (s : State) : Host.Outcome State Fault Refusal := .next (s.event now (Dev.goesDark port))

/-- The lane that the peer's S carries: it is taken from S from this frame on (R243 step 3). -/
def Dev.takeSpare (d : Dev) (p : Nat) (active : Bool) (lane : Nat) : Dev :=
  if active = true ∧ lane < 8 ∧ (d.port p).rxSpareFor ≠ lane then
    ((((d.modPort p (fun x =>
      { x with rxSpareFor := lane, spareChange := false,
               rxLanes := Nat.lor (x.rxLanes - (if bit x.rxLanes lane then 2 ^ lane else 0)) 256 })).steer).raiseFault
        { source := 0x0103, unit := some p }).spareSteps p)
  else d

/-! ### Received frames (R231, R233) -/

/-- A wrong sync, version or crc, or a reserved value (R230, R231). -/
def frameBad (h : Bytes) : Bool :=
  h.length != 40 || fld h 0 2 != 0xC3A5 || u8 h 2 != 1 || decide (3 < u8 h 3) || (decide (8 ≤ u8 h 4) && u8 h 4 != 0xFF) || decide (2 < u8 h 5) ||
    decide (511 < fld h 6 2) || !zeros h 24 12 || fld h 36 4 != crc32c (h.take 36)

/-- The flit slots that overlap an uncorrectable codeword (R229, R232, R233). -/
def damagedSlots (bad : List Nat) : List Nat :=
  (List.range 75).filter (fun k => bad.any (fun c =>
    decide (5140 * c < 320 + 544 * (k + 1)) && decide (320 + 544 * k < 5140 * (c + 1))))

/-- The corrected symbols of a frame, and the lanes that exceed 2,048 in a window of 65,536 frames (R233, R243). -/
def Dev.corrections (d : Dev) (p : Nat) (corrected : List Nat) : Dev :=
  let c := corrected.take 9
  let d := c.zipIdx.foldl (fun d e => d.countPort p (0x10 + e.2) e.1) d
  let d := d.modPort p (fun x =>
    let fresh := decide (65536 ≤ x.windowFrames)
    { x with windowFrames := (if fresh then 0 else x.windowFrames) + 1,
             corrWindow := c.zipIdx.foldl (fun t e => tmod 0 t e.2 (· + e.1)) (if fresh then [] else x.corrWindow) })
  ((List.range 9).filter (fun l => decide (2048 < tget 0 (d.port p).corrWindow l))).foldl (fun d l =>
    if d.takesFlits p then d.rxLaneFails p l else d) d

/-- What a valid header does: the peer's lanes, the spare, and sleep (R230, R238, R243, R245). -/
def Dev.takeHeader (d : Dev) (p : Nat) (h : Bytes) : Dev :=
  let d := d.modPort p (fun x =>
    { x with peerFault := bit (u8 h 3) 0, rxSleep := u8 h 5, rxWakeTick := if u8 h 5 = 0 then 0 else fld h 8 8, rxExit := 0, dataRun := x.dataRun + 1 })
  ((d.takePeerMask p (fld h 6 2)).takeSpare p (bit (u8 h 3) 1) (u8 h 4)).handshakeDone p

/-- LINK_FRAME_RX. In HANDSHAKE data frames are taken once the peer has counted down. -/
def Dev.frameRx (p : Nat) (h : Bytes) (bad corrected : List Nat) (d : Dev) : Dev :=
  if !d.takesFlits p && !(d.fabric p && (d.port p).state == .handshake && (d.port p).countdown != 0) then d
  else
    let d := (if bad = [] then d else d.countPort p 0x05 1).corrections p corrected
    if frameBad h then (d.countPort p 0x04 1).modPort p (fun x => { x with damaged := List.range 75, dataRun := 0 })
    else (d.modPort p (fun x => { x with damaged := damagedSlots bad })).takeHeader p h

def execLinkFrameRx (port : Nat) (header : Bytes) (bad corrected : List Nat) (now : Nat) (s : State) : Host.Outcome State Fault Refusal :=
  .next (s.event now (Dev.frameRx port header bad corrected))

/-! ### Sleep (R245 to R247) -/

/-- The intervals of a job's TX slots on a port that are still to come: of its running step, and of a launch that waits. -/
def Job.txIntervals (x : Job) (p : Nat) : List (Nat × Nat) :=
  let at' (base lag : Nat) (l : List Bytes) : List (Nat × Nat) :=
    (l.filter (fun e => slKind e == 2 && slResource e == 0x1000 + p)).map (fun e => (base + slStart e, base + slStart e + slLength e + lag))
  let step (l lag : Nat) (completion : Bool) : List (Nat × Nat) :=
    if completion then at' l lag (scTailSlots x.sched)
    else (List.range x.accum).flatMap (fun m => at' (l + m * scPeriod x.sched) lag (scMbSlots x.sched)) ++
      at' (l + x.accum * scPeriod x.sched) lag (scTailSlots x.sched)
  (if x.runSection.isSome then step x.launchTick (max x.lag0 x.lag1) x.completing else []) ++
    (match x.launch with | some l => step l.tick 0 l.completion | none => [])

/-- Whether the windows of an output are closed from `a` until before `b` (R246 condition 1). -/
def Port.closedFrom (x : Port) (a b : Nat) : Bool :=
  x.closed == 2 ^ 30 - 1 || (decide (b ≤ a + 9750) && ((List.range ((b + 324) / 325 - a / 325)).all (fun i => !x.gateOpen (a / 325 + i))))

/-- The multiple of the sync period whose guard interval a tick is in or past: a guard begins 2,500 ticks before it (R199). -/
def guardOf (t : Nat) : Nat := (t + 2500) / syncPeriod

/-- Whether the ticks from `a` until before `b` touch a guard interval of R199: one that has begun and whose exchange has not completed in
both roles, or one that begins. -/
def Port.guarded (x : Port) (a b : Nat) : Bool :=
  x.exchDone != guardOf a || x.peerDone != guardOf a || (decide (a < b) && guardOf (b - 1) != guardOf a)

/-- The seven conditions of R246 for sleep from `a` to `b`. -/
def Dev.maySleep (d : Dev) (p level a b : Nat) : Bool :=
  let x := d.port p
  decide (level = 1 ∨ level = 2) && decide (level ≤ bits (u8 (d.linkEntry p) 1) 1 0) && decide (a ≤ b) && x.closedFrom a b &&
    !d.jobs.any (fun e => e.2.state != .empty && (e.2.txIntervals p).any (fun i => decide (i.1 < b) && decide (a < i.2))) && !x.guarded a b &&
    decide ((if level = 1 then 1024 else 16384) ≤ b - a) && x.outQ.all (fun q => q.2.isEmpty) && decide (x.feed = []) &&
    !d.own.any (fun f => f.port == p) && decide (x.retained = []) && !x.spareChange && !x.txChange &&
    !(level == 2 && x.peerUpstream)

/-- The transmitter announces sleep in its last frame, and sleeps (R246). -/
def Dev.sleep (p level wake : Nat) (d : Dev) : Dev :=
  if d.fabric p && d.up p && (d.port p).txSleep == 0 && d.maySleep p level (d.tick + 64) wake then
    let d' := (d.sendLinkFrame p level wake).modPort p (fun x => { x with txSleep := level, wakeTick := wake, sleepSince := d.tick + 64 })
    if level = 1 then d'.send (.quiet p 0 [3, -3]) else d'
  else d

def execSleepEnter (port level wake now : Nat) (s : State) : Host.Outcome State Fault Refusal := .next (s.event now (Dev.sleep port level wake))

/-- The exit training begins at wake_tick less the exit latency (R245, R246). -/
def Dev.sleepEnds (p : Nat) (d : Dev) : Dev :=
  let x := d.port p
  if x.txSleep ≠ 0 ∧ x.wakeTick ≤ d.tick + (if x.txSleep = 1 then 128 else 1024) then (d.exitTraining p).endSleep p else d

def execSleepExit (port now : Nat) (s : State) : Host.Outcome State Fault Refusal := .next (s.event now (Dev.sleepEnds port))

/-! ### Retrain (R238) and Ethernet-mode bring-up (R242) -/

/-- The port restarts at TX_TUNE with cause FORCED. -/
def Dev.retrain (d : Dev) (p : Nat) : Dev :=
  if (d.port p).state == .disabled || !d.bringsUp p then d else d.linkDown p 0x0F .txTune

/-- GMP_RETRAIN. -/
def retrainRequest : Request :=
  { msg := 0x0050, right := .device, valid := fun b => b.length == 4 && decide (u8 b 0 < 98) && zeros b 1 3,
    act := onDev (fun m _ d => (d.retrain (u8 m.body 0), {})) }

def execGmpRetrain (m : GmpMsg) (s : State) : Host.Outcome State Fault Refusal := .next (gmpCommand retrainRequest m s)

/-- An Ethernet-mode port that leaves UP: the manual gives these exits no cause of their own, and it is a free one of R254. -/
def Dev.ethDown (d : Dev) (p : Nat) (st : LinkState) : Dev :=
  let (v, d) := d.draw
  d.linkDown p (1 + v % 17) st

/-- Block lock and fault signalling drive ACQUIRE, HANDSHAKE and UP (R242). -/
def Dev.ethLink (d : Dev) (p : Nat) : Dev :=
  let x := d.port p
  match x.state with
  | .acquire => if x.blockLock then (let d := d.enterLink p .handshake; if x.ethFault then d else d.setLink p .up) else d
  | .handshake => if !x.blockLock then d.enterLink p .acquire else if x.ethFault then d else d.setLink p .up
  | .up => if !x.blockLock then d.ethDown p .acquire else if x.ethFault then d.ethDown p .handshake else d
  | _ => d

/-- PCS_BLOCK_LOCK. An analysis port that comes UP sends what its queues hold (R294). -/
def Dev.blockLock (p : Nat) (locked fault : Bool) (d : Dev) : Dev :=
  if d.ethernet p && d.bringsUp p && (d.port p).state != .disabled then
    ((d.modPort p (fun x => { x with blockLock := locked, ethFault := fault })).ethLink p).drainCopies p
  else d

def execPcsBlockLock (port : Nat) (locked fault : Bool) (now : Nat) (s : State) : Host.Outcome State Fault Refusal :=
  .next (s.event now (Dev.blockLock port locked fault))

end Sys2Proof.Machine
end

