-- ==== Sys2Proof/Machine/Optics.lean ====
section
/-! DEFINITION. Heater headroom and laser feeds (R248 to R250, R253, R256). -/

namespace Sys2Proof.Machine

/-! ### Heater headroom (R249, R250) -/

/-- A heater's greatest power, in 0.01 mW (R249). At P of these units the warm headroom is P / 32 K, which is 3.125 K for each mW. -/
def heaterMax : Nat := 1200

/-- A report of HEATER_HEADROOM_LOW: raised, or cleared as R361 has it. -/
def headroomRecord (p : Nat) (cleared : Bool) : FaultRec := { source := 0x0207, unit := some p, cleared := cleared }

/-- headroom_low after a measurement, the least headroom in units of 1/32 K: set below headroom_warn, cleared at 2 K above it, and
otherwise as it was. -/
def headroomNext (low : Bool) (least warn : Nat) : Bool := decide (least < 32 * (if low then warn + 2 else warn))

/-- The rings of each direction of a port: one a lane, S among them in fabric mode (R225, R257). -/
def Dev.ringCount (d : Dev) (p : Nat) : Nat := match d.mode p with | 0 => 0 | 1 => 9 | 2 => 8 | _ => 4

/-- The heater powers measured, the receive rings' after the transmit rings': receive ring l as 9 + l. -/
def ringPowers (tx rx : List (Nat × Nat)) : List (Nat × Nat) :=
  tx.filter (fun e => decide (e.1 < 9)) ++ rx.map (fun e => (9 + e.1, e.2))

/-- The measurements of a port's own rings. -/
def Dev.ownRings (d : Dev) (p : Nat) (powers : List (Nat × Nat)) : List (Nat × Nat) :=
  powers.filter (fun e => decide (e.1 < 18) && decide (e.1 % 9 < d.ringCount p))

/-- The heater powers of a port's rings after a measurement. -/
def Dev.ringsAfter (d : Dev) (p : Nat) (powers : List (Nat × Nat)) : Table Nat :=
  (d.ownRings p powers).foldl (fun t e => tset t e.1 (min e.2 heaterMax)) (d.port p).rings

/-- The smallest warm and cool headroom over some rings, in units of 1/32 K. -/
def leastWarm (t : Table Nat) : Nat := (t.map (·.2)).foldl min heaterMax
def leastCool (t : Table Nat) : Nat := (t.map (fun e => heaterMax - e.2)).foldl min heaterMax

/-- Rings' heater powers, the smallest headrooms of the link, and headroom_low with its event. -/
def Dev.headroom (d : Dev) (p : Nat) (powers : List (Nat × Nat)) : Dev :=
  let t := d.ringsAfter p powers
  let was := (d.port p).headroomLow
  let low := headroomNext was (min (leastWarm t) (leastCool t)) (d.headroomWarn p)
  let d := d.modPort p (fun x => { x with rings := t, warm := min (leastWarm t / 32) 0xFF, cool := min (leastCool t / 32) 0xFF, headroomLow := low })
  if low = was then d else d.raiseFault (headroomRecord p was)

/-- A ring whose heater has reached an end of its range has no headroom left and loses lock: its lane fails (R249, R243). -/
def Dev.ringEnds (d : Dev) (p : Nat) (powers : List (Nat × Nat)) : Dev :=
  ((d.ownRings p powers).filter (fun e => e.2 == 0 || decide (heaterMax ≤ e.2))).foldl (fun d e => d.laneFails p (decide (e.1 < 9)) (e.1 % 9)) d

/-- A measurement of a port's heaters, where it has rings and the heaters are on. -/
def Dev.heaters (p : Nat) (powers : List (Nat × Nat)) (d : Dev) : Dev :=
  if (d.port p).state == .disabled || d.power.heatersOff || (d.ownRings p powers).isEmpty then d
  else (d.headroom p powers).ringEnds p powers

def execHeaterMeasure (port : Nat) (tx rx : List (Nat × Nat)) (now : Nat) (s : State) : Host.Outcome State Fault Refusal :=
  .next (s.event now (Dev.heaters port (ringPowers tx rx)))

/-! ### Laser feeds (R256) -/

/-- Whether the fault of a feed can act: the blocks run and the port is enabled. -/
def Dev.feedWatched (d : Dev) (p : Nat) : Bool := decide (p < 98) && d.power.released && (d.port p).state != .disabled

/-- The transmit direction goes down: the port passes to FAULT with the feed's cause, and is tried again after each back-off. -/
def Dev.feedDown (d : Dev) (p cause : Nat) : Dev :=
  if d.up p then d.linkDown p cause .fault
  else if (d.port p).state == .fault then d.modPort p (fun x => { x with cause := cause })
  else (d.modPort p (fun x => { x with cause := cause })).enterLink p .fault

/-- A feed fault of one cause: what LINK_OPTICS shows, the direction, and the LASER_FEED event. -/
def Dev.feedFault (d : Dev) (p source cause : Nat) (f : Port → Port) : Dev :=
  if d.feedWatched p then
    ((d.modPort p f).feedDown p cause).raiseFault { source := source, unit := some p, status := cause }
  else d

def execLaserFeedLost (port now : Nat) (s : State) : Host.Outcome State Fault Refusal :=
  .next (s.event now (fun d => d.feedFault port 0x0201 0x06 (fun x => { x with feedState := 3, lines := 0, feedPower := 0x8000 })))

/-- Two or more lines of a WDM feed are missing; `lines` are those that remain. -/
def Dev.linesMissing (p lines power : Nat) (d : Dev) : Dev :=
  if d.fabric p then d.feedFault p 0x0203 0x07 (fun x => { x with lines := lines % 512, feedPower := power % 65536 }) else d

def execLaserLinesMissing (port lines power now : Nat) (s : State) : Host.Outcome State Fault Refusal :=
  .next (s.event now (Dev.linesMissing port lines power))

/-- The lines that a feed is taken to have: all of them until it has first been seen. -/
def Port.feedLines (x : Port) : Nat := if x.feedState = 3 then 511 else x.lines

/-- One line of a WDM feed is missing: its lane is replaced by S (R243). A second one takes the direction down. -/
def Dev.lineMissing (p line power : Nat) (d : Dev) : Dev :=
  let x := d.port p
  if !d.fabric p || !d.feedWatched p || decide (8 < line) || !bit x.feedLines line then d
  else if x.feedLines ≠ 511 then d.linesMissing p (x.feedLines - 2 ^ line) power
  else
    let d := d.modPort p (fun x =>
      { x with lines := x.feedLines - 2 ^ line, feedPower := power % 65536, feedState := if x.feedState = 3 then 0 else x.feedState })
    let d := d.raiseFault { source := 0x0202, unit := some p }
    if d.takesFlits p then d.txLaneFails p line else d

def execLaserLineMissing (port line power now : Nat) (s : State) : Host.Outcome State Fault Refusal :=
  .next (s.event now (Dev.lineMissing port line power))

def execLaserPolarization (port now : Nat) (s : State) : Host.Outcome State Fault Refusal :=
  .next (s.event now (fun d => d.feedFault port 0x0204 0x08 (fun x => { x with feedState := 1 })))

/-- A feed of the wrong plan is found in TX_TUNE. -/
def Dev.planMismatch (p : Nat) (d : Dev) : Dev :=
  if (d.port p).state == .txTune then d.feedFault p 0x0205 0x09 (fun x => { x with feedState := 2 }) else d

def execLaserPlanMismatch (port now : Nat) (s : State) : Host.Outcome State Fault Refusal := .next (s.event now (Dev.planMismatch port))

/-- feed_power_min once a line's power, signed in 0.01 dBm, is measured: the one line's of the DR plan, or the least of the WDM plan. -/
def Dev.leastPower (d : Dev) (p power : Nat) : Nat :=
  let v := power % 65536
  let was := (d.port p).feedPower
  if d.fabric p ∧ was ≠ 0x8000 ∧ signed16 was < signed16 v then was else v

/-- A line above its operating maximum: a note, and the port goes on; LINK_OPTICS shows what was measured. -/
def Dev.powerHigh (p power : Nat) (d : Dev) : Dev :=
  if d.feedWatched p then (d.modPort p (fun x => { x with feedPower := d.leastPower p power })).raiseFault { source := 0x0206, unit := some p } else d

def execLaserPowerHigh (port power now : Nat) (s : State) : Host.Outcome State Fault Refusal := .next (s.event now (Dev.powerHigh port power))

end Sys2Proof.Machine
end

