-- ==== Sys2Proof/Machine/Restore.lean ====
section
/-! DEFINITION. Restore data and its end, and the reference records of a replay (R17, R89, R125, R158, R163 to R165, R177, R183, R341, R351). -/

namespace Sys2Proof.Machine

/-! ### Restore data (R163, R164) -/

/-- Whether restore messages act: LOADED, or HALTED with no context beyond ARMED. -/
def Dev.takesRestore (d : Dev) (j : Nat) : Bool :=
  match (d.job j).state with
  | .loaded => true
  | .halted => (d.ctxsOf j).all (fun c => (d.ctx c).state == .armed)
  | _ => false

/-- Contiguous bytes of a table: each run with its first key. -/
def runsOf : Table Byte → List (Nat × Bytes)
  | [] => []
  | (a, b) :: r =>
    match runsOf r with
    | (c, bs) :: rest => if c = a + 1 then (a, b :: bs) :: rest else (a, [b]) :: (c, bs) :: rest
    | [] => [(a, [b])]

def rrType (h : Bytes) : Nat := u8 h 0
def rrKey (h : Bytes) : Nat := bits (fld h 4 4) 19 0
def rrOff (h : Bytes) : Nat := fld h 8 8
def rrCount (h : Bytes) : Nat := fld h 16 4
def rrNode (h : Bytes) : Nat := fld h 20 4
def rrStep (h : Bytes) : Nat := fld h 24 6
def rrMask (h : Bytes) : Nat := u8 h 30
def rrDigest (h : Bytes) : Bytes := slice h 32 32
def rrData (r : Bytes) : Bytes := r.drop 64

/-- The arrays that a state_mask names, besides W and Q. -/
def maskArrays (m : Nat) : List Nat := [1, 2, 3].filter (fun i => bit m (i - 1))

/-- The data length that a header gives; none for a reserved type or a count out of range. -/
def rrLength (h : Bytes) : Option Nat :=
  let n := rrCount h
  if n = 0 ∨ 2 ^ 30 < n then none
  else match rrType h with
    | 1 => some (n * (6 + 4 * (maskArrays (rrMask h)).length))
    | 2 => some (4 * n)
    | 3 => some n
    | 4 => some n
    | _ => none

/-- The whole records of a run, and whether one has a header that is refused. -/
def runRecords : Nat → Bytes → List Bytes × Bool
  | 0, _ => ([], false)
  | f + 1, b =>
    if b.length < 64 then ([], false)
    else match rrLength b with
      | none => ([], true)
      | some n =>
        if b.length < 64 + n then ([], false)
        else
          let r := runRecords f (b.drop (64 + n))
          (b.take (64 + n) :: r.1, r.2)

/-- The restore data of a job as records. -/
def Job.restoredRecords (x : Job) : List Bytes × Bool :=
  (runsOf x.restored).foldl (fun a r =>
    let p := runRecords (r.2.length / 64 + 1) r.2
    (a.1 ++ p.1, a.2 || p.2)) ([], false)

/-- Where two ranges of elements overlap, as first and one past the last. -/
def overlap (a n b m : Nat) : Option (Nat × Nat) := if max a b < min (a + n) (b + m) then some (max a b, min (a + n) (b + m)) else none

/-- What an owned chunk takes of a CHUNK_STATE record. -/
def Job.chunkPart (x : Job) (c : Nat) (r : Bytes) : Option (Nat × Nat) :=
  if rrType r = 1 ∧ rrKey r = owTensor (x.chunk c) then overlap (x.chunkFirst c) (x.chunkElems c) (rrOff r) (rrCount r) else none

/-- What a hosted narrowing node takes of an EF_REMAINDER record. -/
def sitePart (e : Bytes × Nat) (r : Bytes) : Option (Nat × Nat) :=
  if rrType r = 2 ∧ rrKey r = bkTensor e.1 ∧ rrNode r = e.2 then overlap (bkFirst e.1) (bkCount e.1) (rrOff r) (rrCount r) else none

/-- Whether the device takes anything of a record. -/
def Job.takesRecord (x : Job) (r : Bytes) : Bool :=
  x.owned.any (fun c => (x.chunkPart c r).isSome) || x.narrowSites.any (fun e => (sitePart e r).isSome) ||
    (rrType r == 3 && x.onList && decide (rrKey r < x.recipeEntries.length))

/-- Records among some that the device skips. -/
def Job.skippedIn (x : Job) (rs : List Bytes) : Nat := (rs.filter (fun r => !x.takesRecord r)).length

/-- The records that have come whole from the start of the stream on. A piece ahead of them may begin within a record, so what it holds is
known only at the end message, if a gap stays before it. -/
def Job.leadRecords (x : Job) : List Bytes :=
  match runsOf x.restored with
  | (0, b) :: _ => (runRecords (b.length / 64 + 1) b).1
  | _ => []

/-- GMP_RESTORE_DATA: bytes at their offset of the stream. -/
def restoreDataRequest : Request :=
  { msg := 0x0042, right := .job, namesJob := true, valid := fun b => decide (16 ≤ b.length) && zeros b 1 7,
    act := onDev (fun m _ d =>
      let j := u8 m.body 0
      if !d.takesRestore j then (d, { status := stRestoreState })
      else
        let before := (d.job j).skippedIn (d.job j).leadRecords
        let d := d.modJob j (fun x =>
          { x with restored := (m.body.drop 16).zipIdx.foldl (fun t b => tset t (fld m.body 8 8 + b.2) b.1) x.restored })
        (d.countJob j 0x00B ((d.job j).skippedIn (d.job j).leadRecords - before), {})) }

def execGmpRestoreData (m : GmpMsg) (s : State) : Host.Outcome State Fault Refusal := .next (gmpCommand restoreDataRequest m s)

/-! ### The checks of the end message (R164, R165) -/

/-- Whether ranges cover `n` elements from `a`, each exactly once. -/
def coversOnce (a n : Nat) (l : List (Nat × Nat)) : Bool :=
  let s := sortBy (fun p q => decide (p.1 ≤ q.1)) l
  (s.foldl (fun (st : Nat × Bool) p => (p.2, st.2 && p.1 == st.1)) (a, true)) == (a + n, true)

/-- Every element of every owned chunk, with the program's state_mask. -/
def Job.chunksCovered (x : Job) (rs : List Bytes) : Bool :=
  x.owned.all (fun c => coversOnce (x.chunkFirst c) (x.chunkElems c) (rs.filterMap (x.chunkPart c)) &&
    rs.all (fun r => (x.chunkPart c r).isNone || rrMask r == x.maskOf c))

/-- Every element of every hosted narrowing node. -/
def Job.sitesCovered (x : Job) (rs : List Bytes) : Bool :=
  x.narrowSites.all (fun e => coversOnce (bkFirst e.1) (bkCount e.1) (rs.filterMap (sitePart e)))

/-- The windows of an AMAX_HISTORY record; none where its data does not hold them. -/
def parseWindows : Nat → Bytes → Option (Table (List W32))
  | 0, b => if b.isEmpty then some [] else none
  | n + 1, b =>
    let len := fld b 4 4
    if b.length < 8 + 4 * len then none
    else (parseWindows n (b.drop (8 + 4 * len))).map (fun t =>
      tset t (bits (fld b 0 4) 19 0) ((List.range len).map (fun i => BitVec.ofNat 32 (fld b (8 + 4 * i) 4))))

/-- The history that a RECIPE_STATE record holds for an entry. -/
def parseRecipe (e data : Bytes) : Option Recipe :=
  if data.length < 72 then none
  else if rpKind e = 1 then (if data.length = 72 then some { s := sfld data 64 4, count := fld data 68 4 } else none)
  else (parseWindows (fld data 64 4) (data.drop 72)).bind (fun w =>
    if w.all (fun t => decide (t.2.length ≤ rpWindow e)) then some { windows := w } else none)

/-- The histories of the taken RECIPE_STATE records, by recipe. -/
def Job.takenRecipes (x : Job) (rs : List Bytes) : Table (Option Recipe) :=
  if !x.onList then []
  else (rs.filter (fun r => rrType r == 3 && decide (rrKey r < x.recipeEntries.length))).foldl (fun t r =>
    tset t (rrKey r) (parseRecipe (nth x.recipeEntries (rrKey r)) (rrData r))) []

/-- None of the job's recipes, or all of them, each sound. -/
def Job.recipesWhole (x : Job) (rs : List Bytes) : Bool :=
  let t := x.takenRecipes rs
  t == [] || (t.length == x.recipeEntries.length && t.all (fun r => r.2.isSome))

/-- The check that fails: its status and name (R164). A record that came twice counts once, wherever in the stream it lies. -/
def Job.restoreFault (x : Job) (rs : List Bytes) (bad : Bool) (step : Nat) : Option Reply :=
  let mine := (rs.filter x.takesRecord).eraseDups
  match mine.find? (fun r => sm3 (rrData r) != rrDigest r) with
  | some r => some { status := stRestoreDigest, nameA := if rrType r = 3 then 0 else nameOf 2 0x108 ((x.tensorPos (rrKey r)).getD 0) }
  | none =>
    if mine.any (fun r => rrStep r != step) then some { status := stRestoreStep }
    else if bad || !x.chunksCovered mine || !x.sitesCovered mine || !x.recipesWhole mine then some { status := stRestoreIncomplete }
    else none

/-! ### What a restore writes (R89, R125, R164, R165) -/

/-- The bytes of one array of a record's range: `at'` is the array's offset in the data, `w` its element width. -/
def partBytes (r : Bytes) (at' w : Nat) (p : Nat × Nat) : Bytes := slice (rrData r) (at' + w * (p.1 - rrOff r)) (w * (p.2 - p.1))

/-- Where an array of a CHUNK_STATE record begins in its data. -/
def recordArrayAt (r : Bytes) (a : Nat) : Nat := 4 * rrCount r * ((([0] ++ maskArrays (rrMask r) ++ [4]).takeWhile (fun b => b != a)).length)

/-- The arrays of a chunk take their range of a record. -/
def Mach.writeChunk (k : Mach) (x : Job) (c : Nat) (r : Bytes) : Mach :=
  match x.chunkPart c r with
  | none => k
  | some p =>
    (x.savedArrays c).foldl (fun k a =>
      let at' := x.elemAt c a (p.1 - x.chunkFirst c)
      let b := partBytes r (recordArrayAt r a) (x.width c a) p
      (k.put at' b).mod (·.countDepths at' b.length true)) k

/-- The committed remainder of a node takes its range of a record. -/
def Job.writeSite (x : Job) (e : Bytes × Nat) (r : Bytes) : Job :=
  match sitePart e r with
  | none => x
  | some p =>
    let b := e.1
    let words := (List.range (p.2 - p.1)).map (fun i => BitVec.ofNat 32 (fld (rrData r) (4 * (p.1 - rrOff r + i)) 4))
    let all := x.committedWords b e.2
    let first := p.1 - bkFirst b
    let all := all.take first ++ words ++ all.drop (first + words.length)
    let rems := (fragOffs b).map (fun o =>
      ({ bucket := bkBucket b, node := e.2, frag := o, committed := (all.drop o).take (fragLen b o),
         working := (x.remOf (bkBucket b) e.2 o).bind (·.working) } : Rem))
    { x with rems := x.rems.filter (fun q => !(q.bucket == bkBucket b && q.node == e.2)) ++ rems }

/-- One record is written where the placement puts it. -/
def Mach.writeRecord (k : Mach) (j : Nat) (r : Bytes) : Mach :=
  let x := k.dev.job j
  let k := x.owned.foldl (fun k c => k.writeChunk x c r) k
  k.mod (·.modJob j (fun y => y.narrowSites.foldl (fun y e => y.writeSite e r) y))

/-- What a failed restore has written is open: a free bit for each record that it took (log entry 5). -/
def Mach.partRestore (k : Mach) (j : Nat) (rs : List Bytes) : Mach :=
  (rs.filter (k.dev.job j).takesRecord).foldl (fun k r =>
    let (v, d) := k.dev.draw
    let k : Mach := { k with dev := d }
    if v % 2 = 1 then k.writeRecord j r else k) k

/-- Active alarms are reported cleared, and every run counter of the job is 0 (R177). The spec gives no order, step or counts for these
reports: ascending tensor, then owner before site, then alarm; the restored step; all counts 0 (DESIGN CHOICE, log entry 62). -/
def Dev.resetAlarms (d : Dev) (j step : Nat) : Dev :=
  let d := ((d.job j).alarms.filter (fun a => a.2.active)).foldl (fun d a =>
    d.reportAlarm j step (a.1 / 8) (a.1 % 4) (bit a.1 2) false 0 { counts := [], met := false, elems := 0 }) d
  d.modJob j (fun x => { x with alarms := [] })

/-- The recipes after a restore, and scale_history_reset (R158, R165, R183). -/
def Dev.restoreRecipes (d : Dev) (j step : Nat) (rs : List Bytes) : Dev :=
  let x := d.job j
  let t := x.takenRecipes rs
  if !x.onList || x.recipeEntries == [] then d
  else if t = [] then
    (d.modJob j (fun y =>
      { y with recipes := y.recipeEntries.zipIdx.map (fun e => (e.2, freshRecipe e.1)), shr := true, shrCount := 0 })).reportHistory j step false
  else d.modJob j (fun y => { y with recipes := t.map (fun r => (r.1, r.2.getD {})), shr := false, shrCount := 0 })

/-- The statistics, the accumulators and the anchors of the owned chunks after a restore (R125, R164, R341). -/
def Mach.afterRestore (k : Mach) (j step : Nat) : Mach :=
  let x := k.dev.job j
  let k := x.owned.foldl (fun k c =>
    (k.stampFrame x c).1.put (x.elemAt c 5 0) (List.replicate (x.width c 5 * x.chunkElems c) 0#8)) k
  k.anchors j step

/-- The job after a successful restore of step `s` (R164). Its pending launch is withdrawn, of which the spec says nothing (DESIGN CHOICE,
log entry 52). -/
def Job.restoredTo (x : Job) (step now : Nat) : Job :=
  ({ x.discardStep with
    state := .loaded, haltCause := 0, replanned := false, restoreBad := false, diverged := false, nextStep := step + 1, lastEnded := step,
    rcStep := noStep, rcPhase := 0, rootCommitted := false, verdictRaised := false, launch := none } : Job).wrap now

/-- A restore succeeds. A device that has taken no record takes the step number, and its recipes start afresh. -/
def Mach.restore (k : Mach) (j step : Nat) (rs : List Bytes) : Mach :=
  let mine := rs.filter (k.dev.job j).takesRecord
  let k := mine.foldl (fun k r => k.writeRecord j r) k
  let k := k.mod (fun d =>
    let d := d.restoreRecipes j step mine
    (d.modJob j (fun x => x.restoredTo step d.tick)).resetAlarms j step)
  k.afterRestore j step

/-- The end message's outcome (R164). The skipped records that lie after a gap in the stream are counted here. -/
def Mach.endRestore (k : Mach) (j step : Nat) : Mach × Reply :=
  let x := k.dev.job j
  let rs := x.restoredRecords
  let forget (k : Mach) : Mach := k.mod (·.modJob j (fun y => { y with restored := [] }))
  if !k.dev.takesRestore j then (forget k, { status := stRestoreState })
  else
    let k := k.mod (·.countJob j 0x00B (x.skippedIn rs.1 - x.skippedIn x.leadRecords))
    match x.restoreFault rs.1 rs.2 step with
    | some r => (forget ((k.partRestore j rs.1).mod (·.modJob j (fun y => { y with restoreBad := true }))), r)
    | none => (forget (k.restore j step rs.1), {})

/-- GMP_RESTORE_END. -/
def restoreEndRequest : Request :=
  { msg := 0x0043, right := .job, namesJob := true, valid := fun b => b.length == 8 && u8 b 1 == 0 && fld b 2 6 != noStep,
    act := fun m _ k => let r := k.endRestore (u8 m.body 0) (fld m.body 2 6); (r.1, some r.2) }

def execGmpRestoreEnd (m : GmpMsg) (s : State) : Host.Outcome State Fault Refusal := .next (gmpCommand restoreEndRequest m s)

/-! ### Reference records (R351) -/

/-- Body bytes of the record types that a reference holds (R345). -/
def refLength (typ : Nat) : Option Nat :=
  match typ with
  | 1 => some 64
  | 2 => some 112
  | 3 => some 48
  | _ => none

/-- Body bytes of every record type (R345); REPLAY_REPORT and STEP_SEAL may stand in a logbook too. -/
def logLength (typ : Nat) : Option Nat :=
  match typ with
  | 4 => some 672
  | 5 => some 104
  | 6 => some 96
  | 7 => some 64
  | t => refLength t

/-- Whole logbook records; none where the bytes are not. -/
def parseLog : Nat → Bytes → Option (List Bytes)
  | 0, b => if b.isEmpty then some [] else none
  | f + 1, b =>
    if b.isEmpty then some []
    else match logLength (u8 b 0) with
      | none => none
      | some n =>
        if b.length < 32 + n || fld b 4 4 != n || u8 b 3 != 0 || !zeros b 22 10 then none
        else (parseLog f (b.drop (32 + n))).map (fun r => b.take (32 + n) :: r)

/-- The key of a reference record (R351). -/
def refKey (r : Bytes) : Nat × Bytes :=
  let b := r.drop 32
  (u8 r 0, slice r 16 6 ++ (match u8 r 0 with
    | 2 => b.take 8
    | 3 => b.take 14
    | _ => []))

/-- Whether the device will produce a record with a reference's key. -/
def Job.wantsRef (x : Job) (r : Bytes) : Bool :=
  let b := r.drop 32
  let tensor := bits (fld b 0 4) 19 0
  let chunk := fld b 4 4
  match u8 r 0 with
  | 1 => u8 b 0 != 3
  | 2 => x.owned.any (fun c => owTensor (x.chunk c) == tensor && owChunk (x.chunk c) == chunk)
  | 3 => x.detail && decide (fld b 12 2 < x.accum) && x.bucketEntries.any (fun e =>
      bkBucket e != verdictBucket && bkTensor e == tensor && ((x.digestNodes e).1 ++ (x.digestNodes e).2).contains (fld b 8 4) &&
        (x.bucketChunks e).any (fun c => owChunk (x.chunk c.1) == chunk))
  | _ => false

/-- The store with the kept records of a load: a record whose key is held replaces the earlier one. -/
def addRefs (refs rs : List Bytes) : List Bytes := rs.foldl (fun l r => l.filter (fun q => refKey q != refKey r) ++ [r]) refs

/-- GMP_REPLAY_REF. -/
def replayRefRequest : Request :=
  { msg := 0x0044, right := .job, namesJob := true,
    valid := fun b => decide (8 ≤ b.length) && zeros b 1 7 && (parseLog b.length (b.drop 8)).isSome,
    act := onDev (fun m _ d =>
      let j := u8 m.body 0
      let x := d.job j
      let rs := (parseLog m.body.length (m.body.drop 8)).getD []
      let refs := addRefs x.refs (rs.filter x.wantsRef)
      if x.replayMib * 2 ^ 20 < (refs.map List.length).sum then (d, { status := stReplaySpace })
      else ((d.modJob j (fun y => { y with refs := refs })).countJob j 0x00F (rs.filter (fun r => !x.wantsRef r)).length, {})) }

def execGmpReplayRef (m : GmpMsg) (s : State) : Host.Outcome State Fault Refusal := .next (gmpCommand replayRefRequest m s)

end Sys2Proof.Machine
end

