-- ==== Sys2Proof/Machine/Dispatch.lean ====
section
/-! DEFINITION. The dispatch: one arm per command, each one call of its meaning. -/

namespace Sys2Proof.Machine

def exec (i : Instr) (s : State) : Host.Outcome State Fault Refusal :=
  match i with
  | .gmpHello m => Sys2Proof.Machine.execGmpHello m s
  | .gmpKeyConfirm m => Sys2Proof.Machine.execGmpKeyConfirm m s
  | .gmpPing m => Sys2Proof.Machine.execGmpPing m s
  | .gmpClose m => Sys2Proof.Machine.execGmpClose m s
  | .sessionSetupTimeout session now => Sys2Proof.Machine.execSessionSetupTimeout session now s
  | .sessionIdleTimeout session now => Sys2Proof.Machine.execSessionIdleTimeout session now s
  | .gmpUnknownMessage code m => Sys2Proof.Machine.execGmpUnknownMessage code m s
  | .gmpRead m => Sys2Proof.Machine.execGmpRead m s
  | .gmpWrite m => Sys2Proof.Machine.execGmpWrite m s
  | .faultClassAck m => Sys2Proof.Machine.execFaultClassAck m s
  | .probeClear m => Sys2Proof.Machine.execProbeClear m s
  | .probeDisable m => Sys2Proof.Machine.execProbeDisable m s
  | .siltCtrlTrigger m => Sys2Proof.Machine.execSiltCtrlTrigger m s
  | .siltCtrlRearm m => Sys2Proof.Machine.execSiltCtrlRearm m s
  | .gmpAttest m => Sys2Proof.Machine.execGmpAttest m s
  | .gmpSubscribe m => Sys2Proof.Machine.execGmpSubscribe m s
  | .gmpAuditRead m stack reserved => Sys2Proof.Machine.execGmpAuditRead m s stack reserved
  | .gmpPkgBegin m => Sys2Proof.Machine.execGmpPkgBegin m s
  | .gmpPkgData m => Sys2Proof.Machine.execGmpPkgData m s
  | .gmpPkgEnd m => Sys2Proof.Machine.execGmpPkgEnd m s
  | .pkgLoadIdleTimeout now => Sys2Proof.Machine.execPkgLoadIdleTimeout now s
  | .gmpUnload m => Sys2Proof.Machine.execGmpUnload m s
  | .gmpLaunch m => Sys2Proof.Machine.execGmpLaunch m s
  | .gmpLaunchCancel m => Sys2Proof.Machine.execGmpLaunchCancel m s
  | .gmpCommit m => Sys2Proof.Machine.execGmpCommit m s
  | .gmpAbandon m => Sys2Proof.Machine.execGmpAbandon m s
  | .gmpJobHalt m => Sys2Proof.Machine.execGmpJobHalt m s
  | .gmpCtxReset m => Sys2Proof.Machine.execGmpCtxReset m s
  | .gmpCtxAbort m => Sys2Proof.Machine.execGmpCtxAbort m s
  | .gmpQpSetup m => Sys2Proof.Machine.execGmpQpSetup m s
  | .gmpCkpt m => Sys2Proof.Machine.execGmpCkpt m s
  | .rdmaReadRx qp psn va length now => Sys2Proof.Machine.execRdmaReadRx qp psn va length now s
  | .ckptComplete job now => Sys2Proof.Machine.execCkptComplete job now s
  | .ckptAborted job now => Sys2Proof.Machine.execCkptAborted job now s
  | .gmpRestoreData m => Sys2Proof.Machine.execGmpRestoreData m s
  | .gmpRestoreEnd m => Sys2Proof.Machine.execGmpRestoreEnd m s
  | .gmpReplayRef m => Sys2Proof.Machine.execGmpReplayRef m s
  | .gmpRetrain m => Sys2Proof.Machine.execGmpRetrain m s
  | .gmpTimeInvalidate m => Sys2Proof.Machine.execGmpTimeInvalidate m s
  | .gmpDeviceResetWarm m => Sys2Proof.Machine.execGmpDeviceResetWarm m s
  | .gmpDeviceResetCold m => Sys2Proof.Machine.execGmpDeviceResetCold m s
  | .gmpFlashErase m => Sys2Proof.Machine.execGmpFlashErase m s
  | .gmpFlashWrite m readBack => Sys2Proof.Machine.execGmpFlashWrite m readBack s
  | .gmpFlashRead m => Sys2Proof.Machine.execGmpFlashRead m s
  | .gmpFlashCheck m => Sys2Proof.Machine.execGmpFlashCheck m s
  | .gmpDumpBegin m => Sys2Proof.Machine.execGmpDumpBegin m s
  | .gmpDumpRead m => Sys2Proof.Machine.execGmpDumpRead m s
  | .gmpDumpEnd m => Sys2Proof.Machine.execGmpDumpEnd m s
  | .dumpIdleTimeout now => Sys2Proof.Machine.execDumpIdleTimeout now s
  | .gmpCaptureSet m => Sys2Proof.Machine.execGmpCaptureSet m s
  | .gmpGaugeIdentity m => Sys2Proof.Machine.execGmpGaugeIdentity m s
  | .gmpGaugeRead m => Sys2Proof.Machine.execGmpGaugeRead m s
  | .gmpGaugeLog m => Sys2Proof.Machine.execGmpGaugeLog m s
  | .readyCoalesceExpiry now => Sys2Proof.Machine.execReadyCoalesceExpiry now s
  | .oobLinkChange up now => Sys2Proof.Machine.execOobLinkChange up now s
  | .ethFrameRx port frame fcsOk now => Sys2Proof.Machine.execEthFrameRx port frame fcsOk now s
  | .linkFrameRx port header bad corrected now => Sys2Proof.Machine.execLinkFrameRx port header bad corrected now s
  | .linkFrameTx port now cell => Sys2Proof.Machine.execLinkFrameTx port now s cell
  | .dataFlitRx port slot trailer data now => Sys2Proof.Machine.execDataFlitRx port slot trailer data now s
  | .ctrlFlitRx port slot trailer data now => Sys2Proof.Machine.execCtrlFlitRx port slot trailer data now s
  | .retryTimer port now => Sys2Proof.Machine.execRetryTimer port now s
  | .packetHeadRx port vc ftype head now => Sys2Proof.Machine.execPacketHeadRx port vc ftype head now s
  | .headStart port vc now => Sys2Proof.Machine.execHeadStart port vc now s
  | .escapeEnter port vc now => Sys2Proof.Machine.execEscapeEnter port vc now s
  | .windowBoundary now => Sys2Proof.Machine.execWindowBoundary now s
  | .hbmRefresh stack now => Sys2Proof.Machine.execHbmRefresh stack now s
  | .fragmentRx port header payload now route => Sys2Proof.Machine.execFragmentRx port header payload now s route
  | .abortNoticeRx port header payload now => Sys2Proof.Machine.execAbortNoticeRx port header payload now s
  | .ctxOpen ctx now => Sys2Proof.Machine.execCtxOpen ctx now s
  | .ctxDrain ctx now => Sys2Proof.Machine.execCtxDrain ctx now s
  | .ctxCommit ctx now => Sys2Proof.Machine.execCtxCommit ctx now s
  | .hangTimeout ctx now => Sys2Proof.Machine.execHangTimeout ctx now s
  | .ctxResetComplete ctx now => Sys2Proof.Machine.execCtxResetComplete ctx now s
  | .outflowRx port header payload now route => Sys2Proof.Machine.execOutflowRx port header payload now s route
  | .verdictResultRx port header payload now route => Sys2Proof.Machine.execVerdictResultRx port header payload now s route
  | .verdictMissing job now => Sys2Proof.Machine.execVerdictMissing job now s
  | .launchArm job now => Sys2Proof.Machine.execLaunchArm job now s
  | .launchCycle job now tables => Sys2Proof.Machine.execLaunchCycle job now s tables
  | .microbatchSectionStart job m now tables => Sys2Proof.Machine.execMicrobatchSectionStart job m now s tables
  | .tailSectionStart job now tables => Sys2Proof.Machine.execTailSectionStart job now s tables
  | .stepSpanEnd job now => Sys2Proof.Machine.execStepSpanEnd job now s
  | .rxSlotRelease job entry arrival now => Sys2Proof.Machine.execRxSlotRelease job entry arrival now s
  | .hbmRdSlot job entry now => Sys2Proof.Machine.execHbmRdSlot job entry now s
  | .hbmRdReturn job entry arrival ecc now => Sys2Proof.Machine.execHbmRdReturn job entry arrival ecc now s
  | .basinSlot job entry work upset staging now => Sys2Proof.Machine.execBasinSlot job entry work upset staging now s
  | .tarnSlot job entry work upset now => Sys2Proof.Machine.execTarnSlot job entry work upset now s
  | .txSlot job entry now => Sys2Proof.Machine.execTxSlot job entry now s
  | .hbmWrSlot job entry now => Sys2Proof.Machine.execHbmWrSlot job entry now s
  | .rngSlot job entry use node microBatch tensor element now => Sys2Proof.Machine.execRngSlot job entry use node microBatch tensor element now s
  | .syncPeriod port now frac => Sys2Proof.Machine.execSyncPeriod port now frac s
  | .syncReqRx port payload t2 t3 now => Sys2Proof.Machine.execSyncReqRx port payload t2 t3 now s
  | .syncRespRx port payload t4 now => Sys2Proof.Machine.execSyncRespRx port payload t4 now s
  | .syncRespTimeout now => Sys2Proof.Machine.execSyncRespTimeout now s
  | .springLost now => Sys2Proof.Machine.execSpringLost now s
  | .holdoverExpired now => Sys2Proof.Machine.execHoldoverExpired now s
  | .refStopped now => Sys2Proof.Machine.execRefStopped now s
  | .refReturned frac now => Sys2Proof.Machine.execRefReturned frac now s
  | .refclkStartResume now => Sys2Proof.Machine.execRefclkStartResume now s
  | .trainingFrameRx port infos skew now => Sys2Proof.Machine.execTrainingFrameRx port infos skew now s
  | .txRingsLocked port rings now => Sys2Proof.Machine.execTxRingsLocked port rings now s
  | .txTuneTimeout port now => Sys2Proof.Machine.execTxTuneTimeout port now s
  | .acquireTimeout port finding now => Sys2Proof.Machine.execAcquireTimeout port finding now s
  | .identifyTimeout port now => Sys2Proof.Machine.execIdentifyTimeout port now s
  | .handshakeTimeout port now => Sys2Proof.Machine.execHandshakeTimeout port now s
  | .calibrateTimeout port now => Sys2Proof.Machine.execCalibrateTimeout port now s
  | .faultBackoffExpiry port now => Sys2Proof.Machine.execFaultBackoffExpiry port now s
  | .laneFail port transmit lane reason now => Sys2Proof.Machine.execLaneFail port transmit lane reason now s
  | .noLight port now => Sys2Proof.Machine.execNoLight port now s
  | .sleepEnter port level wake now => Sys2Proof.Machine.execSleepEnter port level wake now s
  | .sleepExit port now => Sys2Proof.Machine.execSleepExit port now s
  | .heaterMeasure port tx rx now => Sys2Proof.Machine.execHeaterMeasure port tx rx now s
  | .laserFeedLost port now => Sys2Proof.Machine.execLaserFeedLost port now s
  | .laserLineMissing port line power now => Sys2Proof.Machine.execLaserLineMissing port line power now s
  | .laserLinesMissing port lines power now => Sys2Proof.Machine.execLaserLinesMissing port lines power now s
  | .laserPolarization port now => Sys2Proof.Machine.execLaserPolarization port now s
  | .laserPlanMismatch port now => Sys2Proof.Machine.execLaserPlanMismatch port now s
  | .laserPowerHigh port power now => Sys2Proof.Machine.execLaserPowerHigh port power now s
  | .keeperWatchdog now => Sys2Proof.Machine.execKeeperWatchdog now s
  | .keeperRestarted corrupt now => Sys2Proof.Machine.execKeeperRestarted corrupt now s
  | .bistComplete tarn unit passed now => Sys2Proof.Machine.execBistComplete tarn unit passed now s
  | .hbmStackReady stack ok now => Sys2Proof.Machine.execHbmStackReady stack ok now s
  | .tarnResetComplete tarn now => Sys2Proof.Machine.execTarnResetComplete tarn now s
  | .hbmInterface stack now => Sys2Proof.Machine.execHbmInterface stack now s
  | .recoveryOverrun job now => Sys2Proof.Machine.execRecoveryOverrun job now s
  | .supplyFault rail above lo hi now => Sys2Proof.Machine.execSupplyFault rail above lo hi now s
  | .supplyRecoveryReset now => Sys2Proof.Machine.execSupplyRecoveryReset now s
  | .clockStretch die now => Sys2Proof.Machine.execClockStretch die now s
  | .clockStretchEnd die least now => Sys2Proof.Machine.execClockStretchEnd die least now s
  | .thermalWarn unit temp now => Sys2Proof.Machine.execThermalWarn unit temp now s
  | .clockStop die temp now => Sys2Proof.Machine.execClockStop die temp now s
  | .clockGateEnd die now => Sys2Proof.Machine.execClockGateEnd die now s
  | .thermalShutdown unit temp now => Sys2Proof.Machine.execThermalShutdown unit temp now s
  | .thermalRecoveryReset cold now => Sys2Proof.Machine.execThermalRecoveryReset cold now s
  | .resetNAssert now => Sys2Proof.Machine.execResetNAssert now s
  | .resetRelease puf refOk sfdpOk pins => Sys2Proof.Machine.execResetRelease puf refOk sfdpOk pins s
  | .pwrOkFall now => Sys2Proof.Machine.execPwrOkFall now s
  | .oobPins f now => Sys2Proof.Machine.execOobPins f now s
  | .evtPins f now => Sys2Proof.Machine.execEvtPins f now s
  | .refclkPins f now => Sys2Proof.Machine.execRefclkPins f now s
  | .alertPin f now => Sys2Proof.Machine.execAlertPin f now s
  | .evtTriggerIn pin now => Sys2Proof.Machine.execEvtTriggerIn pin now s
  | .timeTrigger n now => Sys2Proof.Machine.execTimeTrigger n now s
  | .siltExtensionFlush stack now => Sys2Proof.Machine.execSiltExtensionFlush stack now s
  | .periodicPulse pin now => Sys2Proof.Machine.execPeriodicPulse pin now s
  | .probeSample probe now => Sys2Proof.Machine.execProbeSample probe now s
  | .gaugeStart => Sys2Proof.Machine.execGaugeStart s
  | .gaugeStop midAppend => Sys2Proof.Machine.execGaugeStop midAppend s
  | .gaugeSample rails => Sys2Proof.Machine.execGaugeSample rails s
  | .gaugeTempExcursion out => Sys2Proof.Machine.execGaugeTempExcursion out s
  | .gaugeFactorySession challenge signature cal => Sys2Proof.Machine.execGaugeFactorySession challenge signature cal s
  | .gaugePoll now => Sys2Proof.Machine.execGaugePoll now s
  | .corePllLock now => Sys2Proof.Machine.execCorePllLock now s
  | .pcsBlockLock port locked fault now => Sys2Proof.Machine.execPcsBlockLock port locked fault now s
  | .oobFrameRx frame fcsOk now => Sys2Proof.Machine.execOobFrameRx frame fcsOk now s

end Sys2Proof.Machine
end

