-- ==== Sys2Proof/Safety.lean ====
section
/-! DEFINITION. What the statements speak of: the device at the time of a command, what a record or a message leaves alone, a request that is
served, and the canonical form of the two memories. -/

namespace Sys2Proof.Machine

/-- The device at the time of a command: the cycles up to it have passed. -/
abbrev State.devAt (s : State) (now : Nat) : Dev := s.dev.to now

/-- A byte of the flash and a byte of the Depths, as a read gives them. -/
def State.flashByte (s : State) (a : Nat) : Byte := mread flashDefault s.flash a
def State.depthsByte (s : State) (a : Nat) : Byte := mread depthsDefault s.depths a

/-- The canonical form of both memories: addresses rise, and no entry holds what an unlisted address reads as. -/
def State.canonical (s : State) : Prop := Memory.wf flashDefault s.flash = true ∧ Memory.wf depthsDefault s.depths = true

/-- What is left of a device when what messages, counters and traces touch is put aside: what has been sent, the counters, the mirror
copies, Silt, the Gauge, the sessions and the ready mark. -/
def Dev.quiet (d : Dev) : Dev :=
  { d with sent := [], ctrs := [], mirrors := {}, silt := {}, gauge := {}, keeper := { d.keeper with sessions := [], readyTick := none } }

/-- What is left of a device when everything that a report may touch is put aside: what has been sent, the counters, the mirror copies, the
fault records, classes and unit words, Silt, the Gauge, the sessions and the ready mark. Two devices with the same rest differ in reports only. -/
def Dev.rest (d : Dev) : Dev :=
  { d with sent := [], ctrs := [], mirrors := {}, faults := {}, units := [], silt := {}, gauge := {},
           keeper := { d.keeper with sessions := [], readyTick := none } }

/-- The newest record of the event ring (R363, R364). -/
def Dev.lastRecord (d : Dev) : Bytes := ((d.faults.ring.getLast?).map Event.bytes).getD []

/-- The source that a fault record names (R363). -/
def recSource (r : Bytes) : Nat := fld r 16 2

/-- A record of a fault of severity 2 or below: nothing follows from it but the report (R360). -/
def Dev.onlyReports (d : Dev) (r : FaultRec) : Prop := d.effective r ≤ 2

/-- The record of a fault is in the event ring under the number that was next, with the bytes of R363 (R360, R364). -/
def Recorded (d : Dev) (r : FaultRec) (t : Dev) : Prop :=
  ∃ e ∈ t.faults.ring, e.seq = d.faults.eventSeq ∧ e.bytes = d.faultBytes r (d.effective r)

/-- A datagram that a request serves: it is heard, well formed, of a confirmed session, with a right mac, a fresh number and tag, and
nothing refuses it (R402, R405, R406, R409, R410, R413). -/
def Served (r : Request) (m : GmpMsg) (x : Session) (d : Dev) : Prop :=
  d.hears m.port = true ∧ msgBadForm m = false ∧ d.confirmed m.session = some x ∧ m.mac = hmacSm3 x.macIn (msgSigned m r.msg) ∧
    x.seqIn < m.seq ∧ (x.kept.any (fun k => k.tag == m.tag)) = false ∧ x.busyTags.contains m.tag = false ∧
    (d.keeper.imageState = .bad → r.recovery = true) ∧ (r.right.mask ≠ 0 → Nat.land x.rights r.right.mask ≠ 0) ∧
    msgBadFields m = false ∧ r.valid m.body = true ∧ (r.namesJob = true → (d.job (u8 m.body 0)).state ≠ .empty)

/-- The device once a datagram has been taken: its bytes are counted, its session's number and time have gone on, its tag is in work. -/
def Dev.taken (d : Dev) (m : GmpMsg) (code : Nat) : Dev :=
  ((d.gmpIn m code).accepted m).modSession m.session (fun y => { y with busyTags := y.busyTags ++ [m.tag] })

/-- The session that a datagram names keeps a reply with this body as its newest one (R410, R411). -/
def Answered (t : State) (m : GmpMsg) (code : Nat) (body : Bytes) : Prop :=
  ∃ y, t.dev.session m.session = some y ∧ y.kept.getLast? = some { tag := m.tag, msg := code, body := body }

/-- Session `n` has ended, and with it the package load it opened, its claim of the flash, its dump and what it waited for (R402, R407,
R417, R457); nothing else has changed but reports. -/
def Ended (d : Dev) (t : State) (n : Nat) : Prop :=
  t.dev.session n = none ∧ (∀ k, k ≠ n → t.dev.session k = d.session k) ∧
    t.dev.gauge.waiting = d.gauge.waiting.filter (fun w => w.session ≠ n) ∧
    t.dev.rest = { d.rest with
      keeper := { d.rest.keeper with load := d.keeper.load.filter (fun l => l.session ≠ n), flashClaim := d.keeper.flashClaim.filter (· ≠ n),
                                     haltWaits := d.keeper.haltWaits.filter (fun w => w.2.1 ≠ n) },
      dump := d.dump.filter (fun x => x.session ≠ n) }

/-- A context has been aborted with a status, by the record that names it: what it held of the use is gone, the inflow of that use too,
and no other context and nothing else of a job has changed (R92, R109). -/
def Aborted (s t : State) (c st : Nat) : Prop :=
  (t.dev.ctx c).state = .aborted ∧ (t.dev.ctx c).status = st ∧ (t.dev.ctx c).sequence = (s.dev.ctx c).sequence ∧
    (t.dev.ctx c).generation = (s.dev.ctx c).generation ∧ (t.dev.ctx c).nodes = [] ∧
    (t.dev.ctx c).frags = (s.dev.ctx c).frags.filter (fun f => chSeq f.header != (s.dev.ctx c).sequence) ∧
    (∃ e ∈ t.dev.faults.ring, recSource e.bytes = st) ∧ (∀ i, i ≠ c → t.dev.ctx i = s.dev.ctx i) ∧
    (∀ j, { t.dev.job j with inflow := [] } = { s.dev.job j with inflow := [] }) ∧
    ∀ j, j ≠ (s.dev.ctx c).job → t.dev.job j = s.dev.job j

/-- The tick at which the next round of a slot acts: when it is due, put off to the next claimed window (R210, R213). -/
def Dev.slotTick (d : Dev) (j i : Nat) : Nat :=
  let x := d.job j
  x.nextClaim (slResource (scSlot x.sched i)) (d.dueAt j i (tget 0 x.acted i))

/-- The next round of entry `e` = `i`, of a kind, is due: its sequencer acts and its die's clock runs, its section has begun, no slot of
its die that comes before it is open, and its tick is reached (R206, R210, R213, R216). -/
def SlotDue (d : Dev) (j i kind : Nat) (e : Bytes) : Prop :=
  scSlot (d.job j).sched i = e ∧ d.slotActs j i kind = true ∧ tget 0 (d.job j).acted i < (d.job j).rounds i ∧
    (d.job j).begun i (tget 0 (d.job j).acted i) = true ∧ d.slotTick j i ≤ d.tick ∧
    ((d.job j).live = true →
      (d.job j).inOrder (resDie (slResource e)) ((d.job j).roundStart i (tget 0 (d.job j).acted i) + slPlace e (kind == 1)) = true)

/-- The device once that round has begun: it is counted, and the wait for its window is lag (R210, R216). -/
def Dev.begun (d : Dev) (j i : Nat) : Dev :=
  let m := tget 0 (d.job j).acted i
  d.modJob j (fun y =>
    { y.addLag (resDie (slResource (scSlot (d.job j).sched i))) (d.slotTick j i - d.dueAt j i m) with
      acted := tset y.acted i (m + 1), moved := tdel y.moved i })

/-- The VC and the bytes of the packet that an item of a TX slot becomes: an item formed here takes a route header of its own, one passed on
the route header that it came with, a hop later (R262, R263). -/
def Dev.packetOf (d : Dev) (j : Nat) (u : TxItem) : Nat × Bytes :=
  match u with
  | .node .. => (0, routeFor 1 j 0 0 (d.txContent u) ++ d.txContent u)
  | .pass _ f => (0, onwardRoute f.route 1 j 0 0 (d.txContent u) ++ d.txContent u)
  | .out f => (1, onwardRoute f.route 2 j f.channel 1 (d.txContent u) ++ d.txContent u)

/-- A source whose severity is at most 3: a fault of it that names no context is recorded, and nothing else follows (R360, R361). -/
def Dev.mild (d : Dev) (src : Nat) : Prop := ∀ r : FaultRec, r.source = src → d.effective r ≤ 3

/-- A link has left UP for a state with a cause; LINK_DOWN has been recorded, so that events have gone on and class LINK is unacknowledged;
its offer of time and, in fabric mode, its retained flits are gone, each context that names it and could be aborted is, and no other link has
left its state (R238, R276, R361, R364). -/
def WentDown (d : Dev) (t : State) (p cause : Nat) (st : LinkState) : Prop :=
  (t.dev.port p).state = st ∧ (t.dev.port p).cause = cause ∧ d.faults.eventSeq < t.dev.faults.eventSeq ∧
    (tget {} t.dev.faults.classes 1).unacked = true ∧
    (∀ o ∈ t.dev.clock.offers, o.1 ≠ p) ∧ (∀ q, q ≠ p → (t.dev.port q).state = (d.port q).state) ∧
    (d.fabric p = true → (t.dev.port p).retained = [] ∧ ∀ c, (d.ctx c).abortable = true →
      ((d.job (d.ctx c).job).bucketPorts (d.ctx c).bucket).contains p = true → (t.dev.ctx c).state = .aborted ∨ (t.dev.ctx c).state = .resetting)

/-- A warm reset has begun (R371): the Keeper is restarting without sessions, the GTC is INVALID, every job is HALTED with cause 4, or after
a device-fatal fault, which `fatal` says, with cause 5 where this device owns chunks of it (R41), every context is ARMED with the next
generation, every port that is not disabled begins its bring-up, the staging pool and the mirror queues are empty, the Depths are parked and
the Gauge's log is as it was. -/
def WarmReset (fatal : Bool) (d : Dev) (t : State) : Prop :=
  t.dev.power.warm = some d.time ∧ t.dev.keeper.up = false ∧ t.dev.keeper.sessions = [] ∧ t.dev.clock.state = .invalid ∧ t.dev.pool = {} ∧
    t.dev.own = [] ∧ t.dev.mirrors.queues = [] ∧ t.dev.power.depthsParked = true ∧
    (∀ j, (d.job j).state ≠ .empty → (t.dev.job j).state = .halted ∧ (t.dev.job j).launch = none ∧
      (t.dev.job j).haltCause = (if fatal = true ∧ (d.job j).owned ≠ [] then 5 else 4)) ∧
    (∀ c, (d.ctx c).state ≠ .free → (t.dev.ctx c).state = .armed ∧ (t.dev.ctx c).generation = ((d.ctx c).generation + 1) % 2 ^ 16 ∧
      (t.dev.ctx c).frags = []) ∧
    (∀ p, p < 98 → (t.dev.port p).state = if (d.port p).state = .disabled then .disabled else .txTune) ∧ t.dev.gauge.log = d.gauge.log

/-- A cold reset has begun (R367): no job, no context, no session and no record is left, the GTC is INVALID, the Depths hold nothing, and the
Gauge's log is as it was. -/
def ColdReset (d : Dev) (t : State) : Prop :=
  t.depths = [] ∧ t.dev.power.cold = true ∧ t.dev.keeper.up = false ∧ t.dev.keeper.sessions = [] ∧ t.dev.clock.state = .invalid ∧
    (∀ j, (t.dev.job j).state = .empty) ∧ (∀ c, (t.dev.ctx c).state = .free) ∧ t.dev.faults.ring = [] ∧ t.dev.gauge.log = d.gauge.log

/-- The requests that need a right: the command, its message code and the right's bit in MANAGER_KEYS, 1 READ, 2 JOB, 4 DEVICE (R399, R413,
R456, R471). -/
def rightRows (readBack : Bytes) (stack : Nat) (ecc : EccResult) : List ((GmpMsg → Instr) × Nat × Nat) := [
  (.gmpRead, 0x0010, 1), (.gmpWrite, 0x0011, 4), (.faultClassAck, 0x0011, 4), (.probeClear, 0x0011, 4), (.probeDisable, 0x0011, 4),
  (.siltCtrlTrigger, 0x0011, 4), (.siltCtrlRearm, 0x0011, 4), (.gmpAttest, 0x0012, 1), (.gmpSubscribe, 0x0013, 1), (fun m => .gmpAuditRead m stack ecc, 0x0014, 1),
  (.gmpPkgBegin, 0x0020, 2), (.gmpPkgData, 0x0021, 2), (.gmpPkgEnd, 0x0022, 2), (.gmpUnload, 0x0023, 2), (.gmpLaunch, 0x0030, 2),
  (.gmpLaunchCancel, 0x0031, 2), (.gmpCommit, 0x0032, 2), (.gmpAbandon, 0x0033, 2), (.gmpJobHalt, 0x0034, 2), (.gmpCtxReset, 0x0035, 2),
  (.gmpCtxAbort, 0x0036, 2), (.gmpQpSetup, 0x0040, 2), (.gmpCkpt, 0x0041, 2), (.gmpRestoreData, 0x0042, 2), (.gmpRestoreEnd, 0x0043, 2),
  (.gmpReplayRef, 0x0044, 2)] ++ [
  (.gmpRetrain, 0x0050, 4), (.gmpTimeInvalidate, 0x0051, 4), (.gmpDeviceResetWarm, 0x0052, 4), (.gmpDeviceResetCold, 0x0052, 4),
  (.gmpFlashErase, 0x0053, 4), (fun m => .gmpFlashWrite m readBack, 0x0054, 4), (.gmpFlashRead, 0x0055, 1), (.gmpFlashCheck, 0x0056, 1),
  (.gmpDumpBegin, 0x0060, 4), (.gmpDumpRead, 0x0061, 1), (.gmpDumpEnd, 0x0062, 4), (.gmpCaptureSet, 0x0063, 4),
  (.gmpGaugeIdentity, 0x0070, 1), (.gmpGaugeRead, 0x0071, 1), (.gmpGaugeLog, 0x0072, 1)]

end Sys2Proof.Machine
end

