-- ==== Sys2Proof/Certificates/Slice0/Obligations.lean ====
section
/-! DEFINITION. The statements about the V96, for the provers. -/

open Sys2Proof Sys2Proof.Machine

/-- A step takes the command at the front of the queue and runs it with the rest of the queue; what it answers is what the command answers.
-/
def Obligations.StepRunsFrontCommand : Prop :=
  ∀ (c : Instr) (rest : List Instr) (s : State), step { s with pending := c :: rest } = exec c { s with pending := rest }

/-- On an empty queue one core cycle passes (the model's choice, log entry 2): the block's time and, while it is not frozen, its GTC go on,
the latter by one tick where the servo has nothing to correct; nothing else but the dies' cycle counts changes. No command touches the queue
of the commands that wait. -/
def Obligations.QueueEmptiesAndTimePasses : Prop :=
  (
    ∀ s : State, s.pending = [] → ∃ t, step s = .next t ∧ t.pending = [] ∧ t.flash = s.flash ∧ t.depths = s.depths ∧
      t.dev.clock.time = s.dev.clock.time + 1 ∧ t.dev.rest = { s.dev.rest with clock := t.dev.clock } ∧
      t.dev.sent = s.dev.sent ∧ t.dev.mirrors = s.dev.mirrors ∧ t.dev.faults = s.dev.faults ∧ t.dev.units = s.dev.units ∧ t.dev.silt = s.dev.silt ∧ t.dev.gauge = s.dev.gauge ∧
      t.dev.keeper = s.dev.keeper ∧
      (s.dev.clock.frozen = true → t.dev.clock.gtc = s.dev.clock.gtc) ∧
      (s.dev.clock.frozen = false → s.dev.clock.slew = 0 →
        t.dev.clock.gtc = s.dev.clock.gtc + BitVec.ofNat 64 (1 + s.dev.clock.frac / 65536) ∧ t.dev.clock.frac = s.dev.clock.frac % 65536) ∧
      (∀ i, i ≠ ctrIdx 4 0 0 → i ≠ ctrIdx 4 1 0 → t.dev.ctr i = s.dev.ctr i)) ∧
  (
    ∀ (c : Instr) (s t : State), exec c s = .next t → t.pending = s.pending)

/-- The state after reset: no job is loaded, every context is FREE, the GTC is INVALID and frozen, all ports are in TX_TUNE, the event ring
is empty, no session is open, the two spare Basins are in STANDBY and every other unit is in service, STEP_STATUS and JOB_RECOVERY hold
their default words, Silt runs, and both memories list nothing. Values that the spec does not give are the model's (log entries 2, 3, 6 and
7). -/
def Obligations.ResetLeavesDefaults : Prop :=
  State.reset.pending = [] ∧ State.reset.flash = [] ∧ State.reset.depths = [] ∧
    (∀ j, (State.reset.dev.job j).state = .empty ∧ (State.reset.dev.job j).stepStatus = 0x000FFFFFFFFFFFFF ∧
      (State.reset.dev.job j).recovery = 0x0000FFFFFFFFFFFF) ∧
    (∀ c, (State.reset.dev.ctx c).state = .free ∧ (State.reset.dev.ctx c).basin = 0xFF ∧ (State.reset.dev.ctx c).microBatch = 0xFFFF) ∧
    (∀ p, (State.reset.dev.port p).state = .txTune) ∧
    (∀ u, (State.reset.dev.unit u).state = if u = 48 ∨ u = 49 then UnitState.standby else .inService) ∧
    State.reset.dev.clock.state = .invalid ∧ State.reset.dev.clock.frozen = true ∧ State.reset.dev.clock.gtc = 0 ∧
    State.reset.dev.faults.ring = [] ∧ State.reset.dev.keeper.sessions = [] ∧ State.reset.dev.silt.state = .running ∧
    State.reset.dev.power.released = false

/-- Both memories have their canonical form after reset. -/
def Obligations.ResetIsCanonical : Prop :=
 State.reset.canonical

/-- Every step keeps the canonical form of both memories: in every state that has it, whatever command waits at the front. -/
def Obligations.StepKeepsCanonical : Prop :=
  ∀ s t : State, s.canonical → step s = .next t → t.canonical

/-- The flash changes only by an erase or a write of GMP, and by the identity that a reset release writes (R389, R391, R402): every other
command leaves every byte of it. The Depths change only by package load, the end of a restore, a fold, an Update or Outflow, a lost supply
and a cold reset: every other command leaves every byte, unless it has made the device reset cold, which leaves nothing (R367). -/
def Obligations.MemoriesChangeOnlyByTheirCommands : Prop :=
  (
    ∀ (c : Instr) (s t : State), exec c s = .next t →
      (∀ m, c ≠ .gmpFlashErase m) → (∀ m b, c ≠ .gmpFlashWrite m b) → (∀ p r f l, c ≠ .resetRelease p r f l) →
      ∀ a, t.flashByte a = s.flashByte a) ∧
  (
    ∀ (c : Instr) (s t : State), exec c s = .next t →
      (∀ m, c ≠ .gmpPkgBegin m) → (∀ m, c ≠ .gmpPkgData m) → (∀ m, c ≠ .gmpPkgEnd m) → (∀ m, c ≠ .gmpRestoreEnd m) →
      (∀ x n, c ≠ .ctxCommit x n) → (∀ j e w u n, c ≠ .tarnSlot j e w u n) → (∀ m, c ≠ .gmpCommit m) →
      (∀ n, c ≠ .pwrOkFall n) → (∀ p r f l, c ≠ .resetRelease p r f l) →
      if t.dev.power.cold then t.depths = [] else ∀ a, t.depthsByte a = s.depthsByte a)

/-- GMP_HELLO with a key that has rights, where the key exchange has a result, opens an unconfirmed session with a number that no open
session has and that is not zero (R406, R407), and opens none where it has no result; GMP_KEY_CONFIRM with the right mac and value confirms
it and is answered. Nothing but reports changes besides. The session number is a free value (log entry 5). -/
def Obligations.SessionSetupOpensAndConfirms : Prop :=
  (∀ (m : GmpMsg) (s : State) (r : Nat), (s.devAt m.now).hears m.port = true → helloBad m = false →
    m.mac = List.replicate 32 0#8 → (s.devAt m.now).keyRights (m.body.take 64) = some r → (s.devAt m.now).keeper.sessions.length < 8 →
    ∃ t, exec (.gmpHello m) s = .next t ∧ t.dev.rest = { (s.devAt m.now).rest with freeCtr := (s.devAt m.now).freeCtr + 2 } ∧
      (∀ x, sm2Respond (s.devAt m.now).keeper.identityPriv (scalarOf (Config.freeNat (s.devAt m.now).freeCtr)) (m.body.take 64) (m.body.drop 64) = some x →
        ∃ n, n ≠ 0 ∧ n ∉ (s.devAt m.now).keeper.sessions.map Session.number ∧
          t.dev.keeper.sessions = (s.devAt m.now).keeper.sessions ++ [newSession m n r (s.devAt m.now).time x] ∧
          (newSession m n r (s.devAt m.now).time x).confirmed = false) ∧
      (sm2Respond (s.devAt m.now).keeper.identityPriv (scalarOf (Config.freeNat (s.devAt m.now).freeCtr)) (m.body.take 64) (m.body.drop 64) = none →
        t.dev.keeper.sessions = (s.devAt m.now).keeper.sessions)) ∧
  (∀ (m : GmpMsg) (s : State) (x : Session), (s.devAt m.now).hears m.port = true → msgBadForm m = false → msgBadFields m = false →
    m.bodyLen = 32 → (s.devAt m.now).session m.session = some x → x.confirmed = false → m.mac = hmacSm3 x.macIn (msgSigned m 0x0003) →
    x.seqIn < m.seq → m.body = x.expectA →
    ∃ t y, exec (.gmpKeyConfirm m) s = .next t ∧ t.dev.session m.session = some y ∧ y.confirmed = true ∧ y.seqIn = m.seq ∧
      y.kept.getLast? = some { tag := m.tag, msg := 0x0003, body := ({} : Reply).body } ∧ t.dev.rest = (s.devAt m.now).rest)

/-- GMP_PING is answered with status OK, and a request with an unknown message code with ST_GMP_UNKNOWN; neither changes anything but
reports. GMP_CLOSE sends its reply to where it came from, unless that transmitter is dark, and ends the session with the package load it
opened, its claim of the flash, its dump and what it waited for; no other session and nothing else changes (R402, R406, R407, R413, R417,
R457). The GMP time-outs: a session not confirmed within 1 s of its start is discarded, and a confirmed one closes after 60 s without a
message (R407); a package load ends after 10 s without a piece (R417) and a dump closes after 600 s without a read (R457). Before its time,
and where there is nothing that it is about, each leaves everything but reports as it is. Ready reporting (R403, R404): a change of the
ready words starts 1 ms of coalescing, at whose end the words as they stand go to every session that subscribed to them, unless its port's
transmitter is dark; before it, and where nothing has changed, nothing is sent. The out-of-band link is what its last change said. Nothing
else but reports changes. -/
def Obligations.SessionsAnswerTimeOutAndReport : Prop :=
  (
    (∀ (m : GmpMsg) (s : State) (x : Session), Served pingRequest m x (s.devAt m.now) →
      ∃ t, exec (.gmpPing m) s = .next t ∧ Answered t m 0x0004 ({} : Reply).body ∧ t.dev.rest = (s.devAt m.now).rest) ∧
    (∀ (m : GmpMsg) (s : State) (x : Session), Served closeRequest m x (s.devAt m.now) →
      ∃ t, exec (.gmpClose m) s = .next t ∧ Ended (s.devAt m.now) t m.session ∧
        (s.dev.darkPort m.port = false →
          ∃ q mac, Sent.gmp m.port m.dest m.addr m.udp 1 0x0005 m.session q m.tag ({} : Reply).body mac ∈ t.dev.sent)) ∧
    (∀ (code : Nat) (m : GmpMsg) (s : State) (x : Session), Served (unknownRequest code) m x (s.devAt m.now) →
      ∃ t, exec (.gmpUnknownMessage code m) s = .next t ∧ Answered t m code ({ status := stGmpUnknown } : Reply).body ∧
        t.dev.rest = (s.devAt m.now).rest)) ∧
  (
    (∀ (n now : Nat) (s : State) (x : Session), s.dev.session n = some x → x.confirmed = false → x.setupTick + secTicks ≤ (s.devAt now).time →
      ∃ t, exec (.sessionSetupTimeout n now) s = .next t ∧ Ended (s.devAt now) t n) ∧
    (∀ (n now : Nat) (s : State) (x : Session), s.dev.session n = some x → x.confirmed = true → x.lastTick + 60 * secTicks ≤ (s.devAt now).time →
      ∃ t, exec (.sessionIdleTimeout n now) s = .next t ∧ Ended (s.devAt now) t n) ∧
    (∀ (n now : Nat) (c : Instr) (s : State),
      ((c = .sessionSetupTimeout n now ∧
          ∀ x, s.dev.session n = some x → x.confirmed = true ∨ (s.devAt now).time < x.setupTick + secTicks) ∨
        (c = .sessionIdleTimeout n now ∧
          ∀ x, s.dev.session n = some x → x.confirmed = false ∨ (s.devAt now).time < x.lastTick + 60 * secTicks)) →
      ∃ t, exec c s = .next t ∧ t.dev.keeper.sessions = s.dev.keeper.sessions ∧ t.dev.rest = (s.devAt now).rest) ∧
    (∀ (now : Nat) (s : State), ∃ t, exec (.pkgLoadIdleTimeout now) s = .next t ∧
      t.dev.rest = { (s.devAt now).rest with keeper := { (s.devAt now).rest.keeper with
        load := s.dev.keeper.load.filter (fun l => (s.devAt now).time < l.lastTick + 10 * secTicks) } }) ∧
    (∀ (now : Nat) (s : State), ∃ t, exec (.dumpIdleTimeout now) s = .next t ∧
      t.dev.rest = { (s.devAt now).rest with dump := s.dev.dump.filter (fun u => (s.devAt now).time < u.lastTick + 600 * secTicks) })) ∧
  (
    (∀ (now b : Nat) (s : State), s.dev.keeper.up = true → s.dev.keeper.readyTick = some b → b + msTicks ≤ (s.devAt now).time →
      ∃ t, exec (.readyCoalesceExpiry now) s = .next t ∧ t.dev.keeper.readyTick = none ∧
        t.dev.rest = { (s.devAt now).rest with keeper := { (s.devAt now).rest.keeper with readySent := (s.devAt now).readyWords } } ∧
        ∀ n y, s.dev.session n = some y → y.confirmed = true → y.ready = true → s.dev.darkPort y.port = false →
          ∃ q tag mac, Sent.gmp y.port y.source y.addr y.udp 2 0x0081 n q tag ((s.devAt now).readyWords.flatMap (leBytes 8)) mac ∈ t.dev.sent) ∧
    (∀ (now : Nat) (s : State), (∀ b, s.dev.keeper.readyTick = some b → s.dev.keeper.up = true → (s.devAt now).time < b + msTicks) →
      ∃ t, exec (.readyCoalesceExpiry now) s = .next t ∧ t.dev.rest = (s.devAt now).rest ∧ t.dev.sent = s.dev.sent) ∧
    (∀ (up : Bool) (now : Nat) (s : State), ∃ t, exec (.oobLinkChange up now) s = .next t ∧
      t.dev.rest = { (s.devAt now).rest with keeper := { (s.devAt now).rest.keeper with oobUp := up } } ∧ t.dev.sent = s.dev.sent ∧
      (s.dev.keeper.readyTick = none → t.dev.readyWords ≠ s.dev.keeper.readySent → t.dev.keeper.readyTick = some (s.devAt now).time)))

/-- Reads and writes of the state space (R425, R428): a read answers the words that its addresses map, or ST_ADDR_UNMAPPED; a write of
GTC_STATUS clears the bits stretched and stepped where it holds ones, one of a FAULT_CLASS, PROBE_CTRL or SILT_CTRL word does what the
command for that word does, one of a read-only word is answered ST_ADDR_RO and one of an unmapped word ST_ADDR_UNMAPPED, and both change
nothing. GMP_SUBSCRIBE sets what its session is told of (R412). -/
def Obligations.StateSpaceReadsAndWrites : Prop :=
  (∀ (m : GmpMsg) (s : State) (x : Session), Served readRequest m x (s.devAt m.now) →
    ∃ t, exec (.gmpRead m) s = .next t ∧ t.dev.rest = (s.devAt m.now).rest ∧
      match ((s.devAt m.now).taken m 0x0010).wordsFrom (fld m.body 0 8) (fld m.body 8 4) with
      | some b => Answered t m 0x0010 ({ payload := b } : Reply).body
      | none => Answered t m 0x0010 ({ status := stAddrUnmapped } : Reply).body) ∧
  (∀ (m : GmpMsg) (s : State) (x : Session), Served (writeRequest Dev.writeWord) m x (s.devAt m.now) → fld m.body 0 8 = 0x40 →
    ∃ t, exec (.gmpWrite m) s = .next t ∧ Answered t m 0x0011 ({} : Reply).body ∧
      t.dev.rest = { (s.devAt m.now).rest with clock := { (s.devAt m.now).clock with stretched := (s.devAt m.now).clock.stretched && !bit (fld m.body 8 8) 40, stepped := (s.devAt m.now).clock.stepped && !bit (fld m.body 8 8) 41 } }) ∧
  (∀ (m : GmpMsg) (s : State) (x : Session) (w : Nat), Served (writeRequest Dev.writeWord) m x (s.devAt m.now) →
    ((s.devAt m.now).taken m 0x0011).wordOf (fld m.body 0 8) = some w → fld m.body 0 8 ≠ 0x40 → fld m.body 0 8 ≠ 0x400000008 →
    classAt (fld m.body 0 8) = none → probeAt (fld m.body 0 8) = none →
    ∃ t, exec (.gmpWrite m) s = .next t ∧ Answered t m 0x0011 ({ status := stAddrRo } : Reply).body ∧ t.dev.rest = (s.devAt m.now).rest) ∧
  (∀ (m : GmpMsg) (s : State) (x : Session), Served (writeRequest Dev.writeWord) m x (s.devAt m.now) →
    ((s.devAt m.now).taken m 0x0011).wordOf (fld m.body 0 8) = none →
    ∃ t, exec (.gmpWrite m) s = .next t ∧ Answered t m 0x0011 ({ status := stAddrUnmapped } : Reply).body ∧ t.dev.rest = (s.devAt m.now).rest) ∧
  (∀ (m : GmpMsg) (s : State),
    (fld m.body 0 8 = siltCtrlAddr → exec (.gmpWrite m) s = exec (.siltCtrlTrigger m) s ∧ exec (.gmpWrite m) s = exec (.siltCtrlRearm m) s) ∧
    ((classAt (fld m.body 0 8)).isSome = true → exec (.gmpWrite m) s = exec (.faultClassAck m) s) ∧
    ((probeAt (fld m.body 0 8)).isSome = true → exec (.gmpWrite m) s = exec (.probeClear m) s ∧ exec (.gmpWrite m) s = exec (.probeDisable m) s)) ∧
  (∀ (m : GmpMsg) (s : State) (x : Session), Served subscribeRequest m x (s.devAt m.now) →
    ∃ t y, exec (.gmpSubscribe m) s = .next t ∧ Answered t m 0x0013 ({} : Reply).body ∧ t.dev.session m.session = some y ∧
      y.events = bit (u8 m.body 0) 0 ∧ y.ready = bit (u8 m.body 0) 1 ∧ y.minSeverity = u8 m.body 1 ∧ t.dev.rest = (s.devAt m.now).rest)

/-- Acknowledging a fault class clears its unacked bit, and its highest severity where that bit was set, and keeps its count; no other class
changes (R361, R365). Clearing a probe empties its counts and keeps its entry, disabling one clears the entry's enabled bit and keeps its
counts (R443); GMP_CAPTURE_SET gives a probe its entry with nothing counted (R440). SILT_CTRL: a trigger written while Silt runs stops it
running with source bit 5, frozen at the slot that was next; one written in the core cycle of the accepted trigger joins its sources, and
one written later is counted in SILT_TRIGGER_IGNORED and writes nothing (R449, R450). A rearm lets it run again with its trigger forgotten,
and has no effect while a dump is open (R451). -/
def Obligations.WritableWordsTakeEffect : Prop :=
  (
    (∀ (m : GmpMsg) (s : State) (x : Session) (c : Nat), Served (writeRequest ackWrite) m x (s.devAt m.now) → c < 16 →
      fld m.body 0 8 = 0x10000 + 8 * c → bit (fld m.body 8 8) 0 = true →
      ∃ t, exec (.faultClassAck m) s = .next t ∧ Answered t m 0x0011 ({} : Reply).body ∧ (tget {} t.dev.faults.classes c).unacked = false ∧
        ((tget {} s.dev.faults.classes c).unacked = true → (tget {} t.dev.faults.classes c).maxSeverity = 0) ∧
        (tget {} t.dev.faults.classes c).count = (tget {} s.dev.faults.classes c).count ∧
        (∀ k, k ≠ c → tget {} t.dev.faults.classes k = tget {} s.dev.faults.classes k) ∧ t.dev.faults.ring = s.dev.faults.ring ∧
        t.dev.rest = (s.devAt m.now).rest) ∧
    (∀ (m : GmpMsg) (s : State) (x : Session) (i : Nat), Served (writeRequest probeClearWrite) m x (s.devAt m.now) → i < 64 →
      fld m.body 0 8 = 0x400001030 + 512 * i → bit (fld m.body 8 8) 0 = true → bit (fld m.body 8 8) 1 = false →
      ∃ t, exec (.probeClear m) s = .next t ∧ Answered t m 0x0011 ({} : Reply).body ∧
        tget {} t.dev.probes i = { entry := (tget {} s.dev.probes i).entry, last := (tget {} s.dev.probes i).last, turn := (tget {} s.dev.probes i).turn } ∧
        (∀ k, k ≠ i → tget {} t.dev.probes k = tget {} s.dev.probes k) ∧ t.dev.rest = { (s.devAt m.now).rest with probes := t.dev.probes }) ∧
    (∀ (m : GmpMsg) (s : State) (x : Session) (i : Nat), Served (writeRequest probeDisableWrite) m x (s.devAt m.now) → i < 64 →
      fld m.body 0 8 = 0x400001030 + 512 * i → bit (fld m.body 8 8) 0 = false → bit (fld m.body 8 8) 1 = true →
      ∃ t, exec (.probeDisable m) s = .next t ∧ Answered t m 0x0011 ({} : Reply).body ∧ bit (u8 (tget {} t.dev.probes i).entry 1) 1 = false ∧
        tget {} t.dev.probes i = { tget {} s.dev.probes i with entry := (tget {} t.dev.probes i).entry } ∧
        (∀ k, k ≠ i → tget {} t.dev.probes k = tget {} s.dev.probes k) ∧ t.dev.rest = { (s.devAt m.now).rest with probes := t.dev.probes }) ∧
    (∀ (m : GmpMsg) (s : State) (x : Session), Served captureRequest m x (s.devAt m.now) →
      ∃ t, exec (.gmpCaptureSet m) s = .next t ∧ Answered t m 0x0063 ({} : Reply).body ∧
        (tget {} t.dev.probes (u8 m.body 0)).entry = m.body.drop 4 ∧ (tget {} t.dev.probes (u8 m.body 0)).count = 0 ∧
        (tget {} t.dev.probes (u8 m.body 0)).sum = 0 ∧ (tget {} t.dev.probes (u8 m.body 0)).min = 0xFFFFFFFF ∧
        (tget {} t.dev.probes (u8 m.body 0)).max = 0 ∧ (tget {} t.dev.probes (u8 m.body 0)).bins = [] ∧
        (∀ k, k ≠ u8 m.body 0 → tget {} t.dev.probes k = tget {} s.dev.probes k) ∧
        t.dev.rest = { (s.devAt m.now).rest with probes := t.dev.probes })) ∧
  (
    (∀ (m : GmpMsg) (s : State) (x : Session), Served (writeRequest siltTriggerWrite) m x (s.devAt m.now) → fld m.body 0 8 = 0x400000008 →
      bit (fld m.body 8 8) 0 = true → bit (fld m.body 8 8) 1 = false →
      ∃ t, exec (.siltCtrlTrigger m) s = .next t ∧ Answered t m 0x0011 ({} : Reply).body ∧ t.dev.silt.state ≠ .running ∧
        t.dev.rest = (s.devAt m.now).rest ∧
        (s.dev.silt.state = .running → t.dev.silt.sources = 32 ∧ t.dev.silt.triggerSlot = some s.dev.silt.next) ∧
        (s.dev.silt.state ≠ .running → s.dev.silt.trigTime = some (s.devAt m.now).time →
          t.dev.silt = s.dev.silt.join 32 ∧ t.dev.silt.sources = s.dev.silt.sources ||| 32) ∧
        (s.dev.silt.state ≠ .running → s.dev.silt.trigTime ≠ some (s.devAt m.now).time → t.dev.silt = s.dev.silt ∧
          t.dev.ctr (ctrIdx 0 0 0x10F) = ((s.devAt m.now).ctr (ctrIdx 0 0 0x10F) + 1) % 2 ^ 64)) ∧
    (∀ (m : GmpMsg) (s : State) (x : Session), Served (writeRequest siltRearmWrite) m x (s.devAt m.now) → fld m.body 0 8 = 0x400000008 →
      bit (fld m.body 8 8) 0 = false → bit (fld m.body 8 8) 1 = true →
      ∃ t, exec (.siltCtrlRearm m) s = .next t ∧ Answered t m 0x0011 ({} : Reply).body ∧ t.dev.rest = (s.devAt m.now).rest ∧
        t.dev.silt = (if s.dev.dump.isSome then s.dev.silt else { s.dev.silt with
          state := .running, since := 0, wrapped := false, oldestFrozen := none, triggerSlot := none, lostSlot := none, trigTime := none })))

/-- GMP_FLASH_ERASE sets the 65,536 bytes of one sector to 0xFF and no other byte; GMP_FLASH_WRITE, where the verifying read returns the
data, leaves exactly the data at its offset; both claim the flash for their session and mark the image area as written (R402, R427). -/
def Obligations.FlashEraseAndWriteChangeTheirBytes : Prop :=
  (∀ (m : GmpMsg) (s : State) (x : Session), Served flashEraseRequest m x (s.devAt m.now) → s.dev.flashTaken m.session = false →
    imageBase ≤ fld m.body 0 4 → fld m.body 0 4 + 65536 ≤ imageEnd → s.dev.power.nvmFault = false →
    ∃ t, exec (.gmpFlashErase m) s = .next t ∧ Answered t m 0x0053 ({} : Reply).body ∧
      (∀ a, t.flashByte a = if fld m.body 0 4 ≤ a ∧ a < fld m.body 0 4 + 65536 then 0xFF#8 else s.flashByte a) ∧
      t.dev.keeper.flashClaim = some m.session ∧ t.dev.keeper.flashWritten = true ∧
      t.dev.rest = { (s.devAt m.now).rest with keeper := t.dev.rest.keeper }) ∧
  (∀ (m : GmpMsg) (data : Bytes) (s : State) (x : Session), Served (flashWriteRequest data) m x (s.devAt m.now) → m.body.drop 4 = data →
    s.canonical → s.dev.flashTaken m.session = false → data ≠ [] → data.length ≤ 256 → fld m.body 0 4 % 256 + data.length ≤ 256 →
    imageBase ≤ fld m.body 0 4 → fld m.body 0 4 + data.length ≤ imageEnd → s.dev.power.nvmFault = false →
    ∃ t, exec (.gmpFlashWrite m data) s = .next t ∧ Answered t m 0x0054 ({} : Reply).body ∧
      mreadBytes flashDefault t.flash (fld m.body 0 4) data.length = data ∧
      (∀ a, a < fld m.body 0 4 ∨ fld m.body 0 4 + data.length ≤ a → t.flashByte a = s.flashByte a) ∧
      t.dev.keeper.flashClaim = some m.session ∧ t.dev.keeper.flashWritten = true ∧
      t.dev.rest = { (s.devAt m.now).rest with keeper := t.dev.rest.keeper })

/-- Requests that only read: GMP_FLASH_READ answers the flash's bytes and GMP_FLASH_CHECK the outcome of checks 1 to 8 with the image's
digests (R390, R396, R402); GMP_ATTEST answers the report of R416 with a signature over it; GMP_AUDIT_READ answers the oldest records and
takes them out of the store (R336), where no error in the overflow region's reservation is past correction. An error there is recorded under
0x0601 or 0x0604 (R359), and one past correction leaves open only the bytes of the records that were read there. The dump (R455 to R457):
GMP_DUMP_BEGIN without a halt opens one for its session and answers its number and header; with a halt it leaves every loaded job HALTED and
Silt triggered, and opens the dump at once where no Update is under way; GMP_DUMP_READ answers bytes of the open dump; GMP_DUMP_END closes
it. The number of a dump and the nonce of a signature are free values (log entry 5). -/
def Obligations.ReadingsAndDumpsAnswer : Prop :=
  (
    (∀ (m : GmpMsg) (s : State) (x : Session), Served flashReadRequest m x (s.devAt m.now) →
      (fld m.body 0 4 + fld m.body 4 4 ≤ 4096 ∨ (imageBase ≤ fld m.body 0 4 ∧ fld m.body 0 4 + fld m.body 4 4 ≤ imageEnd)) →
      s.dev.power.nvmFault = false →
      ∃ t, exec (.gmpFlashRead m) s = .next t ∧
        Answered t m 0x0055 ({ payload := mreadBytes flashDefault s.flash (fld m.body 0 4) (fld m.body 4 4) } : Reply).body ∧
        t.flash = s.flash ∧ t.dev.rest = (s.devAt m.now).rest) ∧
    (∀ (m : GmpMsg) (s : State) (x : Session), Served flashCheckRequest m x (s.devAt m.now) →
      ∃ t, exec (.gmpFlashCheck m) s = .next t ∧ t.flash = s.flash ∧ t.dev.rest = (s.devAt m.now).rest ∧
        Answered t m 0x0056 (Reply.body
          { status := ((Mach.checkImage s.machOf (!s.dev.power.nvmFault)).finding.getD { status := 0 }).status,
            nameA := ((Mach.checkImage s.machOf (!s.dev.power.nvmFault)).finding.getD { status := 0 }).nameA,
            nameB := ((Mach.checkImage s.machOf (!s.dev.power.nvmFault)).finding.getD { status := 0 }).nameB,
            payload := (Mach.checkImage s.machOf (!s.dev.power.nvmFault)).image.digest ++
              (Mach.checkImage s.machOf (!s.dev.power.nvmFault)).image.signer })) ∧
    (∀ (m : GmpMsg) (s : State) (x : Session), Served attestRequest m x (s.devAt m.now) →
      ∃ t r, exec (.gmpAttest m) s = .next t ∧ r = (s.devAt m.now).report m.body x.managerKey ∧
        Answered t m 0x0012 ({ payload := r ++ sm2Sign s.dev.keeper.identityPriv (scalarOf (Config.freeNat s.dev.freeCtr)) r } : Reply).body ∧
        t.dev.rest = { (s.devAt m.now).rest with freeCtr := s.dev.freeCtr + 1 }) ∧
    (∀ (m : GmpMsg) (st : Nat) (ecc : EccResult) (s : State) (x : Session), Served (auditReadRequest st ecc) m x (s.devAt m.now) →
      ∃ t l r, exec (.gmpAuditRead m st ecc) s = .next t ∧ l = (s.dev.audit.overflow ++ s.dev.audit.store).take (fld m.body 0 2) ∧
        Answered t m 0x0014 ({ payload := leBytes 4 l.length ++ leBytes 4 0 ++ r.flatten } : Reply).body ∧ r.length = l.length ∧
        ((ecc ≠ .uncorrectable ∨ s.dev.audit.overflow = []) → r = l) ∧
        (∀ i, s.dev.audit.overflow.length ≤ i → r[i]? = l[i]?) ∧
        t.dev.audit.overflow ++ t.dev.audit.store = (s.dev.audit.overflow ++ s.dev.audit.store).drop (fld m.body 0 2) ∧
        (s.dev.audit.overflow ≠ [] → ecc ≠ .clean →
          ∃ e ∈ t.dev.faults.ring, recSource e.bytes = if ecc = .corrected then 0x0601 else 0x0604) ∧
        t.dev.rest = { (s.devAt m.now).rest with audit := t.dev.audit, freeCtr := t.dev.freeCtr } ∧
        t.dev.freeCtr = s.dev.freeCtr + (if ecc = .uncorrectable ∧ s.dev.audit.overflow ≠ [] then 1 else 0))) ∧
  (
    (∀ (m : GmpMsg) (s : State) (x : Session), Served dumpBeginRequest m x (s.devAt m.now) → s.dev.dump = none →
      s.dev.keeper.haltWaits.any (fun w => w.1 == 256) = false → u8 m.body 0 = 0 →
      ∃ t u, exec (.gmpDumpBegin m) s = .next t ∧ t.dev.dump = some u ∧ u.session = m.session ∧ u.lastTick = (s.devAt m.now).time ∧
        Answered t m 0x0060 ({ payload := leBytes 4 u.id ++ leBytes 4 0 ++ u.bytes.take 128 } : Reply).body ∧
        t.dev.rest = { (s.devAt m.now).rest with dump := some u, freeCtr := s.dev.freeCtr + 1 }) ∧
    (∀ (m : GmpMsg) (s : State) (x : Session) (j : Nat), Served dumpBeginRequest m x (s.devAt m.now) → s.dev.dump = none →
      s.dev.keeper.haltWaits.any (fun w => w.1 == 256) = false → u8 m.body 0 = 1 → j ∈ s.dev.loaded →
      ∃ t, exec (.gmpDumpBegin m) s = .next t ∧ (t.dev.job j).state = .halted ∧ t.dev.silt.state ≠ .running ∧
        ((∀ e ∈ s.dev.jobs, e.2.inUpdate = false) → ∃ u, t.dev.dump = some u ∧ u.session = m.session)) ∧
    (∀ (m : GmpMsg) (s : State) (x : Session) (u : Dump), Served dumpReadRequest m x (s.devAt m.now) → s.dev.dump = some u →
      u.id = fld m.body 0 4 → (m.port = 98 → fld m.body 16 4 ≤ 1024) → fld m.body 8 8 + fld m.body 16 4 ≤ u.siltOff + u.siltLen →
      ∃ t, exec (.gmpDumpRead m) s = .next t ∧ t.dev.dump = some { u with lastTick := (s.devAt m.now).time } ∧
        Answered t m 0x0061 ({ payload := ((s.devAt m.now).taken m 0x0061).dumpBytes u (fld m.body 8 8) (fld m.body 16 4) } : Reply).body ∧
        t.dev.rest = { (s.devAt m.now).rest with dump := t.dev.dump }) ∧
    (∀ (m : GmpMsg) (s : State) (x : Session) (u : Dump), Served dumpEndRequest m x (s.devAt m.now) → s.dev.dump = some u →
      u.id = fld m.body 0 4 →
      ∃ t, exec (.gmpDumpEnd m) s = .next t ∧ t.dev.dump = none ∧ Answered t m 0x0062 ({} : Reply).body ∧
        t.dev.rest = { (s.devAt m.now).rest with dump := none }))

/-- The pieces of a package (R417): GMP_PKG_BEGIN opens the load of its session with the header as its first 64 bytes and refuses a second
one; GMP_PKG_DATA puts its bytes at their offset of the staging area and no byte elsewhere. GMP_PKG_END ends the load of its session. A LOAD
package that passes every check leaves the job LOADED with its records (HALTED where no step number is left, R17) and every bucket's context
ARMED for the job (R18, R92, R417); a re-plan that passes replaces the job's records and advances its Outflow generation (R375, R424); a
package that fails a check changes no job and is answered with the check's status and names. GMP_UNLOAD leaves the job EMPTY, its contexts
FREE and every other job as it is (R20); while another session loads the job it is refused and changes nothing (R413). -/
def Obligations.PackagesLoadAndUnload : Prop :=
  (
    (∀ (m : GmpMsg) (s : State) (x : Session), Served pkgBeginRequest m x (s.devAt m.now) → s.dev.keeper.load = none →
      pkgHeaderOk m.body = true →
      ∃ t, exec (.gmpPkgBegin m) s = .next t ∧ Answered t m 0x0020 ({} : Reply).body ∧
        t.dev.keeper.load = some (newLoad m.session m.body (s.devAt m.now).time) ∧
        t.dev.rest = { (s.devAt m.now).rest with keeper := t.dev.rest.keeper } ∧
        (s.dev.power.cold = true → t.depths = []) ∧
        (s.canonical → s.dev.power.cold = false → mreadBytes depthsDefault t.depths stagingBase 64 = m.body ∧
          ∀ a, a < stagingBase ∨ stagingBase + 64 ≤ a → t.depthsByte a = s.depthsByte a)) ∧
    (∀ (m : GmpMsg) (s : State) (x : Session) (l : PkgLoad), Served pkgBeginRequest m x (s.devAt m.now) → s.dev.keeper.load = some l →
      ∃ t, exec (.gmpPkgBegin m) s = .next t ∧ Answered t m 0x0020 ({ status := stPkgBusy, nameA := jobName l.job } : Reply).body ∧
        t.dev.rest = (s.devAt m.now).rest) ∧
    (∀ (m : GmpMsg) (s : State) (x : Session) (l : PkgLoad), Served pkgDataRequest m x (s.devAt m.now) → s.dev.keeper.load = some l →
      l.session = m.session → l.job = u8 m.body 0 → fld m.body 4 4 + (m.body.length - 8) ≤ l.length →
      ∃ t, exec (.gmpPkgData m) s = .next t ∧ Answered t m 0x0021 ({} : Reply).body ∧
        t.dev.keeper.load = some { l with got := l.got ++ [(fld m.body 4 4, fld m.body 4 4 + (m.body.length - 8))], lastTick := (s.devAt m.now).time } ∧
        t.dev.rest = { (s.devAt m.now).rest with keeper := t.dev.rest.keeper } ∧
        (s.dev.power.cold = true → t.depths = []) ∧
        (s.canonical → s.dev.power.cold = false →
          mreadBytes depthsDefault t.depths (stagingBase + fld m.body 4 4) (m.body.length - 8) = m.body.drop 8 ∧
          ∀ a, a < stagingBase + fld m.body 4 4 ∨ stagingBase + fld m.body 4 4 + (m.body.length - 8) ≤ a → t.depthsByte a = s.depthsByte a))) ∧
  (
    (∀ (m : GmpMsg) (s : State) (x : Session) (l : PkgLoad) (recs : List (Nat × Bytes)), Served pkgEndRequest m x (s.devAt m.now) →
      s.dev.keeper.load = some l → l.session = m.session → l.job = u8 m.body 0 → u8 l.header 6 = 0 →
      Mach.checkPackage { s.machOf with dev := (s.devAt m.now).taken m 0x0022 } l (m.body.drop 4) = .ok recs →
      ∃ t, exec (.gmpPkgEnd m) s = .next t ∧ Answered t m 0x0022 ({} : Reply).body ∧ t.dev.keeper.load = none ∧
        (t.dev.job l.job).state = (if (loadedJob recs (m.body.drop 4)).nextStep = noStep then JobState.halted else .loaded) ∧
        (t.dev.job l.job).recs = recs ∧ (t.dev.job l.job).pkgDigest = m.body.drop 4 ∧
        (t.dev.job l.job).chSeq = (loadedJob recs (m.body.drop 4)).chSeq ∧
        (∀ e ∈ (loadedJob recs (m.body.drop 4)).bucketEntries, (t.dev.ctx (bkCtx e)).state = .armed ∧ (t.dev.ctx (bkCtx e)).job = l.job) ∧
        (∀ j, j ≠ l.job → t.dev.job j = s.dev.job j) ∧ t.dev.ports = s.dev.ports) ∧
    (∀ (m : GmpMsg) (s : State) (x : Session) (l : PkgLoad) (recs : List (Nat × Bytes)), Served pkgEndRequest m x (s.devAt m.now) →
      s.dev.keeper.load = some l → l.session = m.session → l.job = u8 m.body 0 → u8 l.header 6 ≠ 0 →
      Mach.checkPackage { s.machOf with dev := (s.devAt m.now).taken m 0x0022 } l (m.body.drop 4) = .ok recs →
      ∃ t, exec (.gmpPkgEnd m) s = .next t ∧ Answered t m 0x0022 ({} : Reply).body ∧ t.dev.keeper.load = none ∧
        (t.dev.job l.job).recs = (s.dev.job l.job).replannedRecs recs ∧ (t.dev.job l.job).replanned = true ∧
        (t.dev.job l.job).state = (s.dev.job l.job).state ∧ (t.dev.job l.job).outGen = ((s.dev.job l.job).outGen + 1) % 2 ^ 16 ∧
        (∀ j, j ≠ l.job → t.dev.job j = s.dev.job j)) ∧
    (∀ (m : GmpMsg) (s : State) (x : Session) (l : PkgLoad) (f : Finding), Served pkgEndRequest m x (s.devAt m.now) →
      s.dev.keeper.load = some l → l.session = m.session → l.job = u8 m.body 0 →
      Mach.checkPackage { s.machOf with dev := (s.devAt m.now).taken m 0x0022 } l (m.body.drop 4) = .error f →
      ∃ t, exec (.gmpPkgEnd m) s = .next t ∧
        Answered t m 0x0022 ({ status := f.status, nameA := f.nameA, nameB := f.nameB } : Reply).body ∧
        t.dev.rest = { (s.devAt m.now).rest with keeper := { (s.devAt m.now).rest.keeper with load := none } }) ∧
    (∀ (m : GmpMsg) (s : State) (x : Session), Served unloadRequest m x (s.devAt m.now) →
      s.dev.keeper.load.any (fun l => l.job == u8 m.body 0 && l.session != m.session) = false →
      ∃ t, exec (.gmpUnload m) s = .next t ∧ Answered t m 0x0023 ({} : Reply).body ∧ (t.dev.job (u8 m.body 0)).state = .empty ∧
        (∀ c, (s.dev.ctx c).state ≠ .free → (s.dev.ctx c).job = u8 m.body 0 → (t.dev.ctx c).state = .free) ∧
        (∀ j, j ≠ u8 m.body 0 → t.dev.job j = s.dev.job j)) ∧
    (∀ (m : GmpMsg) (s : State) (x : Session), Served unloadRequest m x (s.devAt m.now) →
      s.dev.keeper.load.any (fun l => l.job == u8 m.body 0 && l.session != m.session) = true →
      ∃ t, exec (.gmpUnload m) s = .next t ∧ Answered t m 0x0023 ({ status := stJobUnloadedBusy } : Reply).body ∧
        t.dev.rest = (s.devAt m.now).rest))

/-- GMP_LAUNCH (R205): an admitted launch waits with its tick, step and kind, and every refused one leaves the job as it was and is answered
with its status. GMP_LAUNCH_CANCEL (R501): it takes a waiting launch of its step away; where that launch is armed or its step has started it
is answered ST_LAUNCH_ARMED, and where none of the step is known ST_LAUNCH_STEP, and both change nothing. At a launch's arming time and at
its launch cycle (R204, R206): with launch-grade time, and while the device is not held (R362), a pending launch is armed, and an armed one
starts its step at its tick: the job is RUNNING, its first section runs, its contexts belong to a launched step. Otherwise the launch is
withheld: it is gone, the fault is recorded, and the job's state and step number stay. A job whose tables cannot be read at its launch is
HALTED with its record (R359, R360). Before its time a launch stays as it is. -/
def Obligations.LaunchesAreTakenCancelledAndStarted : Prop :=
  (
    (∀ (m : GmpMsg) (s : State) (x : Session), Served launchRequest m x (s.devAt m.now) →
      ∃ t, exec (.gmpLaunch m) s = .next t ∧
        Answered t m 0x0030 ({ status := (s.devAt m.now).launchStatus (u8 m.body 0) (fld m.body 2 6) (fld m.body 8 8) (bit (u8 m.body 1) 0) } :
          Reply).body ∧
        t.dev.rest = (if (s.devAt m.now).launchStatus (u8 m.body 0) (fld m.body 2 6) (fld m.body 8 8) (bit (u8 m.body 1) 0) = stOk then
            ((s.devAt m.now).modJob (u8 m.body 0) (fun j => { j with launch := some (Launch.mk (fld m.body 8 8) (fld m.body 2 6) (bit (u8 m.body 1) 0) .pending) })).rest
          else (s.devAt m.now).rest)) ∧
    (∀ (m : GmpMsg) (s : State) (x : Session) (l : Launch), Served launchCancelRequest m x (s.devAt m.now) →
      (s.dev.job (u8 m.body 0)).launch = some l → l.step = fld m.body 2 6 → l.stage = .pending →
      ∃ t, exec (.gmpLaunchCancel m) s = .next t ∧ Answered t m 0x0031 ({} : Reply).body ∧
        t.dev.rest = ((s.devAt m.now).modJob (u8 m.body 0) (fun j => { j with launch := none })).rest) ∧
    (∀ (m : GmpMsg) (s : State) (x : Session) (st : Nat), Served launchCancelRequest m x (s.devAt m.now) → fld m.body 2 6 ≠ noStep →
      ((st = stLaunchArmed ∧ (∃ l, (s.dev.job (u8 m.body 0)).launch = some l ∧ l.step = fld m.body 2 6 ∧ l.stage = .armed)) ∨
        ((∀ l, (s.dev.job (u8 m.body 0)).launch = some l → l.step ≠ fld m.body 2 6) ∧
          st = if (s.dev.job (u8 m.body 0)).rcStep = fld m.body 2 6 then stLaunchArmed else stLaunchStep)) →
      ∃ t, exec (.gmpLaunchCancel m) s = .next t ∧ Answered t m 0x0031 ({ status := st } : Reply).body ∧ t.dev.rest = (s.devAt m.now).rest)) ∧
  (
    (∀ (j now : Nat) (s : State) (l : Launch), (s.dev.job j).launch = some l → l.stage = .pending → l.tick ≤ (s.devAt now).tick + 9750 →
      ∃ t, exec (.launchArm j now) s = .next t ∧
        ((s.devAt now).launchGrade = true → s.dev.faults.held = false →
          t.dev.rest = ((s.devAt now).modJob j (fun x => { x with launch := some { l with stage := .armed } })).rest) ∧
        (((s.devAt now).launchGrade = false ∨ s.dev.faults.held = true) →
          t.dev.rest = ((s.devAt now).modJob j (fun x => { x with launch := none })).rest ∧ ∃ e ∈ t.dev.faults.ring, recSource e.bytes = 0x0706)) ∧
    (∀ (j now : Nat) (tables : EccResult) (s : State) (l : Launch), (s.dev.job j).launch = some l → l.stage = .armed →
      l.tick ≤ (s.devAt now).tick → (s.devAt now).launchGrade = true → s.dev.faults.held = false → tables ≠ .uncorrectable →
      ∃ t, exec (.launchCycle j now tables) s = .next t ∧ (t.dev.job j).state = .running ∧ (t.dev.job j).launch = none ∧
        (t.dev.job j).rcStep = l.step ∧ (t.dev.job j).launchTick = l.tick ∧
        (t.dev.job j).runSection = some (if l.completion then .tail else .microBatch 0) ∧
        (l.completion = false → (t.dev.job j).rcPhase = 1) ∧
        (∀ c, (s.dev.ctx c).state ≠ .free → (s.dev.ctx c).job = j →
          (t.dev.ctx c).openTick = (s.devAt now).time ∧ (l.completion = false → (t.dev.ctx c).launched = true)) ∧
        (∀ i, i ≠ j → (t.dev.job i).state = (s.dev.job i).state ∧ (t.dev.job i).rcStep = (s.dev.job i).rcStep)) ∧
    (∀ (j now : Nat) (tables : EccResult) (s : State) (l : Launch), (s.dev.job j).launch = some l → l.stage = .armed →
      l.tick ≤ (s.devAt now).tick → ((s.devAt now).launchGrade = false ∨ s.dev.faults.held = true) → tables ≠ .uncorrectable →
      ∃ t, exec (.launchCycle j now tables) s = .next t ∧ t.dev.rest = ((s.devAt now).modJob j (fun x => { x with launch := none })).rest ∧
        ∃ e ∈ t.dev.faults.ring, recSource e.bytes = 0x0706) ∧
    (∀ (j now : Nat) (s : State) (l : Launch), (s.dev.job j).launch = some l → l.stage = .armed → l.tick ≤ (s.devAt now).tick →
      s.dev.power.cold = false → (s.devAt now).effective { source := 0x0A04, job := some j, step := (s.dev.job j).rcStep } = 4 →
      ∃ t, exec (.launchCycle j now .uncorrectable) s = .next t ∧ (t.dev.job j).state = .halted ∧ (t.dev.job j).launch = none ∧
        ∃ e ∈ t.dev.faults.ring, recSource e.bytes = 0x0A04) ∧
    (∀ (j now : Nat) (tables : EccResult) (c : Instr) (s : State),
      ((c = .launchArm j now ∧ ∀ l, (s.dev.job j).launch = some l → l.stage = .armed ∨ (s.devAt now).tick + 9750 < l.tick) ∨
        (c = .launchCycle j now tables ∧ ∀ l, (s.dev.job j).launch = some l → l.stage = .pending ∨ (s.devAt now).tick < l.tick)) →
      ∃ t, exec c s = .next t ∧ t.dev.rest = (s.devAt now).rest))

/-- The sections of a step (R206, R378): micro-batch m starts at L + mP after micro-batch m - 1, the tail at L + AP after the last one; the
end of the last tail slot, lag included, leaves phase OUTFLOW_DONE where the phases before it are over, and the end of the span ends the
section (R501). Each command changes the job's section and phase and nothing else, and before its time nothing. A section whose tables
cannot be read halts the job with its record (R359, R360). -/
def Obligations.SectionsFollowEachOther : Prop :=
  (∀ (j mb now : Nat) (tables : EccResult) (s : State), (s.dev.job j).live = true → 1 ≤ mb → mb < (s.dev.job j).accum →
    (s.dev.job j).runSection = some (.microBatch (mb - 1)) → tables ≠ .uncorrectable →
    ∃ t, exec (.microbatchSectionStart j mb now tables) s = .next t ∧
      t.dev.rest = (if (s.dev.job j).launchTick + mb * scPeriod (s.dev.job j).sched ≤ (s.devAt now).tick then
        ((s.devAt now).modJob j (fun x => { x with runSection := some (.microBatch mb) })).rest else (s.devAt now).rest)) ∧
  (∀ (j now : Nat) (tables : EccResult) (s : State), (s.dev.job j).live = true →
    (s.dev.job j).runSection = some (.microBatch ((s.dev.job j).accum - 1)) → tables ≠ .uncorrectable →
    ∃ t, exec (.tailSectionStart j now tables) s = .next t ∧
      t.dev.rest = (if (s.dev.job j).launchTick + (s.dev.job j).accum * scPeriod (s.dev.job j).sched ≤ (s.devAt now).tick then
        ((s.devAt now).modJob j (fun x => { x with runSection := some .tail })).rest else (s.devAt now).rest)) ∧
  (∀ (j mb now : Nat) (c : Instr) (s : State), (s.dev.job j).live = true → s.dev.power.cold = false →
    ((c = .microbatchSectionStart j mb now .uncorrectable ∧ 1 ≤ mb ∧ mb < (s.dev.job j).accum ∧
        (s.dev.job j).runSection = some (.microBatch (mb - 1)) ∧
        (s.dev.job j).launchTick + mb * scPeriod (s.dev.job j).sched ≤ (s.devAt now).tick) ∨
      (c = .tailSectionStart j now .uncorrectable ∧ (s.dev.job j).runSection = some (.microBatch ((s.dev.job j).accum - 1)) ∧
        (s.dev.job j).launchTick + (s.dev.job j).accum * scPeriod (s.dev.job j).sched ≤ (s.devAt now).tick)) →
    (s.devAt now).effective { source := 0x0A04, job := some j, step := (s.dev.job j).rcStep } = 4 →
    ∃ t, exec c s = .next t ∧ (t.dev.job j).state = .halted ∧ (t.dev.job j).runSection = none ∧
      ∃ e ∈ t.dev.faults.ring, recSource e.bytes = 0x0A04) ∧
  (∀ (j lag now : Nat) (s : State) (x y : Job) (done : Prop) [Decidable done], x = s.dev.job j → x.live = true → x.runSection = some .tail →
    lag = (s.devAt now).lagMax x →
    (done ↔ x.rcStep ≠ noStep ∧ x.tailEnd lag ≤ (s.devAt now).tick ∧ x.outflowReady = true) →
    y = { x with rcPhase := if done then 5 else x.rcPhase,
                 runSection := if x.spanEnd lag ≤ (s.devAt now).tick ∧ (done ∨ x.rcPhase = 5 ∨ x.rcStep = noStep) then none else some .tail } →
    ∃ t, exec (.stepSpanEnd j now) s = .next t ∧ t.dev.rest = ((s.devAt now).modJob j (fun _ => y)).rest) ∧
  (∀ (j now : Nat) (s : State), ((s.dev.job j).live = false ∨ (s.dev.job j).runSection ≠ some .tail) →
    ∃ t, exec (.stepSpanEnd j now) s = .next t ∧ t.dev.rest = (s.devAt now).rest)

/-- GMP_COMMIT of a step in phase OUTFLOW_DONE ends it: STEP_STATUS describes it with its outcome, no step is uncommitted, and the next step
number is one more (R25, R31, R376); with another step or phase it is refused and changes nothing. A device of the result list writes its
own outcome, another one the token's (R32). -/
def Obligations.CommitEndsTheStep : Prop :=
  (∀ (m : GmpMsg) (s : State) (x : Session), Served commitRequest m x (s.devAt m.now) →
    (s.dev.job (u8 m.body 0)).rcStep ≠ noStep → fld m.body 2 6 = (s.dev.job (u8 m.body 0)).rcStep → (s.dev.job (u8 m.body 0)).rcPhase = 5 →
    ∃ t, exec (.gmpCommit m) s = .next t ∧ Answered t m 0x0032 ({} : Reply).body ∧ (t.dev.job (u8 m.body 0)).stStep = fld m.body 2 6 ∧
      (t.dev.job (u8 m.body 0)).stOutcome = (if (s.dev.job (u8 m.body 0)).onList then
        ((s.dev.job (u8 m.body 0)).vres.map VerdictRes.outcome).getD 0 else u8 m.body 1 % 16) ∧
      (t.dev.job (u8 m.body 0)).rcStep = noStep ∧ (t.dev.job (u8 m.body 0)).rcPhase = 0 ∧
      (t.dev.job (u8 m.body 0)).nextStep = fld m.body 2 6 + 1 ∧ (t.dev.job (u8 m.body 0)).lastEnded = fld m.body 2 6 ∧
      (∀ j, j ≠ u8 m.body 0 → t.dev.job j = s.dev.job j)) ∧
  (∀ (m : GmpMsg) (s : State) (x : Session), Served commitRequest m x (s.devAt m.now) →
    ((s.dev.job (u8 m.body 0)).rcStep = noStep ∨ fld m.body 2 6 ≠ (s.dev.job (u8 m.body 0)).rcStep) →
    ∃ t, exec (.gmpCommit m) s = .next t ∧ Answered t m 0x0032 ({ status := stCommitStep } : Reply).body ∧ t.dev.rest = (s.devAt m.now).rest) ∧
  (∀ (m : GmpMsg) (s : State) (x : Session), Served commitRequest m x (s.devAt m.now) →
    (s.dev.job (u8 m.body 0)).rcStep ≠ noStep → fld m.body 2 6 = (s.dev.job (u8 m.body 0)).rcStep → (s.dev.job (u8 m.body 0)).rcPhase ≠ 5 →
    ∃ t, exec (.gmpCommit m) s = .next t ∧ Answered t m 0x0032 ({ status := stCommitEarly } : Reply).body ∧ t.dev.rest = (s.devAt m.now).rest)

/-- GMP_ABANDON of the uncommitted step before the Verdict ends it ABANDONED: the job is HALTED with cause 2, no step is uncommitted, the
channel counters are those of the launch, and every context of the job is reset (R29, R31, R380); after the Verdict it is answered
ST_ABANDON_LATE and for another step ST_LAUNCH_STEP, and both change nothing. GMP_JOB_HALT leaves the job HALTED, with cause 5 where the
owner is lost, and is answered with JOB_RECOVERY where no Update is under way (R379). GMP_CTX_RESET of a context that the job holds leaves
it RESETTING with nothing held (R92). GMP_CTX_ABORT of one that can be aborted leaves it ABORTED with ST_MEMBER_RESET and no other context
changed, where it is no Verdict use (R109); one that can no longer be aborted is left as it is. A context that the job does not hold is
refused by both, which change nothing. -/
def Obligations.RequestsStopJobsAndContexts : Prop :=
  (
    (∀ (m : GmpMsg) (s : State) (x : Session), Served abandonRequest m x (s.devAt m.now) →
      (s.dev.job (u8 m.body 0)).rcStep ≠ noStep → fld m.body 2 6 = (s.dev.job (u8 m.body 0)).rcStep →
      (s.dev.job (u8 m.body 0)).rcPhase < 3 → (s.dev.job (u8 m.body 0)).rootCommitted = false →
      ∃ t, exec (.gmpAbandon m) s = .next t ∧ Answered t m 0x0033 ({} : Reply).body ∧ (t.dev.job (u8 m.body 0)).state = .halted ∧ (t.dev.job (u8 m.body 0)).haltCause = 2 ∧
        (t.dev.job (u8 m.body 0)).rcStep = noStep ∧ (t.dev.job (u8 m.body 0)).stStep = fld m.body 2 6 ∧
        (t.dev.job (u8 m.body 0)).stOutcome = 3 ∧ (t.dev.job (u8 m.body 0)).nextStep = (s.dev.job (u8 m.body 0)).nextStep ∧
        (t.dev.job (u8 m.body 0)).chSeq = (s.dev.job (u8 m.body 0)).chSeqAtLaunch ∧ (t.dev.job (u8 m.body 0)).launch = none ∧
        (∀ c, (s.dev.ctx c).state ≠ .free → (s.dev.ctx c).job = u8 m.body 0 → (t.dev.ctx c).state = .resetting)) ∧
    (∀ (m : GmpMsg) (s : State) (x : Session), Served abandonRequest m x (s.devAt m.now) →
      (s.dev.job (u8 m.body 0)).rcStep ≠ noStep → fld m.body 2 6 = (s.dev.job (u8 m.body 0)).rcStep →
      (3 ≤ (s.dev.job (u8 m.body 0)).rcPhase ∨ (s.dev.job (u8 m.body 0)).rootCommitted = true) →
      ∃ t, exec (.gmpAbandon m) s = .next t ∧ Answered t m 0x0033 ({ status := stAbandonLate } : Reply).body ∧
        t.dev.rest = (s.devAt m.now).rest) ∧
    (∀ (m : GmpMsg) (s : State) (x : Session), Served abandonRequest m x (s.devAt m.now) →
      ((s.dev.job (u8 m.body 0)).rcStep = noStep ∨ fld m.body 2 6 ≠ (s.dev.job (u8 m.body 0)).rcStep) →
      ∃ t, exec (.gmpAbandon m) s = .next t ∧ Answered t m 0x0033 ({ status := stLaunchStep } : Reply).body ∧
        t.dev.rest = (s.devAt m.now).rest) ∧
    (∀ (m : GmpMsg) (s : State) (x : Session), Served jobHaltRequest m x (s.devAt m.now) →
      ∃ t, exec (.gmpJobHalt m) s = .next t ∧ (t.dev.job (u8 m.body 0)).state = .halted ∧
        ((s.dev.job (u8 m.body 0)).inUpdate = false →
          Answered t m 0x0034 ({ payload := leBytes 8 (t.dev.job (u8 m.body 0)).recovery } : Reply).body) ∧
        (bit (u8 m.body 1) 0 = true → (t.dev.job (u8 m.body 0)).haltCause = 5) ∧
        ((s.dev.job (u8 m.body 0)).state ≠ .halted → bit (u8 m.body 1) 0 = false → (t.dev.job (u8 m.body 0)).haltCause = 1) ∧
        (∀ j, j ≠ u8 m.body 0 → t.dev.job j = s.dev.job j))) ∧
  (
    (∀ (m : GmpMsg) (s : State) (x : Session), Served ctxResetRequest m x (s.devAt m.now) →
      (s.devAt m.now).holds (u8 m.body 0) (fld m.body 2 2) = true → (s.dev.ctx (fld m.body 2 2)).state ≠ .resetting →
      ∃ t, exec (.gmpCtxReset m) s = .next t ∧ Answered t m 0x0035 ({} : Reply).body ∧ (t.dev.ctx (fld m.body 2 2)).state = .resetting ∧
        (t.dev.ctx (fld m.body 2 2)).frags = [] ∧ (t.dev.ctx (fld m.body 2 2)).heldAborts = [] ∧
        (t.dev.ctx (fld m.body 2 2)).job = (s.dev.ctx (fld m.body 2 2)).job) ∧
    (∀ (m : GmpMsg) (s : State) (x : Session), Served ctxAbortRequest m x (s.devAt m.now) →
      (s.devAt m.now).holds (u8 m.body 0) (fld m.body 2 2) = true → (s.dev.ctx (fld m.body 2 2)).abortable = true →
      (s.dev.ctx (fld m.body 2 2)).bucket ≠ verdictBucket →
      ∃ t, exec (.gmpCtxAbort m) s = .next t ∧ Answered t m 0x0036 ({} : Reply).body ∧
        (t.dev.ctx (fld m.body 2 2)).state = .aborted ∧ (t.dev.ctx (fld m.body 2 2)).status = stMemberReset ∧
        (t.dev.ctx (fld m.body 2 2)).sequence = (s.dev.ctx (fld m.body 2 2)).sequence ∧
        (∀ c, c ≠ fld m.body 2 2 → t.dev.ctx c = s.dev.ctx c) ∧
        (∃ e ∈ t.dev.faults.ring, recSource e.bytes = stMemberReset)) ∧
    (∀ (m : GmpMsg) (s : State) (x : Session), Served ctxAbortRequest m x (s.devAt m.now) →
      (s.devAt m.now).holds (u8 m.body 0) (fld m.body 2 2) = true → (s.dev.ctx (fld m.body 2 2)).abortable = false →
      ∃ t, exec (.gmpCtxAbort m) s = .next t ∧ Answered t m 0x0036 ({} : Reply).body ∧ t.dev.rest = (s.devAt m.now).rest) ∧
    (∀ (m : GmpMsg) (s : State) (x : Session) (code : Nat) (c : Instr),
      ((c = .gmpCtxReset m ∧ code = 0x0035 ∧ Served ctxResetRequest m x (s.devAt m.now)) ∨
        (c = .gmpCtxAbort m ∧ code = 0x0036 ∧ Served ctxAbortRequest m x (s.devAt m.now))) →
      (s.devAt m.now).holds (u8 m.body 0) (fld m.body 2 2) = false →
      ∃ t, exec c s = .next t ∧ Answered t m code ({ status := stGmpMalformed } : Reply).body ∧ t.dev.rest = (s.devAt m.now).rest))

/-- Queue pairs and checkpoints (R159 to R162): GMP_QP_SETUP gives a queue pair the peer it names and answers what the device chose;
GMP_CKPT of the last ended step opens a pull checkpoint over the whole record stream; the completion and the abort close it, the latter with
its queue pair in the error state. A READ within an open pull checkpoint's window waits to be answered with the bytes of the stream that it
asks for, in pieces of the path MTU; one on a queue pair whose port is down is not received (R159 to R162, R318). Queue pair and window
numbers are free values (log entry 5). -/
def Obligations.CheckpointsOpenServeAndClose : Prop :=
  (
    (∀ (m : GmpMsg) (s : State) (x : Session), Served qpSetupRequest m x (s.devAt m.now) → u8 m.body 0 < 64 →
      (s.devAt m.now).ethernet (u8 m.body 1) = true → (s.devAt m.now).qpUser (u8 m.body 0) = none →
      ∃ t q, exec (.gmpQpSetup m) s = .next t ∧ tget Qp.none t.dev.keeper.qps (u8 m.body 0) = q ∧ q.port = u8 m.body 1 ∧
        q.mtu = mtuOf (u8 m.body 2) ∧ q.remoteQpn = fld m.body 4 4 ∧ q.psn = fld m.body 8 4 ∧ q.rkey = fld m.body 12 4 ∧
        q.remoteVa = fld m.body 16 8 ∧ q.remoteMac = fld m.body 24 6 ∧ q.remoteIp = fld m.body 32 16 ∧ q.error = false ∧
        Answered t m 0x0040 ({ payload := leBytes 4 q.localQpn ++ leBytes 4 q.localRkey ++ leBytes 8 q.windowVa } : Reply).body ∧
        (∀ n, n ≠ u8 m.body 0 → tget Qp.none t.dev.keeper.qps n = tget Qp.none s.dev.keeper.qps n)) ∧
    (∀ (m : GmpMsg) (s : State) (x : Session), Served ckptRequest m x (s.devAt m.now) → u8 m.body 1 = 1 →
      (s.devAt m.now).ckptStatus (u8 m.body 0) (u8 m.body 2) (fld m.body 4 6) = stOk →
      ∃ t c, exec (.gmpCkpt m) s = .next t ∧ Answered t m 0x0041 ({} : Reply).body ∧
        (∀ e, tget e t.dev.keeper.ckpts (u8 m.body 0) = c) ∧ c.job = u8 m.body 0 ∧ c.pull = true ∧ c.qp = u8 m.body 2 ∧
        c.step = fld m.body 4 6 ∧ c.length = fld m.body 12 8 ∧
        (Mach.streamRecords { s.machOf with dev := s.devAt m.now } (u8 m.body 0) (fld m.body 4 6)).flatten <+: c.stream ∧
        t.dev.jobs = s.dev.jobs ∧ t.dev.ports = s.dev.ports) ∧
    (∀ (j now : Nat) (s : State) (k : Nat) (c : Ckpt), s.dev.keeper.ckpts.find? (fun e => e.1 == j) = some (k, c) →
      s.dev.waits.any (fun w => w.2.rdma.map RdmaOut.qp == some c.qp) = false →
      ∃ t, exec (.ckptComplete j now) s = .next t ∧ thas t.dev.keeper.ckpts j = false ∧ t.dev.keeper.qps = s.dev.keeper.qps ∧
        (∀ i, i ≠ j → ∀ e, tget e t.dev.keeper.ckpts i = tget e s.dev.keeper.ckpts i) ∧
        t.dev.rest = { (s.devAt now).rest with keeper := t.dev.rest.keeper }) ∧
    (∀ (j now : Nat) (s : State) (k : Nat) (c : Ckpt), s.dev.keeper.ckpts.find? (fun e => e.1 == j) = some (k, c) →
      ∃ t, exec (.ckptAborted j now) s = .next t ∧ thas t.dev.keeper.ckpts j = false ∧
        (∀ q ∈ t.dev.keeper.qps, q.1 = c.qp → q.2.error = true) ∧
        t.dev.waits.any (fun w => w.2.rdma.map RdmaOut.qp == some c.qp) = false ∧ t.dev.jobs = s.dev.jobs)) ∧
  (
    (∀ (n psn va length now : Nat) (s : State) (q : Qp) (j : Nat) (c : Ckpt) (b : Bytes), (s.devAt now).qp n = some q → (s.devAt now).up q.port = true →
      q.error = false → (s.devAt now).qpUser n = some (j, c) → c.window q va length = some b →
      ∃ t ws, exec (.rdmaReadRx n psn va length now) s = .next t ∧
        (t.dev.port q.port).waiting = (s.dev.port q.port).waiting ++ ws ∧
        ws.map Waiting.rdma = (rdmaPackets n q.mtu psn va false b).map some ∧ (∀ w ∈ ws, w.outPort = q.port ∧ w.queue = j ∧ w.complete = true) ∧
        (∀ p, p ≠ q.port → t.dev.port p = s.dev.port p) ∧ t.dev.jobs = s.dev.jobs) ∧
    (∀ (n psn va length now : Nat) (s : State) (q : Qp), (s.devAt now).qp n = some q → (s.devAt now).up q.port = false →
      ∃ t, exec (.rdmaReadRx n psn va length now) s = .next t ∧ t.dev.rest = (s.devAt now).rest))

/-- Restore data is kept by its offset in the stream, and the end of a restore that passes its checks leaves the job LOADED at the step
after the restored one (HALTED where no step number is left, R17); a failed one leaves it waiting for another restore (R163, R164).
Reference records of a replay replace earlier ones of the same key, where they fit the job's store (R351). -/
def Obligations.RestoreAndReferencesAreTaken : Prop :=
  (∀ (m : GmpMsg) (s : State) (x : Session), Served restoreDataRequest m x (s.devAt m.now) → (s.devAt m.now).takesRestore (u8 m.body 0) = true →
    ∃ t, exec (.gmpRestoreData m) s = .next t ∧ Answered t m 0x0042 ({} : Reply).body ∧
      (∀ i, i < m.body.length - 16 → tget 0#8 (t.dev.job (u8 m.body 0)).restored (fld m.body 8 8 + i) = m.body.getD (16 + i) 0#8) ∧
      (∀ a, a < fld m.body 8 8 ∨ fld m.body 8 8 + (m.body.length - 16) ≤ a →
        tget 0#8 (t.dev.job (u8 m.body 0)).restored a = tget 0#8 (s.dev.job (u8 m.body 0)).restored a) ∧
      t.dev.job (u8 m.body 0) = { s.dev.job (u8 m.body 0) with restored := (t.dev.job (u8 m.body 0)).restored } ∧
      (∀ j, j ≠ u8 m.body 0 → t.dev.job j = s.dev.job j)) ∧
  (∀ (m : GmpMsg) (s : State) (x : Session), Served restoreEndRequest m x (s.devAt m.now) → (s.devAt m.now).takesRestore (u8 m.body 0) = true →
    (s.dev.job (u8 m.body 0)).restoreFault (s.dev.job (u8 m.body 0)).restoredRecords.1 (s.dev.job (u8 m.body 0)).restoredRecords.2
      (fld m.body 2 6) = none →
    ∃ t, exec (.gmpRestoreEnd m) s = .next t ∧
      (t.dev.job (u8 m.body 0)).state = (if fld m.body 2 6 + 1 = noStep then JobState.halted else .loaded) ∧
      (t.dev.job (u8 m.body 0)).nextStep = fld m.body 2 6 + 1 ∧ (t.dev.job (u8 m.body 0)).rcStep = noStep ∧
      (t.dev.job (u8 m.body 0)).restoreBad = false ∧ (t.dev.job (u8 m.body 0)).restored = [] ∧ (t.dev.job (u8 m.body 0)).alarms = []) ∧
  (∀ (m : GmpMsg) (s : State) (x : Session) (r : Reply), Served restoreEndRequest m x (s.devAt m.now) →
    (s.devAt m.now).takesRestore (u8 m.body 0) = true →
    (s.dev.job (u8 m.body 0)).restoreFault (s.dev.job (u8 m.body 0)).restoredRecords.1 (s.dev.job (u8 m.body 0)).restoredRecords.2
      (fld m.body 2 6) = some r →
    ∃ t, exec (.gmpRestoreEnd m) s = .next t ∧ Answered t m 0x0043 r.body ∧ (t.dev.job (u8 m.body 0)).restoreBad = true ∧
      (t.dev.job (u8 m.body 0)).restored = []) ∧
  (∀ (m : GmpMsg) (s : State) (x : Session) (rs : List Bytes), Served replayRefRequest m x (s.devAt m.now) →
    parseLog m.body.length (m.body.drop 8) = some rs →
    ((addRefs (s.dev.job (u8 m.body 0)).refs (rs.filter (s.dev.job (u8 m.body 0)).wantsRef)).map List.length).sum ≤
      (s.dev.job (u8 m.body 0)).replayMib * 2 ^ 20 →
    ∃ t, exec (.gmpReplayRef m) s = .next t ∧ Answered t m 0x0044 ({} : Reply).body ∧
      t.dev.rest = ((s.devAt m.now).modJob (u8 m.body 0) (fun y => { y with refs := addRefs y.refs (rs.filter y.wantsRef) })).rest)

/-- FRAGMENT_RX (R11, R97 to R99, R106, R108). A fragment that passes every check is held with its port, its route header and its bytes, in
staging or, where staging refuses it, in the spill region: it joins its context's fragments, the context's state, sequence and generation
and every other context stay. One without a job or a context, for an aborted context, of another generation, of a past use, or received
before is counted and dropped, and nothing else changes. One that is more than three uses ahead, fails a check of R108 or finds the spill
region full aborts its context with that status (clauses for contexts of gradient buckets; what the abort of a Verdict use abandons is a
statement of its own). -/
def Obligations.FragmentsAreHeldDroppedOrAbort : Prop :=
  (∀ (port now c : Nat) (r h p : Bytes) (s : State), (s.dev.job (chJob h)).state ≠ .empty → (s.devAt now).ctxFor h = some c →
    (chKind h = 1 ∨ chKind h = 2) → (chOp h = 1 ∨ chOp h = 2) → (s.dev.ctx c).abortable = true → chGen h = (s.dev.ctx c).generation →
    (chSeq h = (s.dev.ctx c).sequence ∨ (serialAfter 32 (chSeq h) (s.dev.ctx c).sequence = true ∧ serialDist 32 (chSeq h) (s.dev.ctx c).sequence ≤ 3)) →
    (s.dev.job (chJob h)).fragStatus ((s.devAt now).bucketOf c) (s.dev.ctx c).frags port h p = none → (s.dev.ctx c).holds h = false →
    (((s.devAt now).poolTake (.context (chJob h) (bkQuota ((s.devAt now).bucketOf c) * 1024)) (ctxHolder c) (fragItem h) (48 + p.length)).1 = .taken ∨
      s.dev.spilledBytes (chJob h) + (48 + p.length) ≤ (s.dev.job (chJob h)).spillRegion) →
    ∃ t f, exec (.fragmentRx port h p now r) s = .next t ∧ (t.dev.ctx c).frags = (s.dev.ctx c).frags ++ [f] ∧ f.port = port ∧ f.route = r ∧
      f.header = h ∧ f.payload = p ∧ f.tick = (s.devAt now).tick ∧ f.taken = false ∧
      (f.spilled = true ↔ ((s.devAt now).poolTake (.context (chJob h) (bkQuota ((s.devAt now).bucketOf c) * 1024)) (ctxHolder c)
        (fragItem h) (48 + p.length)).1 ≠ .taken) ∧ (t.dev.ctx c).state = (s.dev.ctx c).state ∧
      (t.dev.ctx c).sequence = (s.dev.ctx c).sequence ∧ (t.dev.ctx c).generation = (s.dev.ctx c).generation ∧
      (∀ i, i ≠ c → t.dev.ctx i = s.dev.ctx i) ∧ t.dev.jobs = s.dev.jobs ∧ t.dev.ports = s.dev.ports ∧ t.dev.faults = s.dev.faults) ∧
  (∀ (port now n : Nat) (r h p : Bytes) (s : State),
    ((s.dev.job (chJob h)).state = .empty ∧ n = 1 ∨
      (s.dev.job (chJob h)).state ≠ .empty ∧ chKind h ≠ 7 ∧ n = 2 ∧
        (¬ ((chKind h = 1 ∨ chKind h = 2) ∧ (chOp h = 1 ∨ chOp h = 2)) ∨ (s.devAt now).ctxFor h = none)) →
    ∃ t, exec (.fragmentRx port h p now r) s = .next t ∧ t.dev.rest = (s.devAt now).rest ∧
      t.dev.ctrs = ((s.devAt now).countJob (chJob h) n 1).ctrs) ∧
  (∀ (port now c n : Nat) (r h p : Bytes) (s : State), (s.dev.job (chJob h)).state ≠ .empty → (s.devAt now).ctxFor h = some c →
    (chKind h = 1 ∨ chKind h = 2) → (chOp h = 1 ∨ chOp h = 2) →
    (((s.dev.ctx c).state = .aborted ∨ (s.dev.ctx c).state = .resetting) ∧ n = 7 ∨
      (s.dev.ctx c).abortable = true ∧ (genDrop (chGen h) (s.dev.ctx c).generation = some n ∨
      (chGen h = (s.dev.ctx c).generation ∧ n = 3 ∧ chSeq h ≠ (s.dev.ctx c).sequence ∧
        serialAfter 32 (chSeq h) (s.dev.ctx c).sequence = false) ∨
      (chGen h = (s.dev.ctx c).generation ∧ n = 6 ∧ (chSeq h = (s.dev.ctx c).sequence ∨ serialAfter 32 (chSeq h) (s.dev.ctx c).sequence = true ∧
        serialDist 32 (chSeq h) (s.dev.ctx c).sequence ≤ 3) ∧ (s.dev.ctx c).holds h = true ∧ (s.dev.job (chJob h)).fragStatus ((s.devAt now).bucketOf c) (s.dev.ctx c).frags port h p = none))) →
    ∃ t, exec (.fragmentRx port h p now r) s = .next t ∧ t.dev.rest = (s.devAt now).rest ∧
      t.dev.ctrs = (((s.devAt now).countJob (chJob h) 9 (b2n (chReplay h))).countJob (chJob h) n 1).ctrs) ∧
  (∀ (port now c st : Nat) (r h p : Bytes) (s : State), (s.dev.job (chJob h)).state ≠ .empty → (s.devAt now).ctxFor h = some c →
    (chKind h = 1 ∨ chKind h = 2) → (chOp h = 1 ∨ chOp h = 2) → (s.dev.ctx c).abortable = true → chGen h = (s.dev.ctx c).generation →
    (s.dev.ctx c).bucket ≠ verdictBucket →
    (serialAfter 32 (chSeq h) (s.dev.ctx c).sequence = true ∧ 3 < serialDist 32 (chSeq h) (s.dev.ctx c).sequence ∧
        chSeq h ≠ (s.dev.ctx c).sequence ∧ st = stSeqWindow ∨
      (chSeq h = (s.dev.ctx c).sequence ∨ serialAfter 32 (chSeq h) (s.dev.ctx c).sequence = true ∧
          serialDist 32 (chSeq h) (s.dev.ctx c).sequence ≤ 3) ∧
        ((s.dev.job (chJob h)).fragStatus ((s.devAt now).bucketOf c) (s.dev.ctx c).frags port h p = some st ∨
          (s.dev.job (chJob h)).fragStatus ((s.devAt now).bucketOf c) (s.dev.ctx c).frags port h p = none ∧ (s.dev.ctx c).holds h = false ∧
            ((s.devAt now).poolTake (.context (chJob h) (bkQuota ((s.devAt now).bucketOf c) * 1024)) (ctxHolder c) (fragItem h) (48 + p.length)).1 ≠ .taken ∧
            (s.dev.job (chJob h)).spillRegion < s.dev.spilledBytes (chJob h) + (48 + p.length) ∧ st = stSpillFull)) →
    ∃ t, exec (.fragmentRx port h p now r) s = .next t ∧ Aborted s t c st)

/-- ABORT_NOTICE_RX (R108 to R110): a well-formed notice for the current use of a gradient bucket aborts the context with the notice's
status; an ill-formed one with ST_CTX_MALFORMED; one for a use that is at most three ahead is kept for it, once for each use, and the
context goes on; one for a use past is counted, and the context goes on; one for a context that is ABORTED or in reset, or of another
generation, or without a job or a context, is counted and dropped. -/
def Obligations.NoticesAbortNowOrLater : Prop :=
  (∀ (port now c st : Nat) (h p : Bytes) (s : State), chKind h = 7 → (s.dev.job (chJob h)).state ≠ .empty → (chOp h = 1 ∨ chOp h = 2) →
    (s.devAt now).ctxFor h = some c → (s.dev.ctx c).abortable = true → chGen h = (s.dev.ctx c).generation →
    (s.dev.ctx c).bucket ≠ verdictBucket →
    (noticeStatus h p = some st ∧ chSeq h = (s.dev.ctx c).sequence ∨ noticeStatus h p = none ∧ st = stCtxMalformed) →
    ∃ t, exec (.abortNoticeRx port h p now) s = .next t ∧ Aborted s t c st) ∧
  (∀ (port now c st : Nat) (h p : Bytes) (s : State), chKind h = 7 → (s.dev.job (chJob h)).state ≠ .empty → (chOp h = 1 ∨ chOp h = 2) →
    (s.devAt now).ctxFor h = some c → (s.dev.ctx c).abortable = true → chGen h = (s.dev.ctx c).generation →
    noticeStatus h p = some st → serialAfter 32 (chSeq h) (s.dev.ctx c).sequence = true →
    serialDist 32 (chSeq h) (s.dev.ctx c).sequence ≤ 3 → chSeq h ≠ (s.dev.ctx c).sequence →
    ∃ t, exec (.abortNoticeRx port h p now) s = .next t ∧
      (t.dev.ctx c).heldAborts = (if (s.dev.ctx c).heldAborts.any (fun a => a.seq == chSeq h) = true then (s.dev.ctx c).heldAborts
        else (s.dev.ctx c).heldAborts ++ [{ seq := chSeq h, gen := chGen h, status := st, node := chNode h, port := port }]) ∧
      (t.dev.ctx c).state = (s.dev.ctx c).state ∧ (t.dev.ctx c).frags = (s.dev.ctx c).frags ∧
      (t.dev.ctx c).forwarded.contains (chSeq h, chGen h) = true ∧
      (∀ i, i ≠ c → t.dev.ctx i = s.dev.ctx i) ∧ t.dev.jobs = s.dev.jobs ∧ t.dev.faults = s.dev.faults) ∧
  (∀ (port now c st : Nat) (h p : Bytes) (s : State), chKind h = 7 → (s.dev.job (chJob h)).state ≠ .empty → (chOp h = 1 ∨ chOp h = 2) →
    (s.devAt now).ctxFor h = some c → (s.dev.ctx c).abortable = true → chGen h = (s.dev.ctx c).generation →
    noticeStatus h p = some st → serialAfter 32 (chSeq h) (s.dev.ctx c).sequence = false → chSeq h ≠ (s.dev.ctx c).sequence →
    ∃ t, exec (.abortNoticeRx port h p now) s = .next t ∧ (t.dev.ctx c).state = (s.dev.ctx c).state ∧
      (t.dev.ctx c).frags = (s.dev.ctx c).frags ∧ (t.dev.ctx c).heldAborts = (s.dev.ctx c).heldAborts ∧
      (∀ i, i ≠ c → t.dev.ctx i = s.dev.ctx i) ∧ t.dev.jobs = s.dev.jobs ∧ t.dev.faults = s.dev.faults) ∧
  (∀ (port now c n : Nat) (h p : Bytes) (s : State), chKind h = 7 → (s.dev.job (chJob h)).state ≠ .empty → (chOp h = 1 ∨ chOp h = 2) →
    (s.devAt now).ctxFor h = some c →
    (((s.dev.ctx c).state = .aborted ∨ (s.dev.ctx c).state = .resetting) ∧ n = 7 ∨
      (s.dev.ctx c).abortable = true ∧ genDrop (chGen h) (s.dev.ctx c).generation = some n) →
    ∃ t, exec (.abortNoticeRx port h p now) s = .next t ∧ t.dev.rest = (s.devAt now).rest ∧
      t.dev.ctrs = ((s.devAt now).countJob (chJob h) n 1).ctrs) ∧
  (∀ (port now n : Nat) (h p : Bytes) (s : State), chKind h = 7 →
    ((s.dev.job (chJob h)).state = .empty ∧ n = 1 ∨
      (s.dev.job (chJob h)).state ≠ .empty ∧ n = 2 ∧ (¬ (chOp h = 1 ∨ chOp h = 2) ∨ (s.devAt now).ctxFor h = none)) →
    ∃ t, exec (.abortNoticeRx port h p now) s = .next t ∧ t.dev.rest = (s.devAt now).rest ∧
      t.dev.ctrs = ((s.devAt now).countJob (chJob h) n 1).ctrs)

/-- The opening of a use (R92, R114): one that may open, on a Basin in service, becomes OPEN, and its hang time runs from then; the
Verdict's at a device of the result list brings phase CONTRIBUTED (R377). Where the Basin is out of service a gradient bucket's use aborts
with ST_BASIN_FAULT; a use that may not open stays as it was. The hang time-out (R112, R379): a gradient bucket's use that is OPEN or
DRAINING longer than the job's hang time, while the job is not HALTED, aborts with ST_HANG_TIMEOUT; in another state, within that time, or
while the job is HALTED, nothing happens. A context reset that is complete leaves the context ARMED with the same sequence and the next
generation, and the slots of its job free to serve it again (R92, R98; log entry 59); a context that is in no reset stays as it is. -/
def Obligations.UsesOpenHangAndRearm : Prop :=
  (
    (∀ (c now : Nat) (s : State), (s.devAt now).mayOpen c = true → (s.devAt now).unitDown (s.dev.ctx c).basin = false →
      ∃ t, exec (.ctxOpen c now) s = .next t ∧ (t.dev.ctx c).state = .opened ∧ (t.dev.ctx c).openTick = (s.devAt now).time ∧
        (t.dev.ctx c).sequence = (s.dev.ctx c).sequence ∧ (t.dev.ctx c).frags = (s.dev.ctx c).frags ∧
        (∀ i, i ≠ c → t.dev.ctx i = s.dev.ctx i) ∧ t.dev.ports = s.dev.ports ∧ t.dev.faults = s.dev.faults ∧
        (∀ j, t.dev.job j = if j = (s.dev.ctx c).job ∧ (s.dev.ctx c).bucket = verdictBucket ∧ (s.dev.job j).onList = true
          then { s.dev.job j with rcPhase := max (s.dev.job j).rcPhase 2 } else s.dev.job j)) ∧
    (∀ (c now : Nat) (s : State), (s.devAt now).mayOpen c = true → (s.devAt now).unitDown (s.dev.ctx c).basin = true →
      (s.dev.ctx c).bucket ≠ verdictBucket → ∃ t, exec (.ctxOpen c now) s = .next t ∧ Aborted s t c stBasinFault) ∧
    (∀ (c now : Nat) (s : State), (s.devAt now).mayOpen c = false →
      ∃ t, exec (.ctxOpen c now) s = .next t ∧ t.dev.rest = (s.devAt now).rest)) ∧
  (
    (∀ (c now : Nat) (s : State), ((s.dev.ctx c).state = .opened ∨ (s.dev.ctx c).state = .draining) →
      (s.dev.job (s.dev.ctx c).job).state ≠ .halted → (s.dev.ctx c).openTick + (s.dev.job (s.dev.ctx c).job).hangTicks < (s.devAt now).time →
      (s.dev.ctx c).bucket ≠ verdictBucket → ∃ t, exec (.hangTimeout c now) s = .next t ∧ Aborted s t c stHangTimeout) ∧
    (∀ (c now : Nat) (s : State), ((s.dev.job (s.dev.ctx c).job).state = .halted ∨
      ((s.dev.ctx c).state ≠ .opened ∧ (s.dev.ctx c).state ≠ .draining) ∨
      (s.devAt now).time ≤ (s.dev.ctx c).openTick + (s.dev.job (s.dev.ctx c).job).hangTicks) →
      ∃ t, exec (.hangTimeout c now) s = .next t ∧ t.dev.rest = (s.devAt now).rest) ∧
    (∀ (c now : Nat) (s : State), (s.dev.ctx c).state = .resetting →
      ∃ t, exec (.ctxResetComplete c now) s = .next t ∧ (t.dev.ctx c).state = .armed ∧ (t.dev.ctx c).status = 0 ∧
        (t.dev.ctx c).generation = ((s.dev.ctx c).generation + 1) % 2 ^ 16 ∧ (t.dev.ctx c).sequence = (s.dev.ctx c).sequence ∧
        (∀ i, i ≠ c → t.dev.ctx i = s.dev.ctx i) ∧ t.dev.ports = s.dev.ports ∧
        (∀ j, t.dev.job j = if j = (s.dev.ctx c).job then { s.dev.job j with moved := [] } else s.dev.job j)) ∧
    (∀ (c now : Nat) (s : State), (s.dev.ctx c).state ≠ .resetting →
      ∃ t, exec (.ctxResetComplete c now) s = .next t ∧ t.dev.rest = (s.devAt now).rest))

/-- A use drains when its last hosted node has been computed, and passes its commit point when its outputs have been accepted by the next
hop, or, at the root's device, when the root's values and their inflow are there and the job's sequencer acts (R92, R93, R95, R123, R379).
It is then ARMED for the bucket's next use, whose number lies one turn of the channel further, and the channel's counter stands behind the
committed use; the Verdict's at its root site is recorded as committed (R147). Otherwise both commands change nothing. -/
def Obligations.UsesDrainAndCommit : Prop :=
  (∀ (c now : Nat) (s : State), (s.dev.ctx c).state = .opened → (s.devAt now).computed c = true →
    ∃ t, exec (.ctxDrain c now) s = .next t ∧ t.dev.rest = ((s.devAt now).modCtx c (fun x => { x with state := .draining })).rest) ∧
  (∀ (c now : Nat) (s : State), ((s.dev.ctx c).state ≠ .opened ∨ (s.devAt now).computed c = false) →
    ∃ t, exec (.ctxDrain c now) s = .next t ∧ t.dev.rest = (s.devAt now).rest) ∧
  (∀ (c now : Nat) (s : State), (s.dev.ctx c).state = .draining →
    ((s.dev.job (s.dev.ctx c).job).rootHere ((s.devAt now).bucketOf c) = false ∧ (s.devAt now).outputsSent c = true ∨
      (s.dev.job (s.dev.ctx c).job).rootHere ((s.devAt now).bucketOf c) = true ∧ (s.dev.job (s.dev.ctx c).job).stopped = false ∧
        ∃ v, (s.devAt now).rootVals c = some v ∧ ((s.dev.ctx c).bucket = verdictBucket ∨
          ((s.dev.job (s.dev.ctx c).job).inflowAll ((s.devAt now).bucketOf c) (s.dev.ctx c).channel (s.dev.ctx c).sequence v).isSome = true)) →
    (s.dev.ctx c).heldAborts = [] →
    ∃ t, exec (.ctxCommit c now) s = .next t ∧ (t.dev.ctx c).state = .armed ∧
      (t.dev.ctx c).sequence = ((s.dev.ctx c).sequence + (s.dev.job (s.dev.ctx c).job).stride (s.dev.ctx c).channel) % 2 ^ 32 ∧
      (t.dev.ctx c).generation = (s.dev.ctx c).generation ∧ (t.dev.ctx c).nodes = [] ∧
      tget 0 (t.dev.job (s.dev.ctx c).job).chSeq (s.dev.ctx c).channel = ((s.dev.ctx c).sequence + 1) % 2 ^ 32 ∧
      (t.dev.job (s.dev.ctx c).job).state = (s.dev.job (s.dev.ctx c).job).state ∧
      ((s.dev.ctx c).bucket = verdictBucket → (s.dev.job (s.dev.ctx c).job).rootHere ((s.devAt now).bucketOf c) = true →
        (t.dev.job (s.dev.ctx c).job).rootCommitted = true ∧ 3 ≤ (t.dev.job (s.dev.ctx c).job).rcPhase) ∧
      (∀ i, i ≠ c → { t.dev.ctx i with frags := [] } = { s.dev.ctx i with frags := [] }) ∧
      (∀ j, j ≠ (s.dev.ctx c).job → t.dev.job j = s.dev.job j) ∧ t.dev.ports = s.dev.ports ∧ t.flash = s.flash) ∧
  (∀ (c now : Nat) (s : State), ((s.dev.ctx c).state ≠ .draining ∨
      (s.dev.job (s.dev.ctx c).job).rootHere ((s.devAt now).bucketOf c) = false ∧ (s.devAt now).outputsSent c = false ∨
      (s.dev.job (s.dev.ctx c).job).rootHere ((s.devAt now).bucketOf c) = true ∧ ((s.dev.job (s.dev.ctx c).job).stopped = true ∨
        (s.devAt now).rootVals c = none ∨ (s.dev.ctx c).bucket ≠ verdictBucket ∧ ∃ v, (s.devAt now).rootVals c = some v ∧
          (s.dev.job (s.dev.ctx c).job).inflowAll ((s.devAt now).bucketOf c) (s.dev.ctx c).channel (s.dev.ctx c).sequence v = none)) →
    ∃ t, exec (.ctxCommit c now) s = .next t ∧ t.dev.rest = (s.devAt now).rest ∧ t.flash = s.flash ∧
      (s.dev.power.cold = false → t.depths = s.depths))

/-- OUTFLOW_RX and VERDICT_RESULT_RX (R147, R150 to R154, R280): a fragment without a job, a malformed one, or one whose channel has no
fan-out of its kind, is counted and dropped; one that passes is held for the ports of its fan-out but the one it came on, with the route
header it came with, and touches no context. A result fragment that a device of the list takes puts its words into the job's vector, and the
last missing one completes the Verdict in phase VERDICT; one that it does not take leaves the vector as it is, and is counted as stale or
duplicate where R150 says so. A fragment of the other command's kind changes nothing. That a range past the vector is malformed is log entry
36's choice. VERDICT_MISSING (R149): a device of the result list, still without the whole vector when the hang time after its Verdict use's
opening has passed, records the fault once, and only that changes; before that time, in another phase, while the job is HALTED, and where
the vector is whole or the fault has been raised, nothing changes. -/
def Obligations.ResultsAndWeightsAreTakenOrMissed : Prop :=
  (
    (∀ (port now n : Nat) (r h p : Bytes) (c : Instr) (s : State), ((s.dev.job (ohJob h)).state = .empty ∧ n = 1 ∨
        (s.dev.job (ohJob h)).state ≠ .empty ∧ n = 0x00A ∧ (ohKind h ≠ 0x12 ∧ c = .outflowRx port h p now r ∧
            (outFormOk 0x11 h p && (s.dev.job (ohJob h)).hasFan (ohChannel h) 0) = false ∨
          ohKind h = 0x12 ∧ c = .verdictResultRx port h p now r ∧
            (outFormOk 0x12 h p && (s.dev.job (ohJob h)).hasFan (ohChannel h) 1 && (s.dev.job (ohJob h)).resultFits h) = false)) →
      (c = .outflowRx port h p now r ∨ c = .verdictResultRx port h p now r) →
      ∃ t, exec c s = .next t ∧ t.dev.rest = (s.devAt now).rest ∧ t.dev.ctrs = ((s.devAt now).countJob (ohJob h) n 1).ctrs) ∧
    (∀ (port now fan : Nat) (r h p : Bytes) (c : Instr) (s : State), (s.dev.job (ohJob h)).state ≠ .empty →
      (fan = 0 ∧ c = .outflowRx port h p now r ∧ outFormOk 0x11 h p = true ∨
        fan = 1 ∧ c = .verdictResultRx port h p now r ∧ outFormOk 0x12 h p = true ∧ (s.dev.job (ohJob h)).resultFits h = true) →
      (s.dev.job (ohJob h)).hasFan (ohChannel h) fan = true →
      ∃ t, exec c s = .next t ∧ t.dev.ctxs = s.dev.ctxs ∧ t.dev.ports = s.dev.ports ∧ t.dev.faults = s.dev.faults ∧
        (s.dev.power.cold = false → t.depths = s.depths) ∧ (∀ j, j ≠ ohJob h → t.dev.job j = s.dev.job j) ∧
        (∀ ps, ps = ((s.dev.job (ohJob h)).fanPorts (ohChannel h) fan).filter (· != port) →
          (t.dev.job (ohJob h)).outHeld.map (fun f => (f.header, f.payload, f.route, f.ports)) =
            (s.dev.job (ohJob h)).outHeld.map (fun f => (f.header, f.payload, f.route, f.ports)) ++ if ps = [] then [] else [(h, p, r, ps)])) ∧
    (∀ (port now : Nat) (r h p : Bytes) (s : State), (s.dev.job (ohJob h)).state ≠ .empty → outFormOk 0x12 h p = true →
      (s.dev.job (ohJob h)).resultFits h = true → (s.dev.job (ohJob h)).hasFan (ohChannel h) 1 = true → (s.dev.job (ohJob h)).onList = true →
      (s.dev.job (ohJob h)).resultFate h = .take → (s.dev.job (ohJob h)).vres = none →
      ∃ t, exec (.verdictResultRx port h p now r) s = .next t ∧
        (t.dev.job (ohJob h)).vecWords =
          ((s.dev.job (ohJob h)).takeWords (ohOff h) (decodeWire (s.dev.job (ohJob h)).ovf 0 (ohCount h) p)).vecWords ∧
        ((t.dev.job (ohJob h)).vecWhole = true → (t.dev.job (ohJob h)).vres.isSome ∧ 3 ≤ (t.dev.job (ohJob h)).rcPhase) ∧
        ((t.dev.job (ohJob h)).vecWhole = false → (t.dev.job (ohJob h)).vres = none ∧ (t.dev.job (ohJob h)).rcPhase = (s.dev.job (ohJob h)).rcPhase)) ∧
    (∀ (port now n : Nat) (r h p : Bytes) (s : State), (s.dev.job (ohJob h)).state ≠ .empty → outFormOk 0x12 h p = true →
      (s.dev.job (ohJob h)).resultFits h = true → (s.dev.job (ohJob h)).hasFan (ohChannel h) 1 = true →
      ((s.dev.job (ohJob h)).onList = false ∧ n = 0 ∨ (s.dev.job (ohJob h)).onList = true ∧ ((s.dev.job (ohJob h)).resultFate h = .stale ∧ n = 4 ∨
        (s.dev.job (ohJob h)).resultFate h = .dup ∧ n = 6 ∨ (s.dev.job (ohJob h)).resultFate h = .drop ∧ n = 0)) →
      ∃ t, exec (.verdictResultRx port h p now r) s = .next t ∧ (t.dev.job (ohJob h)).vecWords = (s.dev.job (ohJob h)).vecWords ∧
        (t.dev.job (ohJob h)).vres = (s.dev.job (ohJob h)).vres ∧ (t.dev.job (ohJob h)).rcPhase = (s.dev.job (ohJob h)).rcPhase ∧
        (n ≠ 0 → t.dev.ctr (ctrIdx 1 (ohJob h % 256) n) = ((s.devAt now).countJob (ohJob h) n 1).ctr (ctrIdx 1 (ohJob h % 256) n))) ∧
    (∀ (port now : Nat) (r h p : Bytes) (c : Instr) (s : State), (s.dev.job (ohJob h)).state ≠ .empty →
      (ohKind h = 0x12 ∧ c = .outflowRx port h p now r ∨ ohKind h ≠ 0x12 ∧ c = .verdictResultRx port h p now r) →
      ∃ t, exec c s = .next t ∧ t.dev.rest = (s.devAt now).rest)) ∧
  (
    (∀ (j now : Nat) (b : Bytes) (s : State), (s.dev.job j).bucket verdictBucket = some b → (s.dev.job j).onList = true →
      (s.dev.job j).vres = none → (s.dev.job j).state ≠ .halted → (s.dev.job j).rcPhase = 2 → (s.dev.job j).verdictRaised = false →
      (s.dev.ctx (bkCtx b)).openTick + (s.dev.job j).hangTicks < (s.devAt now).time →
      ∃ t, exec (.verdictMissing j now) s = .next t ∧ t.dev.rest = ((s.devAt now).modJob j (fun y => { y with verdictRaised := true })).rest ∧
        ∃ e ∈ t.dev.faults.ring, recSource e.bytes = 0x0E03) ∧
    (∀ (j now : Nat) (s : State), ((s.dev.job j).verdictRaised = true ∨ (s.dev.job j).onList = false ∨ (s.dev.job j).vres.isSome = true ∨
        (s.dev.job j).state = .halted ∨ (s.dev.job j).rcPhase ≠ 2 ∨ (s.dev.job j).bucket verdictBucket = none ∨
        ∃ b, (s.dev.job j).bucket verdictBucket = some b ∧ (s.devAt now).time ≤ (s.dev.ctx (bkCtx b)).openTick + (s.dev.job j).hangTicks) →
      ∃ t, exec (.verdictMissing j now) s = .next t ∧ t.dev.rest = (s.devAt now).rest ∧ t.dev.faults = s.dev.faults))

/-- An input of the scheduled plane, an RX slot's or a Depths read's, is taken at its release cycle, or at its arrival where that is later,
and not before (R215). By its release cycle, the slack between is taken to the step's least (R216, R220); later, the difference is added to
its die's lag, and a running step is marked timing-inexact for cause 0 (R216, R219). An RX slot's round is counted, with the wait for a
claimed window as lag; a read's return is counted. Nothing else of the jobs, contexts, ports or fault records changes. When an RX slot's
bytes were there follows from the fragments received for its bucket's use (`rxArrival`); another entry's arrival is told by the command. -/
def Obligations.InputsMeasureSlackOrAddLag : Prop :=
  (∀ (j i told arrival now release : Nat) (e : Bytes) (s : State), SlotDue (s.devAt now) j i 1 e →
    (s.devAt now).rxArrival j i (tget 0 (s.dev.job j).acted i) told = some arrival →
    release = (s.devAt now).slotTick j i + slLength e + slSlack e → max arrival release ≤ (s.devAt now).tick →
    ∃ t, exec (.rxSlotRelease j i told now) s = .next t ∧ t.dev.ctxs = s.dev.ctxs ∧ t.dev.ports = s.dev.ports ∧ t.dev.faults = s.dev.faults ∧
      ∀ k, t.dev.job k = (((s.devAt now).begun j i).modJob j (fun y =>
        if release < arrival then
          { y.addLag (resDie (slResource e)) (arrival - release) with
            causes := if y.running = true ∧ bit y.causes 0 = false then y.causes + 1 else y.causes }
        else { y with slackMin := min y.slackMin (min (release - max arrival (release - slSlack e)) 0xFFFFFE) })).job k) ∧
  (∀ (j i told now : Nat) (e : Bytes) (s : State), SlotDue (s.devAt now) j i 1 e →
    ((s.devAt now).rxArrival j i (tget 0 (s.dev.job j).acted i) told = none ∨
      ∃ arrival, (s.devAt now).rxArrival j i (tget 0 (s.dev.job j).acted i) told = some arrival ∧
        (s.devAt now).tick < max arrival ((s.devAt now).slotTick j i + slLength e + slSlack e)) →
    ∃ t, exec (.rxSlotRelease j i told now) s = .next t ∧ t.dev.rest = (s.devAt now).rest) ∧
  (∀ (j i arrival now m release : Nat) (e : Bytes) (s : State), e = scSlot (s.dev.job j).sched i → m = tget 0 (s.dev.job j).returned i →
    (s.devAt now).slotActs j i 5 = true → m < tget 0 (s.dev.job j).acted i →
    (s.dev.job j).inOrder (resDie (slResource e)) ((s.dev.job j).roundStart i m + slPlace e true) = true →
    release = (s.devAt now).releaseAt j i m → max arrival release ≤ (s.devAt now).tick →
    ∃ t, exec (.hbmRdReturn j i arrival .clean now) s = .next t ∧ t.dev.ctxs = s.dev.ctxs ∧ t.dev.ports = s.dev.ports ∧
      t.dev.faults = s.dev.faults ∧
      ∀ k, t.dev.job k = (((s.devAt now).modJob j (fun y => { y with returned := tset y.returned i (m + 1) })).modJob j (fun y =>
        if release < arrival then
          { y.addLag (resDie (slResource e)) (arrival - release) with
            causes := if y.running = true ∧ bit y.causes 0 = false then y.causes + 1 else y.causes }
        else { y with slackMin := min y.slackMin (min (release - max arrival (release - slSlack e)) 0xFFFFFE) })).job k)

/-- A Depths read whose data has not come back, is before its release cycle, or was never issued, leaves everything as it is. One that was
corrected is recorded as 0x0601, with no other effect than that of a clean one where the fault's severity is at most 3. One that was not, of
a gradient bucket's context that can be aborted, is recorded as 0x0602 and aborts that context with ST_DEPTHS_FAULT where the fault's
severity is 3; of a chunk's frame, it is recorded as 0x0603 (R359, R360, R363; which reads are a context's is log entry 32's). HBM_RD and
HBM_WR slots (R123, R213): when due, with the stack in service, the access is issued to the stack of the slot's resource and the wait is
lag; with the stack out of service nothing happens. An HBM_WR slot of a bucket that is rooted here, over a chunk owned here, puts the root's
values of the DRAINING use into the inflow slot that its sequence number's parity names, once that slot is free and the values are there;
before that nothing happens. A refresh counts in its stack's windows only, and not while the Depths are parked (R208). The bytes of an
access are a free value (log entry 5), which no clause names. -/
def Obligations.DepthsAccessesActOrReport : Prop :=
  (
    (∀ (j i arrival now : Nat) (ecc : EccResult) (s : State),
      ((s.devAt now).slotActs j i 5 = false ∨ tget 0 (s.dev.job j).acted i ≤ tget 0 (s.dev.job j).returned i ∨
        (s.devAt now).tick < max arrival ((s.devAt now).releaseAt j i (tget 0 (s.dev.job j).returned i))) →
      ∃ t, exec (.hbmRdReturn j i arrival ecc now) s = .next t ∧ t.dev.rest = (s.devAt now).rest) ∧
    (∀ (j i arrival now m src : Nat) (ecc : EccResult) (e : Bytes) (s : State), e = scSlot (s.dev.job j).sched i →
      m = tget 0 (s.dev.job j).returned i → (s.devAt now).slotActs j i 5 = true → m < tget 0 (s.dev.job j).acted i →
      (s.dev.job j).inOrder (resDie (slResource e)) ((s.dev.job j).roundStart i m + slPlace e true) = true →
      max arrival ((s.devAt now).releaseAt j i m) ≤ (s.devAt now).tick →
      (ecc = .corrected ∧ src = 0x0601 ∨ ecc = .uncorrectable ∧ src = 0x0603 ∧
        ∀ b, (s.dev.job j).bucket (slBucket e) = some b → bkBucket b = verdictBucket) →
      (s.devAt now).mild src →
      ∃ t, exec (.hbmRdReturn j i arrival ecc now) s = .next t ∧ (∃ r ∈ t.dev.faults.ring, recSource r.bytes = src) ∧
        t.dev.ctxs = s.dev.ctxs ∧ t.dev.ports = s.dev.ports ∧ tget 0 (t.dev.job j).returned i = m + 1 ∧
        (∀ k, k ≠ j → t.dev.job k = s.dev.job k)) ∧
    (∀ (j i arrival now m : Nat) (e b : Bytes) (s : State), e = scSlot (s.dev.job j).sched i → m = tget 0 (s.dev.job j).returned i →
      (s.devAt now).slotActs j i 5 = true → m < tget 0 (s.dev.job j).acted i →
      (s.dev.job j).inOrder (resDie (slResource e)) ((s.dev.job j).roundStart i m + slPlace e true) = true →
      max arrival ((s.devAt now).releaseAt j i m) ≤ (s.devAt now).tick →
      (s.dev.job j).bucket (slBucket e) = some b → bkBucket b ≠ verdictBucket → (s.dev.ctx (bkCtx b)).bucket ≠ verdictBucket →
      (s.dev.ctx (bkCtx b)).abortable = true →
      (s.devAt now).effective ((s.devAt now).useFault 0x0602 (some (resUnit (slResource e))) (bkCtx b) stDepthsFault []) = 3 →
      ∃ t, exec (.hbmRdReturn j i arrival .uncorrectable now) s = .next t ∧ (t.dev.ctx (bkCtx b)).state = .aborted ∧
        (t.dev.ctx (bkCtx b)).status = stDepthsFault ∧ (∃ r ∈ t.dev.faults.ring, recSource r.bytes = 0x0602) ∧
        (∃ r ∈ t.dev.faults.ring, recSource r.bytes = stDepthsFault) ∧ (∀ k, k ≠ bkCtx b → t.dev.ctx k = s.dev.ctx k))) ∧
  (
    (∀ (j i now kind : Nat) (e : Bytes) (c : Instr) (s : State), SlotDue (s.devAt now) j i kind e →
      ((kind = 5 ∧ c = .hbmRdSlot j i now) ∨ (kind = 6 ∧ c = .hbmWrSlot j i now ∧ (s.devAt now).writes j e = none)) →
      ∃ t, exec c s = .next t ∧
        ((s.devAt now).slotDown e = false → t.dev.rest = ((s.devAt now).begun j i).rest ∧
          Sent.hbm (resUnit (slResource e)) (slChannel e) (kind == 6) (s.devAt now).tick ∈ t.dev.sent) ∧
        ((s.devAt now).slotDown e = true → t.dev.rest = (s.devAt now).rest ∧ t.dev.sent = s.dev.sent)) ∧
    (∀ (j i now c : Nat) (e f b : Bytes) (v : List W32) (d : Dev) (s : State), e = scSlot (s.dev.job j).sched i →
      (s.devAt now).writes j e = some (b, c) → (s.devAt now).slotIn j i 6 (s.dev.ctx c).microBatch = some (f, d) →
      (s.devAt now).rootVals c = some v → (s.devAt now).slotDown e = false → (s.dev.ctx c).state = .draining →
      (s.dev.job j).inflowFree (s.dev.ctx c).channel (s.dev.ctx c).sequence (slChunk e) = true →
      ∃ t, exec (.hbmWrSlot j i now) s = .next t ∧
        t.dev.rest = (d.modJob j (fun y => y.putInflow b (s.dev.ctx c).channel (s.dev.ctx c).sequence (slChunk e) v)).rest ∧
        Sent.hbm (resUnit (slResource e)) (slChannel e) true (s.devAt now).tick ∈ t.dev.sent) ∧
    (∀ (j i now c : Nat) (e b : Bytes) (s : State), e = scSlot (s.dev.job j).sched i → (s.devAt now).writes j e = some (b, c) →
      ((s.devAt now).slotIn j i 6 (s.dev.ctx c).microBatch = none ∨ (s.devAt now).rootVals c = none ∨ (s.devAt now).slotDown e = true ∨
        (s.dev.ctx c).state ≠ .draining ∨ (s.dev.job j).inflowFree (s.dev.ctx c).channel (s.dev.ctx c).sequence (slChunk e) = false) →
      ∃ t, exec (.hbmWrSlot j i now) s = .next t ∧ t.dev.rest = (s.devAt now).rest ∧ t.dev.sent = s.dev.sent) ∧
    (∀ (st now : Nat) (s : State), ∃ t, exec (.hbmRefresh st now) s = .next t ∧ t.dev.rest =
      (if st < 8 ∧ 3 * st ≤ (s.devAt now).window ∧ (s.devAt now).window ≤ 3 * st + 2 ∧ s.dev.power.depthsParked = false then
        { (s.devAt now).rest with refreshed := tset s.dev.refreshed st (s.devAt now).tick } else (s.devAt now).rest)))

/-- A BASIN slot (R59, R79, R80, R213, R326, R359): where a hosted node's children over a fragment are there, its value joins the open use
and the fragments that it took are free; where one is missing, or its round is not due, nothing changes. Its tile's output is the sum of its
products. A failed residue check, or an uncorrectable error of a staging block that it reads, aborts the use with ST_BASIN_FAULT where that
fault's severity is 3 (for a gradient bucket). A due slot of a bucket that hosts nothing here, or whose use is gone, passes idle. -/
def Obligations.BasinSlotsComputeNodes : Prop :=
  (∀ (j i w off now c : Nat) (staging : EccResult) (u : Option Upset) (e f b : Bytes) (ks : List Kid) (d : Dev) (s : State),
    e = scSlot (s.dev.job j).sched i → (s.dev.job j).bucket (slBucket e) = some b → bkChannel b = slChannel e → c = bkCtx b →
    (s.devAt now).basinIdle c (tget 0 (s.dev.job j).acted i) = false → (s.devAt now).slotIn j i 3 (s.dev.ctx c).round = some (f, d) →
    (s.devAt now).mayCompute c w off = true → (s.devAt now).kidsOf c w off = some ks → ((s.devAt now).nodeValue c w off ks u).check = 0 →
    (staging = .uncorrectable → (s.devAt now).stagedKid c off ks = false) →
    ∃ t v, exec (.basinSlot j i (.node w off) u staging now) s = .next t ∧ (t.dev.ctx c).nodes = (s.dev.ctx c).nodes ++ [v] ∧
      v.node = w ∧ v.frag = off ∧ v.sent = false ∧ v.vals = ((s.devAt now).nodeValue c w off ks u).vals ∧
      v.enc = ((s.devAt now).nodeValue c w off ks u).enc ∧ (t.dev.ctx c).state = .opened ∧
      (t.dev.ctx c).frags.map Frag.header = (s.dev.ctx c).frags.map Frag.header ∧
      (∀ g ∈ (t.dev.ctx c).frags, chSeq g.header = (s.dev.ctx c).sequence → chFrag g.header = off →
        chNode g.header ∈ ks.map Kid.node → g.taken = true) ∧
      (staging = .corrected → (s.devAt now).stagedKid c off ks = true → ∃ r ∈ t.dev.faults.ring, recSource r.bytes = 0x0A01) ∧
      t.dev.jobs = d.jobs ∧ (∀ k, k ≠ c → t.dev.ctx k = s.dev.ctx k) ∧ t.dev.ports = s.dev.ports) ∧
  (∀ (j i now c : Nat) (staging : EccResult) (u : Option Upset) (e b : Bytes) (work : BasinWork) (s : State),
    e = scSlot (s.dev.job j).sched i → (s.dev.job j).bucket (slBucket e) = some b → bkChannel b = slChannel e → c = bkCtx b →
    (s.devAt now).basinIdle c (tget 0 (s.dev.job j).acted i) = false →
    ((s.devAt now).slotIn j i 3 (s.dev.ctx c).round = none ∨
      (∃ w off, work = .node w off ∧ ((s.devAt now).kidsOf c w off = none ∨ (s.devAt now).mayCompute c w off = false)) ∨
      (∃ fs, work = .tile fs) ∧ ((s.dev.ctx c).state ≠ .opened ∨ (s.devAt now).unitDown (s.dev.ctx c).basin = true)) →
    ∃ t, exec (.basinSlot j i work u staging now) s = .next t ∧ t.dev.rest = (s.devAt now).rest) ∧
  (∀ (j i now c : Nat) (staging : EccResult) (u : Option Upset) (e f b : Bytes) (fs : List (W32 × W32)) (d : Dev) (s : State),
    e = scSlot (s.dev.job j).sched i → (s.dev.job j).bucket (slBucket e) = some b → bkChannel b = slChannel e → c = bkCtx b →
    (s.devAt now).basinIdle c (tget 0 (s.dev.job j).acted i) = false → (s.devAt now).slotIn j i 3 (s.dev.ctx c).round = some (f, d) →
    (s.dev.ctx c).state = .opened → (s.devAt now).unitDown (s.dev.ctx c).basin = false →
    (tileSum (s.dev.job (s.dev.ctx c).job).ovf (u.map (fun y => (y.op, y.hit))) fs).ev.check = 0 →
    ∃ t, exec (.basinSlot j i (.tile fs) u staging now) s = .next t ∧ t.dev.rest =
      { d.rest with tiles := tset s.dev.tiles (s.dev.ctx c).basin (tileSum (s.dev.job (s.dev.ctx c).job).ovf (u.map (fun y => (y.op, y.hit))) fs).v }) ∧
  (∀ (j i now c src : Nat) (staging : EccResult) (u : Option Upset) (work : BasinWork) (e f b : Bytes) (d : Dev) (s : State),
    e = scSlot (s.dev.job j).sched i → (s.dev.job j).bucket (slBucket e) = some b → bkChannel b = slChannel e → c = bkCtx b →
    (s.devAt now).basinIdle c (tget 0 (s.dev.job j).acted i) = false → (s.devAt now).slotIn j i 3 (s.dev.ctx c).round = some (f, d) →
    (s.dev.ctx c).bucket ≠ verdictBucket →
    ((∃ w off ks, work = .node w off ∧ (s.devAt now).mayCompute c w off = true ∧ (s.devAt now).kidsOf c w off = some ks ∧
        (src = 0x0A02 ∧ staging = .uncorrectable ∧ (s.devAt now).stagedKid c off ks = true ∨
          src = 0x0401 ∧ (staging = .uncorrectable → (s.devAt now).stagedKid c off ks = false) ∧ ((s.devAt now).nodeValue c w off ks u).check ≠ 0)) ∨
      (∃ fs, work = .tile fs ∧ src = 0x0401 ∧ (s.dev.ctx c).state = .opened ∧ (s.devAt now).unitDown (s.dev.ctx c).basin = false ∧
        (tileSum (s.dev.job (s.dev.ctx c).job).ovf (u.map (fun y => (y.op, y.hit))) fs).ev.check ≠ 0)) →
    (∀ r : FaultRec, r.source = src → r.cleared = false → (s.devAt now).effective r = 3) →
    ∃ t, exec (.basinSlot j i work u staging now) s = .next t ∧ (t.dev.ctx c).state = .aborted ∧
      (t.dev.ctx c).status = stBasinFault ∧ (∃ r ∈ t.dev.faults.ring, recSource r.bytes = src) ∧
      (∀ k, k ≠ c → t.dev.ctx k = s.dev.ctx k)) ∧
  (∀ (j i now : Nat) (staging : EccResult) (u : Option Upset) (work : BasinWork) (e : Bytes) (s : State), SlotDue (s.devAt now) j i 3 e →
    (∀ b, (s.dev.job j).bucket (slBucket e) = some b → bkChannel b = slChannel e →
      (s.devAt now).basinIdle (bkCtx b) (tget 0 (s.dev.job j).acted i) = true) →
    ∃ t, exec (.basinSlot j i work u staging now) s = .next t ∧ t.dev.rest = ((s.devAt now).begun j i).rest)

/-- A TX slot of a fabric port that is UP (R83, R96, R262, R263, R304, R309): in its round it sends the first of what its bucket and channel
have for the port, if what the round has moved leaves it room and every earlier use of its channel has been accepted by the next hop; what
is sent counts as sent, taken or gone by that port, and no context leaves its state. With nothing to send, no room, or on a port that is not
UP, only the round is counted; a slot whose round is not due does nothing. An RNG slot that is due computes one block for its unit, of the
draw that its operands name (R67 to R72, R213); a use code past those of R70 draws nothing. -/
def Obligations.TxAndRngSlotsAct : Prop :=
  (
    (∀ (j i now p : Nat) (e : Bytes) (u : TxItem) (r : List TxItem) (d : Dev) (s : State), (s.devAt now).slotNow j i 2 = some (e, d) →
      p = resUnit (slResource e) → resClass (slResource e) = 1 → s.dev.up p = true → (s.devAt now).fabric p = true →
      s.dev.darkPort p = false → d.txItems j e = u :: r → (∀ x ∈ u :: r, d.staleItem x = false) →
      tget 0 (d.job j).moved i + flitsOf (d.txContent u).length ≤ slRoom e → d.txMay j u = true →
      ∃ t, exec (.txSlot j i now) s = .next t ∧ Sent.packet p (d.packetOf j u).1 (d.packetOf j u).2 false ∈ t.dev.sent ∧
        (∀ c w off, u = .node c w off → ∀ v ∈ (t.dev.ctx c).nodes, v.node = w → v.frag = off → v.sent = true) ∧
        (∀ c f, u = .pass c f → ∀ g ∈ (t.dev.ctx c).frags, g.header = f.header → g.taken = true) ∧
        (∀ f, u = .out f → ∀ g ∈ (t.dev.job j).outHeld, g.item = f.item → g.ports.contains p = false) ∧
        (∀ c, (t.dev.ctx c).state = (s.dev.ctx c).state ∧ (t.dev.ctx c).sequence = (s.dev.ctx c).sequence) ∧
        (∀ k, k ≠ j → t.dev.job k = s.dev.job k) ∧ t.dev.faults = s.dev.faults) ∧
    (∀ (j i now p : Nat) (e : Bytes) (d : Dev) (s : State), (s.devAt now).slotNow j i 2 = some (e, d) → p = resUnit (slResource e) →
      (d.txItems j e = [] ∨ resClass (slResource e) ≠ 1 ∨ s.dev.up p = false ∨ (s.devAt now).fabric p = false ∨
        ∃ u r, d.txItems j e = u :: r ∧ (∀ x ∈ u :: r, d.staleItem x = false) ∧
          (slRoom e < tget 0 (d.job j).moved i + flitsOf (d.txContent u).length ∨ d.txMay j u = false)) →
      ∃ t, exec (.txSlot j i now) s = .next t ∧ t.dev.rest = d.rest) ∧
    (∀ (j i now : Nat) (s : State), (s.devAt now).slotNow j i 2 = none → ∃ t, exec (.txSlot j i now) s = .next t ∧ t.dev.rest = (s.devAt now).rest) ∧
    (∀ (j i now : Nat) (e : Bytes) (s : State), SlotDue (s.devAt now) j i 2 e → (s.devAt now).slotNow j i 2 = some (e, (s.devAt now).begun j i))) ∧
  (
    ∀ (j i use node mb t el now : Nat) (e : Bytes) (s : State), SlotDue (s.devAt now) j i 7 e →
      ∃ z, exec (.rngSlot j i use node mb t el now) s = .next z ∧ z.dev.rest =
        (if use < 4 then { ((s.devAt now).begun j i).rest with gens := tset s.dev.gens (resUnit (slResource e)) ((s.dev.job j).rngBlock use node mb t el) }
          else ((s.devAt now).begun j i).rest))

/-- A TARN slot's fold (R84, R123, R124): the DRAINING use of the chunk's root, whose inflow is there, passes its commit point, its context
is ARMED for the next use, and no byte of the Depths changes but those of the accumulators of the bucket's chunks that are owned here. A due
slot without such a use passes idle. A TARN slot's Update (R25, R121, R126 to R131, R340) after the Verdict: the chunk counts as updated,
with the digests that the step's end records, and no byte of the Depths changes outside its frame, from the header to the end of ACC; for a
skipped tensor none changes at all. A TARN slot's Outflow forms the chunk's fragments in its turn, and changes no byte (R14, R154). A due
slot whose chunk is updated or formed, or lies on another stack, passes idle. That a fold or an Update runs whole at its slot is the model's
choice (log entry 15). -/
def Obligations.TarnSlotsFoldUpdateAndSend : Prop :=
  (
    (∀ (j i now c : Nat) (e f : Bytes) (vs : List W32) (d : Dev) (s : State), e = scSlot (s.dev.job j).sched i → (s.devAt now).slotDown e = false →
      (s.dev.job j).owned.contains (slChunk e) = true → owStack ((s.dev.job j).chunk (slChunk e)) = resUnit (slResource e) →
      (s.dev.job j).live = true → (s.devAt now).foldCtx j e = some c → (s.dev.ctx c).job = j → (s.dev.ctx c).bucket ≠ verdictBucket →
      (s.devAt now).slotIn j i 4 (s.dev.ctx c).round = some (f, d) → (s.dev.job j).rootHere ((s.devAt now).bucketOf c) = true →
      (s.devAt now).rootVals c = some vs → (s.dev.ctx c).heldAborts = [] →
      ((s.dev.job j).inflowAll ((s.devAt now).bucketOf c) (s.dev.ctx c).channel (s.dev.ctx c).sequence vs).isSome = true →
      ∃ t, exec (.tarnSlot j i .fold none now) s = .next t ∧ (t.dev.ctx c).state = .armed ∧
        (t.dev.ctx c).sequence = ((s.dev.ctx c).sequence + (s.dev.job j).stride (s.dev.ctx c).channel) % 2 ^ 32 ∧
        tget 0 (t.dev.job j).chSeq (s.dev.ctx c).channel = ((s.dev.ctx c).sequence + 1) % 2 ^ 32 ∧
        (∀ k, k ≠ j → t.dev.job k = s.dev.job k) ∧ t.dev.ports = s.dev.ports ∧
        (s.dev.power.cold = false → ∀ a, (∀ k ∈ (s.dev.job j).owned, 0 < (s.dev.job j).shared ((s.devAt now).bucketOf c) k →
          a < (s.dev.job j).elemAt k 5 0 ∨ (s.dev.job j).elemAt k 5 ((s.dev.job j).chunkElems k) ≤ a) → t.depthsByte a = s.depthsByte a)) ∧
    (∀ (j i now : Nat) (e : Bytes) (u : Option Upset) (s : State), SlotDue (s.devAt now) j i 4 e → (s.devAt now).foldCtx j e = none →
      ∃ t, exec (.tarnSlot j i .fold u now) s = .next t ∧ (s.dev.power.cold = false → t.depths = s.depths) ∧
        t.dev.rest = ((s.devAt now).begun j i).rest)) ∧
  (
    (∀ (j i now : Nat) (e f : Bytes) (r : VerdictRes) (d : Dev) (s : State), e = scSlot (s.dev.job j).sched i →
      (s.devAt now).slotIn j i 4 0 = some (f, d) → (s.devAt now).slotDown e = false →
      (s.dev.job j).owned.contains (slChunk e) = true → owStack ((s.dev.job j).chunk (slChunk e)) = resUnit (slResource e) →
      (s.dev.job j).vres = some r → (s.dev.job j).rcPhase = 3 → (s.dev.job j).updated.contains (slChunk e) = false →
      s.dev.power.cold = false →
      ∃ t, exec (.tarnSlot j i .update none now) s = .next t ∧ (t.dev.job j).updated = (s.dev.job j).updated ++ [slChunk e] ∧
        thas (t.dev.job j).stepProv (slChunk e) = true ∧
        (t.dev.job j).rcPhase = (if (s.dev.job j).owned.all ((s.dev.job j).updated ++ [slChunk e]).contains then 4 else 3) ∧
        t.dev.ctxs = s.dev.ctxs ∧ t.dev.ports = s.dev.ports ∧ (∀ k, k ≠ j → t.dev.job k = s.dev.job k) ∧
        (((s.dev.job j).skipped (owTensor ((s.dev.job j).chunk (slChunk e)))).getD false = true → t.depths = s.depths) ∧
        (∀ a, (a < (s.dev.job j).frameAt (slChunk e) ∨ (s.dev.job j).elemAt (slChunk e) 5 ((s.dev.job j).chunkElems (slChunk e)) ≤ a) →
          t.depthsByte a = s.depthsByte a)) ∧
    (∀ (j i now : Nat) (e f : Bytes) (d : Dev) (s : State), e = scSlot (s.dev.job j).sched i →
      (s.devAt now).slotIn j i 4 0 = some (f, d) → (s.devAt now).slotDown e = false →
      (s.dev.job j).owned.contains (slChunk e) = true → owStack ((s.dev.job j).chunk (slChunk e)) = resUnit (slResource e) →
      (s.dev.job j).live = true → (s.dev.job j).vres.isSome = true → (s.dev.job j).outFormed.contains (slChunk e) = false → (s.dev.job j).outTurn (slChunk e) = true →
      (∀ k ∈ (s.dev.job j).chunksOfTensor (owTensor ((s.dev.job j).chunk (slChunk e))), k ∈ (s.dev.job j).owned → k ∈ (s.dev.job j).updated) →
      s.dev.power.cold = false →
      ∃ t, exec (.tarnSlot j i .outflow none now) s = .next t ∧ t.depths = s.depths ∧ t.dev.ctxs = s.dev.ctxs ∧
        (t.dev.job j).outFormed = (s.dev.job j).outFormed ++ [slChunk e] ∧ (t.dev.job j).state = (s.dev.job j).state ∧
        t.dev.ports = s.dev.ports ∧ (∀ k, k ≠ j → t.dev.job k = s.dev.job k)) ∧
    (∀ (j i now : Nat) (e : Bytes) (u : Option Upset) (work : TarnWork) (s : State), SlotDue (s.devAt now) j i 4 e →
      ((s.dev.job j).owned.contains (slChunk e) = false ∨ owStack ((s.dev.job j).chunk (slChunk e)) ≠ resUnit (slResource e) ∨
        (s.devAt now).slotDown e = true ∨ work = .update ∧ (s.dev.job j).vres.isSome = true ∧ (s.dev.job j).updated.contains (slChunk e) = true ∨
        work = .outflow ∧ (s.dev.job j).outFormed.contains (slChunk e) = true) →
      ∃ t, exec (.tarnSlot j i work u now) s = .next t ∧ (s.dev.power.cold = false → t.depths = s.depths) ∧
        t.dev.rest = ((s.devAt now).begun j i).rest))

/-- SYNC_PERIOD and SYNC_REQ_RX (R196, R198): where a request is due by the cadence of R198, the port sends a SYNC_REQ under the next
exchange number with its GTC as t1; where none is due nothing happens. A received request is answered with the requester's t1 and its own t2
and t3, its election fields as they stand after the election that the received ones caused. A frame is on its way, or waits with the
Keeper's own frames for a place in the output queue (R308). A malformed frame is counted and changes nothing; on a port where no exchanges
run nothing happens. -/
def Obligations.SyncFramesAreSentAndAnswered : Prop :=
  (∀ (p now frac : Nat) (s : State), (s.devAt now).reqIsDue p = true → s.dev.darkPort p = false →
    ∃ t f, exec (.syncPeriod p now frac) s = .next t ∧ (t.dev.port p).exchSeq = ((s.dev.port p).exchSeq + 1) % 2 ^ 16 ∧
      (t.dev.port p).sentT1 = some ((t.dev.port p).exchSeq, (s.devAt now).gtc * 65536 + frac % 65536) ∧
      (t.dev.port p).reqTick = (s.devAt now).gtc ∧
      f = (s.devAt now).syncFrame 1 (t.dev.port p).exchSeq ((s.devAt now).gtc * 65536 + frac % 65536) 0 0 ∧
      (Sent.packet p 6 (routeFor 3 0 0 6 f ++ f) false ∈ t.dev.sent ∨ ∃ w ∈ t.dev.own, w.port = p ∧ w.bytes = routeFor 3 0 0 6 f ++ f) ∧
      t.dev.clock = (s.devAt now).clock ∧ t.dev.ctxs = s.dev.ctxs ∧
      t.dev.jobs = s.dev.jobs ∧ t.dev.faults = s.dev.faults ∧ (∀ q, (t.dev.port q).state = (s.dev.port q).state)) ∧
  (∀ (p now frac : Nat) (s : State), (s.devAt now).reqIsDue p = false →
    ∃ t, exec (.syncPeriod p now frac) s = .next t ∧ t.dev.rest = (s.devAt now).rest) ∧
  (∀ (p now t2 t3 : Nat) (b : Bytes) (s : State), (s.devAt now).syncs p = true → s.dev.darkPort p = false → sfBad b 1 = false →
    ∃ t f, exec (.syncReqRx p b t2 t3 now) s = .next t ∧ f = t.dev.syncFrame 2 (sfSeq b) (sfStamp b 16) t2 t3 ∧
      (Sent.packet p 6 (routeFor 3 0 0 6 f ++ f) false ∈ t.dev.sent ∨ ∃ w ∈ t.dev.own, w.port = p ∧ w.bytes = routeFor 3 0 0 6 f ++ f) ∧
      (∃ o, (p, o) ∈ t.dev.clock.offers ∧ o.key = sfKey b ∧ o.depth = sfDepth b) ∧ t.dev.ctxs = s.dev.ctxs ∧
      (∀ q, (t.dev.port q).state = (s.dev.port q).state)) ∧
  (∀ (p now t2 t3 : Nat) (b : Bytes) (c : Instr) (s : State), (s.devAt now).syncs p = true →
    (c = .syncReqRx p b t2 t3 now ∧ sfBad b 1 = true ∨ c = .syncRespRx p b t2 now ∧ sfBad b 2 = true) →
    ∃ t, exec c s = .next t ∧ t.dev.rest = (s.devAt now).rest ∧ t.dev.ctrs = ((s.devAt now).countPort p 0x1B 1).ctrs) ∧
  (∀ (p now n t2 t3 : Nat) (b : Bytes) (c : Instr) (s : State), (s.devAt now).syncs p = false →
    (c = .syncPeriod p now n ∨ c = .syncReqRx p b t2 t3 now ∨ c = .syncRespRx p b n now) →
    ∃ t, exec c s = .next t ∧ t.dev.rest = (s.devAt now).rest)

/-- A SYNC_RESP that answers the open exchange (R197, R198): in CALIBRATE each of the first 63 counts, and the 64th brings the port UP with
the mean of the 64 as its delay; on an UP port a delay within 4 ticks of the tracked one moves it by a sixteenth of the difference, the
first two beyond are kept aside, and the third sets the mean of the three. One that answers no open exchange moves no delay. Halves are
rounded down (log entry 24). -/
def Obligations.SyncResponsesMeasureDelay : Prop :=
  (∀ (p now t4 : Nat) (b : Bytes) (s : State) (x : Nat) (del : Int), (s.devAt now).syncs p = true → sfBad b 2 = false →
    (s.dev.port p).sentT1 = some (sfSeq b, x) → del = ((s.devAt now).exchange p b t4).1 →
    ∃ t, exec (.syncRespRx p b t4 now) s = .next t ∧ (t.dev.port p).sentT1 = none ∧ t.dev.ctxs = s.dev.ctxs ∧
      ((s.dev.port p).state = .calibrate → (s.dev.port p).calibDone + 1 < 64 →
        (t.dev.port p).calibDone = (s.dev.port p).calibDone + 1 ∧ (t.dev.port p).state = .calibrate ∧
        (t.dev.port p).bringupSum = (if (s.dev.port p).calibDone = 0 then 0 else (s.dev.port p).bringupSum) + del) ∧
      ((s.dev.port p).state = .calibrate → 64 ≤ (s.dev.port p).calibDone + 1 → (t.dev.port p).state = .up ∧
        (t.dev.port p).hasBringup = true ∧ (t.dev.port p).bringupDelay = ((s.dev.port p).bringupSum + del) / 64 ∧
        (t.dev.port p).delay = (t.dev.port p).bringupDelay) ∧
      ((s.dev.port p).state = .up → (s.dev.port p).hasDelay = true → (del - (s.dev.port p).delay).natAbs ≤ 4 * 65536 →
        (t.dev.port p).delay = (s.dev.port p).delay + (del - (s.dev.port p).delay) / 16 ∧ (t.dev.port p).outliers = []) ∧
      ((s.dev.port p).state = .up → (s.dev.port p).hasDelay = true → 4 * 65536 < (del - (s.dev.port p).delay).natAbs →
        (s.dev.port p).outliers.length < 2 →
        (t.dev.port p).delay = (s.dev.port p).delay ∧ (t.dev.port p).outliers = (s.dev.port p).outliers ++ [del]) ∧
      ((s.dev.port p).state = .up → (s.dev.port p).hasDelay = true → 4 * 65536 < (del - (s.dev.port p).delay).natAbs →
        2 ≤ (s.dev.port p).outliers.length →
        (t.dev.port p).delay = ((s.dev.port p).outliers ++ [del]).sum / 3 ∧ (t.dev.port p).outliers = [])) ∧
  (∀ (p now t4 : Nat) (b : Bytes) (s : State), (s.devAt now).syncs p = true → sfBad b 2 = false →
    (∀ q x, (s.dev.port p).sentT1 = some (q, x) → q ≠ sfSeq b) →
    ∃ t, exec (.syncRespRx p b t4 now) s = .next t ∧ (t.dev.port p).sentT1 = (s.dev.port p).sentT1 ∧
      (t.dev.port p).delay = (s.dev.port p).delay ∧ (t.dev.port p).calibDone = (s.dev.port p).calibDone ∧
      (t.dev.port p).state = (s.dev.port p).state ∧ (∃ o, (p, o) ∈ t.dev.clock.offers ∧ o.key = sfKey b ∧ o.depth = sfDepth b) ∧
      t.dev.ctxs = s.dev.ctxs)

/-- The losses of time (R194, R200): a LOCKED device, without a key of its own, whose only offers are its upstream's is in HOLDOVER 2 sync
periods after the last SYNC_RESP; a Spring not heard for 4 sync periods offers its key no more; a second of HOLDOVER ends in INVALID with
cause 2, or, at a Spring whose PLL is locked to REFCLK, in LOCKED. Before their times, and in another state, nothing happens. The GTC's
reference (R194, R200, R207): when it stops, the GTC is frozen and INVALID with cause 3 and no armed launch is left; when it returns, the
Spring's GTC is stepped forward by the cycles of the freeze and runs, and the GTC of a device without a key of its own keeps its value until
its first exchange (log entry 24). Where a core PLL locks, that is recorded; a device with a key and no offers becomes the Spring by it,
LOCKED, with its count at 0 where it had none. -/
def Obligations.TimeIsLostAndReturns : Prop :=
  (
    (∀ (now : Nat) (s : State), s.dev.clock.state = .locked → s.dev.clock.upstream < 96 →
      s.dev.clock.respTick + 2 * Sys2Proof.Machine.syncPeriod ≤ (s.devAt now).time → (∀ o ∈ s.dev.clock.offers, o.1 = s.dev.clock.upstream) →
      (s.devAt now).ownKey = noKey →
      ∃ t, exec (.syncRespTimeout now) s = .next t ∧ t.dev.clock.state = .holdover ∧ t.dev.clock.upstream = 0x7F ∧ t.dev.clock.depth = 0xF ∧
        t.dev.clock.offers = [] ∧ t.dev.clock.gtc = (s.devAt now).clock.gtc ∧ (∃ e ∈ t.dev.faults.ring, recSource e.bytes = 0x0702) ∧
        t.dev.ports = s.dev.ports ∧ t.dev.ctxs = s.dev.ctxs) ∧
    (∀ (now : Nat) (s : State), s.dev.clock.spring = false → s.dev.clock.adoptedKey ≠ noKey →
      s.dev.clock.keyTick + 4 * Sys2Proof.Machine.syncPeriod ≤ (s.devAt now).time →
      ∃ t, exec (.springLost now) s = .next t ∧ (∀ o ∈ t.dev.clock.offers, o.2.key ≠ s.dev.clock.adoptedKey) ∧
        (s.dev.clock.hasGtc = true → t.dev.clock.gtc = (s.devAt now).clock.gtc) ∧
        (∀ q, { t.dev.port q with reqDue := 0 } = { s.dev.port q with reqDue := 0 }) ∧ t.dev.ctxs = s.dev.ctxs) ∧
    (∀ (now : Nat) (s : State), s.dev.clock.state = .holdover → s.dev.clock.spring = false →
      s.dev.clock.holdTick + secTicks ≤ (s.devAt now).time →
      ∃ t, exec (.holdoverExpired now) s = .next t ∧ t.dev.clock.state = .invalid ∧ t.dev.clock.cause = 2 ∧
        t.dev.clock.gtc = (s.devAt now).clock.gtc ∧ (tget {} t.dev.faults.classes 7).unacked = true ∧ t.dev.ports = s.dev.ports) ∧
    (∀ (now : Nat) (c : Instr) (s : State),
      ((c = .syncRespTimeout now ∧ ((s.devAt now).time < s.dev.clock.respTick + 2 * Sys2Proof.Machine.syncPeriod ∨ 96 ≤ s.dev.clock.upstream ∨
          s.dev.clock.state ≠ .locked ∧ s.dev.clock.state ≠ .acquiring)) ∨
        (c = .springLost now ∧ ((s.devAt now).time < s.dev.clock.keyTick + 4 * Sys2Proof.Machine.syncPeriod ∨ s.dev.clock.spring = true ∨
          s.dev.clock.adoptedKey = noKey)) ∨
        (c = .holdoverExpired now ∧ ((s.devAt now).time < s.dev.clock.holdTick + secTicks ∨ s.dev.clock.state ≠ .holdover))) →
      ∃ t, exec c s = .next t ∧ t.dev.rest = (s.devAt now).rest) ∧
    (∀ (now : Nat) (s : State), s.dev.clock.state = .holdover → s.dev.clock.spring = true → s.dev.clock.pllLocked = true →
      s.dev.clock.refOk = true → s.dev.clock.holdTick + secTicks ≤ (s.devAt now).time →
      ∃ t, exec (.holdoverExpired now) s = .next t ∧ t.dev.clock.state = .locked ∧ t.dev.clock.cause = 2 ∧
        (s.dev.clock.hasGtc = true → t.dev.clock.gtc = (s.devAt now).clock.gtc) ∧ t.dev.ports = s.dev.ports ∧ t.dev.ctxs = s.dev.ctxs)) ∧
  (
    (∀ (now : Nat) (s : State), ∃ t, exec (.refStopped now) s = .next t ∧ t.dev.clock.state = .invalid ∧ t.dev.clock.cause = 3 ∧
      t.dev.clock.frozen = true ∧ t.dev.clock.refOk = false ∧ t.dev.clock.gtc = (s.devAt now).clock.gtc ∧ t.dev.ports = s.dev.ports ∧
      t.dev.ctxs = s.dev.ctxs ∧
      (s.dev.clock.state ≠ .invalid → (tget {} t.dev.faults.classes 7).unacked = true ∧
        ∀ j l, (s.dev.job j).state ≠ .empty → (t.dev.job j).launch = some l → l.stage ≠ .armed)) ∧
    (∀ (frac now : Nat) (s : State), s.dev.clock.refOk = false →
      ∃ t, exec (.refReturned frac now) s = .next t ∧ t.dev.clock.refOk = true ∧ t.dev.ctxs = s.dev.ctxs ∧
        (s.dev.clock.spring = true → t.dev.clock.gtc = BitVec.ofNat 64 (s.devAt now).tick ∧ t.dev.clock.frac = frac % 65536 ∧ t.dev.clock.frozen = false ∧
          (tget {} t.dev.faults.classes 7).unacked = true) ∧
        (s.dev.clock.spring = false → (s.devAt now).ownKey = noKey →
          t.dev.clock.gtc = (s.devAt now).clock.gtc ∧ t.dev.clock.frozen = s.dev.clock.frozen) ∧
        (∀ q, { t.dev.port q with reqDue := 0 } = { s.dev.port q with reqDue := 0 })) ∧
    (∀ (frac now : Nat) (s : State), s.dev.clock.refOk = true →
      ∃ t, exec (.refReturned frac now) s = .next t ∧ t.dev.rest = (s.devAt now).rest) ∧
    (∀ (now : Nat) (s : State), ∃ t, exec (.corePllLock now) s = .next t ∧ t.dev.clock.pllLocked = true ∧ t.dev.ctxs = s.dev.ctxs ∧
      ∀ q, { t.dev.port q with reqDue := 0 } = { s.dev.port q with reqDue := 0 }) ∧
    (∀ (now : Nat) (s : State), s.dev.clock.offers = [] → (s.devAt now).ownKey < noKey → s.dev.clock.refOk = true →
      s.dev.clock.state = .invalid →
      ∃ t, exec (.corePllLock now) s = .next t ∧ t.dev.clock.state = .locked ∧ t.dev.clock.spring = true ∧ t.dev.clock.pllLocked = true ∧
        t.dev.clock.adoptedKey = (s.devAt now).ownKey ∧ t.dev.clock.frozen = false ∧ t.dev.clock.depth = 0 ∧
        (s.dev.clock.hasGtc = false → t.dev.clock.gtc = 0) ∧ (s.dev.clock.hasGtc = true → t.dev.clock.gtc = (s.devAt now).clock.gtc)) ∧
    (∀ (now : Nat) (s : State), s.dev.power.refAbsent = true →
      ∃ t, exec (.refclkStartResume now) s = .next t ∧ t.dev.power.refAbsent = false ∧ t.dev.clock.refOk = true ∧ t.dev.keeper.up = true ∧
        (∀ p, p < 98 → (t.dev.port p).state = if s.dev.keeper.imageState = .bad ∨ (s.devAt now).mode p = 0 then .disabled else .txTune) ∧
        t.dev.ctxs = s.dev.ctxs) ∧
    (∀ (now : Nat) (s : State), s.dev.power.refAbsent = false →
      ∃ t, exec (.refclkStartResume now) s = .next t ∧ t.dev.rest = (s.devAt now).rest))

/-- Blind bring-up by what a port receives (R237 to R240, R244): rings that lock pass TX_TUNE to ACQUIRE; the fourth training frame in a row
with 8 good info fields passes ACQUIRE to IDENTIFY and a frame with fewer begins the count again; in IDENTIFY a frame whose lanes pass every
check passes to HANDSHAKE with the neighbour recorded, one that fails a check passes to FAULT with its cause, and one with fewer than 8 good
fields changes nothing; in HANDSHAKE the fourth frame in a row with rx_ready starts the data frames and one without begins the count again.
The lanes that are retired since the last retrain do not count. -/
def Obligations.BringupFollowsTrainingFrames : Prop :=
  (∀ (p rings now : Nat) (s : State), (s.devAt now).bringsUp p = true → (s.dev.port p).state = .txTune → (s.devAt now).ringsNeeded p rings = true →
    ∃ t, exec (.txRingsLocked p rings now) s = .next t ∧ (t.dev.port p).state = .acquire ∧ (t.dev.port p).entryTick = (s.devAt now).time ∧
      (∀ q, q ≠ p → t.dev.port q = s.dev.port q) ∧ t.dev.ctxs = s.dev.ctxs ∧ t.dev.jobs = s.dev.jobs ∧ t.dev.faults = s.dev.faults) ∧
  (∀ (p rings now : Nat) (s : State), ((s.dev.port p).state ≠ .txTune ∨ (s.devAt now).ringsNeeded p rings = false ∨ (s.devAt now).bringsUp p = false) →
    ∃ t, exec (.txRingsLocked p rings now) s = .next t ∧ t.dev.rest = (s.devAt now).rest) ∧
  (∀ (p skew now n : Nat) (l g : List (Nat × Nat)) (s : State), (s.devAt now).fabric p = true → (s.dev.port p).state = .acquire →
    g = ((l.filter (fun e => !infoBad e.2)).filter (fun e => !(s.dev.port p).retired.contains (inLane e.2))) → n = (if 8 ≤ g.length then (s.dev.port p).infoRun + 1 else 0) →
    ∃ t, exec (.trainingFrameRx p l skew now) s = .next t ∧ (t.dev.port p).state = (if 4 ≤ n then .identify else .acquire) ∧
      (n < 4 → (t.dev.port p).infoRun = n) ∧ (∀ q, q ≠ p → t.dev.port q = s.dev.port q) ∧ t.dev.ctxs = s.dev.ctxs ∧ t.dev.faults = s.dev.faults) ∧
  (∀ (p skew now : Nat) (l g : List (Nat × Nat)) (s : State), (s.devAt now).fabric p = true → (s.dev.port p).state = .identify →
    g = ((l.filter (fun e => !infoBad e.2)).filter (fun e => !(s.dev.port p).retired.contains (inLane e.2))) → 8 ≤ g.length → (s.devAt now).mild 0x0102 → (s.devAt now).identifyFault p g skew = none →
    ∃ t i, exec (.trainingFrameRx p l skew now) s = .next t ∧ g.head? = some i ∧
      (t.dev.port p).state = .handshake ∧ (t.dev.port p).neighbourPort = inPortOf i.2 ∧ (t.dev.port p).neighbourId = inDev i.2 ∧
      (t.dev.port p).rxMask = laneMask g ∧ (∀ q, q ≠ p → t.dev.port q = s.dev.port q) ∧ t.dev.ctxs = s.dev.ctxs) ∧
  (∀ (p skew now c : Nat) (l g : List (Nat × Nat)) (s : State), (s.devAt now).fabric p = true → (s.dev.port p).state = .identify →
    g = ((l.filter (fun e => !infoBad e.2)).filter (fun e => !(s.dev.port p).retired.contains (inLane e.2))) → 8 ≤ g.length → (s.devAt now).mild 0x0101 → (s.devAt now).identifyFault p g skew = some c →
    ∃ t, exec (.trainingFrameRx p l skew now) s = .next t ∧ (t.dev.port p).state = .fault ∧ (t.dev.port p).cause = c ∧
      (∀ q, q ≠ p → t.dev.port q = s.dev.port q) ∧ t.dev.ctxs = s.dev.ctxs) ∧
  (∀ (p skew now : Nat) (l g : List (Nat × Nat)) (s : State), (s.devAt now).fabric p = true → (s.dev.port p).state = .identify →
    g = ((l.filter (fun e => !infoBad e.2)).filter (fun e => !(s.dev.port p).retired.contains (inLane e.2))) → g.length < 8 → ∃ t, exec (.trainingFrameRx p l skew now) s = .next t ∧ t.dev.rest = (s.devAt now).rest) ∧
  (∀ (p skew now n : Nat) (l g : List (Nat × Nat)) (s : State), (s.devAt now).fabric p = true → (s.dev.port p).state = .handshake →
    g = ((l.filter (fun e => !infoBad e.2)).filter (fun e => !(s.dev.port p).retired.contains (inLane e.2))) → n = (if g.head?.any (fun i => inReady i.2) = true then (s.dev.port p).readyRun + 1 else 0) →
    ∃ t, exec (.trainingFrameRx p l skew now) s = .next t ∧
      ((s.dev.port p).sending = true ∨ n < 4 → (t.dev.port p).readyRun = n ∧ (t.dev.port p).state = .handshake) ∧
      ((s.dev.port p).sending = false → 4 ≤ n → (t.dev.port p).sending = true ∨ (t.dev.port p).state = .calibrate) ∧
      (∀ q, q ≠ p → t.dev.port q = s.dev.port q) ∧ t.dev.ctxs = s.dev.ctxs ∧ t.dev.faults = s.dev.faults)

/-- The time-outs of bring-up (R238, R254): each ends its state when it has lasted its time, TX_TUNE and IDENTIFY in FAULT, ACQUIRE,
HANDSHAKE and CALIBRATE in ACQUIRE, with the cause of the table, and reports LINK_DOWN at the first failure since the port was UP; the
back-off passes FAULT to TX_TUNE. Before its time, or in another state, nothing happens. Which cause of the listed ones a time-out reports
is free (log entry 41). -/
def Obligations.BringupTimesOut : Prop :=
  (∀ (p now n : Nat) (f : AcquireFinding) (c : Instr) (was st : LinkState) (causes : List Nat) (s : State),
    ((c = .txTuneTimeout p now ∧ was = .txTune ∧ n = 300 * msTicks ∧ st = .fault ∧ causes = [(s.devAt now).tuneCause p]) ∨
      (c = .acquireTimeout p .noLight now ∧ was = .acquire ∧ n = 200 * msTicks ∧ st = .acquire ∧ causes = [0x01]) ∨
      (c = .acquireTimeout p .swapped now ∧ was = .acquire ∧ n = 200 * msTicks ∧ st = .acquire ∧ causes = [0x02]) ∨
      (c = .acquireTimeout p .modeMismatch now ∧ was = .acquire ∧ n = 200 * msTicks ∧ st = .acquire ∧ causes = [0x0E]) ∨
      (c = .acquireTimeout p f now ∧ was = .acquire ∧ n = 200 * msTicks ∧ st = .acquire ∧ causes = [0x01, 0x02, 0x0E]) ∨
      (c = .identifyTimeout p now ∧ was = .identify ∧ n = 10 * msTicks ∧ st = .fault ∧ causes = [0x04, 0x0D]) ∨
      (c = .handshakeTimeout p now ∧ was = .handshake ∧ n = 100 * msTicks ∧ st = .acquire ∧ causes = [0x0C]) ∨
      (c = .calibrateTimeout p now ∧ was = .calibrate ∧ n = msTicks ∧ st = .acquire ∧ causes = [0x11])) →
    ((s.devAt now).lasted p was n = true → (s.devAt now).mild 0x0101 →
      ∃ t, exec c s = .next t ∧ (t.dev.port p).state = st ∧ (t.dev.port p).cause ∈ causes ∧ (t.dev.port p).entryTick = (s.devAt now).time ∧
        (∀ q, q ≠ p → t.dev.port q = s.dev.port q) ∧ t.dev.ctxs = s.dev.ctxs ∧ t.dev.jobs = s.dev.jobs ∧
        ((s.dev.port p).acquireRaised = false → ∃ e ∈ t.dev.faults.ring, recSource e.bytes = 0x0101) ∧
        ((s.dev.port p).acquireRaised = true → t.dev.faults = s.dev.faults)) ∧
    ((s.devAt now).lasted p was n = false → ∃ t, exec c s = .next t ∧ t.dev.rest = (s.devAt now).rest)) ∧
  (∀ (p now : Nat) (s : State), ∃ t, exec (.faultBackoffExpiry p now) s = .next t ∧
    ((s.devAt now).lasted p .fault (250 * msTicks) = true → (t.dev.port p).state = .txTune ∧
      (t.dev.port p).retrains = min ((s.dev.port p).retrains + 1) 0xFFFF ∧ (∀ q, q ≠ p → t.dev.port q = s.dev.port q)) ∧
    ((s.devAt now).lasted p .fault (250 * msTicks) = false → t.dev.rest = (s.devAt now).rest))

/-- An Ethernet-mode port (R242): block lock passes ACQUIRE to HANDSHAKE, and HANDSHAKE without fault signalling to UP; lost lock returns it
to ACQUIRE, and fault signalling to HANDSHAKE, with LINK_DOWN where it was UP. Elsewhere the port keeps its state; on a port of another mode
or one that is not brought up the command does nothing. GMP_RETRAIN restarts a port that is not UP at TX_TUNE with cause FORCED (R238), and
takes an UP one down with it. The cause at the loss of an Ethernet lock is free among the listed ones (log entry 41). -/
def Obligations.EthernetPortsLockAndPortsRetrain : Prop :=
  (∀ (p now : Nat) (locked fault : Bool) (s : State), (s.devAt now).ethernet p = true → (s.devAt now).bringsUp p = true →
    ((s.dev.port p).state = .acquire ∨ (s.dev.port p).state = .handshake) →
    ∃ t, exec (.pcsBlockLock p locked fault now) s = .next t ∧ (t.dev.port p).blockLock = locked ∧ (t.dev.port p).ethFault = fault ∧
      (t.dev.port p).state = (if locked then (if fault then .handshake else .up) else .acquire) ∧
      (∀ q, q ≠ p → t.dev.port q = s.dev.port q) ∧ t.dev.ctxs = s.dev.ctxs ∧ t.dev.jobs = s.dev.jobs ∧ t.dev.faults = s.dev.faults) ∧
  (∀ (p now : Nat) (locked fault : Bool) (st : LinkState) (s : State), (s.devAt now).ethernet p = true → (s.devAt now).bringsUp p = true →
    s.dev.up p = true → (s.devAt now).mild 0x0101 → (locked = false ∧ st = .acquire ∨ locked = true ∧ fault = true ∧ st = .handshake) →
    ∃ t c, exec (.pcsBlockLock p locked fault now) s = .next t ∧ 1 ≤ c ∧ c ≤ 0x11 ∧ WentDown (s.devAt now) t p c st) ∧
  (∀ (p now : Nat) (locked fault : Bool) (s : State), (s.devAt now).ethernet p = true → (s.devAt now).bringsUp p = true →
    (s.dev.up p = true ∧ locked = true ∧ fault = false ∨ (s.dev.port p).state = .txTune ∨ (s.dev.port p).state = .fault) →
    ∃ t, exec (.pcsBlockLock p locked fault now) s = .next t ∧
      t.dev.rest = ((s.devAt now).modPort p (fun x => { x with blockLock := locked, ethFault := fault })).rest) ∧
  (∀ (p now : Nat) (locked fault : Bool) (s : State), ((s.devAt now).ethernet p = false ∨ (s.devAt now).bringsUp p = false ∨
      (s.dev.port p).state = .disabled) →
    ∃ t, exec (.pcsBlockLock p locked fault now) s = .next t ∧ t.dev.rest = (s.devAt now).rest) ∧
  (∀ (m : GmpMsg) (s : State) (x : Session), Served retrainRequest m x (s.devAt m.now) → (s.devAt m.now).bringsUp (u8 m.body 0) = true →
    (s.dev.port (u8 m.body 0)).state ≠ .disabled →
    (s.dev.up (u8 m.body 0) = true → (s.devAt m.now).mild 0x0101) →
    ∃ t, exec (.gmpRetrain m) s = .next t ∧ (t.dev.port (u8 m.body 0)).state = .txTune ∧ (t.dev.port (u8 m.body 0)).cause = 0x0F ∧
      Answered t m 0x0050 ({} : Reply).body ∧ (∀ q, q ≠ u8 m.body 0 → (t.dev.port q).state = (s.dev.port q).state) ∧
      (s.dev.up (u8 m.body 0) = true → WentDown (s.devAt m.now) t (u8 m.body 0) 0x0F .txTune))

/-- A link leaves UP (R238, R244, R255, R256, R276) when every wavelength is dark, when the peer trains again, and with a second bad lane of
a direction, where S in use for a lost lane counts as one: to TX_TUNE, with the cause NO_LIGHT, PEER_RETRAIN or TOO_FEW_LANES. The frames of
the exit training of a sleeping peer are counted, one lane alone changes nothing, and a link that is not UP does not go dark. -/
def Obligations.LinksGoDown : Prop :=
  (∀ (p now : Nat) (s : State), s.dev.up p = true → p < 98 → (s.devAt now).mild 0x0101 →
    ∃ t, exec (.noLight p now) s = .next t ∧ WentDown (s.devAt now) t p 0x01 .txTune) ∧
  (∀ (p now : Nat) (s : State), s.dev.up p = false → ∃ t, exec (.noLight p now) s = .next t ∧ t.dev.rest = (s.devAt now).rest) ∧
  (∀ (p skew now : Nat) (l : List (Nat × Nat)) (s : State), (s.devAt now).fabric p = true → s.dev.up p = true →
    ((s.dev.port p).rxSleep = 0 ∨ (if (s.dev.port p).rxSleep = 1 then 2 else 16) ≤ (s.dev.port p).rxExit) →
    2 ≤ l.length → (s.devAt now).mild 0x0101 →
    ∃ t, exec (.trainingFrameRx p l skew now) s = .next t ∧ WentDown (s.devAt now) t p 0x10 .txTune) ∧
  (∀ (p skew now : Nat) (l : List (Nat × Nat)) (s : State), (s.devAt now).fabric p = true → s.dev.up p = true →
    ∃ t, exec (.trainingFrameRx p l skew now) s = .next t ∧
      ((s.dev.port p).rxSleep ≠ 0 → (s.dev.port p).rxExit < (if (s.dev.port p).rxSleep = 1 then 2 else 16) →
        t.dev.rest = ((s.devAt now).modPort p (fun x => { x with rxExit := x.rxExit + 1 })).rest) ∧
      (((s.dev.port p).rxSleep = 0 ∨ (if (s.dev.port p).rxSleep = 1 then 2 else 16) ≤ (s.dev.port p).rxExit) → l.length < 2 →
        t.dev.rest = (s.devAt now).rest)) ∧
  (∀ (p lane now : Nat) (r : LaneReason) (s : State), (s.devAt now).fabric p = true → s.dev.up p = true → lane ≤ 8 →
    (s.dev.port p).retired.contains lane = false → (s.dev.port p).retired ≠ [] → (s.devAt now).mild 0x0101 →
    ∃ t, exec (.laneFail p false lane r now) s = .next t ∧ WentDown (s.devAt now) t p 0x05 .txTune) ∧
  (∀ (p lane now : Nat) (r : LaneReason) (s : State), (s.devAt now).fabric p = true → s.dev.up p = true → lane ≤ 8 →
    (s.dev.port p).txLost.contains lane = false → (s.dev.port p).txLost ≠ [] → (s.devAt now).mild 0x0101 →
    ∃ t, exec (.laneFail p true lane r now) s = .next t ∧ WentDown (s.devAt now) t p 0x05 .txTune)

/-- The first bad lane of a direction (R243, R256): a receive lane is retired and its bit leaves the mask, a transmit lane is noted; the
link stays as it is, and where the lane is S itself SPARE_LOST is recorded. A lane that was retired already changes nothing, one that S
carries already is noted, and on a port that takes no flits, or for a lane that does not exist, nothing happens. Sleep (R245, R246): a
transmit direction that may sleep announces it in its last frame and sleeps to its wake tick, in S1 with lane 0's levels of R245; one that
may not is unchanged. Its sleep ends when the exit latency before the wake tick is reached, and not before. -/
def Obligations.LanesAreSparedAndSleep : Prop :=
  (
    (∀ (p lane now : Nat) (r : LaneReason) (s : State), (s.devAt now).takesFlits p = true → lane ≤ 8 → (s.dev.port p).retired = [] →
      (s.devAt now).mild 0x0104 →
      ∃ t, exec (.laneFail p false lane r now) s = .next t ∧ (t.dev.port p).retired = [lane] ∧ bit (t.dev.port p).rxMask lane = false ∧
        (t.dev.port p).state = (s.dev.port p).state ∧ (∀ q, q ≠ p → t.dev.port q = s.dev.port q) ∧ t.dev.ctxs = s.dev.ctxs ∧
        (lane = 8 → ∃ e ∈ t.dev.faults.ring, recSource e.bytes = 0x0104) ∧ (lane ≠ 8 → t.dev.faults = s.dev.faults)) ∧
    (∀ (p lane now : Nat) (r : LaneReason) (s : State), (s.devAt now).takesFlits p = true → lane ≤ 8 → (s.dev.port p).txLost = [] →
      (s.devAt now).mild 0x0104 →
      ∃ t, exec (.laneFail p true lane r now) s = .next t ∧ (t.dev.port p).txBad = [lane] ∧
        (t.dev.port p).state = (s.dev.port p).state ∧ (∀ q, q ≠ p → t.dev.port q = s.dev.port q) ∧ t.dev.ctxs = s.dev.ctxs ∧
        (lane = 8 → ∃ e ∈ t.dev.faults.ring, recSource e.bytes = 0x0104) ∧ (lane ≠ 8 → t.dev.faults = s.dev.faults)) ∧
    (∀ (p lane now : Nat) (r : LaneReason) (s : State), (s.devAt now).takesFlits p = true → lane ≤ 8 → (s.dev.port p).txLost.contains lane = true →
      ∃ t, exec (.laneFail p true lane r now) s = .next t ∧ (t.dev.port p).txBad.contains lane = true ∧
        (t.dev.port p).state = (s.dev.port p).state ∧ (∀ q, q ≠ p → t.dev.port q = s.dev.port q) ∧ t.dev.faults = s.dev.faults) ∧
    (∀ (p lane now : Nat) (b : Bool) (r : LaneReason) (s : State), ((s.devAt now).takesFlits p = false ∨ 8 < lane ∨
        b = false ∧ (s.dev.port p).retired.contains lane = true) →
      ∃ t, exec (.laneFail p b lane r now) s = .next t ∧ t.dev.rest = (s.devAt now).rest)) ∧
  (
    (∀ (p level wake now : Nat) (s : State), (s.devAt now).fabric p = true → s.dev.up p = true → (s.dev.port p).txSleep = 0 →
      (s.devAt now).maySleep p level ((s.devAt now).tick + 64) wake = true →
      ∃ t, exec (.sleepEnter p level wake now) s = .next t ∧ (t.dev.port p).txSleep = level ∧ (t.dev.port p).wakeTick = wake ∧
        (t.dev.port p).sleepSince = (s.devAt now).tick + 64 ∧ (t.dev.port p).state = .up ∧ t.dev.ctxs = s.dev.ctxs ∧ t.dev.faults = s.dev.faults ∧
        (∀ q, q ≠ p → (t.dev.port q).state = (s.dev.port q).state) ∧
        (s.dev.darkPort p = false → ∃ b l, Sent.frame p b l ∈ t.dev.sent ∧ fld b 0 2 = 0xC3A5 ∧ u8 b 5 = level ∧ fld b 8 8 = wake % 2 ^ 64) ∧
        (level = 1 → s.dev.darkPort p = false → Sent.quiet p 0 [3, -3] ∈ t.dev.sent)) ∧
    (∀ (p level wake now : Nat) (s : State), ((s.devAt now).maySleep p level ((s.devAt now).tick + 64) wake = false ∨
        (s.devAt now).fabric p = false ∨ s.dev.up p = false ∨ (s.dev.port p).txSleep ≠ 0) →
      ∃ t, exec (.sleepEnter p level wake now) s = .next t ∧ t.dev.rest = (s.devAt now).rest) ∧
    (∀ (p now : Nat) (s : State), (s.dev.port p).txSleep ≠ 0 →
      (s.dev.port p).wakeTick ≤ (s.devAt now).tick + (if (s.dev.port p).txSleep = 1 then 128 else 1024) →
      ∃ t, exec (.sleepExit p now) s = .next t ∧ (t.dev.port p).txSleep = 0 ∧ (t.dev.port p).state = (s.dev.port p).state ∧
        (∀ q, q ≠ p → t.dev.port q = s.dev.port q) ∧ t.dev.ctxs = s.dev.ctxs ∧ t.dev.faults = s.dev.faults) ∧
    (∀ (p now : Nat) (s : State), ((s.dev.port p).txSleep = 0 ∨
      (s.devAt now).tick + (if (s.dev.port p).txSleep = 1 then 128 else 1024) < (s.dev.port p).wakeTick) →
      ∃ t, exec (.sleepExit p now) s = .next t ∧ t.dev.rest = (s.devAt now).rest))

/-- HEATER_MEASURE (R249, R250): the heater powers of the port's rings are kept, its smallest headrooms are P x 3.125 K and (12 mW - P) x
3.125 K over them, up to 255 K, and headroom_low is set below the limit and cleared 2 K above it, each change with its event; the lane of a
ring whose heater stands at an end of its range fails. A disabled port, a measurement of no ring of the port, and a device with its heaters
off are unchanged. The first line of a WDM feed that is missing (R243, R256) leaves the other eight, is recorded, and on a port that takes
flits marks its lane for the spare; a line too strong is recorded, and LINK_OPTICS shows what was measured (R249, R253, R256). -/
def Obligations.HeadroomAndOneLineAreReported : Prop :=
  (
    (∀ (p now least : Nat) (tx rx powers : List (Nat × Nat)) (rings : Table Nat) (s : State), powers = ringPowers tx rx →
      (s.dev.port p).state ≠ .disabled →
      s.dev.power.heatersOff = false → (s.devAt now).ownRings p powers ≠ [] →
      (∀ e ∈ (s.devAt now).ownRings p powers, 0 < e.2 ∧ e.2 < heaterMax) → (s.devAt now).mild 0x0207 →
      rings = (s.devAt now).ringsAfter p powers → least = min (leastWarm rings) (leastCool rings) →
      ∃ t low, exec (.heaterMeasure p tx rx now) s = .next t ∧ (t.dev.port p).headroomLow = low ∧
        (least < 32 * (s.devAt now).headroomWarn p → low = true) ∧ (32 * ((s.devAt now).headroomWarn p + 2) ≤ least → low = false) ∧
        (32 * (s.devAt now).headroomWarn p ≤ least → least < 32 * ((s.devAt now).headroomWarn p + 2) → low = (s.dev.port p).headroomLow) ∧
        t.dev.rest = ((s.devAt now).modPort p (fun x =>
          { x with rings := rings, warm := min (leastWarm rings / 32) 0xFF, cool := min (leastCool rings / 32) 0xFF, headroomLow := low })).rest ∧
        (low ≠ (s.dev.port p).headroomLow → ∃ e ∈ t.dev.faults.ring, recSource e.bytes = 0x0207) ∧
        (low = (s.dev.port p).headroomLow → t.dev.faults = s.dev.faults)) ∧
    (∀ (p now lane power : Nat) (tx rx : List (Nat × Nat)) (s : State), (s.devAt now).ownRings p (ringPowers tx rx) = [(lane, power)] →
      (power = 0 ∨ heaterMax ≤ power) → lane < 9 → (s.devAt now).takesFlits p = true → s.dev.power.heatersOff = false →
      (s.dev.port p).txLost = [] → (s.devAt now).mild 0x0207 → (s.devAt now).mild 0x0104 →
      ∃ t, exec (.heaterMeasure p tx rx now) s = .next t ∧ (t.dev.port p).txBad = [lane] ∧ (t.dev.port p).state = (s.dev.port p).state ∧
        (∀ q, q ≠ p → t.dev.port q = s.dev.port q)) ∧
    (∀ (p now : Nat) (tx rx : List (Nat × Nat)) (s : State), ((s.devAt now).ownRings p (ringPowers tx rx) = [] ∨ (s.dev.port p).state = .disabled ∨
        s.dev.power.heatersOff = true) →
      ∃ t, exec (.heaterMeasure p tx rx now) s = .next t ∧ t.dev.rest = (s.devAt now).rest)) ∧
  (
    (∀ (p line power now : Nat) (s : State), (s.devAt now).fabric p = true → (s.devAt now).feedWatched p = true → line ≤ 8 →
      (s.dev.port p).feedLines = 511 → (s.dev.port p).txLost = [] → (s.devAt now).mild 0x0202 → (s.devAt now).mild 0x0104 →
      ∃ t, exec (.laserLineMissing p line power now) s = .next t ∧ (t.dev.port p).lines = 511 - 2 ^ line ∧
        (t.dev.port p).feedPower = power % 65536 ∧ (t.dev.port p).state = (s.dev.port p).state ∧
        (t.dev.port p).txBad = (if (s.devAt now).takesFlits p then [line] else []) ∧
        (∃ e ∈ t.dev.faults.ring, recSource e.bytes = 0x0202) ∧ (∀ q, q ≠ p → t.dev.port q = s.dev.port q) ∧ t.dev.ctxs = s.dev.ctxs) ∧
    (∀ (p power now : Nat) (s : State), (s.devAt now).feedWatched p = true → (s.devAt now).mild 0x0206 →
      ∃ t, exec (.laserPowerHigh p power now) s = .next t ∧
        t.dev.rest = ((s.devAt now).modPort p (fun x => { x with feedPower := (s.devAt now).leastPower p power })).rest ∧
        ∃ e ∈ t.dev.faults.ring, recSource e.bytes = 0x0206))

/-- Laser feeds (R253, R256): a feed that is lost, of the wrong polarization, of the wrong plan in TX_TUNE, or without two lines or more,
takes its port to FAULT with the cause of its case, sets what LINK_OPTICS shows, and is recorded; a port that is not watched, a line of a
port that has no WDM feed, a wrong plan past TX_TUNE, and a line that is missing already change nothing. The cause stands in the record's
status by the model's choice (log entry 54), which no clause names. -/
def Obligations.FeedFaultsTakeThePortDown : Prop :=
  (∀ (p now lines line power src cause : Nat) (c : Instr) (f : Port → Port) (s : State), (s.devAt now).feedWatched p = true →
    ((c = .laserFeedLost p now ∧ src = 0x0201 ∧ cause = 0x06 ∧ f = fun x => { x with feedState := 3, lines := 0, feedPower := 0x8000 }) ∨
      (c = .laserLinesMissing p lines power now ∧ (s.devAt now).fabric p = true ∧ src = 0x0203 ∧ cause = 0x07 ∧
        f = fun x => { x with lines := lines % 512, feedPower := power % 65536 }) ∨
      (c = .laserLineMissing p line power now ∧ (s.devAt now).fabric p = true ∧ line ≤ 8 ∧ bit (s.dev.port p).feedLines line = true ∧
        (s.dev.port p).feedLines ≠ 511 ∧ src = 0x0203 ∧ cause = 0x07 ∧
        f = fun x => { x with lines := ((s.dev.port p).feedLines - 2 ^ line) % 512, feedPower := power % 65536 }) ∨
      (c = .laserPolarization p now ∧ src = 0x0204 ∧ cause = 0x08 ∧ f = fun x => { x with feedState := 1 }) ∨
      (c = .laserPlanMismatch p now ∧ (s.dev.port p).state = .txTune ∧ src = 0x0205 ∧ cause = 0x09 ∧ f = fun x => { x with feedState := 2 })) →
    (s.devAt now).mild src → (s.dev.up p = true → (s.devAt now).mild 0x0101) →
    ∃ t, exec c s = .next t ∧ (t.dev.port p).state = .fault ∧ (t.dev.port p).cause = cause ∧
      (t.dev.port p).feedState = (f (s.dev.port p)).feedState ∧ (t.dev.port p).lines = (f (s.dev.port p)).lines ∧
      (t.dev.port p).feedPower = (f (s.dev.port p)).feedPower ∧ (∃ e ∈ t.dev.faults.ring, recSource e.bytes = src) ∧
      (∀ q, q ≠ p → (t.dev.port q).state = (s.dev.port q).state)) ∧
  (∀ (p now lines power : Nat) (c : Instr) (s : State),
    ((s.devAt now).feedWatched p = false ∧ (c = .laserFeedLost p now ∨ c = .laserLinesMissing p lines power now ∨ c = .laserPolarization p now ∨
        c = .laserPlanMismatch p now ∨ c = .laserLineMissing p lines power now ∨ c = .laserPowerHigh p power now) ∨
      (s.devAt now).fabric p = false ∧ (c = .laserLinesMissing p lines power now ∨ c = .laserLineMissing p lines power now) ∨
      (8 < lines ∨ bit (s.dev.port p).feedLines lines = false) ∧ c = .laserLineMissing p lines power now ∨
      (s.dev.port p).state ≠ .txTune ∧ c = .laserPlanMismatch p now) →
    ∃ t, exec c s = .next t ∧ t.dev.rest = (s.devAt now).rest)

/-- Link frames (R229 to R233). A received one on a port that takes flits marks the slots its bad codewords touch, or every slot where the
header is bad, which is counted; where no lane exceeds its corrections, the link stays as it is, and a good header's sleep level is taken.
In HANDSHAKE, once the peer has counted down, the fourth good header passes a port that sends to CALIBRATE (R238); elsewhere nothing
happens. LINK_FRAME_TX (R229, R230, R265, R359): a transmitter that sends data frames sends one under the next frame number, with the sync
pattern, its number and a right header checksum, and no link changes its state; an error of the queue cell that the next flit comes from is
recorded, 0x0A01 where it was corrected and 0x0A03 where it was not. A transmitter that sends no frames sends nothing. -/
def Obligations.LinkFramesCrossTheLink : Prop :=
  (
    (∀ (p now : Nat) (h : Bytes) (bad corrected : List Nat) (s : State), (s.devAt now).takesFlits p = true →
      (s.dev.port p).windowFrames < 65536 → (∀ l, l < 9 → tget 0 (s.dev.port p).corrWindow l + corrected.getD l 0 ≤ 2048) →
      (s.devAt now).mild 0x0103 →
      ∃ t, exec (.linkFrameRx p h bad corrected now) s = .next t ∧ (t.dev.port p).state = (s.dev.port p).state ∧
        (t.dev.port p).damaged = (if frameBad h then List.range 75 else damagedSlots bad) ∧
        (frameBad h = false → (t.dev.port p).rxSleep = u8 h 5) ∧
        (frameBad h = true → t.dev.ctr (ctrIdx 2 p 0x04) = ((s.devAt now).ctr (ctrIdx 2 p 0x04) + 1) % 2 ^ 64 ∧ t.dev.jobs = s.dev.jobs) ∧
        (∀ q, q ≠ p → t.dev.port q = s.dev.port q) ∧ t.dev.ctxs = s.dev.ctxs) ∧
    (∀ (p now : Nat) (h : Bytes) (bad corrected : List Nat) (s : State), (s.devAt now).fabric p = true → (s.dev.port p).state = .handshake →
      (s.dev.port p).countdown ≠ 0 → frameBad h = false → (s.devAt now).mild 0x0103 →
      ∃ t, exec (.linkFrameRx p h bad corrected now) s = .next t ∧
        (t.dev.port p).state = (if (s.dev.port p).sending = true ∧ 4 ≤ (s.dev.port p).dataRun + 1 then .calibrate else .handshake) ∧
        ((t.dev.port p).state = .handshake → (t.dev.port p).dataRun = (s.dev.port p).dataRun + 1) ∧
        (∀ q, q ≠ p → t.dev.port q = s.dev.port q) ∧ t.dev.ctxs = s.dev.ctxs) ∧
    (∀ (p now : Nat) (h : Bytes) (bad corrected : List Nat) (s : State), (s.devAt now).takesFlits p = false →
      ((s.dev.port p).state ≠ .handshake ∨ (s.devAt now).fabric p = false ∨ (s.dev.port p).countdown = 0) →
      ∃ t, exec (.linkFrameRx p h bad corrected now) s = .next t ∧ t.dev.rest = (s.devAt now).rest)) ∧
  (
    (∀ (p now : Nat) (cell : EccResult) (s : State), (s.devAt now).sendsFrames p = true → s.dev.darkPort p = false →
      (cell = .uncorrectable → (s.devAt now).mild 0x0A03) →
      ∃ t b l, exec (.linkFrameTx p now cell) s = .next t ∧ Sent.frame p b l ∈ t.dev.sent ∧ fld b 0 2 = 0xC3A5 ∧
        fld b 16 8 = (s.dev.port p).frameCount % 2 ^ 64 ∧ fld b 36 4 = crc32c (b.take 36) ∧
        (t.dev.port p).frameCount = ((s.dev.port p).frameCount + 1) % 2 ^ 64 ∧ (∀ q, (t.dev.port q).state = (s.dev.port q).state) ∧
        t.dev.ctxs = s.dev.ctxs ∧ t.dev.jobs = s.dev.jobs ∧ (cell = .clean → t.dev.faults = s.dev.faults) ∧
        ((((s.devAt now).pullTo p).nextVc p).isSome = true → cell = .corrected → ∃ e ∈ t.dev.faults.ring, recSource e.bytes = 0x0A01) ∧
        ((((s.devAt now).pullTo p).nextVc p).isSome = true → cell = .uncorrectable → ∃ e ∈ t.dev.faults.ring, recSource e.bytes = 0x0A03)) ∧
    (∀ (p now : Nat) (cell : EccResult) (s : State), (s.devAt now).sendsFrames p = false →
      ∃ t, exec (.linkFrameTx p now cell) s = .next t ∧ t.dev.rest = (s.devAt now).rest))

/-- DATA_FLIT_RX (R231, R261, R271): the flit with the expected number is taken and the next one expected; one before it is counted as a
duplicate; one after it, and any flit of either kind in a damaged slot or with a bad trailer, asks for the expected number by NAK, unless
that is under way. Where the port takes no flits, and for a trailer of the other kind of flit or of IDLE, nothing happens. -/
def Obligations.DataFlitsComeInOrder : Prop :=
  (∀ (p slot tr now : Nat) (x : Bytes) (s : State), (s.devAt now).takesFlits p = true → (s.dev.port p).damaged.contains slot = false →
    trBad tr = false → trType tr ≠ 0 → trType tr ≠ 5 → trSeq tr = (s.dev.port p).rxExpected →
    ∃ t, exec (.dataFlitRx p slot tr x now) s = .next t ∧ (t.dev.port p).rxExpected = ((s.dev.port p).rxExpected + 1) % 2 ^ 24 ∧
      (t.dev.port p).nakFor = none ∧ (t.dev.port p).state = (s.dev.port p).state ∧ t.dev.ctxs = s.dev.ctxs ∧ t.dev.jobs = s.dev.jobs ∧
      t.dev.clock = (s.devAt now).clock) ∧
  (∀ (p slot tr now : Nat) (x : Bytes) (s : State), (s.devAt now).takesFlits p = true → (s.dev.port p).damaged.contains slot = false →
    trBad tr = false → trType tr ≠ 0 → trType tr ≠ 5 → trSeq tr ≠ (s.dev.port p).rxExpected →
    serialAfter 24 (trSeq tr) (s.dev.port p).rxExpected = false →
    ∃ t, exec (.dataFlitRx p slot tr x now) s = .next t ∧ t.dev.rest = (s.devAt now).rest ∧
      t.dev.ctrs = ((s.devAt now).countPort p 0x1E 1).ctrs) ∧
  (∀ (p slot tr now : Nat) (x : Bytes) (c : Instr) (s : State), (s.devAt now).takesFlits p = true →
    (((s.dev.port p).damaged.contains slot = true ∨ trBad tr = true) ∧ (c = .dataFlitRx p slot tr x now ∨ c = .ctrlFlitRx p slot tr x now) ∨
      c = .dataFlitRx p slot tr x now ∧ trBad tr = false ∧ trType tr ≠ 0 ∧ trType tr ≠ 5 ∧
      trSeq tr ≠ (s.dev.port p).rxExpected ∧ serialAfter 24 (trSeq tr) (s.dev.port p).rxExpected = true) →
    ∃ t, exec c s = .next t ∧
      ((s.dev.port p).nakFor ≠ some (s.dev.port p).rxExpected ∨ (s.dev.port p).nakTick + (s.devAt now).retryTicks p ≤ (s.devAt now).tick →
        (t.dev.port p).nakFor = some (s.dev.port p).rxExpected ∧ (t.dev.port p).nakTick = (s.devAt now).tick ∧
        (t.dev.port p).ctrlNak = true ∧ (t.dev.port p).ctrlDue.isSome = true) ∧
      ((s.dev.port p).nakFor = some (s.dev.port p).rxExpected → (s.devAt now).tick < (s.dev.port p).nakTick + (s.devAt now).retryTicks p →
        t.dev.rest = (s.devAt now).rest) ∧
      (t.dev.port p).rxExpected = (s.dev.port p).rxExpected ∧
      (∀ q, q ≠ p → t.dev.port q = s.dev.port q) ∧ t.dev.ctxs = s.dev.ctxs ∧ t.dev.jobs = s.dev.jobs) ∧
  (∀ (p slot tr now : Nat) (x : Bytes) (c : Instr) (s : State), (c = .dataFlitRx p slot tr x now ∨ c = .ctrlFlitRx p slot tr x now) →
    ((s.devAt now).takesFlits p = false ∨ (s.dev.port p).damaged.contains slot = false ∧ trBad tr = false ∧
      (c = .dataFlitRx p slot tr x now ∧ (trType tr = 0 ∨ trType tr = 5) ∨ c = .ctrlFlitRx p slot tr x now ∧ trType tr ≠ 5)) →
    ∃ t, exec c s = .next t ∧ t.dev.rest = (s.devAt now).rest)

/-- CTRL_FLIT_RX and RETRY_TIMER (R270, R272, R275): a control flit frees what it acknowledges and sets the credit limits; a NAK, but one
that repeats the number of a replay within a retry timer, and the retry timer over the oldest retained flit, begin a replay, and after the
eighth without an acknowledgement take the link down with cause RETRY_EXHAUSTED; where nothing is retained no replay begins. A control flit
of another version is counted and changes nothing; an unexpired timer changes nothing. -/
def Obligations.RetryFreesReplaysAndGivesUp : Prop :=
  (∀ (p slot tr now : Nat) (x : Bytes) (s : State), (s.devAt now).takesFlits p = true → (s.dev.port p).damaged.contains slot = false →
    trBad tr = false → trType tr = 5 → u8 x 0 = 1 → bit (u8 x 1) 0 = false →
    ∃ t, exec (.ctrlFlitRx p slot tr x now) s = .next t ∧
      (t.dev.port p).retained = (s.dev.port p).retained.filter (fun r => !serialAfter 24 (bits (fld x 4 4) 23 0) r.seq) ∧
      (∀ v, 2 ≤ v → v < 8 → tget 0 (t.dev.port p).limit v = fld x (8 + 4 * (v - 2)) 4) ∧ (t.dev.port p).state = (s.dev.port p).state ∧
      (∀ q, q ≠ p → t.dev.port q = s.dev.port q) ∧ t.dev.ctxs = s.dev.ctxs ∧ t.dev.faults = s.dev.faults) ∧
  (∀ (p slot tr now e : Nat) (x : Bytes) (s : State), (s.devAt now).takesFlits p = true → (s.dev.port p).damaged.contains slot = false →
    trBad tr = false → trType tr = 5 → u8 x 0 = 1 → bit (u8 x 1) 0 = true → e = bits (fld x 4 4) 23 0 →
    (s.dev.port p).retained.filter (fun r => !serialAfter 24 e r.seq) ≠ [] → (s.dev.port p).replays = 0 →
    ∃ t, exec (.ctrlFlitRx p slot tr x now) s = .next t ∧ (t.dev.port p).replayPos = some e ∧ (t.dev.port p).replays = 1 ∧
      (t.dev.port p).state = (s.dev.port p).state ∧ (∀ q, q ≠ p → t.dev.port q = s.dev.port q) ∧ t.dev.faults = s.dev.faults) ∧
  (∀ (p slot tr now e : Nat) (x : Bytes) (s : State), (s.devAt now).takesFlits p = true → (s.dev.port p).damaged.contains slot = false →
    trBad tr = false → trType tr = 5 → u8 x 0 = 1 → bit (u8 x 1) 0 = true → e = bits (fld x 4 4) 23 0 →
    (s.dev.port p).retained.filter (fun r => !serialAfter 24 e r.seq) = (s.dev.port p).retained → (s.dev.port p).replays ≠ 0 →
    ∃ t, exec (.ctrlFlitRx p slot tr x now) s = .next t ∧
      ((s.dev.port p).retained = [] ∨ (s.dev.port p).replayFrom = e ∧ (s.devAt now).tick < (s.dev.port p).replayTick + (s.devAt now).retryTicks p →
        (t.dev.port p).replayPos = (s.dev.port p).replayPos ∧ (t.dev.port p).replays = (s.dev.port p).replays ∧
          (t.dev.port p).state = (s.dev.port p).state) ∧
      ((s.dev.port p).retained ≠ [] → ((s.dev.port p).replayFrom ≠ e ∨ (s.dev.port p).replayTick + (s.devAt now).retryTicks p ≤ (s.devAt now).tick) →
        ((s.dev.port p).replays < 8 → (t.dev.port p).replayPos = some e ∧ (t.dev.port p).replays = (s.dev.port p).replays + 1 ∧
          (t.dev.port p).state = (s.dev.port p).state) ∧
        (8 ≤ (s.dev.port p).replays → s.dev.up p = true → (s.devAt now).mild 0x0101 → WentDown (s.devAt now) t p 0x0B .txTune))) ∧
  (∀ (p slot tr now : Nat) (x : Bytes) (s : State), (s.devAt now).takesFlits p = true → (s.dev.port p).damaged.contains slot = false →
    trBad tr = false → trType tr = 5 → u8 x 0 ≠ 1 →
    ∃ t, exec (.ctrlFlitRx p slot tr x now) s = .next t ∧ t.dev.rest = (s.devAt now).rest ∧
      t.dev.ctrs = ((s.devAt now).countPort p 0x1D 1).ctrs) ∧
  (∀ (p now : Nat) (r : Retained) (l : List Retained) (s : State), (s.dev.port p).retained = r :: l →
    max r.tick (s.dev.port p).ackTick + (s.devAt now).retryTicks p ≤ (s.devAt now).tick → (s.dev.port p).replays < 8 →
    ∃ t, exec (.retryTimer p now) s = .next t ∧ (t.dev.port p).replayPos = some r.seq ∧ (t.dev.port p).replays = (s.dev.port p).replays + 1 ∧
      (t.dev.port p).retained = (s.dev.port p).retained ∧ (t.dev.port p).state = (s.dev.port p).state ∧
      (∀ q, q ≠ p → t.dev.port q = s.dev.port q) ∧ t.dev.ctxs = s.dev.ctxs) ∧
  (∀ (p now : Nat) (r : Retained) (l : List Retained) (s : State), (s.dev.port p).retained = r :: l →
    max r.tick (s.dev.port p).ackTick + (s.devAt now).retryTicks p ≤ (s.devAt now).tick → 8 ≤ (s.dev.port p).replays → s.dev.up p = true →
    (s.devAt now).mild 0x0101 →
    ∃ t, exec (.retryTimer p now) s = .next t ∧ WentDown (s.devAt now) t p 0x0B .txTune) ∧
  (∀ (p now : Nat) (s : State), ((s.dev.port p).retained = [] ∨ ∃ r l, (s.dev.port p).retained = r :: l ∧
      (s.devAt now).tick < max r.tick (s.dev.port p).ackTick + (s.devAt now).retryTicks p) →
    ∃ t, exec (.retryTimer p now) s = .next t ∧ t.dev.rest = (s.devAt now).rest)

/-- PACKET_HEAD_RX (R262, R265) on a port that is UP: a head of more than one flit on an input VC without an open packet opens its packet,
which needs the flits of its length; a packet of one flit ends with its head; a head that fails check 1 is dropped and counted, one that is
passed on waits for its output. No link, context or job changes, whatever was open on the VC. On a port that is not UP, and for a flit that
is no head, nothing happens. HEAD_START (R286, R297, R316, R362) on an output VC of a port that is UP, once the writes that are due to the
output and heads of earlier link sessions have gone: the winner among the heads that wait leaves its wait and, where its tail has not come,
holds the output VC; a checkpoint packet leaves in its frame; a load-balanced head that its Ethernet output refuses is dropped and counted;
where none may start no head leaves; with nothing waiting nothing more happens. On a port that is not UP, and on a device held by a fatal
fault, nothing happens. -/
def Obligations.HeadsOpenAndStart : Prop :=
  (
    (∀ (p v now : Nat) (h : Bytes) (s : State), s.dev.up p = true → (s.devAt now).rxFate p v = none → 2 ≤ flitsOf (rhLength h) →
      ∃ t o, exec (.packetHeadRx p v 1 h now) s = .next t ∧ t.dev.rxFate p v = some o ∧ o.head = h ∧ o.got = [] ∧ o.need = flitsOf (rhLength h) ∧
        ((s.devAt now).headBad p v h = true → o.fate = .dropped ∧
          t.dev.ctr (ctrIdx 2 p 0x21) = ((s.devAt now).ctr (ctrIdx 2 p 0x21) + 1) % 2 ^ 64 ∧ (t.dev.port p).waiting = (s.dev.port p).waiting) ∧
        (o.fate = .forwarded → ∃ w, (t.dev.port p).waiting = (s.dev.port p).waiting ++ [w] ∧ w.inPort = p ∧ w.inVc = v ∧ w.head = h ∧
          w.flits = flitsOf (rhLength h) ∧ w.complete = false)) ∧
    (∀ (p v now : Nat) (h : Bytes) (s : State), s.dev.up p = true → (s.devAt now).rxFate p v = none → flitsOf (rhLength h) = 1 →
      ∃ t, exec (.packetHeadRx p v 4 h now) s = .next t ∧ t.dev.rxFate p v = none ∧
        ((s.devAt now).headBad p v h = true → t.dev.ctr (ctrIdx 2 p 0x21) = ((s.devAt now).ctr (ctrIdx 2 p 0x21) + 1) % 2 ^ 64) ∧
        ((t.dev.port p).waiting = (s.dev.port p).waiting ∨ ∃ w, (t.dev.port p).waiting = (s.dev.port p).waiting ++ [w] ∧ w.inPort = p ∧
          w.inVc = v ∧ w.head = h ∧ w.complete = true)) ∧
    (∀ (p v ftype now : Nat) (h : Bytes) (s : State), s.dev.up p = true → (ftype = 1 ∨ ftype = 4) →
      ∃ t, exec (.packetHeadRx p v ftype h now) s = .next t ∧ (∀ q, (t.dev.port q).state = (s.dev.port q).state) ∧ t.dev.ctxs = s.dev.ctxs ∧
        t.dev.jobs = s.dev.jobs ∧ t.dev.clock = (s.devAt now).clock) ∧
    (∀ (p v ftype now : Nat) (h : Bytes) (s : State), (s.dev.up p = false ∨ (ftype ≠ 1 ∧ ftype ≠ 4)) →
      ∃ t, exec (.packetHeadRx p v ftype h now) s = .next t ∧ t.dev.rest = (s.devAt now).rest)) ∧
  (
    (∀ (p v a now : Nat) (w : Waiting) (d : Dev) (s : State), s.dev.up p = true → s.dev.faults.held = false →
      d = ((s.devAt now).pullTo p).dropStaleHeads p v → d.winner p v = some (a, w) → w.rdma = none →
      (w.dlb = true → d.ethRefuses p w.head = none) →
      ∃ t, exec (.headStart p v now) s = .next t ∧
        (∀ q, ∃ l, (t.dev.port q).waiting = (if q = a then updFirst w (fun _ => none) (d.port a).waiting else (d.port q).waiting) ++ l ∧
          ∀ u ∈ l, u.rdma.isSome = true) ∧
        (∀ q, (t.dev.port q).state = (s.dev.port q).state) ∧
        (w.complete = false → tget 0 (t.dev.port p).holder v = inputCode w.inPort w.inVc) ∧ t.dev.ctxs = s.dev.ctxs) ∧
    (∀ (p v a now : Nat) (w : Waiting) (r : RdmaOut) (q : Qp) (d : Dev) (s : State), s.dev.up p = true → s.dev.faults.held = false →
      d = ((s.devAt now).pullTo p).dropStaleHeads p v → d.winner p v = some (a, w) → w.rdma = some r → w.dlb = false →
      s.dev.darkPort p = false → q = tget Qp.none s.dev.keeper.qps r.qp →
      ∃ t, exec (.headStart p v now) s = .next t ∧
        Sent.rdma p q.remoteMac q.remoteIp q.remoteQpn r.psn r.write q.rkey r.va r.bytes ∈ t.dev.sent ∧ t.dev.ctxs = s.dev.ctxs) ∧
    (∀ (p v a now c : Nat) (w : Waiting) (d : Dev) (s : State), s.dev.up p = true → s.dev.faults.held = false →
      d = ((s.devAt now).pullTo p).dropStaleHeads p v → d.winner p v = some (a, w) → w.dlb = true → d.ethRefuses p w.head = some c →
      ∃ t, exec (.headStart p v now) s = .next t ∧
        (∀ q, (t.dev.port q).waiting = if q = a then updFirst w (fun _ => none) (d.port a).waiting else (d.port q).waiting) ∧
        t.dev.ctr (ctrIdx 2 p c) = (d.countPort p c 1).ctr (ctrIdx 2 p c) ∧ t.dev.ctxs = s.dev.ctxs) ∧
    (∀ (p v now : Nat) (d : Dev) (s : State), s.dev.up p = true → s.dev.faults.held = false →
      d = ((s.devAt now).pullTo p).dropStaleHeads p v → d.winner p v = none →
      ∃ t, exec (.headStart p v now) s = .next t ∧ (∀ q, (t.dev.port q).waiting.length = (d.port q).waiting.length) ∧
        (∀ q, (t.dev.port q).state = (s.dev.port q).state) ∧ t.dev.ctxs = s.dev.ctxs ∧
        ((∀ u ∈ d.waits, d.wantsOut p v u.2 = false) → t.dev.rest = d.rest)) ∧
    (∀ (p v now : Nat) (s : State), (s.dev.up p = false ∨ s.dev.faults.held = true) →
      ∃ t, exec (.headStart p v now) s = .next t ∧ t.dev.rest = (s.devAt now).rest))

/-- ESCAPE_ENTER (R285, R287, R297): the first head of an input VC that has waited escape_wait ticks and can start nowhere moves to VC7 of
path 0 with escaped set, where the turn rule lets it and the output does not refuse it, and is else discarded and counted; a head that has
not waited so long, or that can start, stays, and without such a head nothing happens. A window boundary (R13, R222, R320), within the first
two ticks of a window and once in it, puts every output's gate where the claims of the RUNNING jobs have it: closed in the windows that
their schedules claim of the port, open in the others. At another tick nothing happens. -/
def Obligations.EscapesAndGatesAct : Prop :=
  (
    (∀ (p v a now : Nat) (w : Waiting) (s : State),
      (s.devAt now).firsts.find? (fun w => w.1 == p && w.2.inPort == p && w.2.inVc == v && w.2.outVc != 7 && w.2.rdma.isNone) = some (a, w) →
      ((s.devAt now).tick < w.arrive + (s.devAt now).escapeWait ∨ (∃ q ∈ (s.devAt now).pathsOf w, s.dev.up q = true ∧ (s.devAt now).ready w q w.outVc = true) →
        ∃ t, exec (.escapeEnter p v now) s = .next t ∧ t.dev.rest = (s.devAt now).rest) ∧
      (w.arrive + (s.devAt now).escapeWait ≤ (s.devAt now).tick →
        (∀ q ∈ (s.devAt now).pathsOf w, s.dev.up q = false ∨ (s.devAt now).ready w q w.outVc = false) →
        ∃ t, exec (.escapeEnter p v now) s = .next t ∧
          (turnOk 7 ((s.devAt now).direction p) ((s.devAt now).direction ((s.devAt now).escapePort w)) = true →
            (s.devAt now).ethRefuses ((s.devAt now).escapePort w) w.head = none → ∃ u ∈ (t.dev.port a).waiting,
            u.outVc = 7 ∧ u.outPort = (s.devAt now).escapePort w ∧ u.inPort = p ∧ u.inVc = v ∧ bit (rhFlags u.head) 0 = true ∧ u.dlb = false ∧
              (t.dev.port a).waiting.length = (s.dev.port a).waiting.length) ∧
          (turnOk 7 ((s.devAt now).direction p) ((s.devAt now).direction ((s.devAt now).escapePort w)) = false →
            (t.dev.port a).waiting.length + 1 = (s.dev.port a).waiting.length ∧
              t.dev.ctr (ctrIdx 2 p 0x24) = ((s.devAt now).ctr (ctrIdx 2 p 0x24) + 1) % 2 ^ 64) ∧
          (∀ c, turnOk 7 ((s.devAt now).direction p) ((s.devAt now).direction ((s.devAt now).escapePort w)) = true →
            (s.devAt now).ethRefuses ((s.devAt now).escapePort w) w.head = some c → (t.dev.port a).waiting.length + 1 = (s.dev.port a).waiting.length ∧
              t.dev.ctr (ctrIdx 2 ((s.devAt now).escapePort w) c) =
                ((s.devAt now).countPort ((s.devAt now).escapePort w) c 1).ctr (ctrIdx 2 ((s.devAt now).escapePort w) c)) ∧
          (∀ q, q ≠ a → { t.dev.port q with jobLevels := [] } = { s.dev.port q with jobLevels := [] }) ∧ t.dev.ctxs = s.dev.ctxs ∧
          t.dev.jobs = s.dev.jobs)) ∧
    (∀ (p v now : Nat) (s : State),
      (s.devAt now).firsts.find? (fun w => w.1 == p && w.2.inPort == p && w.2.inVc == v && w.2.outVc != 7 && w.2.rdma.isNone) = none →
      ∃ t, exec (.escapeEnter p v now) s = .next t ∧ t.dev.rest = (s.devAt now).rest)) ∧
  (
    (∀ (now : Nat) (s : State), (s.devAt now).tick / 325 ≠ s.dev.clock.window → (s.devAt now).tick % 325 < 2 →
      ∃ t, exec (.windowBoundary now) s = .next t ∧
      (∀ p w, p < 98 → ((t.dev.port p).gateOpen w = false ↔ ∃ e ∈ s.dev.jobs, e.2.state = .running ∧
        ∃ c ∈ scClaimList e.2.sched, clResource c = 0x1000 + p ∧ bit (clMask c) (w % 30) = true)) ∧
      (∀ p, (t.dev.port p).state = (s.dev.port p).state ∧ (t.dev.port p).outQ = (s.dev.port p).outQ) ∧
      t.dev.ctxs = s.dev.ctxs ∧ t.dev.jobs = s.dev.jobs ∧ t.dev.clock = { (s.devAt now).clock with window := (s.devAt now).tick / 325 }) ∧
    (∀ (now : Nat) (s : State), ((s.devAt now).tick / 325 = s.dev.clock.window ∨ 2 ≤ (s.devAt now).tick % 325) →
      ∃ t, exec (.windowBoundary now) s = .next t ∧ t.dev.rest = (s.devAt now).rest))

/-- ETH_FRAME_RX (R257, R259, R298, R362): a frame that is too long or too short, has a bad FCS or is flow control is counted under its
number and dropped; one for the port's address or a group address that is an Echo Request or a Neighbor Solicitation is answered; one that
is to be decapsulated and is not well formed, and a frame for an address that the L2 table does not list or lists at this port, are counted
and dropped; a device held by a fatal fault handles none, and the Keeper's own datagrams come by other commands. On a port that is not an
Ethernet-mode one or not UP nothing happens. OOB_FRAME_RX (R429): a frame with a right FCS for the out-of-band port's address, or a group
address, is answered where it is an Echo Request or Neighbor Solicitation for one of its addresses, and else counted and dropped; any other
frame is ignored. -/
def Obligations.EthernetAndOutOfBandFramesAct : Prop :=
  (
    (∀ (p now n : Nat) (f : Bytes) (ok : Bool) (s : State), (s.devAt now).ethernet p = true → s.dev.up p = true →
      (((9216 < f.length + 4 ∨ f.length + 4 < 64) ∧ n = 0x2A) ∨ (f.length + 4 ≤ 9216 ∧ 64 ≤ f.length + 4 ∧ ok = false ∧ n = 0x2B) ∨
        (f.length + 4 ≤ 9216 ∧ 64 ≤ f.length + 4 ∧ ok = true ∧ frType f = 0x8808 ∧ n = 0x2C)) →
      ∃ t, exec (.ethFrameRx p f ok now) s = .next t ∧ t.dev.rest = (s.devAt now).rest ∧
        t.dev.ctrs = (((s.devAt now).portBytes ((s.devAt now).frameAccount p f) p false (f.length + 4)).countPort p n 1).ctrs) ∧
    (∀ (p now : Nat) (f r e : Bytes) (s : State), (s.devAt now).ethernet p = true → s.dev.up p = true → f.length + 4 ≤ 9216 → 64 ≤ f.length + 4 →
      frType f ≠ 0x8808 → s.dev.faults.held = false → e = ((s.devAt now).ethEntry p).getD [] →
      (e ≠ [] ∧ frDst f = epLocalMac e ∨ isGroup (frDst f) = true) → isEncap e f (s.devAt now).encapUdp = false →
      (s.devAt now).ownRow p f = false → s.dev.keeper.up = true → keeperAnswer (epLocalMac e) [epLocalIp e] f = some r →
      s.dev.darkPort p = false →
      ((s.devAt now).poolTake .keeper (portHolder p) 0 f.length).1 = .taken →
      ∃ t, exec (.ethFrameRx p f true now) s = .next t ∧ Sent.eth p (r ++ fcsOf r) ∈ t.dev.sent ∧ t.dev.ctxs = s.dev.ctxs ∧
        t.dev.jobs = s.dev.jobs ∧ (∀ q, (t.dev.port q).state = (s.dev.port q).state)) ∧
    (∀ (p now : Nat) (f e : Bytes) (s : State), (s.devAt now).ethernet p = true → s.dev.up p = true → f.length + 4 ≤ 9216 → 64 ≤ f.length + 4 →
      frType f ≠ 0x8808 → e = ((s.devAt now).ethEntry p).getD [] → isEncap e f (s.devAt now).encapUdp = false →
      s.dev.faults.held = false → (e = [] ∨ frDst f ≠ epLocalMac e) → isGroup (frDst f) = false →
      (∀ r, (s.devAt now).l2Entry (frDst f) = some r → l2Port r = p) →
      ∃ t, exec (.ethFrameRx p f true now) s = .next t ∧ t.dev.ctr (ctrIdx 2 p 0x2E) = ((s.devAt now).ctr (ctrIdx 2 p 0x2E) + 1) % 2 ^ 64 ∧
        t.dev.ctxs = s.dev.ctxs ∧ t.dev.jobs = s.dev.jobs ∧ (∀ q, (t.dev.port q).waiting = (s.dev.port q).waiting)) ∧
    (∀ (p now : Nat) (f e : Bytes) (s : State), (s.devAt now).ethernet p = true → s.dev.up p = true → f.length + 4 ≤ 9216 → 64 ≤ f.length + 4 →
      frType f ≠ 0x8808 → e = ((s.devAt now).ethEntry p).getD [] → s.dev.faults.held = false → isEncap e f (s.devAt now).encapUdp = true →
      encapGood f = false →
      ∃ t, exec (.ethFrameRx p f true now) s = .next t ∧ t.dev.ctr (ctrIdx 2 p 0x2D) = ((s.devAt now).ctr (ctrIdx 2 p 0x2D) + 1) % 2 ^ 64 ∧
        t.dev.rest = (s.devAt now).rest) ∧
    (∀ (p now : Nat) (f e : Bytes) (s : State), (s.devAt now).ethernet p = true → s.dev.up p = true → f.length + 4 ≤ 9216 → 64 ≤ f.length + 4 →
      frType f ≠ 0x8808 → e = ((s.devAt now).ethEntry p).getD [] →
      (s.dev.faults.held = true ∨ isEncap e f (s.devAt now).encapUdp = false ∧ (e ≠ [] ∧ frDst f = epLocalMac e ∨ isGroup (frDst f) = true) ∧
        (s.devAt now).ownRow p f = true) →
      ∃ t, exec (.ethFrameRx p f true now) s = .next t ∧ t.dev.rest = (s.devAt now).rest) ∧
    (∀ (p now : Nat) (f : Bytes) (ok : Bool) (s : State), ((s.devAt now).ethernet p = false ∨ s.dev.up p = false) →
      ∃ t, exec (.ethFrameRx p f ok now) s = .next t ∧ t.dev.rest = (s.devAt now).rest)) ∧
  (
    (∀ (now : Nat) (f : Bytes) (s : State), s.dev.keeper.up = true → (frDst f = s.dev.keeper.oobMac ∨ isGroup (frDst f) = true) →
      ∃ t, exec (.oobFrameRx f true now) s = .next t ∧ t.dev.rest = (s.devAt now).rest ∧
        (∀ r, keeperAnswer s.dev.keeper.oobMac (s.devAt now).oobAddresses f = some r → Sent.eth 98 (r ++ fcsOf r) ∈ t.dev.sent ∧
          t.dev.ctrs = (s.devAt now).ctrs) ∧
        (keeperAnswer s.dev.keeper.oobMac (s.devAt now).oobAddresses f = none → t.dev.sent = s.dev.sent ∧
          t.dev.ctrs = ((s.devAt now).countDev 0x107 1).ctrs)) ∧
    (∀ (now : Nat) (f : Bytes) (ok : Bool) (s : State), (ok = false ∨ s.dev.keeper.up = false ∨
      (frDst f ≠ s.dev.keeper.oobMac ∧ isGroup (frDst f) = false)) →
      ∃ t, exec (.oobFrameRx f ok now) s = .next t ∧ t.dev.rest = (s.devAt now).rest ∧ t.dev.sent = s.dev.sent))

/-- GMP_TIME_INVALIDATE leaves the GTC INVALID with cause 7 and no upstream, its value unchanged (R200, R402). GMP_DEVICE_RESET starts a
warm or a cold reset after its reply (R371, R402, R411), a warm one only while the image is not BAD; asked for during a warm reset, it joins
that one (R368). The Keeper's watchdog, a device-fatal fault (R359, R360, R362, R372): a warm reset, or within 8 s of one a cold reset, or
with hold_on_fatal the hold, every job HALTED. A Keeper that is back after a warm reset serves again, and a job whose tables are bad is
unloaded; where no warm reset is under way nothing happens (R371). What a cold reset keeps is log entry 22's. -/
def Obligations.TimeIsInvalidatedAndResetsBegin : Prop :=
  (
    (∀ (m : GmpMsg) (s : State) (x : Session), Served timeInvalidateRequest m x (s.devAt m.now) →
      ∃ t, exec (.gmpTimeInvalidate m) s = .next t ∧ Answered t m 0x0051 ({} : Reply).body ∧ t.dev.clock.state = .invalid ∧
        t.dev.clock.cause = 7 ∧ t.dev.clock.upstream = 0x7F ∧ t.dev.clock.gtc = (s.devAt m.now).clock.gtc ∧ t.dev.ports = s.dev.ports ∧
        t.dev.ctxs = s.dev.ctxs) ∧
    (∀ (m : GmpMsg) (s : State) (x : Session), Served resetWarmRequest m x (s.devAt m.now) → s.dev.keeper.imageState ≠ .bad →
      s.dev.power.warm = none → ∃ t, exec (.gmpDeviceResetWarm m) s = .next t ∧ WarmReset false (s.devAt m.now) t ∧ t.flash = s.flash ∧
        (s.dev.power.cold = false → t.depths = s.depths)) ∧
    (∀ (m : GmpMsg) (s : State) (x : Session), Served resetWarmRequest m x (s.devAt m.now) → s.dev.keeper.imageState ≠ .bad →
      s.dev.power.warm.isSome = true → ∃ t, exec (.gmpDeviceResetWarm m) s = .next t ∧ Answered t m 0x0052 ({} : Reply).body ∧
        t.dev.rest = (s.devAt m.now).rest) ∧
    (∀ (m : GmpMsg) (s : State) (x : Session), Served resetWarmRequest m x (s.devAt m.now) → s.dev.keeper.imageState = .bad →
      ∃ t, exec (.gmpDeviceResetWarm m) s = .next t ∧ Answered t m 0x0052 ({ status := stRecoveryOnly } : Reply).body ∧
        t.dev.rest = (s.devAt m.now).rest) ∧
    (∀ (m : GmpMsg) (s : State) (x : Session), Served resetColdRequest m x (s.devAt m.now) →
      ∃ t, exec (.gmpDeviceResetCold m) s = .next t ∧ ColdReset (s.devAt m.now) t ∧ t.flash = s.flash)) ∧
  (
    (∀ (now : Nat) (s : State), (s.devAt now).effective { source := 0x0C02 } = 5 → s.dev.power.cold = false →
      ∃ t, exec (.keeperWatchdog now) s = .next t ∧ t.flash = s.flash ∧
        ((s.devAt now).nearWarm = true → ColdReset (s.devAt now) t) ∧
        ((s.devAt now).nearWarm = false → (s.devAt now).holdOnFatal = false → WarmReset true (s.devAt now) t) ∧
        ((s.devAt now).nearWarm = false → (s.devAt now).holdOnFatal = true → t.dev.faults.held = true ∧ t.depths = s.depths ∧
          ∀ j, (s.dev.job j).state ≠ .empty → (t.dev.job j).state = .halted)) ∧
    (∀ (now : Nat) (corrupt : List Nat) (s : State), s.dev.power.warm.isSome = true → s.dev.keeper.up = false →
      ∃ t, exec (.keeperRestarted corrupt now) s = .next t ∧ (∀ j ∈ corrupt, (t.dev.job j).state = .empty) ∧
        (corrupt = [] → t.dev.keeper.up = true ∧ t.dev.jobs = s.dev.jobs ∧ t.dev.ports = s.dev.ports ∧ t.dev.faults = s.dev.faults)) ∧
    (∀ (now : Nat) (corrupt : List Nat) (s : State), (s.dev.power.warm = none ∨ s.dev.keeper.up = true) →
      ∃ t, exec (.keeperRestarted corrupt now) s = .next t ∧ t.dev.rest = (s.devAt now).rest))

/-- The end of a unit's test or reset (R114, R366, R367, R370): one that passes and is not retired is in service, one that fails is retired
with its record, and a failed Basin's contexts, and those of a spare that stood in, run on a spare that is free. A spare that passes is on
standby, or goes on standing in. No other unit's state changes by a unit that passes. HBM_INTERFACE of severity 4 is recorded, and resets
its stack, unless that is down already, and halts every job with a frame there (R359, R360, R370); the recovery budget of a HALTED job
without a launch that passes is recorded once (R385), and otherwise nothing happens. When a warm reset is over is log entry 23's. -/
def Obligations.UnitsResetReturnOrRetire : Prop :=
  (
    (∀ (u now key : Nat) (c : Instr) (s : State),
      ((c = .bistComplete true u true now ∧ u < 8 ∧ key = tarnUnit u) ∨ (c = .bistComplete false u true now ∧ u < 48 ∧ key = u) ∨
        (c = .hbmStackReady u true now ∧ u < 8 ∧ key = stackUnit u)) →
      ∃ t, exec c s = .next t ∧ (∀ k, k ≠ key → t.dev.unit k = s.dev.unit k) ∧ t.dev.jobs = s.dev.jobs ∧ t.dev.ctxs = s.dev.ctxs ∧
        ((s.dev.unit key).state = .retired → t.dev.unit key = s.dev.unit key) ∧
        ((s.dev.unit key).state ≠ .retired → (t.dev.unit key).state = .inService ∧ (t.dev.unit key).ready = true)) ∧
    (∀ (u now key src : Nat) (c : Instr) (s : State),
      ((c = .bistComplete true u false now ∧ u < 8 ∧ key = tarnUnit u ∧ src = 0x0503) ∨
        (c = .hbmStackReady u false now ∧ u < 8 ∧ key = stackUnit u ∧ src = 0x0606)) →
      (∀ r : FaultRec, r.source = src → (s.devAt now).effective r ≤ 4) →
      ∃ t, exec c s = .next t ∧ (t.dev.unit key).state = .retired ∧ (t.dev.unit key).ready = false ∧
        (∃ e ∈ t.dev.faults.ring, recSource e.bytes = src) ∧ t.dev.ports = s.dev.ports) ∧
    (∀ (b z h now : Nat) (s : State), b < 50 → (s.devAt now).home b = h → h < 48 → s.dev.power.cold = false → z ≠ b →
      ((s.devAt now).spareFor b).or (s.devAt now).freeSpare = some z → (s.devAt now).mild 0x0402 →
      ∃ t, exec (.bistComplete false b false now) s = .next t ∧ (t.dev.unit b).state = .retired ∧ (t.dev.unit z).state = .standingIn ∧
        (t.dev.unit z).standsFor = h ∧ (tget {} t.dev.faults.classes 4).unacked = true ∧
        (∀ c, (s.dev.ctx c).state ≠ .free → (t.dev.ctx c).basin = if (s.dev.ctx c).basin = b then z else (s.dev.ctx c).basin)) ∧
    (∀ (b now : Nat) (s : State), b < 50 → (s.devAt now).home b < 48 → (s.devAt now).spareFor b = none → (s.devAt now).freeSpare = none →
      (s.devAt now).mild 0x0402 → (s.devAt now).mild 0x0403 →
      ∃ t, exec (.bistComplete false b false now) s = .next t ∧ (t.dev.unit b).state = .retired ∧ (tget {} t.dev.faults.classes 4).unacked = true ∧
        ∀ c, (t.dev.ctx c).basin = (s.dev.ctx c).basin) ∧
    (∀ (b now : Nat) (s : State), b = 48 ∨ b = 49 → 48 ≤ (s.dev.unit b).standsFor → (∀ e ∈ s.dev.ctxs, e.2.basin ≠ b) → (s.devAt now).mild 0x0402 →
      ∃ t, exec (.bistComplete false b false now) s = .next t ∧ (t.dev.unit b).state = .retired ∧ (t.dev.unit b).ready = false ∧
        (tget {} t.dev.faults.classes 4).unacked = true ∧ (∀ k, k ≠ b → t.dev.unit k = s.dev.unit k) ∧ t.dev.jobs = s.dev.jobs ∧
        t.dev.ctxs = s.dev.ctxs) ∧
    (∀ (b now : Nat) (s : State), b = 48 ∨ b = 49 → (s.dev.unit b).state ≠ .retired → ((∀ e ∈ s.dev.ctxs, e.2.basin ≠ b) ∨ (s.dev.unit b).state = .standingIn) →
      ∃ t, exec (.bistComplete false b true now) s = .next t ∧
        (t.dev.unit b).state = (if (s.dev.unit b).state = .standingIn then .standingIn else .standby) ∧ (t.dev.unit b).ready = true ∧
        (∀ k, k ≠ b → t.dev.unit k = s.dev.unit k) ∧ t.dev.jobs = s.dev.jobs ∧ t.dev.ctxs = s.dev.ctxs) ∧
    (∀ (u now : Nat) (c : Instr) (ok : Bool) (s : State), ((c = .bistComplete true u ok now ∨ c = .hbmStackReady u ok now) ∧ 8 ≤ u) ∨
      (c = .bistComplete false u ok now ∧ 50 ≤ u) →
      ∃ t, exec c s = .next t ∧ t.dev.units = s.dev.units ∧ t.dev.jobs = s.dev.jobs ∧ t.dev.ctxs = s.dev.ctxs) ∧
    (∀ (u now : Nat) (s : State), u < 8 → (s.dev.unit (tarnUnit u)).state = .resetting →
      ∃ t, exec (.tarnResetComplete u now) s = .next t ∧ (t.dev.unit (tarnUnit u)).state = .inService ∧ (t.dev.unit (tarnUnit u)).ready = true ∧
        (∀ k, k ≠ tarnUnit u → t.dev.unit k = s.dev.unit k) ∧ t.dev.jobs = s.dev.jobs) ∧
    (∀ (u now : Nat) (s : State), (8 ≤ u ∨ (s.dev.unit (tarnUnit u)).state ≠ .resetting) →
      ∃ t, exec (.tarnResetComplete u now) s = .next t ∧ t.dev.rest = (s.devAt now).rest ∧ t.dev.units = s.dev.units)) ∧
  (
    (∀ (st now : Nat) (s : State), st < 8 → (s.devAt now).effective { source := 0x0605, unit := some st } = 4 → s.dev.power.cold = false →
      s.dev.power.warm = none →
      ∃ t, exec (.hbmInterface st now) s = .next t ∧ (∃ e ∈ t.dev.faults.ring, recSource e.bytes = 0x0605) ∧ t.dev.ctxs = s.dev.ctxs ∧
        t.dev.ports = s.dev.ports ∧
        ((s.devAt now).unitDown (stackUnit st) = true → (t.dev.unit (stackUnit st)).state = (s.dev.unit (stackUnit st)).state ∧ t.dev.jobs = s.dev.jobs) ∧
        ((s.devAt now).unitDown (stackUnit st) = false → (t.dev.unit (stackUnit st)).state = .resetting ∧ (t.dev.unit (stackUnit st)).ready = false ∧
          ∀ j ∈ (s.devAt now).jobsOnStack st, (t.dev.job j).state = .halted)) ∧
    (∀ (st now : Nat) (s : State), 8 ≤ st → ∃ t, exec (.hbmInterface st now) s = .next t ∧ t.dev.rest = (s.devAt now).rest) ∧
    (∀ (j now : Nat) (s : State), (s.dev.job j).state = .halted → (s.dev.job j).launch = none → (s.dev.job j).budgetExceeded = false →
      (s.dev.job j).haltTick + (s.dev.job j).recoveryMs * msTicks ≤ (s.devAt now).time →
      ∃ t, exec (.recoveryOverrun j now) s = .next t ∧ t.dev.rest = ((s.devAt now).modJob j (fun x => { x with budgetExceeded := true })).rest ∧
        ∃ e ∈ t.dev.faults.ring, recSource e.bytes = 0x0E02) ∧
    (∀ (j now : Nat) (s : State), ((s.dev.job j).state ≠ .halted ∨ (s.dev.job j).launch ≠ none ∨ (s.dev.job j).budgetExceeded = true ∨
      (s.devAt now).time < (s.dev.job j).haltTick + (s.dev.job j).recoveryMs * msTicks) →
      ∃ t, exec (.recoveryOverrun j now) s = .next t ∧ t.dev.rest = (s.devAt now).rest ∧ t.dev.faults = s.dev.faults))

/-- Supply and reset inputs (R372, R480, R483, R484). A supply fault is recorded, and the fibres go dark until the rails are back, when a
warm reset begins, one of a device-fatal fault (R41); within 8 s of a warm reset it is a cold reset at once, and with hold_on_fatal the
hold. A fall of PWR_OK darkens every transmitter and loses the Depths. RESET_N with power is a cold reset. The release of reset (R388, R391,
R396, R402, R496): the device has an identity, its image is GOOD or BAD, and a finding of the pin test is recorded. With REFCLK in use the
Keeper serves, and every port begins its bring-up but those that the image disables, or all of them with a BAD image; without it start-up
waits with ALERT_N low, and its absence is recorded. A release of a device that runs changes nothing. The hold, the cold reset at once and
what a cold reset keeps follow log entries 22 and 45. -/
def Obligations.SuppliesAndResetsAct : Prop :=
  (
    (∀ (rail lo hi now : Nat) (above : Bool) (s : State), rail < 7 → s.dev.power.cold = false →
      ∃ t, exec (.supplyFault rail above lo hi now) s = .next t ∧
        ((s.devAt now).nearWarm = true → ColdReset (s.devAt now) t) ∧
        ((s.devAt now).nearWarm = false → (s.devAt now).holdOnFatal = true → t.dev.faults.held = true ∧
          (tget {} t.dev.faults.classes 0x0B).unacked = true ∧ ∀ j, (s.dev.job j).state ≠ .empty → (t.dev.job j).state = .halted) ∧
        ((s.devAt now).nearWarm = false → (s.devAt now).holdOnFatal = false →
          t.dev.rest = { (s.devAt now).rest with power := { s.dev.power with dark := true, warmWait := 1 } } ∧ t.dev.faults.alertForce = true ∧
            ∃ e ∈ t.dev.faults.ring, recSource e.bytes = 0x0B04)) ∧
    (∀ (rail lo hi now : Nat) (above : Bool) (s : State), (7 ≤ rail ∨ s.dev.power.cold = true) →
      ∃ t, exec (.supplyFault rail above lo hi now) s = .next t ∧ t.dev.rest = (s.devAt now).rest) ∧
    (∀ (now : Nat) (s : State), ∃ t, exec (.supplyRecoveryReset now) s = .next t ∧
      (s.dev.power.warmWait = 1 → s.dev.power.warm = none → WarmReset true (s.devAt now) t) ∧
      ((s.dev.power.warmWait ≠ 1 ∨ s.dev.power.warm.isSome = true) → t.dev.rest = (s.devAt now).rest)) ∧
    (∀ (now : Nat) (s : State), ∃ t, exec (.pwrOkFall now) s = .next t ∧ t.depths = [] ∧ t.flash = s.flash ∧ t.dev.faults.alertForce = true ∧
      t.dev.rest = { (s.devAt now).rest with power := { s.dev.power with pwrOk := false, dark := true, darkHost := true, heatersOff := true, depthsParked := true } }) ∧
    (∀ (now : Nat) (s : State), ∃ t, exec (.resetNAssert now) s = .next t ∧ (s.dev.power.pwrOk = true → ColdReset (s.devAt now) t) ∧
      (s.dev.power.pwrOk = false → t.dev.rest = (s.devAt now).rest))) ∧
  (
    (∀ (puf : PufOutcome) (refOk sfdp : Bool) (pins : List (Nat × PinFinding)) (s : State), (s.dev.power.released && s.dev.power.pwrOk) = false →
      ∃ t, exec (.resetRelease puf refOk sfdp pins) s = .next t ∧ t.dev.power.released = true ∧ t.dev.power.cold = false ∧
        t.dev.power.pwrOk = true ∧ t.dev.keeper.identityState ≤ 2 ∧ t.dev.keeper.identityPub = sm2Pub t.dev.keeper.identityPriv ∧
        (t.dev.keeper.imageState = .good ∨ t.dev.keeper.imageState = .bad) ∧
        ((pins ≠ [] ∨ refOk = false) → (tget {} t.dev.faults.classes 0x0D).unacked = true) ∧
        (refOk = true → (∀ f ∈ pins, f.1 = 3 → f.2.kind = 8) → t.dev.keeper.up = true ∧
          ∀ p, p < 98 → (t.dev.port p).state = if t.dev.keeper.imageState = .bad ∨ t.dev.mode p = 0 then .disabled else .txTune) ∧
        ((refOk = false ∨ ∃ f ∈ pins, f.1 = 3 ∧ f.2.kind ≠ 8) → t.dev.power.refAbsent = true ∧ t.dev.faults.alertForce = true)) ∧
    (∀ (puf : PufOutcome) (refOk sfdp : Bool) (pins : List (Nat × PinFinding)) (s : State), s.dev.power.released = true → s.dev.power.pwrOk = true →
      ∃ t, exec (.resetRelease puf refOk sfdp pins) s = .next t ∧ t.dev.rest = s.dev.rest ∧ t.flash = s.flash ∧
        (s.dev.power.cold = false → t.depths = s.depths)))

/-- The clocks of the compute dies (R216, R219, R221, R479, R487): a stretch or a stop begins once, sets stretched and is recorded; a
stretch ends once every droop detector measures 725 mV, and not before. At an end the edges that the die has missed are lag of every step
that runs or whose sections still do; every other job's lag stays. Temperature (R372, R487): a warning is recorded and changes nothing; a
shutdown darkens every transmitter, gates both compute dies and parks the Depths until the reset that waits, warm, or cold where a warm one
was near or a unit stayed hot; with hold_on_fatal it is the hold, and during a cold reset it is only recorded. That a shutdown near a warm
reset waits for its cold reset is log entry 45's. -/
def Obligations.ClocksAndTemperaturesAct : Prop :=
  (
    (∀ (i temp now src : Nat) (c : Instr) (s : State), i < 2 → (s.devAt now).mild src →
      ((c = .clockStretch i now ∧ src = 0x0B01 ∧ (s.dev.die i).stretching = none) ∨
        (c = .clockStop i temp now ∧ src = 0x0B02 ∧ (s.dev.die i).stopped = none)) →
      ∃ t, exec c s = .next t ∧ t.dev.clock.stretched = true ∧ (∃ e ∈ t.dev.faults.ring, recSource e.bytes = src) ∧
        (t.dev.die i).stretching = (if src = 0x0B01 then some (s.devAt now).tick else (s.dev.die i).stretching) ∧
        (t.dev.die i).stopped = (if src = 0x0B01 then (s.dev.die i).stopped else some (s.devAt now).tick) ∧
        (t.dev.die i).since = (s.devAt now).time ∧
        (∀ k, k ≠ i → t.dev.die k = s.dev.die k) ∧ t.dev.ports = s.dev.ports ∧ t.dev.ctxs = s.dev.ctxs) ∧
    (∀ (i temp now : Nat) (c : Instr) (s : State),
      ((c = .clockStretch i now ∧ (2 ≤ i ∨ (s.dev.die i).stretching.isSome = true)) ∨
        (c = .clockStop i temp now ∧ (2 ≤ i ∨ (s.dev.die i).stopped.isSome = true))) →
      ∃ t, exec c s = .next t ∧ t.dev.rest = (s.devAt now).rest) ∧
    (∀ (i b least now : Nat) (c : Instr) (s : State),
      ((c = .clockStretchEnd i least now ∧ droopEnd ≤ least ∧ (s.dev.die i).stretching = some b) ∨
        (c = .clockGateEnd i now ∧ s.dev.power.warmWait < 2 ∧ (s.dev.die i).stopped = some b)) →
      ∃ t, exec c s = .next t ∧ (∀ k, k ≠ i → t.dev.die k = s.dev.die k) ∧ t.dev.ctxs = s.dev.ctxs ∧ t.dev.ports = s.dev.ports ∧
        (c = .clockStretchEnd i least now → (t.dev.die i).stretching = none) ∧ (c = .clockGateEnd i now → (t.dev.die i).stopped = none) ∧
        (∀ j, (t.dev.job j).lagOf i = (if ((s.dev.job j).running || (s.dev.job j).runSection.isSome) = true then (s.devAt now).lagOn (s.dev.job j) i
          else (s.dev.job j).lagOf i))) ∧
    (∀ (i least now : Nat) (c : Instr) (s : State),
      ((c = .clockStretchEnd i least now ∧ (least < droopEnd ∨ (s.dev.die i).stretching = none)) ∨
        (c = .clockGateEnd i now ∧ (2 ≤ s.dev.power.warmWait ∨ (s.dev.die i).stopped = none))) →
      ∃ t, exec c s = .next t ∧ t.dev.rest = (s.devAt now).rest)) ∧
  (
    (∀ (u temp now : Nat) (s : State), (s.devAt now).mild 0x0B03 →
      ∃ t, exec (.thermalWarn u temp now) s = .next t ∧ t.dev.rest = (s.devAt now).rest ∧ ∃ e ∈ t.dev.faults.ring, recSource e.bytes = 0x0B03) ∧
    (∀ (u temp now : Nat) (s : State), s.dev.power.cold = false →
      ∃ t, exec (.thermalShutdown u temp now) s = .next t ∧ t.dev.power.dark = true ∧ t.dev.power.darkHost = true ∧
        t.dev.power.depthsParked = true ∧ (t.dev.die 0).stopped.isSome = true ∧ (t.dev.die 1).stopped.isSome = true ∧
        (tget {} t.dev.faults.classes 0x0B).unacked = true ∧ t.flash = s.flash ∧ t.depths = s.depths ∧
        (((s.devAt now).nearWarm = true ∨ (s.devAt now).holdOnFatal = false) →
          t.dev.power.warmWait = (if (s.devAt now).nearWarm then 3 else 2) ∧ (∃ e ∈ t.dev.faults.ring, recSource e.bytes = 0x0B05) ∧
            t.dev.ports = s.dev.ports ∧ t.dev.ctxs = s.dev.ctxs) ∧
        ((s.devAt now).nearWarm = false → (s.devAt now).holdOnFatal = true → t.dev.faults.held = true ∧
          ∀ j, (s.dev.job j).state ≠ .empty → (t.dev.job j).state = .halted)) ∧
    (∀ (u temp now : Nat) (s : State), s.dev.power.cold = true →
      ∃ t, exec (.thermalShutdown u temp now) s = .next t ∧ t.dev.rest = (s.devAt now).rest ∧ (tget {} t.dev.faults.classes 0x0B).unacked = true) ∧
    (∀ (now : Nat) (cold : Bool) (s : State), ∃ t, exec (.thermalRecoveryReset cold now) s = .next t ∧
      (s.dev.power.warmWait < 2 → t.dev.rest = (s.devAt now).rest) ∧
      (s.dev.power.warmWait = 2 → cold = false → s.dev.power.warm = none → WarmReset true (s.devAt now) t) ∧
      (2 ≤ s.dev.power.warmWait → (cold = true ∨ s.dev.power.warmWait = 3) → ColdReset (s.devAt now) t)))

/-- The pins (R485, R494, R495): every finding is recorded under its group's source; a bad out-of-band leg takes the port down and exchanged
legs are inverted; an event pin is off for the boot, or clamped; REFCLK without edges or off frequency stops the GTC, a weak swing does not;
ALERT_N held high while driven is released and driven no more. Unit numbers are log entry 26's. -/
def Obligations.PinFaultsAct : Prop :=
  ∀ (f : PinFinding) (now g : Nat) (c : Instr) (s : State),
    ((g = 1 ∧ c = .oobPins f now) ∨ (g = 2 ∧ c = .evtPins f now) ∨ (g = 3 ∧ c = .refclkPins f now) ∨ (g = 4 ∧ c = .alertPin f now)) →
    ∃ t, exec c s = .next t ∧ (tget {} t.dev.faults.classes 0x0D).unacked = true ∧
      (tget {} t.dev.faults.classes 0x0D).lastSource = 0x0D01 + g ∧ t.dev.ports = s.dev.ports ∧ t.dev.ctxs = s.dev.ctxs ∧
      (g = 1 → t.dev.jobs = s.dev.jobs ∧ (f.kind = 5 → t.dev.power.oobInverted = true ∧ t.dev.keeper.oobUp = s.dev.keeper.oobUp) ∧
        (f.kind ≠ 5 → t.dev.keeper.oobUp = false ∧ t.dev.power = s.dev.power)) ∧
      (g = 2 → t.dev.jobs = s.dev.jobs ∧ (f.kind = 6 → f.pin ∈ t.dev.power.evtClamped ∧ t.dev.power.evtOff = s.dev.power.evtOff) ∧
        (f.kind ≠ 6 → f.pin ∈ t.dev.power.evtOff ∧ t.dev.power.evtClamped = s.dev.power.evtClamped) ∧
        (f.kind = 4 → f.other ∈ t.dev.power.evtOff)) ∧
      (g = 3 → (f.kind = 8 → t.dev.rest = (s.devAt now).rest) ∧
        (f.kind ≠ 8 → t.dev.clock.state = .invalid ∧ t.dev.clock.cause = 3 ∧ t.dev.clock.frozen = true)) ∧
      (g = 4 → (f.kind = 2 → t.dev.power.alertReleased = true ∧ t.dev.faults.alertLow = false) ∧
        (f.kind ≠ 2 → t.dev.rest = (s.devAt now).rest))

/-- Silt's triggers from outside (R449, R450, R495): an edge on a TRACE_TRIGGER_IN pin that is not clamped, and a time trigger that the GTC
reaches for the first time, trigger a running Silt with their source bits and freeze its place; a Silt that was triggered in that very cycle
takes their bits as well, and one triggered before takes nothing; other edges and times do nothing. Probes, the extension and pulses (R400,
R441 to R443, R448): where its period has passed, a sampled probe takes one sample within its limits; a block of 128 slots leaves Silt's
write buffer for the extension in a free window; a PERIODIC_PULSE pin is driven active and inactive at a multiple of its period. Elsewhere
nothing happens. -/
def Obligations.SiltTriggersProbesAndPulsesAct : Prop :=
  (
    (∀ (n now src : Nat) (c : Instr) (s : State),
      ((c = .evtTriggerIn n now ∧ src = 1 ∧ ((s.devAt now).evtPinsOf 3).any (fun e => u8 e 0 == n) = true ∧
          s.dev.power.evtClamped.contains n = false) ∨
        (c = .timeTrigger n now ∧ src = 2 * (n + 1) ∧ n < 2 ∧ (s.devAt now).timeTrigger n ≠ noKey ∧ (s.devAt now).timeTrigger n ≤ (s.devAt now).gtc ∧
          s.dev.clock.state ≠ .invalid ∧ n ∉ s.dev.silt.fired)) →
      ∃ t, exec c s = .next t ∧ t.dev.silt.fired = (if src = 1 then s.dev.silt.fired else s.dev.silt.fired ++ [n]) ∧
        t.dev.rest = (s.devAt now).rest ∧ t.dev.faults = s.dev.faults ∧
        (s.dev.silt.state = .running → t.dev.silt.state ≠ .running ∧ t.dev.silt.sources = src ∧ t.dev.silt.triggerSlot = some s.dev.silt.next) ∧
        (s.dev.silt.state ≠ .running → t.dev.silt.state = s.dev.silt.state ∧ t.dev.silt.triggerSlot = s.dev.silt.triggerSlot ∧
          t.dev.silt.sources = (if s.dev.silt.trigTime = some (s.devAt now).time then s.dev.silt.sources ||| src else s.dev.silt.sources))) ∧
    (∀ (n now : Nat) (c : Instr) (s : State),
      ((c = .evtTriggerIn n now ∧ (((s.devAt now).evtPinsOf 3).any (fun e => u8 e 0 == n) = false ∨ s.dev.power.evtClamped.contains n = true)) ∨
        (c = .timeTrigger n now ∧ (2 ≤ n ∨ (s.devAt now).timeTrigger n = noKey ∨ (s.devAt now).gtc < (s.devAt now).timeTrigger n ∨
          n ∈ s.dev.silt.fired ∨ s.dev.clock.state = .invalid))) →
      ∃ t, exec c s = .next t ∧ t.dev.rest = (s.devAt now).rest ∧ t.dev.silt = s.dev.silt)) ∧
  (
    (∀ (i now : Nat) (s : State), (s.devAt now).probeDue i = true →
      ∃ t, exec (.probeSample i now) s = .next t ∧ (tget {} t.dev.probes i).count = min ((tget {} s.dev.probes i).count + 1) (2 ^ 64 - 1) ∧
        (tget {} t.dev.probes i).entry = (tget {} s.dev.probes i).entry ∧
        (tget {} t.dev.probes i).sum = min ((tget {} s.dev.probes i).sum + min ((s.devAt now).quantity (tget {} s.dev.probes i)) 0xFFFFFFFF) (2 ^ 64 - 1) ∧
        (tget {} t.dev.probes i).max = max (tget {} s.dev.probes i).max (min ((s.devAt now).quantity (tget {} s.dev.probes i)) 0xFFFFFFFF) ∧
        (∀ k, k ≠ i → tget {} t.dev.probes k = tget {} s.dev.probes k) ∧ t.dev.rest = { (s.devAt now).rest with probes := t.dev.probes }) ∧
    (∀ (i now : Nat) (s : State), (s.devAt now).probeDue i = false →
      ∃ t, exec (.probeSample i now) s = .next t ∧ t.dev.rest = (s.devAt now).rest) ∧
    (∀ (st now : Nat) (s : State), st < 8 → 128 ≤ s.dev.silt.buffered → fld (s.devAt now).trace (36 + 8 * st) 4 ≠ 0 →
      ¬ (3 * st ≤ (s.devAt now).window ∧ (s.devAt now).window ≤ 3 * st + 2) → (s.devAt now).claimed (0x4000 + st) = false →
      ∃ t, exec (.siltExtensionFlush st now) s = .next t ∧ t.dev.silt = { s.dev.silt with buffered := s.dev.silt.buffered - 128 } ∧
        t.dev.rest = (s.devAt now).rest ∧ t.dev.ctrs = ((s.devAt now).countStack st 1 4096).ctrs) ∧
    (∀ (st now : Nat) (s : State), (s.dev.silt.buffered < 128 ∨ 8 ≤ st ∨ (s.devAt now).claimed (0x4000 + st) = true ∨
        fld (s.devAt now).trace (36 + 8 * st) 4 = 0 ∨ (3 * st ≤ (s.devAt now).window ∧ (s.devAt now).window ≤ 3 * st + 2)) →
      ∃ t, exec (.siltExtensionFlush st now) s = .next t ∧ t.dev.silt = s.dev.silt ∧ t.dev.rest = (s.devAt now).rest) ∧
    (∀ (n now : Nat) (s : State), (s.devAt now).pulseDue n = true → ∃ t, exec (.periodicPulse n now) s = .next t ∧
      t.dev.sent = s.dev.sent ++ [Sent.pin n true, Sent.pin n false] ∧
      t.dev.rest = { (s.devAt now).rest with power := { s.dev.power with pulsed := t.dev.power.pulsed } }) ∧
    (∀ (n now : Nat) (s : State), (s.devAt now).pulseDue n = false → ∃ t, exec (.periodicPulse n now) s = .next t ∧
      t.dev.sent = s.dev.sent ∧ t.dev.rest = (s.devAt now).rest))

/-- The Gauge alone (R461, R463, R464, R466 to R469): it starts with its counters at 0 and a BOOT entry, behind LOG_REPAIR where an entry
was half written, stops keeping the rest, adds a sample's energy rail by rail with the current clamped to full scale, logs a temperature
that leaves or returns, and takes a calibration that the factory's key signed, BROKEN from then on where it was CERTIFIED; where that entry
would fill the log, LOG_FULL stands there instead, and a full log takes no more. Nothing else of the device changes. The gain of the
calibration is a free value (log entry 12). -/
def Obligations.TheGaugeMetersAndLogs : Prop :=
  (∀ s : State, s.dev.gauge.powered = false →
    ∃ t, exec .gaugeStart s = .next t ∧ t.dev.gauge.powered = true ∧ t.dev.gauge.boots = s.dev.gauge.boots + 1 ∧ t.dev.gauge.time = 0 ∧
      t.dev.gauge.energy = [] ∧ t.dev.gauge.waiting = [] ∧ t.dev.jobs = s.dev.jobs ∧ t.dev.ports = s.dev.ports ∧
      (s.dev.gauge.half = false → s.dev.gauge.log.length + 1 < sealMax →
        t.dev.gauge.log = s.dev.gauge.log ++ [sealEntry s.dev.gauge.log.length 4 (s.dev.gauge.boots + 1) 0 []] ∧
          t.dev.gauge.state = s.dev.gauge.state) ∧
      (s.dev.gauge.half = true → s.dev.gauge.log ≠ [] → s.dev.gauge.log.length + 1 < sealMax →
        t.dev.gauge.log = s.dev.gauge.log.dropLast ++
          [sealEntry (s.dev.gauge.log.length - 1) 6 (s.dev.gauge.boots + 1) 0 (leBytes 4 (s.dev.gauge.log.length - 1)),
            sealEntry s.dev.gauge.log.length 4 (s.dev.gauge.boots + 1) 0 []]) ∧
      (s.dev.gauge.half = false → s.dev.gauge.log.length + 1 = sealMax →
        t.dev.gauge.log = s.dev.gauge.log ++ [sealEntry s.dev.gauge.log.length 7 (s.dev.gauge.boots + 1) 0 []] ∧ t.dev.gauge.state ≠ .certified) ∧
      (s.dev.gauge.half = false → sealMax ≤ s.dev.gauge.log.length → t.dev.gauge.log = s.dev.gauge.log)) ∧
  (∀ s : State, s.dev.gauge.powered = true → ∃ t, exec .gaugeStart s = .next t ∧ t.dev.rest = s.dev.rest ∧ t.dev.gauge = s.dev.gauge) ∧
  (∀ (mid : Bool) (s : State), ∃ t, exec (.gaugeStop mid) s = .next t ∧ t.dev.rest = s.dev.rest ∧
    t.dev.gauge = if s.dev.gauge.powered then { s.dev.gauge with powered := false, half := mid && !s.dev.gauge.log.isEmpty } else s.dev.gauge) ∧
  (∀ (rails : List (Nat × Nat)) (s : State), ∃ t, exec (.gaugeSample rails) s = .next t ∧ t.dev.rest = s.dev.rest ∧
    (s.dev.gauge.powered = false → t.dev.gauge = s.dev.gauge) ∧
    (s.dev.gauge.powered = true → t.dev.gauge.time = s.dev.gauge.time + 1 ∧ t.dev.gauge.log = s.dev.gauge.log ∧
      ∀ r a, r < 8 → (rails[r]? = none → tget 0 t.dev.gauge.energy r = tget 0 s.dev.gauge.energy r) ∧
        ∀ mv ma, rails[r]? = some (mv, ma) →
          a = tget 0 s.dev.gauge.energyFrac r + mv * min ma (railFull r) * Config.gaugeGain s.dev.gauge.cal r →
          tget 0 t.dev.gauge.energy r = (tget 0 s.dev.gauge.energy r + a / 10 ^ 12) % 2 ^ 64 ∧ tget 0 t.dev.gauge.energyFrac r = a % 10 ^ 12 ∧
            tget 0 t.dev.gauge.overRange r = tget 0 s.dev.gauge.overRange r + (if railFull r < ma then 1 else 0))) ∧
  (∀ (out : Bool) (s : State), s.dev.gauge.log.length + 1 < sealMax → ∃ t, exec (.gaugeTempExcursion out) s = .next t ∧ t.dev.rest = s.dev.rest ∧
    t.dev.gauge.tempOut = out ∧ t.dev.gauge.tempSeen = (s.dev.gauge.tempSeen || (out && s.dev.gauge.powered)) ∧
    t.dev.gauge.log.length = s.dev.gauge.log.length + (if s.dev.gauge.powered = true ∧ s.dev.gauge.tempOut ≠ out then 1 else 0)) ∧
  (∀ (challenge signature cal : Bytes) (s : State), ∃ t, exec (.gaugeFactorySession challenge signature cal) s = .next t ∧ t.dev.rest = s.dev.rest ∧
    (if s.dev.gauge.powered = true ∧ sm2Verify Config.factoryKey challenge signature = true ∧ s.dev.gauge.log.length < sealMax then
      t.dev.gauge.state = (if s.dev.gauge.state = .certified then .broken else s.dev.gauge.state) ∧
        (if s.dev.gauge.log.length + 1 = sealMax then t.dev.gauge.cal = s.dev.gauge.cal ∧
          t.dev.gauge.log = s.dev.gauge.log ++ [sealEntry s.dev.gauge.log.length 7 s.dev.gauge.boots s.dev.gauge.time []]
        else t.dev.gauge.cal = cal ∧
          t.dev.gauge.log = s.dev.gauge.log ++ [sealEntry s.dev.gauge.log.length 3 s.dev.gauge.boots s.dev.gauge.time (sm3 cal)])
    else t.dev.gauge = s.dev.gauge))

/-- Gauge requests (R468, R471, R472): ST_GAUGE_ABSENT until the Gauge has answered the Keeper once since the cold reset; while it is
stopped up to 16 wait and the next is answered ST_GAUGE_BUSY; else the identity, a signed record of energy, or of the seal log, and
ST_GAUGE_UNCERTIFIED for energy and traffic of an UNCERTIFIED Gauge, ST_GAUGE_RANGE past the log's end, ST_GMP_MALFORMED for a body that is
not the message's. The Keeper's first poll that is answered sets ordering_code. That requests wait only while the Gauge is stopped is log
entry 40's. -/
def Obligations.GaugeRequestsAnswer : Prop :=
  (∀ (m : GmpMsg) (s : State) (x : Session) (code : Nat) (c : Instr),
    ((c = .gmpGaugeIdentity m ∧ code = 0x0070 ∧ Served gaugeIdentityRequest m x (s.devAt m.now)) ∨
      (c = .gmpGaugeRead m ∧ code = 0x0071 ∧ Served gaugeReadRequest m x (s.devAt m.now)) ∨
      (c = .gmpGaugeLog m ∧ code = 0x0072 ∧ Served gaugeLogRequest m x (s.devAt m.now))) →
    ∃ t, exec c s = .next t ∧ t.dev.jobs = s.dev.jobs ∧ t.dev.ports = s.dev.ports ∧ t.dev.faults = s.dev.faults ∧
      (s.dev.gauge.answered = false → Answered t m code ({ status := stGaugeAbsent } : Reply).body) ∧
      (s.dev.gauge.answered = true → s.dev.gauge.powered = false → 16 ≤ s.dev.gauge.waiting.length →
        Answered t m code ({ status := stGaugeBusy } : Reply).body) ∧
      (s.dev.gauge.answered = true → s.dev.gauge.powered = false → s.dev.gauge.waiting.length < 16 →
        t.dev.gauge.waiting = s.dev.gauge.waiting ++ [{ session := x.number, tag := m.tag, msg := code, body := m.body, hint := (s.devAt m.now).gtc }]) ∧
      (s.dev.gauge.answered = true → s.dev.gauge.powered = true → code = 0x0070 → m.body = [] →
        Answered t m code (s.devAt m.now).gaugeIdentity.body) ∧
      (s.dev.gauge.answered = true → s.dev.gauge.powered = true →
        ((code = 0x0070 ∧ m.body ≠ []) ∨ (code = 0x0071 ∧ (m.body.length ≠ 40 ∨ u8 m.body 0 = 0 ∨ 2 < u8 m.body 0 ∨ 1 < u8 m.body 1 ∨
            256 < fld m.body 2 2 ∨ zeros m.body 4 4 = false)) ∨
          (code = 0x0072 ∧ (m.body.length ≠ 40 ∨ fld m.body 4 4 = 0 ∨ 8 < fld m.body 4 4))) →
        Answered t m code ({ status := stGmpMalformed } : Reply).body) ∧
      (s.dev.gauge.answered = true → s.dev.gauge.powered = true → code = 0x0071 → m.body.length = 40 → 1 ≤ u8 m.body 0 → u8 m.body 0 ≤ 2 →
        u8 m.body 1 ≤ 1 → fld m.body 2 2 ≤ 256 → zeros m.body 4 4 = true → s.dev.gauge.state = .uncertified →
        Answered t m code ({ status := stGaugeUncertified } : Reply).body) ∧
      (s.dev.gauge.answered = true → s.dev.gauge.powered = true → code = 0x0071 → m.body.length = 40 → u8 m.body 0 = 1 →
        u8 m.body 1 ≤ 1 → fld m.body 2 2 ≤ 256 → zeros m.body 4 4 = true → s.dev.gauge.state ≠ .uncertified →
        t.dev.gauge.records = s.dev.gauge.records + 1 ∧ ∃ sig, Answered t m code
          ({ payload := s.dev.gauge.record 1 (s.devAt m.now).gtc (m.body.drop 8) s.dev.gauge.energyBody ++ sig } : Reply).body) ∧
      (s.dev.gauge.answered = true → s.dev.gauge.powered = true → code = 0x0071 → m.body.length = 40 → u8 m.body 0 = 2 →
        u8 m.body 1 ≤ 1 → fld m.body 2 2 ≤ 256 → zeros m.body 4 4 = true → s.dev.gauge.state ≠ .uncertified →
        t.dev.gauge.records = s.dev.gauge.records + 1 ∧ ∃ sig, Answered t m code
          ({ payload := s.dev.gauge.record 2 (s.devAt m.now).gtc (m.body.drop 8)
              (((s.devAt m.now).taken m code).gauge.trafficBody (fld m.body 2 2) (u8 m.body 1)) ++ sig } : Reply).body) ∧
      (s.dev.gauge.answered = true → s.dev.gauge.powered = true → code = 0x0072 → m.body.length = 40 → 1 ≤ fld m.body 4 4 →
        fld m.body 4 4 ≤ 8 → s.dev.gauge.log.length ≤ fld m.body 0 4 → Answered t m code ({ status := stGaugeRange } : Reply).body) ∧
      (s.dev.gauge.answered = true → s.dev.gauge.powered = true → code = 0x0072 → m.body.length = 40 → 1 ≤ fld m.body 4 4 →
        fld m.body 4 4 ≤ 8 → fld m.body 0 4 < s.dev.gauge.log.length →
        t.dev.gauge.records = s.dev.gauge.records + 1 ∧ ∃ sig, Answered t m code
          ({ payload := s.dev.gauge.record 3 (s.devAt m.now).gtc (m.body.drop 8) (s.dev.gauge.logBody (fld m.body 0 4) (fld m.body 4 4)) ++ sig } :
            Reply).body)) ∧
  (∀ (now : Nat) (s : State), s.dev.keeper.up = true → s.dev.gauge.powered = true → s.dev.gauge.answered = false →
    ∃ t, exec (.gaugePoll now) s = .next t ∧ t.dev.gauge = { s.dev.gauge with answered := true } ∧
      t.dev.keeper.orderingCode = (if s.dev.gauge.state = .uncertified then 0 else 1) ∧ t.dev.faults = s.dev.faults ∧ t.dev.jobs = s.dev.jobs) ∧
  (∀ (now : Nat) (s : State), (s.dev.keeper.up = false ∨ s.dev.gauge.powered = false ∨ s.dev.gauge.answered = true) →
    ∃ t, exec (.gaugePoll now) s = .next t ∧ t.dev.rest = (s.devAt now).rest ∧ t.dev.gauge = s.dev.gauge)

/-- A sample enters exactly one bin of its probe (R442): clamped to 32 bits, it goes into the bin of R442's table, linear or logarithmic,
whose count rises by one and saturates (R443); every other bin stays. -/
def Obligations.SamplesFallInTheirBins : Prop :=
  ∀ (p : Probe) (v w u i : Nat), i < 32 → w = min v 0xFFFFFFFF → u = w / 2 ^ u8 p.entry 2 →
    ((bit (u8 p.entry 1) 0 = false → (i = 0 ∧ w < fld p.entry 8 4 ∨
        1 ≤ i ∧ i ≤ 30 ∧ fld p.entry 8 4 + (i - 1) * 2 ^ u8 p.entry 2 ≤ w ∧ w < fld p.entry 8 4 + i * 2 ^ u8 p.entry 2 ∨
        i = 31 ∧ fld p.entry 8 4 + 30 * 2 ^ u8 p.entry 2 ≤ w) →
        tget 0 (addSample p v).bins i = min (tget 0 p.bins i + 1) (2 ^ 64 - 1) ∧
          ∀ k, k ≠ i → tget 0 (addSample p v).bins k = tget 0 p.bins k) ∧
      (bit (u8 p.entry 1) 0 = true → (i = 0 ∧ u = 0 ∨ 1 ≤ i ∧ i ≤ 30 ∧ 2 ^ (i - 1) ≤ u ∧ u < 2 ^ i ∨ i = 31 ∧ 2 ^ 30 ≤ u) →
        tget 0 (addSample p v).bins i = min (tget 0 p.bins i + 1) (2 ^ 64 - 1) ∧
          ∀ k, k ≠ i → tget 0 (addSample p v).bins k = tget 0 p.bins k))

/-- The severity of a record (R361): one above the configured severity, and marked escalated, while its class is unacknowledged and its
source's Max is above it; the configured severity, unmarked, otherwise; 0 for a condition that is cleared, which sets no unacked bit. -/
def Obligations.EscalationIsOneLevel : Prop :=
  ∀ (d : Dev) (r : FaultRec), r.source < 65536 → d.configured r.source ≤ (sourceOf r.source).max →
    ∃ e ∈ (d.recordFault r).faults.ring, e.seq = d.faults.eventSeq ∧ recSource e.bytes = r.source ∧ u8 e.bytes 18 % 8 = d.effective r ∧
      (r.cleared = true → d.effective r = 0 ∧ bit (u8 e.bytes 18) 6 = false ∧
        (d.faults.ring.length < 1024 → (d.recordFault r).faults.classes = d.faults.classes)) ∧
      (r.cleared = false → (tget {} (d.recordFault r).faults.classes r.cls).unacked = true ∧
        ((tget {} d.faults.classes r.cls).unacked = true → d.configured r.source < (sourceOf r.source).max →
          d.effective r = d.configured r.source + 1 ∧ bit (u8 e.bytes 18) 6 = true) ∧
        ((tget {} d.faults.classes r.cls).unacked = true → d.configured r.source = (sourceOf r.source).max →
          d.effective r = d.configured r.source ∧ bit (u8 e.bytes 18) 6 = false) ∧
        ((tget {} d.faults.classes r.cls).unacked = false → d.effective r = d.configured r.source ∧ bit (u8 e.bytes 18) 6 = false))

/-- The rights of a session (R409, R413): a message of R413's table, of R456's and of R471's, whose right the session lacks, is answered
with ST_GMP_RIGHTS and changes nothing but what carries the answer. -/
def Obligations.RightsAreNeeded : Prop :=
  ∀ (e : (GmpMsg → Instr) × Nat × Nat) (readBack : Bytes) (stack : Nat) (ecc : EccResult) (m : GmpMsg) (s : State) (x : Session),
    e ∈ rightRows readBack stack ecc →
    (s.devAt m.now).hears m.port = true → msgBadForm m = false → (s.devAt m.now).confirmed m.session = some x →
    m.mac = hmacSm3 x.macIn (msgSigned m e.2.1) → x.seqIn < m.seq → (x.kept.any (fun k => k.tag == m.tag)) = false →
    x.busyTags.contains m.tag = false → s.dev.keeper.imageState ≠ .bad → Nat.land x.rights e.2.2 = 0 →
    ∃ t, exec (e.1 m) s = .next t ∧ Answered t m e.2.1 ({ status := stGmpRights } : Reply).body ∧ t.dev.rest = (s.devAt m.now).rest ∧
      t.flash = s.flash ∧ (s.dev.power.cold = false → t.depths = s.depths) ∧ t.dev.faults = s.dev.faults ∧ t.dev.silt = s.dev.silt

/-- A fragment or a notice of another generation than its context's (R98): it is dropped and counted, in DROP_STALE_GEN where its generation
is before the context's by the serial rule modulo 2^16, in DROP_FUTURE_GEN where it is after, and no context changes. -/
def Obligations.GenerationsMustMatch : Prop :=
  ∀ (port now c n : Nat) (r h p : Bytes) (cmd : Instr) (s : State),
    ((cmd = .fragmentRx port h p now r ∧ (chKind h = 1 ∨ chKind h = 2)) ∨ (cmd = .abortNoticeRx port h p now ∧ chKind h = 7)) →
    (s.dev.job (chJob h)).state ≠ .empty → (chOp h = 1 ∨ chOp h = 2) → (s.devAt now).ctxFor h = some c → (s.dev.ctx c).abortable = true →
    ((1 ≤ ((chGen h : Int) - (s.dev.ctx c).generation) % 2 ^ 16 ∧ ((chGen h : Int) - (s.dev.ctx c).generation) % 2 ^ 16 < 2 ^ 15 ∧ n = 5) ∨
      (2 ^ 15 ≤ ((chGen h : Int) - (s.dev.ctx c).generation) % 2 ^ 16 ∧ n = 4)) →
    ∃ t, exec cmd s = .next t ∧ t.dev.rest = (s.devAt now).rest ∧ t.dev.faults = s.dev.faults ∧
      t.dev.ctr (ctrIdx 1 (chJob h) n) = ((s.devAt now).ctr (ctrIdx 1 (chJob h) n) + 1) % 2 ^ 64 ∧
      t.dev.ctr (ctrIdx 0 0 n) = ((s.devAt now).ctr (ctrIdx 0 0 n) + 1) % 2 ^ 64

/-- The adder's special operands (R53), by their encodings: a NaN with its quiet bit set, operand a's first; opposite infinities give
0x7FC00000; an infinity, and a non-zero operand beside a zero, comes through unchanged; two zeros give +0 unless both are -0. Without a NaN
the order of the operands is no matter (R53, R54). -/
def Obligations.TheAdderTakesSpecialOperands : Prop :=
  (∀ (m : Ovf) (a b : W32), 0x7F800000#32 < a &&& 0x7FFFFFFF#32 → addf m a b = a ||| 0x00400000#32) ∧
  (∀ (m : Ovf) (a b : W32), a &&& 0x7FFFFFFF#32 ≤ 0x7F800000#32 → 0x7F800000#32 < b &&& 0x7FFFFFFF#32 → addf m a b = b ||| 0x00400000#32) ∧
  (∀ m : Ovf, addf m 0x7F800000#32 0xFF800000#32 = 0x7FC00000#32 ∧ addf m 0xFF800000#32 0x7F800000#32 = 0x7FC00000#32) ∧
  (∀ (m : Ovf) (a b : W32), (a = 0x7F800000#32 ∨ a = 0xFF800000#32) → b &&& 0x7FFFFFFF#32 ≤ 0x7F800000#32 → b ≠ a ^^^ 0x80000000#32 →
    addf m a b = a) ∧
  (∀ (m : Ovf) (a b : W32), a &&& 0x7FFFFFFF#32 < 0x7F800000#32 → (b = 0x7F800000#32 ∨ b = 0xFF800000#32) → addf m a b = b) ∧
  (∀ (m : Ovf) (a b : W32), a &&& 0x7FFFFFFF#32 = 0#32 → b &&& 0x7FFFFFFF#32 = 0#32 → addf m a b = a &&& b) ∧
  (∀ (m : Ovf) (a b : W32), a &&& 0x7FFFFFFF#32 = 0#32 → b &&& 0x7FFFFFFF#32 ≠ 0#32 → b &&& 0x7FFFFFFF#32 < 0x7F800000#32 → addf m a b = b) ∧
  (∀ (m : Ovf) (a b : W32), b &&& 0x7FFFFFFF#32 = 0#32 → a &&& 0x7FFFFFFF#32 ≠ 0#32 → a &&& 0x7FFFFFFF#32 < 0x7F800000#32 → addf m a b = a) ∧
  (∀ (m : Ovf) (a b : W32), a &&& 0x7FFFFFFF#32 ≤ 0x7F800000#32 → b &&& 0x7FFFFFFF#32 ≤ 0x7F800000#32 → addf m a b = addf m b a)

/-- The GTC's servo (R195): a core cycle advances the integer by 0, 1 or 2, and of any 65,536 cycles that follow each other without a change
of the servo's aim at most one advances it by other than 1. -/
def Obligations.TheGtcAdvancesByOne : Prop :=
  (∀ c : Clock, c.frozen = false → c.frac < 65536 →
    ((c.run 1).gtc = c.gtc ∨ (c.run 1).gtc = c.gtc + 1 ∨ (c.run 1).gtc = c.gtc + 2) ∧ (c.run 1).frac < 65536 ∧ (c.run 1).frozen = false) ∧
  (∀ (c : Clock) (i j : Nat), c.frozen = false → c.frac < 65536 → i < j → j < i + 65536 →
    ((fun c : Clock => c.run 1)^[i + 1] c).gtc ≠ ((fun c : Clock => c.run 1)^[i] c).gtc + 1 →
    ((fun c : Clock => c.run 1)^[j + 1] c).gtc = ((fun c : Clock => c.run 1)^[j] c).gtc + 1)

/-- What the device builds is what it reads (R100, R151, R228, R232): every field of a contribution header and of an Outflow header comes
back from the 48 and 80 bytes that hold it; a lane's receiver recovers the values that went into the precoder; and symbol k of codeword c is
found on lane (c + k) mod 8 in its place. -/
def Obligations.HeadersAndLanesReadBack : Prop :=
  (∀ (kind job channel flags gen micro seq node step op elem wire bucket tree hash count frag fcount : Nat) (h : Bytes),
    kind < 2 ^ 8 → job < 2 ^ 8 → channel < 64 → flags < 2 ^ 8 → gen < 2 ^ 16 → micro < 2 ^ 16 → seq < 2 ^ 32 → node < 2 ^ 32 → step < 2 ^ 48 →
    op < 2 ^ 8 → elem < 2 ^ 8 → wire < 2 ^ 8 → bucket < 2 ^ 16 → tree < 2 ^ 32 → hash < 2 ^ 32 → count < 2 ^ 32 → frag < 2 ^ 32 → fcount < 2 ^ 16 →
    h = mkContribution kind job channel flags gen micro seq node step op elem wire bucket tree hash count frag fcount →
    h.length = 48 ∧ chKind h = kind ∧ chJob h = job ∧ chChannel h = channel ∧ chReplay h = bit flags 0 ∧ chGen h = gen ∧ chMicro h = micro ∧
      chSeq h = seq ∧ chNode h = node ∧ chStep h = step ∧ chOp h = op ∧ chElem h = elem ∧ chWire h = wire ∧ chBucket h = bucket ∧
      chTree h = tree ∧ chHash h = hash ∧ chCount h = count ∧ chFrag h = frag ∧ chFragCount h = fcount) ∧
  (∀ (kind job channel flags gen seq tensor step format off count : Nat) (scale gscale : Int) (prov h : Bytes),
    kind < 2 ^ 8 → job < 2 ^ 8 → channel < 64 → gen < 2 ^ 16 → seq < 2 ^ 32 → tensor < 2 ^ 20 → step < 2 ^ 48 → format < 2 ^ 8 → off < 2 ^ 64 →
    count < 2 ^ 16 → prov.length = 32 → h = mkOutflow kind job channel flags gen scale seq tensor step format gscale off count prov →
    h.length = 80 ∧ ohKind h = kind ∧ ohJob h = job ∧ ohChannel h = channel ∧ ohGen h = gen ∧ ohSeq h = seq ∧ ohTensor h = tensor ∧
      ohStep h = step ∧ ohFormat h = format ∧ ohOff h = off ∧ ohCount h = count) ∧
  (∀ (y : Nat) (xs : List Nat), (∀ x ∈ xs, x < 4) → decodePam y (precode y xs) = xs) ∧
  (∀ (cs : List (List Nat)) (c k : Nat), c < 8 → k < 544 → (laneSymbols cs ((c + k) % 8)).getD k 0 = (cs.getD c []).getD k 0)
end

