-- ==== Sys2Proof/Laws/Table.lean ====
section
/-! SUPPORT. Laws of the tables and of the byte memories: a read after a write, and the canonical form under every operation. -/

namespace Sys2Proof.Machine

/-! ### Tables -/

@[simp] theorem tget_nil {α : Type} (d : α) (i : Nat) : tget d [] i = d := rfl

@[simp] theorem tget_tset_same {α : Type} (d : α) (t : Table α) (i : Nat) (v : α) : tget d (tset t i v) i = v := by
  induction t with
  | nil => simp [tset, tget]
  | cons e r ih =>
    obtain ⟨k, w⟩ := e
    by_cases h1 : i < k
    · simp [tset, tget, h1]
    · by_cases h2 : i = k
      · simp [tset, tget, h2]
      · simp [tset, tget, h1, h2, ih]

theorem tget_tset_other {α : Type} (d : α) (t : Table α) {i j : Nat} (h : j ≠ i) (v : α) : tget d (tset t i v) j = tget d t j := by
  induction t with
  | nil => simp [tset, tget, h]
  | cons e r ih =>
    obtain ⟨k, w⟩ := e
    by_cases h1 : i < k
    · simp [tset, tget, h1, h]
    · by_cases h2 : i = k
      · subst h2; simp [tset, tget, h]
      · simp [tset, tget, h1, h2, ih]

theorem tget_tset {α : Type} (d : α) (t : Table α) (i j : Nat) (v : α) : tget d (tset t i v) j = if j = i then v else tget d t j := by
  by_cases h : j = i
  · subst h; simp
  · simp [h, tget_tset_other d t h v]

theorem tget_tmod {α : Type} (d : α) (t : Table α) (i j : Nat) (f : α → α) :
    tget d (tmod d t i f) j = if j = i then f (tget d t i) else tget d t j := tget_tset d t i j _

@[simp] theorem tget_tmod_same {α : Type} (d : α) (t : Table α) (i : Nat) (f : α → α) : tget d (tmod d t i f) i = f (tget d t i) := by
  simp [tmod]

theorem tget_tmod_other {α : Type} (d : α) (t : Table α) {i j : Nat} (h : j ≠ i) (f : α → α) : tget d (tmod d t i f) j = tget d t j :=
  tget_tset_other d t h _

theorem tget_filter {α : Type} (d : α) (t : Table α) (p : Nat → Bool) (a : Nat) :
    tget d (t.filter (fun e => p e.1)) a = if p a then tget d t a else d := by
  induction t with
  | nil => simp
  | cons e r ih =>
    obtain ⟨k, w⟩ := e
    by_cases hk : p k
    · by_cases ha : a = k
      · subst ha; simp [tget, hk]
      · simp [hk, tget, ha, ih]
    · by_cases ha : a = k
      · subst ha; simp [hk, ih]
      · simp [hk, tget, ha, ih]

theorem tget_tdel {α : Type} (d : α) (t : Table α) (i j : Nat) : tget d (tdel t i) j = if j = i then d else tget d t j := by
  unfold tdel
  rw [tget_filter d t (fun k => k != i)]
  by_cases h : j = i <;> simp [h]

/-! ### Byte memories -/

theorem mwfFrom_mono (d : Byte) {lo lo' : Nat} (h : lo' ≤ lo) : ∀ {m : Table Byte}, mwfFrom d lo m = true → mwfFrom d lo' m = true
  | [], _ => rfl
  | (k, v) :: r, hm => by
    simp only [mwfFrom, Bool.and_eq_true, decide_eq_true_eq] at hm ⊢
    exact ⟨⟨le_trans h hm.1.1, hm.1.2⟩, hm.2⟩

/-- Below the lowest listed address a memory reads its default. -/
theorem mread_below (d : Byte) : ∀ {m : Table Byte} {lo a : Nat}, mwfFrom d lo m = true → a < lo → mread d m a = d
  | [], _, _, _, _ => rfl
  | (k, v) :: r, lo, a, hm, ha => by
    simp only [mwfFrom, Bool.and_eq_true, decide_eq_true_eq] at hm
    have hk : a ≠ k := by omega
    simpa [mread, tget, hk] using mread_below d (m := r) hm.2 (a := a) (by omega)

/-- A write at or above `lo` keeps the canonical form from `lo`. -/
theorem mwfFrom_mwrite (d : Byte) : ∀ {m : Table Byte} {lo a : Nat} (v : Byte), mwfFrom d lo m = true → lo ≤ a →
    mwfFrom d lo (mwrite d m a v) = true
  | [], lo, a, v, _, ha => by
    by_cases hv : v = d <;> simp [mwrite, mwfFrom, hv, ha]
  | (k, w) :: r, lo, a, v, hm, ha => by
    simp only [mwfFrom, Bool.and_eq_true, decide_eq_true_eq] at hm
    obtain ⟨⟨hk, hw⟩, hr⟩ := hm
    by_cases h1 : a < k
    · by_cases hv : v = d
      · simp [mwrite, mwfFrom, h1, hv, hk, hw, hr]
      · have hk' : mwfFrom d (a + 1) ((k, w) :: r) = true := by
          simp only [mwfFrom, Bool.and_eq_true, decide_eq_true_eq]
          exact ⟨⟨by omega, hw⟩, hr⟩
        simp only [mwrite, h1, if_true, hv, if_false]
        rw [mwfFrom, hk']
        simp [hv, ha]
    · by_cases h2 : a = k
      · subst h2
        by_cases hv : v = d
        · simp only [mwrite, lt_irrefl, if_false, if_true, hv]
          exact mwfFrom_mono d (by omega) hr
        · simp [mwrite, mwfFrom, hv, ha, hr]
      · have := mwfFrom_mwrite d (m := r) (lo := k + 1) (a := a) v hr (by omega)
        simp [mwrite, mwfFrom, h1, h2, hk, hw, this]

theorem wf_mwrite (d : Byte) (m : Table Byte) (a : Nat) (v : Byte) (h : Memory.wf d m = true) : Memory.wf d (mwrite d m a v) = true :=
  mwfFrom_mwrite d v h (Nat.zero_le a)

theorem wf_mwriteBytes (d : Byte) (m : Table Byte) (a : Nat) (bs : Bytes) (h : Memory.wf d m = true) :
    Memory.wf d (mwriteBytes d m a bs) = true := by
  induction bs generalizing m a with
  | nil => exact h
  | cons b bs ih => exact ih _ _ (wf_mwrite d m a b h)

theorem mwfFrom_filter (d : Byte) (p : Nat → Bool) : ∀ {m : Table Byte} {lo : Nat}, mwfFrom d lo m = true →
    mwfFrom d lo (m.filter (fun e => p e.1)) = true
  | [], _, _ => rfl
  | (k, w) :: r, lo, hm => by
    simp only [mwfFrom, Bool.and_eq_true, decide_eq_true_eq] at hm
    obtain ⟨⟨hk, hw⟩, hr⟩ := hm
    by_cases h : p k
    · simp [h, mwfFrom, hk, hw, mwfFrom_filter d p hr]
    · simpa [h] using mwfFrom_mono d (by omega) (mwfFrom_filter d p hr)

theorem wf_merase (d : Byte) (m : Table Byte) (a n : Nat) (h : Memory.wf d m = true) : Memory.wf d (merase m a n) = true :=
  mwfFrom_filter d (fun k => decide (k < a) || decide (a + n ≤ k)) h

/-- A read after a write to the same place gives the value written. -/
theorem mread_mwrite_same (d : Byte) : ∀ {m : Table Byte} {lo : Nat} (a : Nat) (v : Byte), mwfFrom d lo m = true →
    mread d (mwrite d m a v) a = v
  | [], lo, a, v, _ => by
    by_cases hv : v = d <;> simp [mwrite, mread, tget, hv]
  | (k, w) :: r, lo, a, v, hm => by
    have hr : mwfFrom d (k + 1) r = true := by
      simp only [mwfFrom, Bool.and_eq_true] at hm; exact hm.2
    by_cases h1 : a < k
    · by_cases hv : v = d
      · have : mread d r a = d := mread_below d hr (by omega)
        have h2 : a ≠ k := by omega
        simp only [mwrite, h1, if_true, hv]
        simpa [mread, tget, h2] using this
      · simp [mwrite, mread, tget, h1, hv]
    · by_cases h2 : a = k
      · subst h2
        by_cases hv : v = d
        · simpa [mwrite, hv] using mread_below d hr (by omega)
        · simp [mwrite, mread, tget, hv]
      · have := mread_mwrite_same d a v hr
        simpa [mwrite, h1, h2, mread, tget] using this

/-- A write leaves every other place alone. -/
theorem mread_mwrite_other (d : Byte) {a b : Nat} (v : Byte) (h : b ≠ a) : ∀ {m : Table Byte} {lo : Nat}, mwfFrom d lo m = true →
    mread d (mwrite d m a v) b = mread d m b
  | [], _, _ => by
    by_cases hv : v = d <;> simp [mwrite, mread, tget, hv, h]
  | (k, w) :: r, lo, hm => by
    have hr : mwfFrom d (k + 1) r = true := by
      simp only [mwfFrom, Bool.and_eq_true] at hm; exact hm.2
    by_cases h1 : a < k
    · by_cases hv : v = d <;> simp [mwrite, mread, tget, h1, hv, h]
    · by_cases h2 : a = k
      · subst h2
        by_cases hv : v = d <;> simp [mwrite, mread, tget, hv, h]
      · have := mread_mwrite_other d v h hr
        by_cases h3 : b = k
        · simp [mwrite, h1, h2, mread, tget, h3]
        · simpa [mwrite, h1, h2, mread, tget, h3] using this

/-- A string written reads back, and leaves every address outside it alone. -/
theorem mread_mwriteBytes_other (d : Byte) (bs : Bytes) : ∀ (m : Table Byte) (a b : Nat), Memory.wf d m = true → (b < a ∨ a + bs.length ≤ b) →
    mread d (mwriteBytes d m a bs) b = mread d m b := by
  induction bs with
  | nil => intros; rfl
  | cons x xs ih =>
    intro m a b hm hb
    simp only [List.length_cons] at hb
    rw [mwriteBytes, ih _ _ _ (wf_mwrite d m a x hm) (by omega), mread_mwrite_other d x (by omega) hm]

theorem mreadBytes_mwriteBytes (d : Byte) (bs : Bytes) : ∀ (m : Table Byte) (a : Nat), Memory.wf d m = true →
    mreadBytes d (mwriteBytes d m a bs) a bs.length = bs := by
  induction bs with
  | nil => intros; rfl
  | cons x xs ih =>
    intro m a hm
    rw [mwriteBytes, List.length_cons, mreadBytes, ih _ _ (wf_mwrite d m a x hm),
      mread_mwriteBytes_other d xs _ (a + 1) a (wf_mwrite d m a x hm) (by omega), mread_mwrite_same d a x hm]

/-- An erased range reads the default, and every other address is left alone. -/
theorem mread_merase (d : Byte) (m : Table Byte) (a n b : Nat) :
    mread d (merase m a n) b = if b < a ∨ a + n ≤ b then mread d m b else d := by
  have := tget_filter d m (fun k => decide (k < a) || decide (a + n ≤ k)) b
  simpa [mread, merase] using this

end Sys2Proof.Machine
end

