-- ==== Sys2Proof/Laws/State.lean ====
section
/-! SUPPORT. One lemma per field and update of the device, and how a command's time and the ready mark touch it. -/

namespace Sys2Proof.Machine

/-! ### Entries of the tables -/

@[simp] theorem port_modPort_same (d : Dev) (p : Nat) (f : Port → Port) : (d.modPort p f).port p = f (d.port p) := tget_tmod_same _ _ _ _
theorem port_modPort_other (d : Dev) {p q : Nat} (h : q ≠ p) (f : Port → Port) : (d.modPort p f).port q = d.port q := tget_tmod_other _ _ h _
@[simp] theorem ctx_modCtx_same (d : Dev) (c : Nat) (f : Ctx → Ctx) : (d.modCtx c f).ctx c = f (d.ctx c) := tget_tmod_same _ _ _ _
theorem ctx_modCtx_other (d : Dev) {c e : Nat} (h : e ≠ c) (f : Ctx → Ctx) : (d.modCtx c f).ctx e = d.ctx e := tget_tmod_other _ _ h _
@[simp] theorem job_modJob_same (d : Dev) (j : Nat) (f : Job → Job) : (d.modJob j f).job j = f (d.job j) := tget_tmod_same _ _ _ _
theorem job_modJob_other (d : Dev) {j i : Nat} (h : i ≠ j) (f : Job → Job) : (d.modJob j f).job i = d.job i := tget_tmod_other _ _ h _
@[simp] theorem unit_modUnit_same (d : Dev) (u : Nat) (f : UnitSt → UnitSt) : (d.modUnit u f).unit u = f (d.unit u) := tget_tmod_same _ _ _ _
theorem unit_modUnit_other (d : Dev) {u v : Nat} (h : v ≠ u) (f : UnitSt → UnitSt) : (d.modUnit u f).unit v = d.unit v :=
  tget_tmod_other _ _ h _
@[simp] theorem die_modDie_same (d : Dev) (i : Nat) (f : Die → Die) : (d.modDie i f).die i = f (d.die i) := tget_tmod_same _ _ _ _
theorem die_modDie_other (d : Dev) {i k : Nat} (h : k ≠ i) (f : Die → Die) : (d.modDie i f).die k = d.die k := tget_tmod_other _ _ h _

@[simp] theorem ports_modJob (d : Dev) (j : Nat) (f : Job → Job) : (d.modJob j f).ports = d.ports := rfl
@[simp] theorem ports_modCtx (d : Dev) (c : Nat) (f : Ctx → Ctx) : (d.modCtx c f).ports = d.ports := rfl
@[simp] theorem ports_modUnit (d : Dev) (u : Nat) (f : UnitSt → UnitSt) : (d.modUnit u f).ports = d.ports := rfl
@[simp] theorem ports_modKeeper (d : Dev) (f : Keeper → Keeper) : (d.modKeeper f).ports = d.ports := rfl
@[simp] theorem ports_modPower (d : Dev) (f : Power → Power) : (d.modPower f).ports = d.ports := rfl
@[simp] theorem ctxs_modPort (d : Dev) (p : Nat) (f : Port → Port) : (d.modPort p f).ctxs = d.ctxs := rfl
@[simp] theorem ctxs_modJob (d : Dev) (j : Nat) (f : Job → Job) : (d.modJob j f).ctxs = d.ctxs := rfl
@[simp] theorem jobs_modPort (d : Dev) (p : Nat) (f : Port → Port) : (d.modPort p f).jobs = d.jobs := rfl
@[simp] theorem jobs_modCtx (d : Dev) (c : Nat) (f : Ctx → Ctx) : (d.modCtx c f).jobs = d.jobs := rfl
@[simp] theorem jobs_modUnit (d : Dev) (u : Nat) (f : UnitSt → UnitSt) : (d.modUnit u f).jobs = d.jobs := rfl
@[simp] theorem clock_modClock (d : Dev) (f : Clock → Clock) : (d.modClock f).clock = f d.clock := rfl
@[simp] theorem keeper_modKeeper (d : Dev) (f : Keeper → Keeper) : (d.modKeeper f).keeper = f d.keeper := rfl
@[simp] theorem power_modPower (d : Dev) (f : Power → Power) : (d.modPower f).power = f d.power := rfl
@[simp] theorem gauge_modGauge (d : Dev) (f : Gauge → Gauge) : (d.modGauge f).gauge = f d.gauge := rfl
@[simp] theorem silt_modSilt (d : Dev) (f : Silt → Silt) : (d.modSilt f).silt = f d.silt := rfl
@[simp] theorem faults_modFaults (d : Dev) (f : Faults → Faults) : (d.modFaults f).faults = f d.faults := rfl

/-! ### Counters -/

/-- What a counter holds after it counts. -/
theorem ctr_count (d : Dev) (i k n : Nat) (h : n ≠ 0) :
    (d.count i n).ctr k = if k = i then (d.ctr i + n) % 2 ^ 64 else d.ctr k := by
  simp [Dev.count, Dev.ctr, h, tget_tset]

/-! ### The time of a command -/

theorem count_eq (d : Dev) (i n : Nat) : d.count i n = { d with ctrs := (d.count i n).ctrs } := by
  unfold Dev.count
  split <;> rfl

theorem pass_eq (d : Dev) (n : Nat) : d.pass n = { d with clock := (d.pass n).clock, ctrs := (d.pass n).ctrs } := by
  unfold Dev.pass Dev.countDie
  dsimp only
  rw [count_eq]
  rw [count_eq (d.modClock _)]
  rfl

/-- The cycles up to a command change the clock and the counters only. -/
theorem to_eq (d : Dev) (now : Nat) : d.to now = { d with clock := (d.to now).clock, ctrs := (d.to now).ctrs } := by
  unfold Dev.to
  split
  · rfl
  · exact pass_eq d _

@[simp] theorem to_ports (d : Dev) (n : Nat) : (d.to n).ports = d.ports := by rw [to_eq]
@[simp] theorem to_ctxs (d : Dev) (n : Nat) : (d.to n).ctxs = d.ctxs := by rw [to_eq]
@[simp] theorem to_jobs (d : Dev) (n : Nat) : (d.to n).jobs = d.jobs := by rw [to_eq]
@[simp] theorem to_keeper (d : Dev) (n : Nat) : (d.to n).keeper = d.keeper := by rw [to_eq]
@[simp] theorem to_power (d : Dev) (n : Nat) : (d.to n).power = d.power := by rw [to_eq]
@[simp] theorem to_faults (d : Dev) (n : Nat) : (d.to n).faults = d.faults := by rw [to_eq]
@[simp] theorem to_gauge (d : Dev) (n : Nat) : (d.to n).gauge = d.gauge := by rw [to_eq]
@[simp] theorem to_silt (d : Dev) (n : Nat) : (d.to n).silt = d.silt := by rw [to_eq]
@[simp] theorem to_image (d : Dev) (n : Nat) : (d.to n).image = d.image := by rw [to_eq]
@[simp] theorem to_mirrors (d : Dev) (n : Nat) : (d.to n).mirrors = d.mirrors := by rw [to_eq]
@[simp] theorem to_own (d : Dev) (n : Nat) : (d.to n).own = d.own := by rw [to_eq]
@[simp] theorem to_tiles (d : Dev) (n : Nat) : (d.to n).tiles = d.tiles := by rw [to_eq]
@[simp] theorem to_pool (d : Dev) (n : Nat) : (d.to n).pool = d.pool := by rw [to_eq]
@[simp] theorem to_units (d : Dev) (n : Nat) : (d.to n).units = d.units := by rw [to_eq]
@[simp] theorem to_self (d : Dev) : d.to d.clock.time = d := by simp [Dev.to]

/-! ### A command acts, and the ready mark follows -/

theorem noteReady_eq (d : Dev) : d.noteReady = { d with keeper := { d.keeper with readyTick := d.noteReady.keeper.readyTick } } := by
  unfold Dev.noteReady Dev.modKeeper
  split <;> rfl

@[simp] theorem act_flash (s : State) (n : Nat) (f : Mach → Mach) : (s.act n f).flash = (f { s.machOf with dev := s.dev.to n }).flash := rfl
@[simp] theorem act_pending (s : State) (n : Nat) (f : Mach → Mach) : (s.act n f).pending = s.pending := rfl
theorem act_depths (s : State) (n : Nat) (f : Mach → Mach) :
    (s.act n f).depths = if (f { s.machOf with dev := s.dev.to n }).dev.power.cold then [] else (f { s.machOf with dev := s.dev.to n }).depths :=
  rfl
theorem act_dev (s : State) (n : Nat) (f : Mach → Mach) : (s.act n f).dev = (f { s.machOf with dev := s.dev.to n }).dev.noteReady := rfl
@[simp] theorem event_flash (s : State) (n : Nat) (f : Dev → Dev) : (s.event n f).flash = s.flash := rfl
@[simp] theorem event_pending (s : State) (n : Nat) (f : Dev → Dev) : (s.event n f).pending = s.pending := rfl
theorem event_depths (s : State) (n : Nat) (f : Dev → Dev) :
    (s.event n f).depths = if (f (s.dev.to n)).power.cold then [] else s.depths := rfl
theorem event_dev (s : State) (n : Nat) (f : Dev → Dev) : (s.event n f).dev = (f (s.dev.to n)).noteReady := rfl

@[simp] theorem noteReady_ports (d : Dev) : d.noteReady.ports = d.ports := by rw [noteReady_eq]
@[simp] theorem noteReady_ctxs (d : Dev) : d.noteReady.ctxs = d.ctxs := by rw [noteReady_eq]
@[simp] theorem noteReady_jobs (d : Dev) : d.noteReady.jobs = d.jobs := by rw [noteReady_eq]
@[simp] theorem noteReady_clock (d : Dev) : d.noteReady.clock = d.clock := by rw [noteReady_eq]
@[simp] theorem noteReady_power (d : Dev) : d.noteReady.power = d.power := by rw [noteReady_eq]
@[simp] theorem noteReady_faults (d : Dev) : d.noteReady.faults = d.faults := by rw [noteReady_eq]
@[simp] theorem noteReady_gauge (d : Dev) : d.noteReady.gauge = d.gauge := by rw [noteReady_eq]
@[simp] theorem noteReady_silt (d : Dev) : d.noteReady.silt = d.silt := by rw [noteReady_eq]
@[simp] theorem noteReady_sent (d : Dev) : d.noteReady.sent = d.sent := by rw [noteReady_eq]
@[simp] theorem noteReady_units (d : Dev) : d.noteReady.units = d.units := by rw [noteReady_eq]
@[simp] theorem noteReady_ctrs (d : Dev) : d.noteReady.ctrs = d.ctrs := by rw [noteReady_eq]
@[simp] theorem noteReady_image (d : Dev) : d.noteReady.image = d.image := by rw [noteReady_eq]
@[simp] theorem noteReady_dump (d : Dev) : d.noteReady.dump = d.dump := by rw [noteReady_eq]
@[simp] theorem noteReady_pool (d : Dev) : d.noteReady.pool = d.pool := by rw [noteReady_eq]
@[simp] theorem noteReady_mirrors (d : Dev) : d.noteReady.mirrors = d.mirrors := by rw [noteReady_eq]
@[simp] theorem noteReady_own (d : Dev) : d.noteReady.own = d.own := by rw [noteReady_eq]
@[simp] theorem noteReady_tiles (d : Dev) : d.noteReady.tiles = d.tiles := by rw [noteReady_eq]
@[simp] theorem noteReady_probes (d : Dev) : d.noteReady.probes = d.probes := by rw [noteReady_eq]
@[simp] theorem noteReady_dies (d : Dev) : d.noteReady.dies = d.dies := by rw [noteReady_eq]
@[simp] theorem noteReady_gens (d : Dev) : d.noteReady.gens = d.gens := by rw [noteReady_eq]
@[simp] theorem noteReady_refreshed (d : Dev) : d.noteReady.refreshed = d.refreshed := by rw [noteReady_eq]
@[simp] theorem noteReady_audit (d : Dev) : d.noteReady.audit = d.audit := by rw [noteReady_eq]
@[simp] theorem noteReady_freeCtr (d : Dev) : d.noteReady.freeCtr = d.freeCtr := by rw [noteReady_eq]
@[simp] theorem noteReady_sessions (d : Dev) : d.noteReady.keeper.sessions = d.keeper.sessions := by rw [noteReady_eq]
@[simp] theorem noteReady_port (d : Dev) (p : Nat) : d.noteReady.port p = d.port p := by simp [Dev.port]
@[simp] theorem noteReady_ctx (d : Dev) (c : Nat) : d.noteReady.ctx c = d.ctx c := by simp [Dev.ctx]
@[simp] theorem noteReady_job (d : Dev) (j : Nat) : d.noteReady.job j = d.job j := by simp [Dev.job]
@[simp] theorem noteReady_unit (d : Dev) (u : Nat) : d.noteReady.unit u = d.unit u := by simp [Dev.unit]
@[simp] theorem noteReady_die (d : Dev) (i : Nat) : d.noteReady.die i = d.die i := by simp [Dev.die]
@[simp] theorem noteReady_ctr (d : Dev) (i : Nat) : d.noteReady.ctr i = d.ctr i := by simp [Dev.ctr]
@[simp] theorem noteReady_session (d : Dev) (n : Nat) : d.noteReady.session n = d.session n := by simp [Dev.session]
@[simp] theorem noteReady_lastRecord (d : Dev) : d.noteReady.lastRecord = d.lastRecord := by simp [Dev.lastRecord]

end Sys2Proof.Machine
end

