-- ==== Sys2Proof/Laws/Rest.lean ====
section
/-! SUPPORT. Every operation that only reports leaves the rest of the device alone: messages, counters, Silt, fault records, ALERT_N. -/

namespace Sys2Proof.Machine

theorem rest_to (d : Dev) (n : Nat) : (d.to n).rest = { d.rest with clock := (d.to n).clock } := by rw [to_eq]; rfl

/-! ### Messages, counters and Silt -/

@[simp] theorem quiet_ite (c : Prop) [Decidable c] (a b : Dev) : (if c then a else b).quiet = if c then a.quiet else b.quiet := apply_ite _ _ _ _

@[simp] theorem quiet_send (d : Dev) (x : Sent) : (d.send x).quiet = d.quiet := by unfold Dev.send; split <;> rfl
@[simp] theorem quiet_count (d : Dev) (i n : Nat) : (d.count i n).quiet = d.quiet := by rw [count_eq]; rfl
@[simp] theorem quiet_countDev (d : Dev) (i n : Nat) : (d.countDev i n).quiet = d.quiet := quiet_count _ _ _
@[simp] theorem quiet_countPort (d : Dev) (p i n : Nat) : (d.countPort p i n).quiet = d.quiet := quiet_count _ _ _
@[simp] theorem quiet_countStack (d : Dev) (p i n : Nat) : (d.countStack p i n).quiet = d.quiet := quiet_count _ _ _
@[simp] theorem quiet_countDie (d : Dev) (p i n : Nat) : (d.countDie p i n).quiet = d.quiet := quiet_count _ _ _
@[simp] theorem quiet_countPool (d : Dev) (p i n : Nat) : (d.countPool p i n).quiet = d.quiet := quiet_count _ _ _
@[simp] theorem quiet_countJob (d : Dev) (j i n : Nat) : (d.countJob j i n).quiet = d.quiet := by unfold Dev.countJob; simp
@[simp] theorem quiet_modGauge (d : Dev) (f : Gauge → Gauge) : (d.modGauge f).quiet = d.quiet := rfl
@[simp] theorem quiet_modSilt (d : Dev) (f : Silt → Silt) : (d.modSilt f).quiet = d.quiet := rfl
@[simp] theorem quiet_modSession (d : Dev) (n : Nat) (f : Session → Session) : (d.modSession n f).quiet = d.quiet := rfl
@[simp] theorem quiet_tap (d : Dev) (a p : Nat) (tx : Bool) (n : Nat) : (d.tap a p tx n).quiet = d.quiet := by unfold Dev.tap; split <;> rfl
@[simp] theorem quiet_portBytes (d : Dev) (a p : Nat) (tx : Bool) (n : Nat) : (d.portBytes a p tx n).quiet = d.quiet := by simp [Dev.portBytes]
@[simp] theorem quiet_gmpBytes (d : Dev) (p : Nat) (tx : Bool) (n : Nat) : (d.gmpBytes p tx n).quiet = d.quiet := by
  unfold Dev.gmpBytes; split <;> simp

/-- A fold of an operation that is quiet is quiet. -/
theorem quiet_foldl {α : Type} (f : Dev → α → Dev) (h : ∀ d a, (f d a).quiet = d.quiet) (l : List α) (d : Dev) : (l.foldl f d).quiet = d.quiet := by
  induction l generalizing d with
  | nil => rfl
  | cons a l ih => rw [List.foldl_cons, ih, h]

@[simp] theorem quiet_drainCopies (d : Dev) (p : Nat) : (d.drainCopies p).quiet = d.quiet := by
  unfold Dev.drainCopies
  split
  · refine Eq.trans (b := (((List.range 4).flatMap (d.copies p)).foldl (fun d f =>
      ((d.send (.copy p (f ++ fcsOf f))).portBytes 256 p true (f.length + 4)).countDev 0x103 (64 * frameCells f)) d).quiet) rfl ?_
    exact quiet_foldl _ (fun _ _ => by simp) _ _
  · rfl
@[simp] theorem quiet_putCopy (d : Dev) (p q : Nat) (f : Bytes) : (d.putCopy p q f).quiet = d.quiet := by
  unfold Dev.putCopy
  dsimp only
  split
  · simp
  · rw [quiet_drainCopies, quiet_countDev]; rfl
@[simp] theorem quiet_copyFor (d : Dev) (i : Nat) (e : Bytes) (x : Bool) (p : Nat) (r : Option Bytes) (b : Bytes) :
    (d.copyFor i e x p r b).quiet = d.quiet := by
  unfold Dev.copyFor
  dsimp only
  split
  · rfl
  · rw [quiet_putCopy]; rfl
@[simp] theorem quiet_mirror (d : Dev) (x : Bool) (p : Nat) (r : Option Bytes) (b : Bytes) : (d.mirror x p r b).quiet = d.quiet := by
  unfold Dev.mirror
  exact quiet_foldl _ (fun _ _ => by split <;> simp) _ _
@[simp] theorem quiet_gmpCross (d : Dev) (p : Nat) (x : Bool) (a u n : Nat) (b : Bytes) : (d.gmpCross p x a u n b).quiet = d.quiet := by
  unfold Dev.gmpCross
  dsimp only
  split <;> simp
@[simp] theorem quiet_gmpIn (d : Dev) (m : GmpMsg) (c : Nat) : (d.gmpIn m c).quiet = d.quiet := quiet_gmpCross _ _ _ _ _ _ _
@[simp] theorem quiet_gmpSend (d : Dev) (s : Session) (fl msg tag : Nat) (b : Bytes) : (d.gmpSend s fl msg tag b).quiet = d.quiet := by
  simp [Dev.gmpSend]
@[simp] theorem quiet_gmpNotify (d : Dev) (s : Session) (msg : Nat) (b : Bytes) : (d.gmpNotify s msg b).quiet = d.quiet := by
  simp [Dev.gmpNotify]
@[simp] theorem quiet_gmpReply (d : Dev) (n msg tag : Nat) (b : Bytes) : (d.gmpReply n msg tag b).quiet = d.quiet := by
  unfold Dev.gmpReply; split <;> simp
@[simp] theorem quiet_noteReady (d : Dev) : d.noteReady.quiet = d.quiet := by rw [noteReady_eq]; rfl

@[simp] theorem quiet_siltLost (d : Dev) : d.siltLost.quiet = d.quiet := by unfold Dev.siltLost; dsimp only; split <;> simp
@[simp] theorem quiet_siltDiscard (d : Dev) (m : Bool) : (d.siltDiscard m).quiet = d.quiet := by simp [Dev.siltDiscard]
@[simp] theorem quiet_siltOver (d : Dev) (two : Bool) (b : Bytes) : (d.siltOver two b).quiet = d.quiet := by simp [Dev.siltOver]
@[simp] theorem quiet_siltRun (d : Dev) (two : Bool) (b : Bytes) : (d.siltRun two b).quiet = d.quiet := by simp [Dev.siltRun]
@[simp] theorem quiet_siltPost (d : Dev) (m two : Bool) (b : Bytes) : (d.siltPost m two b).quiet = d.quiet := by
  unfold Dev.siltPost
  dsimp only
  split
  · simp
  · split
    · simp
    · split <;> simp
@[simp] theorem quiet_siltPut (d : Dev) (m : SiltMsg) (x : Bool) : (d.siltPut m x).quiet = d.quiet := by
  simp [Dev.siltPut]
@[simp] theorem quiet_pulse (d : Dev) (p : Nat) : (d.pulse p).quiet = d.quiet := by simp [Dev.pulse]

@[simp] theorem quiet_siltTrigger (d : Dev) (n : Nat) : (d.siltTrigger n).quiet = d.quiet := by
  unfold Dev.siltTrigger
  split
  · split <;> simp
  · dsimp only
    rw [quiet_foldl _ (fun _ _ => quiet_pulse _ _)]
    simp
@[simp] theorem quiet_siltWrite (d : Dev) (m : SiltMsg) (n : Nat) : (d.siltWrite m n).quiet = d.quiet := by
  unfold Dev.siltWrite
  dsimp only
  split
  · split <;> simp
  · rfl
@[simp] theorem quiet_siltCtx (d : Dev) (c : Nat) (w : CtxState) : (d.siltCtx c w).quiet = d.quiet := quiet_siltWrite _ _ _
@[simp] theorem quiet_siltLink (d : Dev) (p : Nat) (w : LinkState) : (d.siltLink p w).quiet = d.quiet := quiet_siltWrite _ _ _
@[simp] theorem quiet_siltGtc (d : Dev) (w : GtcState) : (d.siltGtc w).quiet = d.quiet := quiet_siltWrite _ _ _
@[simp] theorem quiet_siltStep (d : Dev) (n : Nat) : (d.siltStep n).quiet = d.quiet := quiet_siltWrite _ _ _
@[simp] theorem quiet_siltLaunch (d : Dev) (j s l : Nat) (a b : Bool) : (d.siltLaunch j s l a b).quiet = d.quiet := quiet_siltWrite _ _ _


theorem rest_of_quiet {a b : Dev} (h : a.quiet = b.quiet) : a.rest = b.rest :=
  congrArg (fun d : Dev => { d with faults := {}, units := [] }) h
theorem quiet_faults {a b : Dev} (h : a.quiet = b.quiet) : a.faults = b.faults := (congrArg Dev.faults h : a.quiet.faults = b.quiet.faults)
theorem quiet_units {a b : Dev} (h : a.quiet = b.quiet) : a.units = b.units := (congrArg Dev.units h : a.quiet.units = b.quiet.units)

/-! ### The rest -/

@[simp] theorem rest_ite (c : Prop) [Decidable c] (a b : Dev) : (if c then a else b).rest = if c then a.rest else b.rest := apply_ite _ _ _ _

@[simp] theorem rest_send (d : Dev) (x : Sent) : (d.send x).rest = d.rest := by unfold Dev.send; split <;> rfl
@[simp] theorem rest_count (d : Dev) (i n : Nat) : (d.count i n).rest = d.rest := by rw [count_eq]; rfl
@[simp] theorem rest_countDev (d : Dev) (i n : Nat) : (d.countDev i n).rest = d.rest := rest_count _ _ _
@[simp] theorem rest_countPort (d : Dev) (p i n : Nat) : (d.countPort p i n).rest = d.rest := rest_count _ _ _
@[simp] theorem rest_countStack (d : Dev) (p i n : Nat) : (d.countStack p i n).rest = d.rest := rest_count _ _ _
@[simp] theorem rest_countDie (d : Dev) (p i n : Nat) : (d.countDie p i n).rest = d.rest := rest_count _ _ _
@[simp] theorem rest_countPool (d : Dev) (p i n : Nat) : (d.countPool p i n).rest = d.rest := rest_count _ _ _
@[simp] theorem rest_countJob (d : Dev) (j i n : Nat) : (d.countJob j i n).rest = d.rest := by unfold Dev.countJob; simp
@[simp] theorem rest_modGauge (d : Dev) (f : Gauge → Gauge) : (d.modGauge f).rest = d.rest := rfl
@[simp] theorem rest_modSilt (d : Dev) (f : Silt → Silt) : (d.modSilt f).rest = d.rest := rfl
@[simp] theorem rest_modFaults (d : Dev) (f : Faults → Faults) : (d.modFaults f).rest = d.rest := rfl
@[simp] theorem rest_modUnit (d : Dev) (u : Nat) (f : UnitSt → UnitSt) : (d.modUnit u f).rest = d.rest := rfl
@[simp] theorem rest_modSession (d : Dev) (n : Nat) (f : Session → Session) : (d.modSession n f).rest = d.rest := rfl
@[simp] theorem rest_tap (d : Dev) (a p : Nat) (tx : Bool) (n : Nat) : (d.tap a p tx n).rest = d.rest := by unfold Dev.tap; split <;> rfl
@[simp] theorem rest_portBytes (d : Dev) (a p : Nat) (tx : Bool) (n : Nat) : (d.portBytes a p tx n).rest = d.rest := by simp [Dev.portBytes]
@[simp] theorem rest_gmpBytes (d : Dev) (p : Nat) (tx : Bool) (n : Nat) : (d.gmpBytes p tx n).rest = d.rest := by
  unfold Dev.gmpBytes; split <;> simp

/-- A fold of an operation that leaves the rest alone leaves it alone. -/
theorem rest_foldl {α : Type} (f : Dev → α → Dev) (h : ∀ d a, (f d a).rest = d.rest) (l : List α) (d : Dev) : (l.foldl f d).rest = d.rest := by
  induction l generalizing d with
  | nil => rfl
  | cons a l ih => rw [List.foldl_cons, ih, h]

@[simp] theorem rest_drainCopies (d : Dev) (p : Nat) : (d.drainCopies p).rest = d.rest := by
  unfold Dev.drainCopies
  split
  · refine Eq.trans (b := (((List.range 4).flatMap (d.copies p)).foldl (fun d f =>
      ((d.send (.copy p (f ++ fcsOf f))).portBytes 256 p true (f.length + 4)).countDev 0x103 (64 * frameCells f)) d).rest) rfl ?_
    exact rest_foldl _ (fun _ _ => by simp) _ _
  · rfl
@[simp] theorem rest_putCopy (d : Dev) (p q : Nat) (f : Bytes) : (d.putCopy p q f).rest = d.rest := by
  unfold Dev.putCopy
  dsimp only
  split
  · simp
  · rw [rest_drainCopies, rest_countDev]; rfl
@[simp] theorem rest_copyFor (d : Dev) (i : Nat) (e : Bytes) (x : Bool) (p : Nat) (r : Option Bytes) (b : Bytes) :
    (d.copyFor i e x p r b).rest = d.rest := by
  unfold Dev.copyFor
  dsimp only
  split
  · rfl
  · rw [rest_putCopy]; rfl
@[simp] theorem rest_mirror (d : Dev) (x : Bool) (p : Nat) (r : Option Bytes) (b : Bytes) : (d.mirror x p r b).rest = d.rest := by
  unfold Dev.mirror
  exact rest_foldl _ (fun _ _ => by split <;> simp) _ _
@[simp] theorem rest_gmpCross (d : Dev) (p : Nat) (x : Bool) (a u n : Nat) (b : Bytes) : (d.gmpCross p x a u n b).rest = d.rest := by
  unfold Dev.gmpCross
  dsimp only
  split <;> simp
@[simp] theorem rest_gmpIn (d : Dev) (m : GmpMsg) (c : Nat) : (d.gmpIn m c).rest = d.rest := rest_gmpCross _ _ _ _ _ _ _
@[simp] theorem rest_gmpSend (d : Dev) (s : Session) (fl msg tag : Nat) (b : Bytes) : (d.gmpSend s fl msg tag b).rest = d.rest := by
  simp [Dev.gmpSend]
@[simp] theorem rest_gmpNotify (d : Dev) (s : Session) (msg : Nat) (b : Bytes) : (d.gmpNotify s msg b).rest = d.rest := by
  simp [Dev.gmpNotify]
@[simp] theorem rest_gmpReply (d : Dev) (n msg tag : Nat) (b : Bytes) : (d.gmpReply n msg tag b).rest = d.rest := by
  unfold Dev.gmpReply; split <;> simp
@[simp] theorem rest_noteReady (d : Dev) : d.noteReady.rest = d.rest := by rw [noteReady_eq]; rfl

/-! ### Silt -/

@[simp] theorem rest_siltLost (d : Dev) : d.siltLost.rest = d.rest := by unfold Dev.siltLost; dsimp only; split <;> simp
@[simp] theorem rest_siltDiscard (d : Dev) (m : Bool) : (d.siltDiscard m).rest = d.rest := by simp [Dev.siltDiscard]
@[simp] theorem rest_siltOver (d : Dev) (two : Bool) (b : Bytes) : (d.siltOver two b).rest = d.rest := by simp [Dev.siltOver]
@[simp] theorem rest_siltRun (d : Dev) (two : Bool) (b : Bytes) : (d.siltRun two b).rest = d.rest := by simp [Dev.siltRun]
@[simp] theorem rest_siltPost (d : Dev) (m two : Bool) (b : Bytes) : (d.siltPost m two b).rest = d.rest := by
  unfold Dev.siltPost
  dsimp only
  split
  · simp
  · split
    · simp
    · split <;> simp
@[simp] theorem rest_siltPut (d : Dev) (m : SiltMsg) (x : Bool) : (d.siltPut m x).rest = d.rest := by
  simp [Dev.siltPut]
@[simp] theorem rest_pulse (d : Dev) (p : Nat) : (d.pulse p).rest = d.rest := by simp [Dev.pulse]

@[simp] theorem rest_siltTrigger (d : Dev) (n : Nat) : (d.siltTrigger n).rest = d.rest := by
  unfold Dev.siltTrigger
  split
  · split <;> simp
  · dsimp only
    rw [rest_foldl _ (fun _ _ => rest_pulse _ _)]
    simp
@[simp] theorem rest_siltWrite (d : Dev) (m : SiltMsg) (n : Nat) : (d.siltWrite m n).rest = d.rest := by
  unfold Dev.siltWrite
  dsimp only
  split
  · split <;> simp
  · rfl
@[simp] theorem rest_siltCtx (d : Dev) (c : Nat) (w : CtxState) : (d.siltCtx c w).rest = d.rest := rest_siltWrite _ _ _
@[simp] theorem rest_siltLink (d : Dev) (p : Nat) (w : LinkState) : (d.siltLink p w).rest = d.rest := rest_siltWrite _ _ _
@[simp] theorem rest_siltGtc (d : Dev) (w : GtcState) : (d.siltGtc w).rest = d.rest := rest_siltWrite _ _ _
@[simp] theorem rest_siltStep (d : Dev) (n : Nat) : (d.siltStep n).rest = d.rest := rest_siltWrite _ _ _
@[simp] theorem rest_siltLaunch (d : Dev) (j s l : Nat) (a b : Bool) : (d.siltLaunch j s l a b).rest = d.rest := rest_siltWrite _ _ _

/-! ### Fault records -/

@[simp] theorem rest_updAlert (d : Dev) : d.updAlert.rest = d.rest := by unfold Dev.updAlert; split <;> simp
@[simp] theorem rest_unitFault (d : Dev) (r : FaultRec) (e : Nat) : (d.unitFault r e).rest = d.rest := by
  unfold Dev.unitFault
  split
  · split <;> simp
  · rfl
@[simp] theorem rest_writeRecord (d : Dev) (r : FaultRec) : (d.writeRecord r).rest = d.rest := by
  simp only [Dev.writeRecord, rest_ite, rest_siltTrigger, rest_siltWrite, ite_self]
  refine (rest_foldl _ (fun d s => ?_) _ _).trans (by simp)
  split <;> simp
@[simp] theorem rest_recordFault (d : Dev) (r : FaultRec) : (d.recordFault r).rest = d.rest := by
  unfold Dev.recordFault; split <;> simp
@[simp] theorem rest_ackClass (d : Dev) (c : Nat) : (d.ackClass c).rest = d.rest := by simp [Dev.ackClass]
@[simp] theorem rest_forceAlert (d : Dev) (b : Bool) : (d.forceAlert b).rest = d.rest := by simp [Dev.forceAlert]

/-- A fault of severity 2 or below is a record and nothing else (R360). -/
theorem raiseFault_record (d : Dev) (r : FaultRec) (h : d.onlyReports r) : d.raiseFault r = d.recordFault r := by
  unfold Dev.onlyReports at h
  have e : ∀ x : Dev, x.faultActs r (d.effective r) = x := fun x => by
    unfold Dev.faultActs
    simp [show ¬ 3 ≤ d.effective r by omega, show ¬ 4 ≤ d.effective r by omega]
  unfold Dev.raiseFault
  simp [e, show ¬ 5 ≤ d.effective r by omega]

/-! ### From the rest to the fields -/

theorem rest_fields {a b : Dev} (h : a.rest = b.rest) :
    a.ports = b.ports ∧ a.ctxs = b.ctxs ∧ a.jobs = b.jobs ∧ a.clock = b.clock ∧ a.image = b.image ∧ a.pool = b.pool ∧ a.power = b.power ∧
      a.dies = b.dies ∧ a.audit = b.audit ∧ a.probes = b.probes ∧ a.dump = b.dump ∧ a.gens = b.gens ∧ a.refreshed = b.refreshed :=
  ⟨(congrArg Dev.ports h : a.rest.ports = b.rest.ports), (congrArg Dev.ctxs h : a.rest.ctxs = b.rest.ctxs), (congrArg Dev.jobs h : a.rest.jobs = b.rest.jobs), (congrArg Dev.clock h : a.rest.clock = b.rest.clock), (congrArg Dev.image h : a.rest.image = b.rest.image), (congrArg Dev.pool h : a.rest.pool = b.rest.pool),
    (congrArg Dev.power h : a.rest.power = b.rest.power), (congrArg Dev.dies h : a.rest.dies = b.rest.dies), (congrArg Dev.audit h : a.rest.audit = b.rest.audit), (congrArg Dev.probes h : a.rest.probes = b.rest.probes), (congrArg Dev.dump h : a.rest.dump = b.rest.dump), (congrArg Dev.gens h : a.rest.gens = b.rest.gens),
    (congrArg Dev.refreshed h : a.rest.refreshed = b.rest.refreshed)⟩

theorem rest_port {a b : Dev} (h : a.rest = b.rest) (p : Nat) : a.port p = b.port p := by simp [Dev.port, (rest_fields h).1]
theorem rest_ctx {a b : Dev} (h : a.rest = b.rest) (c : Nat) : a.ctx c = b.ctx c := by simp [Dev.ctx, (rest_fields h).2.1]
theorem rest_job {a b : Dev} (h : a.rest = b.rest) (j : Nat) : a.job j = b.job j := by simp [Dev.job, (rest_fields h).2.2.1]
theorem rest_clock {a b : Dev} (h : a.rest = b.rest) : a.clock = b.clock := (rest_fields h).2.2.2.1
theorem rest_power {a b : Dev} (h : a.rest = b.rest) : a.power = b.power := (rest_fields h).2.2.2.2.2.2.1
theorem rest_up {a b : Dev} (h : a.rest = b.rest) (p : Nat) : a.up p = b.up p := by simp [Dev.up, rest_port h]

end Sys2Proof.Machine
end

