-- ==== Sys2Proof/Laws/Faults.lean ====
section
/-! SUPPORT. What a fault record leaves in the event ring, the classes and the units (R360, R363 to R366). -/

namespace Sys2Proof.Machine

@[simp] theorem faults_updAlert_ring (d : Dev) : d.updAlert.faults.ring = d.faults.ring := by
  unfold Dev.updAlert; split
  · rfl
  · simp only [faults_modFaults]; rw [quiet_faults (quiet_send _ _)]
@[simp] theorem faults_updAlert_seq (d : Dev) : d.updAlert.faults.eventSeq = d.faults.eventSeq := by
  unfold Dev.updAlert; split
  · rfl
  · simp only [faults_modFaults]; rw [quiet_faults (quiet_send _ _)]
@[simp] theorem faults_updAlert_classes (d : Dev) : d.updAlert.faults.classes = d.faults.classes := by
  unfold Dev.updAlert; split
  · rfl
  · simp only [faults_modFaults]; rw [quiet_faults (quiet_send _ _)]
@[simp] theorem faults_updAlert_held (d : Dev) : d.updAlert.faults.held = d.faults.held := by
  unfold Dev.updAlert; split
  · rfl
  · simp only [faults_modFaults]; rw [quiet_faults (quiet_send _ _)]
@[simp] theorem faults_unitFault (d : Dev) (r : FaultRec) (e : Nat) : (d.unitFault r e).faults = d.faults := by
  unfold Dev.unitFault
  split
  · split <;> rfl
  · rfl

/-- The faults that a record leaves, but for the level of ALERT_N. -/
def Dev.afterRecord (d : Dev) (r : FaultRec) : Faults :=
  let f := d.faults.put (d.faultBytes r (d.effective r)) (decide (d.eventSessions (d.effective r) ≠ []))
  if r.cleared then f else { f with classes := tmod {} f.classes r.cls (fun c => c.raise r.source (d.effective r)) }

theorem writeRecord_faults (d : Dev) (r : FaultRec) :
    (d.writeRecord r).faults.ring = (d.afterRecord r).ring ∧ (d.writeRecord r).faults.eventSeq = (d.afterRecord r).eventSeq ∧
      (d.writeRecord r).faults.classes = (d.afterRecord r).classes ∧ (d.writeRecord r).faults.held = d.faults.held := by
  have key : (d.writeRecord r).faults = (((d.modFaults (fun _ => d.afterRecord r)).unitFault r (d.effective r)).updAlert).faults := by
    apply quiet_faults
    simp only [Dev.writeRecord, quiet_ite, quiet_siltTrigger, quiet_siltWrite, ite_self]
    refine (quiet_foldl _ (fun d s => ?_) _ _).trans ?_
    · split <;> simp
    · rfl
  rw [key]
  simp only [faults_updAlert_ring, faults_updAlert_seq, faults_updAlert_classes, faults_updAlert_held, faults_unitFault, faults_modFaults,
    true_and]
  unfold Dev.afterRecord
  dsimp only
  split <;> rfl

theorem writeRecord_seq (d : Dev) (r : FaultRec) : (d.writeRecord r).faults.eventSeq = d.faults.eventSeq + 1 := by
  rw [(writeRecord_faults d r).2.1]; unfold Dev.afterRecord; dsimp only; split <;> rfl

/-- The ring after a record: the older records that are left, and the new one last. -/
theorem writeRecord_ring (d : Dev) (r : FaultRec) : ∃ l e, (d.writeRecord r).faults.ring = l ++ [e] ∧ e.seq = d.faults.eventSeq ∧
    e.bytes = d.faultBytes r (d.effective r) := by
  rw [(writeRecord_faults d r).1]
  unfold Dev.afterRecord Faults.put
  dsimp only
  split <;> exact ⟨_, _, rfl, rfl, rfl⟩

theorem leVal_leBytes (n v : Nat) : leVal (leBytes n v) = v % 256 ^ n := by
  induction n generalizing v with
  | zero => simp [leBytes, leVal, Nat.mod_one]
  | succ n ih =>
    simp only [leBytes, leVal, ih, BitVec.toNat_ofNat]
    rw [show 256 ^ (n + 1) = 256 * 256 ^ n by rw [Nat.pow_succ, Nat.mul_comm], Nat.mod_mul]

@[simp] theorem length_leBytes (n v : Nat) : (leBytes n v).length = n := by
  induction n generalizing v with
  | zero => rfl
  | succ n ih => simp [leBytes, ih]

/-- A record names the source of its fault (R363). -/
theorem recSource_faultBytes (d : Dev) (r : FaultRec) (e : Nat) (h : r.source < 65536) : recSource (d.faultBytes r e) = r.source := by
  unfold recSource fld slice Dev.faultBytes
  have h1 : ((leBytes 8 d.faults.eventSeq ++ leBytes 8 d.gtc ++ leBytes 2 r.source).length) = 18 := by simp
  have h2 : ∀ (y : Bytes), ((leBytes 8 d.faults.eventSeq ++ leBytes 8 d.gtc ++ leBytes 2 r.source ++ y).drop 16).take 2 = leBytes 2 r.source := by
    intro y
    rw [show (leBytes 8 d.faults.eventSeq ++ leBytes 8 d.gtc ++ leBytes 2 r.source ++ y) =
      (leBytes 8 d.faults.eventSeq ++ leBytes 8 d.gtc) ++ (leBytes 2 r.source ++ y) by simp]
    rw [List.drop_append_of_le_length (by simp), List.drop_of_length_le (by simp), List.nil_append,
      List.take_append_of_le_length (by simp), List.take_of_length_le (by simp)]
  simp only [List.append_assoc] at h2 ⊢
  rw [h2, leVal_leBytes]
  exact Nat.mod_eq_of_lt h

/-- A record of a fault reaches the ring. -/
theorem recordFault_recorded (d : Dev) (r : FaultRec) : Recorded d r (d.recordFault r) := by
  obtain ⟨l, e, h, hs, hb⟩ := writeRecord_ring d r
  unfold Recorded Dev.recordFault
  split
  · next hc =>
    simp only [Bool.and_eq_true, Bool.not_eq_true'] at hc
    have hl : 1024 ≤ d.faults.ring.length := by
      have := hc.1
      simp only [Faults.losesUnread, Bool.and_eq_true, decide_eq_true_eq] at this
      exact this.1
    refine ⟨e, ?_, hs, hb⟩
    have hlen : l ≠ [] := by
      intro hn
      subst hn
      have h1 := congrArg List.length h
      rw [(writeRecord_faults d r).1] at h1
      have h2 : (d.afterRecord r).ring.length = (d.faults.put (d.faultBytes r (d.effective r))
          (decide (d.eventSessions (d.effective r) ≠ []))).ring.length := by
        unfold Dev.afterRecord; dsimp only; split <;> rfl
      rw [h2] at h1
      simp only [Faults.put, show ¬ d.faults.ring.length < 1024 by omega, if_false, List.length_append, List.length_drop,
        List.length_cons, List.length_nil] at h1
      omega
    rw [(writeRecord_faults _ _).1]
    have h3 : ∀ (x : Dev) (q : FaultRec), ∃ e', (x.afterRecord q).ring =
        (if x.faults.ring.length < 1024 then x.faults.ring else x.faults.ring.drop 1) ++ [e'] := by
      intro x q; unfold Dev.afterRecord Faults.put; dsimp only; split <;> exact ⟨_, rfl⟩
    obtain ⟨e', h4⟩ := h3 ((d.writeRecord r).modFaults (fun f => { f with overwriteRaised := true })) { source := 0x0C03 }
    rw [h4]
    simp only [faults_modFaults, h]
    obtain ⟨a, l', rfl⟩ := List.exists_cons_of_ne_nil hlen
    split <;> simp
  · exact ⟨e, by simp [h], hs, hb⟩

/-- After a fault's record the ring holds one that names its source. -/
theorem recordFault_source (d : Dev) (r : FaultRec) (h : r.source < 65536) : ∃ e ∈ (d.recordFault r).faults.ring, recSource e.bytes = r.source := by
  obtain ⟨e, he, _, hb⟩ := recordFault_recorded d r
  exact ⟨e, he, by rw [hb]; exact recSource_faultBytes d r _ h⟩

theorem recordFault_held (d : Dev) (r : FaultRec) : (d.recordFault r).faults.held = d.faults.held := by
  unfold Dev.recordFault
  split
  · rw [(writeRecord_faults _ _).2.2.2]; exact (writeRecord_faults d r).2.2.2
  · exact (writeRecord_faults d r).2.2.2

/-- The class of a fault, but that of a cleared report, is unacknowledged after its record (R365). -/
theorem recordFault_unacked (d : Dev) (r : FaultRec) (h : r.cleared = false) :
    (tget {} (d.recordFault r).faults.classes r.cls).unacked = true := by
  have h1 : ∀ (x : Dev) (q : FaultRec), q.cleared = false →
      (x.writeRecord q).faults.classes = tmod {} x.faults.classes q.cls (fun c => c.raise q.source (x.effective q)) := by
    intro x q hq
    rw [(writeRecord_faults x q).2.2.1]
    simp [Dev.afterRecord, hq, Faults.put]
  have h2 : ∀ (x : Dev) (q : FaultRec) (k : Nat), (tget {} x.faults.classes k).unacked = true →
      (tget {} (x.writeRecord q).faults.classes k).unacked = true := by
    intro x q k hk
    by_cases hq : q.cleared
    · rw [(writeRecord_faults x q).2.2.1]; simpa [Dev.afterRecord, hq, Faults.put] using hk
    · rw [h1 x q (by simpa using hq), tget_tmod]
      split
      · simp [FaultClass.raise]
      · exact hk
  have h3 : (tget {} (d.writeRecord r).faults.classes r.cls).unacked = true := by
    rw [h1 d r h, tget_tmod_same]; simp [FaultClass.raise]
  unfold Dev.recordFault
  split
  · exact h2 _ _ _ h3
  · exact h3

end Sys2Proof.Machine
end

