-- ==== Sys2Proof/Laws/Messages.lean ====
section
/-! SUPPORT. Messages, traces, counters and copies leave the Keeper alone. -/

namespace Sys2Proof.Machine

@[simp] theorem keeper_ite (c : Prop) [Decidable c] (a b : Dev) : (if c then a else b).keeper = if c then a.keeper else b.keeper := apply_ite Dev.keeper _ _ _

@[simp] theorem keeper_send (d : Dev) (x : Sent) : (d.send x).keeper = d.keeper := by unfold Dev.send; split <;> rfl
@[simp] theorem keeper_count (d : Dev) (i n : Nat) : (d.count i n).keeper = d.keeper := by rw [count_eq]
@[simp] theorem keeper_countDev (d : Dev) (i n : Nat) : (d.countDev i n).keeper = d.keeper := keeper_count _ _ _
@[simp] theorem keeper_countPort (d : Dev) (p i n : Nat) : (d.countPort p i n).keeper = d.keeper := keeper_count _ _ _
@[simp] theorem keeper_countStack (d : Dev) (p i n : Nat) : (d.countStack p i n).keeper = d.keeper := keeper_count _ _ _
@[simp] theorem keeper_countDie (d : Dev) (p i n : Nat) : (d.countDie p i n).keeper = d.keeper := keeper_count _ _ _
@[simp] theorem keeper_countPool (d : Dev) (p i n : Nat) : (d.countPool p i n).keeper = d.keeper := keeper_count _ _ _
@[simp] theorem keeper_countJob (d : Dev) (j i n : Nat) : (d.countJob j i n).keeper = d.keeper := by simp [Dev.countJob]
@[simp] theorem keeper_modGauge (d : Dev) (f : Gauge → Gauge) : (d.modGauge f).keeper = d.keeper := rfl
@[simp] theorem keeper_modSilt (d : Dev) (f : Silt → Silt) : (d.modSilt f).keeper = d.keeper := rfl
@[simp] theorem keeper_tap (d : Dev) (a p : Nat) (tx : Bool) (n : Nat) : (d.tap a p tx n).keeper = d.keeper := by unfold Dev.tap; split <;> rfl
@[simp] theorem keeper_portBytes (d : Dev) (a p : Nat) (tx : Bool) (n : Nat) : (d.portBytes a p tx n).keeper = d.keeper := by simp [Dev.portBytes]
@[simp] theorem keeper_gmpBytes (d : Dev) (p : Nat) (tx : Bool) (n : Nat) : (d.gmpBytes p tx n).keeper = d.keeper := by
  unfold Dev.gmpBytes; split <;> simp

/-- A fold of an operation that leaves the Keeper alone leaves it alone. -/
theorem keeper_foldl {α : Type} (f : Dev → α → Dev) (h : ∀ d a, (f d a).keeper = d.keeper) (l : List α) (d : Dev) : (l.foldl f d).keeper = d.keeper := by
  induction l generalizing d with
  | nil => rfl
  | cons a l ih => rw [List.foldl_cons, ih, h]

@[simp] theorem keeper_drainCopies (d : Dev) (p : Nat) : (d.drainCopies p).keeper = d.keeper := by
  unfold Dev.drainCopies
  split
  · refine Eq.trans (b := (((List.range 4).flatMap (d.copies p)).foldl (fun d f =>
      ((d.send (.copy p (f ++ fcsOf f))).portBytes 256 p true (f.length + 4)).countDev 0x103 (64 * frameCells f)) d).keeper) rfl ?_
    exact keeper_foldl _ (fun _ _ => by simp) _ _
  · rfl
@[simp] theorem keeper_putCopy (d : Dev) (p q : Nat) (f : Bytes) : (d.putCopy p q f).keeper = d.keeper := by
  unfold Dev.putCopy
  dsimp only
  split
  · simp
  · rw [keeper_drainCopies, keeper_countDev]
@[simp] theorem keeper_copyFor (d : Dev) (i : Nat) (e : Bytes) (x : Bool) (p : Nat) (r : Option Bytes) (b : Bytes) :
    (d.copyFor i e x p r b).keeper = d.keeper := by
  unfold Dev.copyFor
  dsimp only
  split
  · rfl
  · rw [keeper_putCopy]
@[simp] theorem keeper_mirror (d : Dev) (x : Bool) (p : Nat) (r : Option Bytes) (b : Bytes) : (d.mirror x p r b).keeper = d.keeper := by
  unfold Dev.mirror
  exact keeper_foldl _ (fun _ _ => by split <;> simp) _ _
@[simp] theorem keeper_gmpCross (d : Dev) (p : Nat) (x : Bool) (a u n : Nat) (b : Bytes) : (d.gmpCross p x a u n b).keeper = d.keeper := by
  unfold Dev.gmpCross
  dsimp only
  split <;> simp
@[simp] theorem keeper_gmpIn (d : Dev) (m : GmpMsg) (c : Nat) : (d.gmpIn m c).keeper = d.keeper := keeper_gmpCross _ _ _ _ _ _ _
@[simp] theorem keeper_siltLost (d : Dev) : d.siltLost.keeper = d.keeper := by unfold Dev.siltLost; dsimp only; split <;> simp
@[simp] theorem keeper_siltDiscard (d : Dev) (m : Bool) : (d.siltDiscard m).keeper = d.keeper := by simp [Dev.siltDiscard]
@[simp] theorem keeper_siltOver (d : Dev) (two : Bool) (b : Bytes) : (d.siltOver two b).keeper = d.keeper := by simp [Dev.siltOver]
@[simp] theorem keeper_siltRun (d : Dev) (two : Bool) (b : Bytes) : (d.siltRun two b).keeper = d.keeper := by simp [Dev.siltRun]
@[simp] theorem keeper_siltPost (d : Dev) (m two : Bool) (b : Bytes) : (d.siltPost m two b).keeper = d.keeper := by
  unfold Dev.siltPost
  dsimp only
  split
  · simp
  · split
    · simp
    · split <;> simp
@[simp] theorem keeper_siltPut (d : Dev) (m : SiltMsg) (x : Bool) : (d.siltPut m x).keeper = d.keeper := by
  simp [Dev.siltPut]
@[simp] theorem keeper_pulse (d : Dev) (p : Nat) : (d.pulse p).keeper = d.keeper := by simp [Dev.pulse]

@[simp] theorem keeper_siltTrigger (d : Dev) (n : Nat) : (d.siltTrigger n).keeper = d.keeper := by
  unfold Dev.siltTrigger
  split
  · split <;> simp
  · dsimp only
    rw [keeper_foldl _ (fun _ _ => keeper_pulse _ _)]
    simp
@[simp] theorem keeper_siltWrite (d : Dev) (m : SiltMsg) (n : Nat) : (d.siltWrite m n).keeper = d.keeper := by
  unfold Dev.siltWrite
  dsimp only
  split
  · split <;> simp
  · rfl
@[simp] theorem keeper_siltCtx (d : Dev) (c : Nat) (w : CtxState) : (d.siltCtx c w).keeper = d.keeper := keeper_siltWrite _ _ _
@[simp] theorem keeper_siltLink (d : Dev) (p : Nat) (w : LinkState) : (d.siltLink p w).keeper = d.keeper := keeper_siltWrite _ _ _
@[simp] theorem keeper_siltGtc (d : Dev) (w : GtcState) : (d.siltGtc w).keeper = d.keeper := keeper_siltWrite _ _ _
@[simp] theorem keeper_siltStep (d : Dev) (n : Nat) : (d.siltStep n).keeper = d.keeper := keeper_siltWrite _ _ _
@[simp] theorem keeper_siltLaunch (d : Dev) (j s l : Nat) (a b : Bool) : (d.siltLaunch j s l a b).keeper = d.keeper := keeper_siltWrite _ _ _

@[simp] theorem keeper_unitFault (d : Dev) (r : FaultRec) (e : Nat) : (d.unitFault r e).keeper = d.keeper := by
  unfold Dev.unitFault
  split
  · split <;> rfl
  · rfl
@[simp] theorem keeper_modFaults (d : Dev) (f : Faults → Faults) : (d.modFaults f).keeper = d.keeper := rfl
@[simp] theorem keeper_updAlert (d : Dev) : d.updAlert.keeper = d.keeper := by unfold Dev.updAlert; split <;> simp

end Sys2Proof.Machine
end

