-- ==== Sys2Proof/Laws/Gmp.lean ====
section
/-! SUPPORT. What becomes of a datagram that its request serves: the request acts, and its reply is kept (R405, R406, R410, R411). -/

namespace Sys2Proof.Machine

theorem find?_map_keep {α : Type} (p : α → Bool) (f : α → α) (h : ∀ a, p (f a) = p a) (l : List α) : (l.map f).find? p = (l.find? p).map f := by
  induction l with
  | nil => rfl
  | cons a l ih => simp only [List.map_cons, List.find?_cons, h, ih]; split <;> rfl

/-- A session after sessions of a number are changed, the number itself apart. -/
theorem session_modSession (d : Dev) (n k : Nat) (f : Session → Session) (h : ∀ y, (f y).number = y.number) :
    (d.modSession n f).session k = (d.session k).map (fun y => if y.number = n then f y else y) := by
  unfold Dev.session Dev.modSession
  rw [keeper_modKeeper]
  exact find?_map_keep _ _ (fun a => by split <;> simp [h]) _

theorem session_number (d : Dev) (n : Nat) (y : Session) (h : d.session n = some y) : y.number = n := by
  have := List.find?_some h
  simpa using this

theorem session_modSession_same (d : Dev) (n : Nat) (f : Session → Session) (h : ∀ y, (f y).number = y.number) :
    (d.modSession n f).session n = (d.session n).map f := by
  rw [session_modSession d n n f h]
  cases hs : d.session n with
  | none => rfl
  | some y => simp [session_number d n y hs]

theorem session_gmpSend (d : Dev) (s : Session) (fl msg tag : Nat) (b : Bytes) (n : Nat) :
    (d.gmpSend s fl msg tag b).session n = (d.session n).map (fun y => if y.number = s.number then { y with seqOut := s.seqOut + 1 } else y) := by
  unfold Dev.gmpSend
  rw [session_modSession]
  · unfold Dev.session; rw [keeper_gmpCross, keeper_send]
  · intro y; rfl

/-- A reply is the newest that its session keeps. -/
theorem session_gmpReply (d : Dev) (n msg tag : Nat) (b : Bytes) (y : Session) (h : d.session n = some y) :
    ∃ z, (d.gmpReply n msg tag b).session n = some z ∧ z.kept.getLast? = some { tag := tag, msg := msg, body := b } := by
  unfold Dev.gmpReply
  rw [h]
  dsimp only
  rw [session_modSession_same, session_gmpSend, h]
  · refine ⟨_, rfl, ?_⟩
    rw [List.getLast?_drop, if_neg, List.getLast?_append]
    · rfl
    · simp only [List.length_append, List.length_cons, List.length_nil]
      omega
  · intro _; rfl

/-- The session of a datagram once it is taken. -/
theorem session_taken (d : Dev) (m : GmpMsg) (c : Nat) (x : Session) (h : d.session m.session = some x) :
    ∃ y, (d.taken m c).session m.session = some y := by
  unfold Dev.taken Dev.accepted
  have : (d.gmpIn m c).session m.session = some x := by unfold Dev.session at h ⊢; rwa [keeper_gmpIn]
  rw [session_modSession_same, session_modSession_same, this]
  · exact ⟨_, rfl⟩
  · intro _; rfl
  · intro _; rfl

@[simp] theorem quiet_taken (d : Dev) (m : GmpMsg) (c : Nat) : (d.taken m c).quiet = d.quiet := by simp [Dev.taken, Dev.accepted]

theorem hears_quiet {a b : Dev} (h : a.quiet = b.quiet) (hk : a.keeper = b.keeper) (p : Nat) : a.hears p = b.hears p := by
  have h1 := rest_fields (rest_of_quiet h)
  unfold Dev.hears Dev.serves Dev.up Dev.port Dev.gmpPorts Dev.img Dev.hasImg
  rw [hk, h1.1, h1.2.2.2.2.1]

/-- What a request does with a datagram that it serves (R402, R406, R409 to R411). -/
theorem gmp_served (r : Request) (m : GmpMsg) (x : Session) (k : Mach) (h : Served r m x k.dev) :
    Mach.gmp r m (k.mod (·.gmpIn m r.msg)) =
      (match r.act m x { k with dev := k.dev.taken m r.msg } with
       | (k', some a) => k'.mod (·.gmpReply m.session r.msg m.tag a.body)
       | (k', none) => k') := by
  obtain ⟨h1, h2, h3, h4, h5, h6, h7, h8, h9, h10, h11, h12⟩ := h
  have hk : (k.dev.gmpIn m r.msg).keeper = k.dev.keeper := keeper_gmpIn _ _ _
  have hq : (k.dev.gmpIn m r.msg).quiet = k.dev.quiet := quiet_gmpIn _ _ _
  have a1 : (k.dev.gmpIn m r.msg).hears m.port = true := by rw [hears_quiet hq hk]; exact h1
  have a3 : (k.dev.gmpIn m r.msg).confirmed m.session = some x := by
    have : (k.dev.gmpIn m r.msg).session m.session = k.dev.session m.session := by unfold Dev.session; rw [hk]
    unfold Dev.confirmed; rw [this]; exact h3
  have a6 : x.kept.find? (fun y => y.tag == m.tag) = none := by
    rw [List.find?_eq_none]
    intro y hy
    simp only [List.any_eq_false] at h6
    exact h6 y hy
  have t1 : (k.dev.taken m r.msg).keeper.imageState = k.dev.keeper.imageState := by
    have := congrArg (fun d : Dev => d.keeper.imageState) (quiet_taken k.dev m r.msg)
    exact this
  have t2 : (k.dev.taken m r.msg).job (u8 m.body 0) = k.dev.job (u8 m.body 0) := rest_job (rest_of_quiet (quiet_taken k.dev m r.msg)) _
  have hs : Mach.serve { k with dev := k.dev.taken m r.msg } r m x = r.act m x { k with dev := k.dev.taken m r.msg } := by
    unfold Mach.serve
    dsimp only
    rw [t1, t2, h10, h11]
    have b1 : (k.dev.keeper.imageState == ImageState.bad && !r.recovery) = false := by
      cases hi : k.dev.keeper.imageState <;> simp_all
    rw [b1]
    have b2 : ¬ (r.right.mask ≠ 0 ∧ Nat.land x.rights r.right.mask = 0) := fun hc => h9 hc.1 hc.2
    have b3 : (r.namesJob && (k.dev.job (u8 m.body 0)).state == JobState.empty) = false := by
      by_cases hj : r.namesJob = true
      · simp [hj, h12 hj]
      · simp [hj]
    rw [b3, if_neg b2]
    all_goals simp
  unfold Mach.gmp
  simp only [Mach.mod, a1, h2, a3, Bool.not_true, Bool.false_eq_true, if_false, h4, ne_eq, not_true_eq_false, show ¬ m.seq ≤ x.seqIn by omega, a6, h7]
  rw [show (((k.dev.gmpIn m r.msg).accepted m).modSession m.session fun s =>
    { s with busyTags := s.busyTags ++ [m.tag] }) = k.dev.taken m r.msg from rfl, hs]
  all_goals
    generalize r.act m x { k with dev := k.dev.taken m r.msg } = z
    obtain ⟨k', o⟩ := z
    cases o <;> rfl

/-- The state after a served request that answers at once. -/
theorem gmpCommand_reply (r : Request) (m : GmpMsg) (s : State) (x : Session) (h : Served r m x (s.dev.to m.now)) {k : Mach} {a : Reply}
    (ha : r.act m x { s.machOf with dev := (s.dev.to m.now).taken m r.msg } = (k, some a)) :
    gmpCommand r m s = { s with flash := k.flash, depths := if k.dev.power.cold then [] else k.depths,
                                dev := (k.dev.gmpReply m.session r.msg m.tag a.body).noteReady } := by
  unfold gmpCommand State.act
  dsimp only
  rw [gmp_served r m x { s.machOf with dev := s.dev.to m.now } h, ha]
  have hp : (k.dev.gmpReply m.session r.msg m.tag a.body).power = k.dev.power := rest_power (rest_gmpReply _ _ _ _ _)
  simp only [Mach.mod, Mach.settle, hp]

/-- The state after a served request whose reply comes from its own effect, or later. -/
theorem gmpCommand_silent (r : Request) (m : GmpMsg) (s : State) (x : Session) (h : Served r m x (s.dev.to m.now)) {k : Mach}
    (ha : r.act m x { s.machOf with dev := (s.dev.to m.now).taken m r.msg } = (k, none)) :
    gmpCommand r m s = { s with flash := k.flash, depths := if k.dev.power.cold then [] else k.depths, dev := k.dev.noteReady } := by
  unfold gmpCommand State.act
  dsimp only
  rw [gmp_served r m x { s.machOf with dev := s.dev.to m.now } h, ha]
  rfl

/-- The reply of a served request is kept, where its effect leaves the session's number in place. -/
theorem answered_reply (r : Request) (m : GmpMsg) (s : State) (x : Session) (h : Served r m x (s.dev.to m.now)) {k : Mach} {a : Reply}
    (ha : r.act m x { s.machOf with dev := (s.dev.to m.now).taken m r.msg } = (k, some a)) {y : Session} (hy : k.dev.session m.session = some y) :
    Answered (gmpCommand r m s) m r.msg a.body := by
  rw [gmpCommand_reply r m s x h ha]
  obtain ⟨z, hz, hl⟩ := session_gmpReply k.dev m.session r.msg m.tag a.body y hy
  exact ⟨z, by simpa using hz, hl⟩

/-- A served datagram's session is there when its request acts. -/
theorem served_session (r : Request) (m : GmpMsg) (s : State) (x : Session) (h : Served r m x (s.dev.to m.now)) :
    ∃ y, ((s.dev.to m.now).taken m r.msg).session m.session = some y := by
  have h3 := h.2.2.1
  unfold Dev.confirmed at h3
  cases hs : (s.dev.to m.now).session m.session with
  | none => simp [hs] at h3
  | some z => exact session_taken _ m _ z hs

end Sys2Proof.Machine
end

