-- ==== Sys2Proof/Laws/Keeper.lean ====
section
/-! SUPPORT. What a fault record does to the sessions: nothing but the numbers of the messages sent on them (R406). -/

namespace Sys2Proof.Machine

/-- Two sessions that differ in the number of messages sent at most. -/
def Session.same (a b : Session) : Prop := b = { a with seqOut := b.seqOut }

/-- Whether two devices hold the same sessions, but for the numbers of the messages sent. -/
def Dev.sameSessions (a b : Dev) : Prop := ∀ n, Option.Rel Session.same (a.session n) (b.session n)

theorem sameSessions_refl (d : Dev) : d.sameSessions d := by
  intro n
  cases d.session n with
  | none => exact .none
  | some y => exact .some rfl

theorem sameSessions_of_keeper {a b : Dev} (h : b.keeper = a.keeper) : a.sameSessions b := by
  intro n
  have : b.session n = a.session n := by unfold Dev.session; rw [h]
  rw [this]
  exact sameSessions_refl a n

theorem sameSessions_trans {a b c : Dev} (h : a.sameSessions b) (g : b.sameSessions c) : a.sameSessions c := by
  intro n
  have h1 := h n
  have h2 := g n
  cases ha : a.session n <;> cases hb : b.session n <;> rw [ha, hb] at h1 <;> cases hc : c.session n <;> rw [hb, hc] at h2 <;>
    first
    | exact .none
    | (cases h1; done)
    | (cases h2; done)
    | (cases h1; cases h2; rename_i x y z p q; refine .some ?_
       unfold Session.same at p q ⊢
       rw [q, p])

theorem sameSessions_gmpSend (d : Dev) (s : Session) (fl msg tag : Nat) (b : Bytes) : d.sameSessions (d.gmpSend s fl msg tag b) := by
  intro n
  rw [session_gmpSend]
  cases d.session n with
  | none => exact .none
  | some y =>
    refine .some ?_
    unfold Session.same
    dsimp only
    split <;> rfl

theorem sameSessions_foldl {α : Type} (f : Dev → α → Dev) (h : ∀ (d : Dev) a, d.sameSessions (f d a)) (l : List α) (d : Dev) :
    d.sameSessions (l.foldl f d) := by
  induction l generalizing d with
  | nil => exact sameSessions_refl d
  | cons a l ih => exact sameSessions_trans (h d a) (ih _)

theorem sameSessions_writeRecord (d : Dev) (r : FaultRec) : d.sameSessions (d.writeRecord r) := by
  have step : ∀ (b : Bytes) (l : List Session) (e : Dev), e.sameSessions (l.foldl (fun (d : Dev) (s : Session) =>
      match d.session s.number with | some s => d.gmpNotify s 0x0080 b | none => d) e) := by
    intro b l e
    refine sameSessions_foldl _ (fun d s => ?_) l e
    split
    · exact sameSessions_gmpSend _ _ _ _ _ _
    · exact sameSessions_refl _
  have h : (d.writeRecord r).keeper = (Dev.keeper ((d.eventSessions (d.effective r)).foldl (fun (e : Dev) (s : Session) =>
      match e.session s.number with | some s => e.gmpNotify s 0x0080 (d.faultBytes r (d.effective r)) | none => e)
      ((((d.modFaults (fun f => f.put (d.faultBytes r (d.effective r)) (decide (d.eventSessions (d.effective r) ≠ [])))).modFaults (fun f =>
        if r.cleared then f else { f with classes := tmod {} f.classes r.cls (fun c => c.raise r.source (d.effective r)) })).unitFault r
          (d.effective r)).updAlert))) := by
    simp only [Dev.writeRecord, keeper_ite, keeper_siltTrigger, keeper_siltWrite, ite_self]
    all_goals rfl
  refine sameSessions_trans (sameSessions_of_keeper ?_) (sameSessions_trans (step _ _ _) (sameSessions_of_keeper h))
  all_goals simp

/-- A fault record leaves the sessions as they are, but for the numbers of the messages sent. -/
theorem sameSessions_recordFault (d : Dev) (r : FaultRec) : d.sameSessions (d.recordFault r) := by
  unfold Dev.recordFault
  split
  · exact sameSessions_trans (sameSessions_trans (sameSessions_writeRecord d r) (sameSessions_of_keeper (keeper_modFaults _ _))) (sameSessions_writeRecord _ _)
  · exact sameSessions_writeRecord d r

theorem sameSessions_none {a b : Dev} (h : a.sameSessions b) {n : Nat} (hn : a.session n = none) : b.session n = none := by
  have := h n
  rw [hn] at this
  cases hb : b.session n with
  | none => rfl
  | some y => rw [hb] at this; cases this

theorem sameSessions_some {a b : Dev} (h : a.sameSessions b) {n : Nat} {y : Session} (hn : a.session n = some y) :
    ∃ z, b.session n = some z ∧ z = { y with seqOut := z.seqOut } := by
  have := h n
  rw [hn] at this
  cases hb : b.session n with
  | none => rw [hb] at this; cases this
  | some z => rw [hb] at this; cases this with | some p => exact ⟨z, rfl, p⟩

end Sys2Proof.Machine
end

