-- ==== Sys2Proof/WellFormed.lean ====
section
/-! DEFINITION. Which commands are well formed: the operands name units, ports, contexts and lanes that the V96 has, and bytes of the
lengths that the manual's formats have (R4, R5, R12, R92, R225, R229, R237, R262, R406, R426). -/

namespace Sys2Proof

/-- Fabric ports 0 to 95, host ports 96 and 97 (R5). -/
def wfPort (p : Nat) : Bool := decide (p < 98)
/-- Reduction contexts (R91). -/
def wfCtx (c : Nat) : Bool := decide (c < 4096)
/-- Job numbers (R14). -/
def wfJob (j : Nat) : Bool := decide (j < 256)
/-- Depths stacks, and the Tarn beside each. -/
def wfStack (k : Nat) : Bool := decide (k < 8)
/-- Virtual channels (R261). -/
def wfVc (v : Nat) : Bool := decide (v < 8)
/-- Lanes 0 to 7 and S (R225). -/
def wfLane (l : Nat) : Bool := decide (l < 9)
/-- Flit slots of a link frame (R229). -/
def wfSlot (k : Nat) : Bool := decide (k < 75)
/-- A 32-bit link trailer (R229). -/
def wfWord (w : Nat) : Bool := decide (w < 2 ^ 32)
/-- One bit per wavelength. -/
def wfRings (m : Nat) : Bool := decide (m < 512)
/-- Sleep states S1 and S2 (R245). -/
def wfLevel (l : Nat) : Bool := l == 1 || l == 2
/-- Micro-batch numbers (R100). -/
def wfMicro (m : Nat) : Bool := decide (m < 65534)
/-- Queue pairs (R159). -/
def wfQp (q : Nat) : Bool := decide (q < 64)
/-- Packet sequence numbers of RoCEv2, 24 bits. -/
def wfPsn (n : Nat) : Bool := decide (n < 2 ^ 24)
/-- Info fields of 128 bits on wavelengths 0 to 8, each at most once (R237). -/
def wfInfos (l : List (Nat × Nat)) : Bool := l.all (fun e => decide (e.1 < 9) && decide (e.2 < 2 ^ 128)) && (l.map (·.1)).eraseDups.length == l.length
/-- Supply rails (R478). -/
def wfRail (r : Nat) : Bool := decide (r < 8)
/-- Probes (R451). -/
def wfProbe (n : Nat) : Bool := decide (n < 64)
/-- A disturbance inverts at least one bit, of at most 48 (R326). -/
def wfUpset (u : Option Upset) : Bool := u.all (fun x => decide (0 < x.hit.mask) && decide (x.hit.mask < 2 ^ 48))
/-- The two compute dies (R216). -/
def wfDie (d : Nat) : Bool := decide (d < 2)
/-- Kinds of pin fault fit their byte (R494). -/
def wfPin (f : PinFinding) : Bool := decide (f.kind < 256) && decide (f.phase < 256)
/-- A flit holds 64 bytes (R260). -/
def wfFlit (b : Bytes) : Bool := b.length == 64
/-- One sample of every rail (R463). -/
def wfRails (l : List (Nat × Nat)) : Bool := l.length == 8
/-- Codewords of a link frame (R232). -/
def wfCodewords (l : List Nat) : Bool := l.all (fun c => decide (c < 8))
/-- A count per lane. -/
def wfLanes (l : List Nat) : Bool := decide (l.length ≤ 9)
/-- Flit types of a link trailer (R262). -/
def wfFtype (t : Nat) : Bool := decide (t < 8)
/-- Event pins (R400). -/
def wfEvt (p : Nat) : Bool := decide (p < 4)
/-- A Basin or a Tarn under test (R366). -/
def wfTested (tarn : Bool) (u : Nat) : Bool := decide (u < if tarn then 8 else 50)
/-- The header fields of a GMP message fit their widths, and it arrives on a port that can carry it (R405, R406). -/
def wfMsg (m : GmpMsg) : Bool :=
  decide (m.port < 99) && decide (m.dest < 2 ^ 128) && decide (m.addr < 2 ^ 128) && decide (m.udp < 2 ^ 16) &&
    decide (m.version < 2 ^ 8) && decide (m.flags < 2 ^ 8) &&
    decide (m.session < 2 ^ 32) && decide (m.seq < 2 ^ 64) && decide (m.tag < 2 ^ 32) && decide (m.bodyLen < 2 ^ 32) &&
    decide (m.reserved < 2 ^ 64) && m.mac.length == 32

/-- The commands that the device can meet. -/
def Instr.wf (i : Instr) : Bool :=
  match i with
  | .gmpHello m => wfMsg m
  | .gmpKeyConfirm m => wfMsg m
  | .gmpPing m => wfMsg m
  | .gmpClose m => wfMsg m
  | .sessionSetupTimeout _ _ => true
  | .sessionIdleTimeout _ _ => true
  | .gmpUnknownMessage _ m => wfMsg m
  | .gmpRead m => wfMsg m
  | .gmpWrite m => wfMsg m
  | .faultClassAck m => wfMsg m
  | .probeClear m => wfMsg m
  | .probeDisable m => wfMsg m
  | .siltCtrlTrigger m => wfMsg m
  | .siltCtrlRearm m => wfMsg m
  | .gmpAttest m => wfMsg m
  | .gmpSubscribe m => wfMsg m
  | .gmpAuditRead m stack _ => wfMsg m && decide (stack < 8)
  | .gmpPkgBegin m => wfMsg m
  | .gmpPkgData m => wfMsg m
  | .gmpPkgEnd m => wfMsg m
  | .pkgLoadIdleTimeout _ => true
  | .gmpUnload m => wfMsg m
  | .gmpLaunch m => wfMsg m
  | .gmpLaunchCancel m => wfMsg m
  | .gmpCommit m => wfMsg m
  | .gmpAbandon m => wfMsg m
  | .gmpJobHalt m => wfMsg m
  | .gmpCtxReset m => wfMsg m
  | .gmpCtxAbort m => wfMsg m
  | .gmpQpSetup m => wfMsg m
  | .gmpCkpt m => wfMsg m
  | .rdmaReadRx qp psn _ _ _ => wfQp qp && wfPsn psn
  | .ckptComplete job _ => wfJob job
  | .ckptAborted job _ => wfJob job
  | .gmpRestoreData m => wfMsg m
  | .gmpRestoreEnd m => wfMsg m
  | .gmpReplayRef m => wfMsg m
  | .gmpRetrain m => wfMsg m
  | .gmpTimeInvalidate m => wfMsg m
  | .gmpDeviceResetWarm m => wfMsg m
  | .gmpDeviceResetCold m => wfMsg m
  | .gmpFlashErase m => wfMsg m
  | .gmpFlashWrite m _ => wfMsg m
  | .gmpFlashRead m => wfMsg m
  | .gmpFlashCheck m => wfMsg m
  | .gmpDumpBegin m => wfMsg m
  | .gmpDumpRead m => wfMsg m
  | .gmpDumpEnd m => wfMsg m
  | .dumpIdleTimeout _ => true
  | .gmpCaptureSet m => wfMsg m
  | .gmpGaugeIdentity m => wfMsg m
  | .gmpGaugeRead m => wfMsg m
  | .gmpGaugeLog m => wfMsg m
  | .readyCoalesceExpiry _ => true
  | .oobLinkChange _ _ => true
  | .ethFrameRx port _ _ _ => wfPort port
  | .linkFrameRx port _ bad corrected _ => wfPort port && wfCodewords bad && wfLanes corrected
  | .linkFrameTx port _ _ => wfPort port
  | .dataFlitRx port slot trailer data _ => wfPort port && wfSlot slot && wfWord trailer && wfFlit data
  | .ctrlFlitRx port slot trailer data _ => wfPort port && wfSlot slot && wfWord trailer && wfFlit data
  | .retryTimer port _ => wfPort port
  | .packetHeadRx port vc ftype head _ => wfPort port && wfVc vc && wfFtype ftype && wfFlit head
  | .headStart port vc _ => wfPort port && wfVc vc
  | .escapeEnter port vc _ => wfPort port && wfVc vc
  | .windowBoundary _ => true
  | .hbmRefresh stack _ => wfStack stack
  | .fragmentRx port _ _ _ route => wfPort port && route.length == 16
  | .abortNoticeRx port _ _ _ => wfPort port
  | .ctxOpen ctx _ => wfCtx ctx
  | .ctxDrain ctx _ => wfCtx ctx
  | .ctxCommit ctx _ => wfCtx ctx
  | .hangTimeout ctx _ => wfCtx ctx
  | .ctxResetComplete ctx _ => wfCtx ctx
  | .outflowRx port _ _ _ route => wfPort port && route.length == 16
  | .verdictResultRx port _ _ _ route => wfPort port && route.length == 16
  | .verdictMissing job _ => wfJob job
  | .launchArm job _ => wfJob job
  | .launchCycle job _ _ => wfJob job
  | .microbatchSectionStart job m _ _ => wfJob job && wfMicro m
  | .tailSectionStart job _ _ => wfJob job
  | .stepSpanEnd job _ => wfJob job
  | .rxSlotRelease job _ _ _ => wfJob job
  | .hbmRdSlot job _ _ => wfJob job
  | .hbmRdReturn job _ _ _ _ => wfJob job
  | .basinSlot job _ _ upset _ _ => wfJob job && wfUpset upset
  | .tarnSlot job _ _ upset _ => wfJob job && wfUpset upset
  | .txSlot job _ _ => wfJob job
  | .hbmWrSlot job _ _ => wfJob job
  | .rngSlot job _ _ _ _ _ _ _ => wfJob job
  | .syncPeriod port _ _ => wfPort port
  | .syncReqRx port _ _ _ _ => wfPort port
  | .syncRespRx port _ _ _ => wfPort port
  | .syncRespTimeout _ => true
  | .springLost _ => true
  | .holdoverExpired _ => true
  | .refStopped _ => true
  | .refReturned _ _ => true
  | .refclkStartResume _ => true
  | .trainingFrameRx port infos _ _ => wfPort port && wfInfos infos
  | .txRingsLocked port rings _ => wfPort port && wfRings rings
  | .txTuneTimeout port _ => wfPort port
  | .acquireTimeout port _ _ => wfPort port
  | .identifyTimeout port _ => wfPort port
  | .handshakeTimeout port _ => wfPort port
  | .calibrateTimeout port _ => wfPort port
  | .faultBackoffExpiry port _ => wfPort port
  | .laneFail port _ lane _ _ => wfPort port && wfLane lane
  | .noLight port _ => wfPort port
  | .sleepEnter port level _ _ => wfPort port && wfLevel level
  | .sleepExit port _ => wfPort port
  | .heaterMeasure port tx rx _ => wfPort port && (tx ++ rx).all (fun e => wfLane e.1)
  | .laserFeedLost port _ => wfPort port
  | .laserLineMissing port line _ _ => wfPort port && wfLane line
  | .laserLinesMissing port lines _ _ => wfPort port && wfRings lines
  | .laserPolarization port _ => wfPort port
  | .laserPlanMismatch port _ => wfPort port
  | .laserPowerHigh port _ _ => wfPort port
  | .keeperWatchdog _ => true
  | .keeperRestarted _ _ => true
  | .bistComplete tarn unit _ _ => wfTested tarn unit
  | .hbmStackReady stack _ _ => wfStack stack
  | .tarnResetComplete tarn _ => wfStack tarn
  | .hbmInterface stack _ => wfStack stack
  | .recoveryOverrun job _ => wfJob job
  | .supplyFault rail _ _ _ _ => wfRail rail
  | .supplyRecoveryReset _ => true
  | .clockStretch die _ => wfDie die
  | .clockStretchEnd die _ _ => wfDie die
  | .thermalWarn _ _ _ => true
  | .clockStop die _ _ => wfDie die
  | .clockGateEnd die _ => wfDie die
  | .thermalShutdown _ _ _ => true
  | .thermalRecoveryReset _ _ => true
  | .resetNAssert _ => true
  | .resetRelease _ _ _ _ => true
  | .pwrOkFall _ => true
  | .oobPins f _ => wfPin f
  | .evtPins f _ => wfPin f
  | .refclkPins f _ => wfPin f
  | .alertPin f _ => wfPin f
  | .evtTriggerIn pin _ => wfEvt pin
  | .timeTrigger _ _ => true
  | .siltExtensionFlush stack _ => wfStack stack
  | .periodicPulse pin _ => wfEvt pin
  | .probeSample probe _ => wfProbe probe
  | .gaugeStart => true
  | .gaugeStop _ => true
  | .gaugeSample rails => wfRails rails
  | .gaugeTempExcursion _ => true
  | .gaugeFactorySession _ _ _ => true
  | .gaugePoll _ => true
  | .corePllLock _ => true
  | .pcsBlockLock port _ _ _ => wfPort port
  | .oobFrameRx _ _ _ => true

end Sys2Proof
end

