-- ==== Sys2Proof/Tests/Slice0.lean ====
section
/-! SUPPORT. Tests of the model: the well-formedness checks refuse an ill-formed term each, single steps give what the manual's text gives,
and every statement's hypotheses are met by a concrete device. -/


namespace Sys2Proof.Tests

set_option Elab.async false
open Sys2Proof.Machine

/-! ### Well-formedness -/

/-- A datagram of a session, by its message's body; the mac is not looked at. -/
def rawMsg (b : Bytes) : GmpMsg :=
  { now := 0, port := 98, dest := 0, addr := 0, udp := 0, dgram := 64 + b.length, version := 1, flags := 0, session := 1, seq := 1, tag := 1,
    bodyLen := b.length, reserved := 0, body := b, mac := [] }

theorem test_wfPort : wfPort 97 = true ∧ (Instr.noLight 98 0).wf = false := by decide
theorem test_wfCtx : wfCtx 4095 = true ∧ (Instr.ctxOpen 4096 0).wf = false := by decide
theorem test_wfJob : wfJob 255 = true ∧ (Instr.launchArm 256 0).wf = false := by decide
theorem test_wfStack : wfStack 7 = true ∧ (Instr.hbmRefresh 8 0).wf = false := by decide
theorem test_wfVc : wfVc 7 = true ∧ (Instr.headStart 0 8 0).wf = false := by decide
theorem test_wfLane : wfLane 8 = true ∧ (Instr.laneFail 0 false 9 .light 0).wf = false := by decide
theorem test_wfSlot : wfSlot 74 = true ∧ (Instr.dataFlitRx 0 75 0 (List.replicate 64 0#8) 0).wf = false := by decide
theorem test_wfWord : wfWord 0xFFFFFFFF = true ∧ (Instr.ctrlFlitRx 0 0 0x100000000 (List.replicate 64 0#8) 0).wf = false := by decide
theorem test_wfRings : wfRings 511 = true ∧ (Instr.txRingsLocked 0 512 0).wf = false := by decide
theorem test_wfLevel : wfLevel 2 = true ∧ (Instr.sleepEnter 0 0 0 0).wf = false ∧ (Instr.sleepEnter 0 3 0 0).wf = false := by decide
theorem test_wfMicro : wfMicro 65533 = true ∧ (Instr.microbatchSectionStart 0 65534 0).wf = false := by decide
theorem test_wfQp : wfQp 63 = true ∧ (Instr.rdmaReadRx 64 0 0 0 0).wf = false := by decide
theorem test_wfPsn : wfPsn 16777215 = true ∧ (Instr.rdmaReadRx 0 16777216 0 0 0).wf = false := by decide
theorem test_wfInfos : wfInfos [(0, 1), (8, 1)] = true ∧ (Instr.trainingFrameRx 0 [(9, 1)] 0 0).wf = false ∧
    (Instr.trainingFrameRx 0 [(3, 1), (3, 2)] 0 0).wf = false := by decide
theorem test_wfRail : wfRail 7 = true ∧ (Instr.supplyFault 8 true 0 0 0).wf = false := by decide
theorem test_wfProbe : wfProbe 63 = true ∧ (Instr.probeSample 64 0).wf = false := by decide
theorem test_wfUpset : wfUpset (some { element := 0, instr := 0, op := 0, hit := { signal := .sum, mask := 2 ^ 47 } }) = true ∧
    (Instr.basinSlot 0 0 (.node 0 0) (some { element := 0, instr := 0, op := 0, hit := { signal := .sum, mask := 0 } }) .clean 0).wf = false ∧
    (Instr.tarnSlot 0 0 .fold (some { element := 0, instr := 0, op := 0, hit := { signal := .sum, mask := 2 ^ 48 } }) 0).wf = false := by decide
theorem test_wfRoute : (Instr.fragmentRx 0 [] [] 0 (List.replicate 16 0#8)).wf = true ∧ (Instr.fragmentRx 0 [] [] 0).wf = false ∧
    (Instr.outflowRx 0 [] [] 0).wf = false := by decide
theorem test_wfDie : wfDie 1 = true ∧ (Instr.clockStop 2 0 0).wf = false := by decide
theorem test_wfPin : wfPin { pin := 0, kind := 255, other := 0, phase := 255, measured := 0 } = true ∧
    (Instr.alertPin { pin := 0, kind := 256, other := 0, phase := 0, measured := 0 } 0).wf = false := by decide
theorem test_wfFlit : wfFlit (List.replicate 64 0#8) = true ∧ (Instr.packetHeadRx 0 0 1 (List.replicate 63 0#8) 0).wf = false := by decide
theorem test_wfRails : wfRails (List.replicate 8 (0, 0)) = true ∧ (Instr.gaugeSample [(0, 0)]).wf = false := by decide
theorem test_wfCodewords : wfCodewords [0, 7] = true ∧ (Instr.linkFrameRx 0 [] [8] [] 0).wf = false := by decide
theorem test_wfLanes : wfLanes (List.replicate 9 0) = true ∧ (Instr.linkFrameRx 0 [] [] (List.replicate 10 0) 0).wf = false := by decide
theorem test_wfFtype : wfFtype 7 = true ∧ (Instr.packetHeadRx 0 0 8 (List.replicate 64 0#8) 0).wf = false := by decide
theorem test_wfEvt : wfEvt 3 = true ∧ (Instr.evtTriggerIn 4 0).wf = false := by decide
theorem test_wfTested : wfTested true 7 = true ∧ wfTested false 49 = true ∧ (Instr.bistComplete true 8 true 0).wf = false ∧
    (Instr.bistComplete false 50 true 0).wf = false := by decide
theorem test_wfMsg : wfMsg { rawMsg [] with mac := List.replicate 32 0#8 } = true ∧ (Instr.gmpPing (rawMsg [])).wf = false := by decide

/-- The table gives no row bits, so no word spells a command. -/
theorem test_no_words : decodeTableWord 8 0 = none ∧ decodeTableWord 64 1 = none := by decide

/-! ### What an option holds -/

theorem of_none {α : Type} {o : Option α} (e : o = none) {x : α} {p : Prop} (h : o = some x) : p := by rw [e] at h; cases h
theorem of_some {α : Type} {o : Option α} {y : α} {p : α → Prop} (e : o = some y) (hp : p y) : ∀ x, o = some x → p x := by
  intro x h; rw [e] at h; cases h; exact hp

/-! ### Devices -/

/-- A state with a device, and nothing in its queue or memories. -/
def ofDev (d : Dev) : State := { pending := [], flash := [], depths := [], dev := d }

theorem devAt_zero (s : State) : s.devAt 0 = s.dev := if_pos (Nat.zero_le _)

/-- A confirmed session with all rights, on the out-of-band port. -/
def session1 : Session :=
  { number := 1, managerKey := List.replicate 64 0#8, rights := 7, port := 98, source := 0, addr := 0, udp := 0, confirmed := true, macIn := [], macOut := [],
    expectA := [] }
def keeper1 : Keeper := { up := true, oobUp := true, imageState := .good, sessions := [session1] }
/-- A running device without an image record, and with that session. -/
def dev1 : Dev := { Dev.reset with keeper := keeper1, power := { released := true }, clock := { hasGtc := true, frozen := false } }

/-- The datagram of a request on session 1 under its mac. -/
def msg1 (code : Nat) (b : Bytes) : GmpMsg := { rawMsg b with mac := hmacSm3 [] (msgSigned (rawMsg b) code) }

/-- What a device needs for a request on session 1 to be served. -/
def serves1 (r : Request) (b : Bytes) (d : Dev) : Bool :=
  d.keeper.up && d.keeper.oobUp && d.keeper.sessions == [session1] && (d.keeper.imageState != .bad || r.recovery) && decide (b.length ≤ 1376) && r.valid b &&
    (r.right.mask == 0 || Nat.land 7 r.right.mask != 0) && (!r.namesJob || (d.job (u8 b 0)).state != .empty)

theorem served1 (r : Request) (b : Bytes) (d : Dev) (h : serves1 r b d = true) :
    Served r (msg1 r.msg b) session1 ((ofDev d).devAt (msg1 r.msg b).now) := by
  simp only [serves1, Bool.and_eq_true, beq_iff_eq, bne_iff_ne, ne_eq, Bool.or_eq_true, Bool.not_eq_true', decide_eq_true_eq] at h
  obtain ⟨⟨⟨⟨⟨⟨⟨hu, ho⟩, hs⟩, hi⟩, hl⟩, hv⟩, hr⟩, hj⟩ := h
  have e : (ofDev d).devAt (msg1 r.msg b).now = d := devAt_zero _
  rw [e]
  have hx : d.session 1 = some session1 := by rw [Dev.session, hs]; rfl
  refine ⟨?_, ?_, ?_, rfl, ?_, rfl, rfl, ?_, ?_, rfl, hv, ?_⟩
  · simp [Dev.hears, Dev.serves, msg1, rawMsg, hu, ho]
  · simp [msgBadForm, bodyLimit, msg1, rawMsg, hl]
  · simp [Dev.confirmed, msg1, rawMsg, hx, session1]
  · simp [session1, msg1, rawMsg]
  · intro hb; cases hi with
    | inl h0 => exact absurd hb h0
    | inr h1 => exact h1
  · intro hm; cases hr with
    | inl h0 => exact absurd h0 hm
    | inr h1 => exact h1
  · intro hn; cases hj with
    | inl h0 => rw [hn] at h0; cases h0
    | inr h1 => exact h1

theorem effective_calm (d : Dev) (r : FaultRec) (h : d.faults.classes = []) (hc : r.cleared = false) :
    d.effective r = d.configured r.source := by simp [Dev.effective, hc, h, tget]

/-- What makes a source mild: its class is not unacknowledged, and its configured severity is at most `n`. -/
def calm (d : Dev) (src n : Nat) : Bool := !(tget {} d.faults.classes (src / 256)).unacked && decide (d.configured src ≤ n)

theorem le_of_calm (d : Dev) (src n : Nat) (h : calm d src n = true) (r : FaultRec) (hr : r.source = src) : d.effective r ≤ n := by
  simp only [calm, Bool.and_eq_true, Bool.not_eq_true', decide_eq_true_eq] at h
  subst hr
  cases hc : r.cleared <;> simp [Dev.effective, FaultRec.cls, hc, h.1, h.2]

theorem mild_of (d : Dev) (src : Nat) (h : calm d src 3 = true) : d.mild src := fun r hr => le_of_calm d src 3 h r hr


/-! ### A small package: two ranks, one here and one beyond port 3; one tensor of one chunk, owned here -/

def nodeEntry (bucket kind inp out node : Nat) : Bytes := leBytes 2 bucket ++ leBytes 1 kind ++ leBytes 1 inp ++ leBytes 1 out ++ leBytes 3 0 ++ leBytes 4 node
def bucketEntry (bucket channel ctx tensor count : Nat) : Bytes :=
  leBytes 2 bucket ++ leBytes 1 channel ++ leBytes 1 0 ++ leBytes 2 ctx ++ leBytes 2 0 ++ leBytes 4 tensor ++ leBytes 4 32 ++ leBytes 8 0 ++
    leBytes 4 count ++ leBytes 4 16
def claimEntry (resource mask : Nat) : Bytes := leBytes 2 resource ++ leBytes 2 0 ++ leBytes 4 mask
def slotEntry (start resource length slack kind channel bucket chunk : Nat) : Bytes :=
  leBytes 6 start ++ leBytes 2 resource ++ leBytes 4 length ++ leBytes 4 slack ++ leBytes 1 kind ++ leBytes 1 channel ++ leBytes 2 bucket ++
    leBytes 4 chunk

def header1 : Bytes :=
  leBytes 1 1 ++ leBytes 2 0 ++ leBytes 1 2 ++ leBytes 4 2 ++ leBytes 2 1 ++ leBytes 2 1000 ++ leBytes 1 1 ++ leBytes 1 0 ++ leBytes 2 0 ++
    leBytes 14 0 ++ leBytes 2 0 ++ leBytes 4 0 ++ leBytes 28 0
def channels1 : Bytes := leBytes 4 0 ++ leBytes 4 5 ++ leBytes 4 1 ++ leBytes 4 0
def buckets1 : Bytes := bucketEntry 0 0 0 0 32 ++ bucketEntry 0xFFFF 1 1 0xFFFFF 32
def nodes1 : Bytes := nodeEntry 0 1 0xFF 0xFF 1 ++ nodeEntry 0 2 0xFE 0xFF 0 ++ nodeEntry 0 2 3 0xFF 32 ++ nodeEntry 0xFFFF 2 0xFE 0xFF 0
def tensors1 : Bytes := leBytes 4 0 ++ leBytes 8 32 ++ leBytes 4 32 ++ leBytes 4 0 ++ leBytes 1 0xFF ++ leBytes 1 0xFF ++ leBytes 2 0
def owners1 : Bytes := leBytes 4 0 ++ leBytes 4 0 ++ leBytes 2 0 ++ leBytes 2 0 ++ leBytes 4 0
def allotment1 : Bytes := leBytes 8 0 ++ leBytes 8 0x1000000 ++ leBytes 8 0x800000 ++ leBytes 8 0x900000 ++ leBytes 8 0xA00000 ++ leBytes 8 0 ++
  leBytes 8 0xC00000 ++ leBytes 392 0
/-- LD v0 from the gradient, ST of v0 to the weights. -/
def program1 : Bytes := leBytes 8 0 ++ leBytes 1 2 ++ leBytes 7 0 ++ leBytes 8 0x20 ++ leBytes 8 (0x21 + 2 ^ 40)
def lr1 : Bytes := leBytes 1 0 ++ leBytes 1 1 ++ leBytes 6 0 ++ leBytes 16 0
def full : Nat := 0x3FFFFFFF
def schedule1 : Bytes :=
  leBytes 4 9750 ++ leBytes 4 6 ++ leBytes 4 5 ++ leBytes 2 6 ++ leBytes 2 0 ++ leBytes 8 30000 ++ leBytes 8 0 ++
    (claimEntry 0x0003 full ++ claimEntry 0x1003 full ++ claimEntry 0x2005 full ++ claimEntry 0x3000 full ++ claimEntry 0x4000 (full - 7) ++
      claimEntry 0x5000 full) ++
    (slotEntry 0 0x0003 100 10 1 0 0 0xFFFFFFFF ++ slotEntry 200 0x2005 100 0 3 0 0 0xFFFFFFFF ++ slotEntry 300 0x5000 10 0 7 0 0 0xFFFFFFFF ++
      slotEntry 400 0x1003 700 0 2 0 0 0xFFFFFFFF ++ slotEntry 1000 0x4000 10 5 5 0 0 0 ++ slotEntry 1100 0x4000 10 0 6 0 0 0) ++
    (slotEntry 0 0x3000 1000 0 4 0 0 0 ++ slotEntry 2000 0x1003 700 0 2 0 0 0xFFFFFFFF ++ slotEntry 2000 0x2005 100 0 3 1 0xFFFF 0xFFFFFFFF ++
      slotEntry 3000 0x1003 700 0 2 1 0xFFFF 0xFFFFFFFF ++ slotEntry 4000 0x3000 1000 0 4 0 0 0)
def fan1 : Bytes := leBytes 1 1 ++ leBytes 1 0 ++ leBytes 2 0 ++ leBytes 12 8 ++ (leBytes 1 1 ++ leBytes 1 0x41 ++ leBytes 2 0 ++ leBytes 12 8)

def recs1 : List (Nat × Bytes) := [
  (0x101, header1), (0x102, leBytes 32 0), (0x103, leBytes 4 1 ++ leBytes 4 1 ++ leBytes 8 0), (0x104, []), (0x105, channels1), (0x106, buckets1),
  (0x107, nodes1), (0x108, tensors1), (0x109, owners1), (0x10A, allotment1), (0x10B, program1), (0x10C, lr1), (0x10F, schedule1), (0x110, fan1)]

/-- A record in its frame, and a package with its header. -/
def frameOf (t : Nat) (b : Bytes) : Bytes := leBytes 2 t ++ leBytes 2 0 ++ leBytes 4 b.length ++ b ++ List.replicate ((8 - b.length % 8) % 8) 0#8
def headOf (kind job length count : Nat) : Bytes :=
  [0x56#8, 0x39#8, 0x36#8, 0x4A#8] ++ leBytes 2 1 ++ leBytes 1 kind ++ leBytes 1 job ++ leBytes 4 length ++ leBytes 4 count ++ leBytes 48 0
def bodyOf (recs : List (Nat × Bytes)) : Bytes := recs.flatMap (fun r => frameOf r.1 r.2)
def packageOf (kind job : Nat) (recs : List (Nat × Bytes)) : Bytes := headOf kind job (64 + (bodyOf recs).length) recs.length ++ bodyOf recs

/-- An image of two records: port 3 is a fabric port that may sleep, and the integrity regions hold the chain anchors. -/
def linkConfig1 : Bytes := leBytes 16 0 ++ (List.range 96).flatMap (fun p => leBytes 16 (if p = 3 then 0x201 else 0))
def integrity1 : Bytes := leBytes 192 0 ++ leBytes 4 0 ++ leBytes 4 1 ++ leBytes 56 0
def dev2 : Dev := { dev1 with image := [(0x11, linkConfig1), (0x19, integrity1)], ports := [(3, { state := .up })] }


/-- Job 1 of the small package, loaded and running, and its two contexts. -/
def job1 : Job := loadedJob recs1 (List.replicate 32 0#8)
def run1 : Job := { job1 with state := .running, rcStep := 0, rcPhase := 1, runSection := some (.microBatch 0) }
def tail1 : Job := { run1 with rcPhase := 4, runSection := some .tail }
def ctx1 : Ctx := { state := .armed, job := 1, channel := 0, basin := 5, sequence := 5, microBatch := 0, launched := true }
def ctxV : Ctx := { state := .armed, job := 1, channel := 1, bucket := 0xFFFF, basin := 5, launched := true }
/-- The device with that job and a context of bucket 0, the GTC locked at tick 100,000. -/
def devJ (x : Job) (c : Ctx) : Dev :=
  { dev2 with jobs := [(1, x)], ctxs := [(0, c), (1, ctxV)], clock := { dev1.clock with gtc := 100000, state := .locked } }
def stJ (x : Job) (c : Ctx) : State := ofDev (devJ x c)
/-- The device without a job, its Keeper and its port 3 as given. -/
def stK (k : Keeper) : State := ofDev { dev2 with keeper := k }
def stKT (k : Keeper) (t : Nat) : State := ofDev { dev2 with keeper := k, clock := { dev1.clock with time := t } }
def stP (p : Port) : State := ofDev { dev2 with ports := [(3, p)] }
def load1 : PkgLoad := { session := 1, header := headOf 0 1 1336 14, job := 1, length := 1336, got := [(0, 1336)], lastTick := 0 }
def dump1 : Dump := { id := 7, session := 1, bytes := [], ringSeq := 0, siltOff := 8, siltLen := 0, lastTick := 0 }
/-- A GMP_HELLO by a key that MANAGER_KEYS lists with all rights. -/
def helloBody : Bytes := List.replicate 64 1#8 ++ List.replicate 64 0#8
def hello1 : GmpMsg := { rawMsg helloBody with session := 0, mac := List.replicate 32 0#8 }
def keys1 : Bytes := leBytes 8 0 ++ List.replicate 64 1#8 ++ leBytes 8 7
def devH : Dev := { dev1 with keeper := { keeper1 with sessions := [] }, image := [(0x02, keys1)] }
def sessionU : Session := { session1 with confirmed := false, expectA := List.replicate 32 2#8 }
theorem msg1_mac (code : Nat) (b : Bytes) : (msg1 code b).mac = hmacSm3 [] (msgSigned (msg1 code b) code) := rfl

theorem witness_QueueEmptiesAndTimePasses_EmptyQueuePassesOneCycle_0 : ∃ (s : State), s.pending = [] := by
  exact ⟨ofDev dev1, rfl⟩

theorem witness_QueueEmptiesAndTimePasses_CommandsLeaveTheQueue_0 : ∃ (c : Instr) (s t : State), exec c s = .next t := by
  exact ⟨.oobLinkChange true 0, { ofDev dev1 with pending := [.gaugeStart] }, _, rfl⟩

theorem witness_StepKeepsCanonical_0 : ∃ (s t : State), s.canonical ∧ step s = .next t := by
  exact ⟨{ pending := [.oobLinkChange true 0], flash := [(5, 0#8)], depths := [(7, 1#8)], dev := dev1 }, _, ⟨by decide +kernel, by decide +kernel⟩, rfl⟩

theorem witness_MemoriesChangeOnlyByTheirCommands_FlashChangesOnlyByItsCommands_0 : ∃ (c : Instr) (s t : State), exec c s = .next t ∧ (∀ m, c ≠ .gmpFlashErase m) ∧ (∀ m b, c ≠ .gmpFlashWrite m b) ∧ (∀ p r f l, c ≠ .resetRelease p r f l) := by
  exact ⟨.oobLinkChange true 0, ofDev dev1, _, rfl, by simp, by simp, by simp⟩

theorem witness_MemoriesChangeOnlyByTheirCommands_DepthsChangeOnlyByTheirCommands_0 : ∃ (c : Instr) (s t : State), exec c s = .next t ∧ (∀ m, c ≠ .gmpPkgBegin m) ∧ (∀ m, c ≠ .gmpPkgData m) ∧ (∀ m, c ≠ .gmpPkgEnd m) ∧ (∀ m, c ≠ .gmpRestoreEnd m) ∧ (∀ x n, c ≠ .ctxCommit x n) ∧ (∀ j e w u n, c ≠ .tarnSlot j e w u n) ∧ (∀ m, c ≠ .gmpCommit m) ∧ (∀ n, c ≠ .pwrOkFall n) ∧ (∀ p r f l, c ≠ .resetRelease p r f l) := by
  exact ⟨.oobLinkChange true 0, ofDev dev1, _, rfl, by simp, by simp, by simp, by simp, by simp, by simp, by simp, by simp, by simp⟩

theorem witness_SessionSetupOpensAndConfirms_0 : ∃ (m : GmpMsg) (s : State) (r : Nat), (s.devAt m.now).hears m.port = true ∧ helloBad m = false ∧ m.mac = List.replicate 32 0#8 ∧ (s.devAt m.now).keyRights (m.body.take 64) = some r ∧ (s.devAt m.now).keeper.sessions.length < 8 := by
  refine ⟨hello1, ofDev devH, 7, ?_, ?_, ?_, ?_, ?_⟩ <;> decide +kernel

theorem witness_SessionSetupOpensAndConfirms_1 : ∃ (m : GmpMsg) (s : State) (x : Session), (s.devAt m.now).hears m.port = true ∧ msgBadForm m = false ∧ msgBadFields m = false ∧ m.bodyLen = 32 ∧ (s.devAt m.now).session m.session = some x ∧ x.confirmed = false ∧ m.mac = hmacSm3 x.macIn (msgSigned m 0x0003) ∧ x.seqIn < m.seq ∧ m.body = x.expectA := by
  refine ⟨msg1 3 (List.replicate 32 2#8), stK { keeper1 with sessions := [sessionU] }, sessionU, ?_, ?_, ?_, ?_, ?_, ?_, msg1_mac 3 _, ?_, ?_⟩ <;> decide +kernel

theorem witness_SessionsAnswerTimeOutAndReport_PingCloseUnknownAnswered_0 : ∃ (m : GmpMsg) (s : State) (x : Session), Served pingRequest m x (s.devAt m.now) := by
  exact ⟨msg1 4 [], ofDev dev1, session1, served1 _ _ _ (by decide +kernel)⟩

theorem witness_SessionsAnswerTimeOutAndReport_PingCloseUnknownAnswered_1 : ∃ (m : GmpMsg) (s : State) (x : Session), Served closeRequest m x (s.devAt m.now) := by
  exact ⟨msg1 5 [], ofDev dev1, session1, served1 _ _ _ (by decide +kernel)⟩

theorem witness_SessionsAnswerTimeOutAndReport_PingCloseUnknownAnswered_2 : ∃ (code : Nat) (m : GmpMsg) (s : State) (x : Session), Served (unknownRequest code) m x (s.devAt m.now) := by
  exact ⟨0xFF, msg1 0xFF [], ofDev dev1, session1, served1 _ _ _ (by decide +kernel)⟩

theorem witness_SessionsAnswerTimeOutAndReport_GmpTimeoutsCloseWhatIsIdle_0 : ∃ (n now : Nat) (s : State) (x : Session), s.dev.session n = some x ∧ x.confirmed = false ∧ x.setupTick + secTicks ≤ (s.devAt now).time := by
  refine ⟨1, 0, stKT { keeper1 with sessions := [{ session1 with confirmed := false }] } 2500000000, { session1 with confirmed := false }, ?_, ?_, ?_⟩ <;> decide +kernel

theorem witness_SessionsAnswerTimeOutAndReport_GmpTimeoutsCloseWhatIsIdle_1 : ∃ (n now : Nat) (s : State) (x : Session), s.dev.session n = some x ∧ x.confirmed = true ∧ x.lastTick + 60 * secTicks ≤ (s.devAt now).time := by
  refine ⟨1, 0, stKT keeper1 150000000000, session1, ?_, ?_, ?_⟩ <;> decide +kernel

theorem witness_SessionsAnswerTimeOutAndReport_GmpTimeoutsCloseWhatIsIdle_2 : ∃ (n now : Nat) (c : Instr) (s : State), ((c = .sessionSetupTimeout n now ∧ ∀ x, s.dev.session n = some x → x.confirmed = true ∨ (s.devAt now).time < x.setupTick + secTicks) ∨ (c = .sessionIdleTimeout n now ∧ ∀ x, s.dev.session n = some x → x.confirmed = false ∨ (s.devAt now).time < x.lastTick + 60 * secTicks)) := by
  exact ⟨1, 0, .sessionIdleTimeout 1 0, stKT keeper1 149999999999, Or.inr ⟨rfl, of_some (y := session1) (by decide +kernel) (by decide +kernel)⟩⟩

theorem witness_StateSpaceReadsAndWrites_0 : ∃ (m : GmpMsg) (s : State) (x : Session), Served readRequest m x (s.devAt m.now) := by
  exact ⟨msg1 0x10 (leBytes 8 0 ++ leBytes 4 160), ofDev dev1, session1, served1 _ _ _ (by decide +kernel)⟩

theorem witness_StateSpaceReadsAndWrites_1 : ∃ (m : GmpMsg) (s : State) (x : Session), Served (writeRequest Dev.writeWord) m x (s.devAt m.now) ∧ fld m.body 0 8 = 0x40 := by
  refine ⟨msg1 0x11 (leBytes 8 0x40 ++ leBytes 8 1), ofDev dev1, session1, served1 _ _ _ (by decide +kernel), ?_⟩; decide +kernel

theorem witness_StateSpaceReadsAndWrites_2 : ∃ (m : GmpMsg) (s : State) (x : Session) (w : Nat), Served (writeRequest Dev.writeWord) m x (s.devAt m.now) ∧ ((s.devAt m.now).taken m 0x0011).wordOf (fld m.body 0 8) = some w ∧ fld m.body 0 8 ≠ 0x40 ∧ fld m.body 0 8 ≠ 0x400000008 ∧ classAt (fld m.body 0 8) = none ∧ probeAt (fld m.body 0 8) = none := by
  refine ⟨msg1 0x11 (leBytes 8 0 ++ leBytes 8 1), ofDev dev1, session1, ((dev1.taken (msg1 0x11 (leBytes 8 0 ++ leBytes 8 1)) 0x11).wordOf 0).getD 0, served1 _ _ _ (by decide +kernel), ?_, ?_, ?_, ?_, ?_⟩ <;> decide +kernel

theorem witness_StateSpaceReadsAndWrites_3 : ∃ (m : GmpMsg) (s : State) (x : Session), Served (writeRequest Dev.writeWord) m x (s.devAt m.now) ∧ ((s.devAt m.now).taken m 0x0011).wordOf (fld m.body 0 8) = none := by
  refine ⟨msg1 0x11 (leBytes 8 0x900000000 ++ leBytes 8 1), ofDev dev1, session1, served1 _ _ _ (by decide +kernel), ?_⟩; decide +kernel

theorem witness_StateSpaceReadsAndWrites_5 : ∃ (m : GmpMsg) (s : State) (x : Session), Served subscribeRequest m x (s.devAt m.now) := by
  exact ⟨msg1 0x13 [3#8, 5#8, 0#8, 0#8], ofDev dev1, session1, served1 _ _ _ (by decide +kernel)⟩

theorem witness_WritableWordsTakeEffect_ClassesAndProbesAreWritten_0 : ∃ (m : GmpMsg) (s : State) (x : Session) (c : Nat), Served (writeRequest ackWrite) m x (s.devAt m.now) ∧ c < 16 ∧ fld m.body 0 8 = 0x10000 + 8 * c ∧ bit (fld m.body 8 8) 0 = true := by
  refine ⟨msg1 0x11 (leBytes 8 (0x10000 + 120) ++ leBytes 8 1), ofDev dev1, session1, 15, served1 _ _ _ (by decide +kernel), ?_, ?_, ?_⟩ <;> decide +kernel

theorem witness_WritableWordsTakeEffect_ClassesAndProbesAreWritten_1 : ∃ (m : GmpMsg) (s : State) (x : Session) (i : Nat), Served (writeRequest probeClearWrite) m x (s.devAt m.now) ∧ i < 64 ∧ fld m.body 0 8 = 0x400001030 + 512 * i ∧ bit (fld m.body 8 8) 0 = true ∧ bit (fld m.body 8 8) 1 = false := by
  refine ⟨msg1 0x11 (leBytes 8 (0x400001030 + 512 * 63) ++ leBytes 8 1), ofDev dev1, session1, 63, served1 _ _ _ (by decide +kernel), ?_, ?_, ?_, ?_⟩ <;> decide +kernel

theorem witness_WritableWordsTakeEffect_ClassesAndProbesAreWritten_2 : ∃ (m : GmpMsg) (s : State) (x : Session) (i : Nat), Served (writeRequest probeDisableWrite) m x (s.devAt m.now) ∧ i < 64 ∧ fld m.body 0 8 = 0x400001030 + 512 * i ∧ bit (fld m.body 8 8) 0 = false ∧ bit (fld m.body 8 8) 1 = true := by
  refine ⟨msg1 0x11 (leBytes 8 (0x400001030 + 512 * 63) ++ leBytes 8 2), ofDev dev1, session1, 63, served1 _ _ _ (by decide +kernel), ?_, ?_, ?_, ?_⟩ <;> decide +kernel

theorem witness_WritableWordsTakeEffect_ClassesAndProbesAreWritten_3 : ∃ (m : GmpMsg) (s : State) (x : Session), Served captureRequest m x (s.devAt m.now) := by
  exact ⟨msg1 0x63 ([63#8] ++ leBytes 19 0), ofDev dev1, session1, served1 _ _ _ (by decide +kernel)⟩

theorem witness_WritableWordsTakeEffect_SiltControlTriggersAndRearms_0 : ∃ (m : GmpMsg) (s : State) (x : Session), Served (writeRequest siltTriggerWrite) m x (s.devAt m.now) ∧ fld m.body 0 8 = 0x400000008 ∧ bit (fld m.body 8 8) 0 = true ∧ bit (fld m.body 8 8) 1 = false := by
  refine ⟨msg1 0x11 (leBytes 8 0x400000008 ++ leBytes 8 1), ofDev dev1, session1, served1 _ _ _ (by decide +kernel), ?_, ?_, ?_⟩ <;> decide +kernel

theorem witness_WritableWordsTakeEffect_SiltControlTriggersAndRearms_1 : ∃ (m : GmpMsg) (s : State) (x : Session), Served (writeRequest siltRearmWrite) m x (s.devAt m.now) ∧ fld m.body 0 8 = 0x400000008 ∧ bit (fld m.body 8 8) 0 = false ∧ bit (fld m.body 8 8) 1 = true := by
  refine ⟨msg1 0x11 (leBytes 8 0x400000008 ++ leBytes 8 2), ofDev dev1, session1, served1 _ _ _ (by decide +kernel), ?_, ?_, ?_⟩ <;> decide +kernel

theorem witness_FlashEraseAndWriteChangeTheirBytes_0 : ∃ (m : GmpMsg) (s : State) (x : Session), Served flashEraseRequest m x (s.devAt m.now) ∧ s.dev.flashTaken m.session = false ∧ imageBase ≤ fld m.body 0 4 ∧ fld m.body 0 4 + 65536 ≤ imageEnd ∧ s.dev.power.nvmFault = false := by
  refine ⟨msg1 0x53 (leBytes 4 65536), ofDev dev1, session1, served1 _ _ _ (by decide +kernel), ?_, ?_, ?_, ?_⟩ <;> decide +kernel

theorem witness_FlashEraseAndWriteChangeTheirBytes_1 : ∃ (m : GmpMsg) (data : Bytes) (s : State) (x : Session), Served (flashWriteRequest data) m x (s.devAt m.now) ∧ m.body.drop 4 = data ∧ s.canonical ∧ s.dev.flashTaken m.session = false ∧ data ≠ [] ∧ data.length ≤ 256 ∧ fld m.body 0 4 % 256 + data.length ≤ 256 ∧ imageBase ≤ fld m.body 0 4 ∧ fld m.body 0 4 + data.length ≤ imageEnd ∧ s.dev.power.nvmFault = false := by
  refine ⟨msg1 0x54 (leBytes 4 (65536 + 255) ++ [7#8]), [7#8], ofDev dev1, session1, served1 _ _ _ (by decide +kernel), ?_, ⟨by decide +kernel, by decide +kernel⟩, ?_, ?_, ?_, ?_, ?_, ?_, ?_⟩ <;> decide +kernel

theorem witness_ReadingsAndDumpsAnswer_ReadingRequestsAnswer_0 : ∃ (m : GmpMsg) (s : State) (x : Session), Served flashReadRequest m x (s.devAt m.now) ∧ (fld m.body 0 4 + fld m.body 4 4 ≤ 4096 ∨ (imageBase ≤ fld m.body 0 4 ∧ fld m.body 0 4 + fld m.body 4 4 ≤ imageEnd)) ∧ s.dev.power.nvmFault = false := by
  refine ⟨msg1 0x55 (leBytes 4 3072 ++ leBytes 4 1024), ofDev dev1, session1, served1 _ _ _ (by decide +kernel), ?_, ?_⟩ <;> decide +kernel

theorem witness_ReadingsAndDumpsAnswer_ReadingRequestsAnswer_1 : ∃ (m : GmpMsg) (s : State) (x : Session), Served flashCheckRequest m x (s.devAt m.now) := by
  exact ⟨msg1 0x56 [], ofDev dev1, session1, served1 _ _ _ (by decide +kernel)⟩

theorem witness_ReadingsAndDumpsAnswer_ReadingRequestsAnswer_2 : ∃ (m : GmpMsg) (s : State) (x : Session), Served attestRequest m x (s.devAt m.now) := by
  exact ⟨msg1 0x12 (leBytes 32 9), ofDev dev1, session1, served1 _ _ _ (by decide +kernel)⟩

theorem witness_ReadingsAndDumpsAnswer_ReadingRequestsAnswer_3 : ∃ (m : GmpMsg) (st : Nat) (ecc : EccResult) (s : State) (x : Session), Served (auditReadRequest st ecc) m x (s.devAt m.now) := by
  exact ⟨msg1 0x14 (leBytes 4 16), 7, .clean, ofDev dev1, session1, served1 _ _ _ (by decide +kernel)⟩

theorem witness_ReadingsAndDumpsAnswer_DumpOpensReadsAndEnds_0 : ∃ (m : GmpMsg) (s : State) (x : Session), Served dumpBeginRequest m x (s.devAt m.now) ∧ s.dev.dump = none ∧ s.dev.keeper.haltWaits.any (fun w => w.1 == 256) = false ∧ u8 m.body 0 = 0 := by
  refine ⟨msg1 0x60 (leBytes 4 0), ofDev dev1, session1, served1 _ _ _ (by decide +kernel), ?_, ?_, ?_⟩ <;> decide +kernel

theorem witness_ReadingsAndDumpsAnswer_DumpOpensReadsAndEnds_1 : ∃ (m : GmpMsg) (s : State) (x : Session) (j : Nat), Served dumpBeginRequest m x (s.devAt m.now) ∧ s.dev.dump = none ∧ s.dev.keeper.haltWaits.any (fun w => w.1 == 256) = false ∧ u8 m.body 0 = 1 ∧ j ∈ s.dev.loaded := by
  refine ⟨msg1 0x60 (leBytes 4 1), stJ job1 ctx1, session1, 1, served1 _ _ _ (by decide +kernel), ?_, ?_, ?_, ?_⟩ <;> decide +kernel

theorem witness_ReadingsAndDumpsAnswer_DumpOpensReadsAndEnds_2 : ∃ (m : GmpMsg) (s : State) (x : Session) (u : Dump), Served dumpReadRequest m x (s.devAt m.now) ∧ s.dev.dump = some u ∧ u.id = fld m.body 0 4 ∧ (m.port = 98 → fld m.body 16 4 ≤ 1024) ∧ fld m.body 8 8 + fld m.body 16 4 ≤ u.siltOff + u.siltLen := by
  refine ⟨msg1 0x61 (leBytes 8 7 ++ leBytes 8 0 ++ leBytes 4 8), ofDev { dev1 with dump := some dump1 }, session1, dump1, served1 _ _ _ (by decide +kernel), ?_, ?_, ?_, ?_⟩ <;> decide +kernel

theorem witness_ReadingsAndDumpsAnswer_DumpOpensReadsAndEnds_3 : ∃ (m : GmpMsg) (s : State) (x : Session) (u : Dump), Served dumpEndRequest m x (s.devAt m.now) ∧ s.dev.dump = some u ∧ u.id = fld m.body 0 4 := by
  refine ⟨msg1 0x62 (leBytes 4 7), ofDev { dev1 with dump := some dump1 }, session1, dump1, served1 _ _ _ (by decide +kernel), ?_, ?_⟩ <;> decide +kernel

theorem witness_PackagesLoadAndUnload_PackagePiecesReachTheStaging_0 : ∃ (m : GmpMsg) (s : State) (x : Session), Served pkgBeginRequest m x (s.devAt m.now) ∧ s.dev.keeper.load = none ∧ pkgHeaderOk m.body = true := by
  refine ⟨msg1 0x20 (headOf 0 1 1336 14), ofDev dev1, session1, served1 _ _ _ (by decide +kernel), ?_, ?_⟩ <;> decide +kernel

theorem witness_PackagesLoadAndUnload_PackagePiecesReachTheStaging_1 : ∃ (m : GmpMsg) (s : State) (x : Session) (l : PkgLoad), Served pkgBeginRequest m x (s.devAt m.now) ∧ s.dev.keeper.load = some l := by
  refine ⟨msg1 0x20 (headOf 0 1 1336 14), stK { keeper1 with load := some load1 }, session1, load1, served1 _ _ _ (by decide +kernel), ?_⟩; decide +kernel

theorem witness_PackagesLoadAndUnload_PackagePiecesReachTheStaging_2 : ∃ (m : GmpMsg) (s : State) (x : Session) (l : PkgLoad), Served pkgDataRequest m x (s.devAt m.now) ∧ s.dev.keeper.load = some l ∧ l.session = m.session ∧ l.job = u8 m.body 0 ∧ fld m.body 4 4 + (m.body.length - 8) ≤ l.length := by
  refine ⟨msg1 0x21 (leBytes 4 1 ++ leBytes 4 1328 ++ leBytes 8 9), stK { keeper1 with load := some load1 }, session1, load1, served1 _ _ _ (by decide +kernel), ?_, ?_, ?_, ?_⟩ <;> decide +kernel

theorem witness_PackagesLoadAndUnload_PackageEndLoadsAndUnloadFrees_3 : ∃ (m : GmpMsg) (s : State) (x : Session), Served unloadRequest m x (s.devAt m.now) ∧ s.dev.keeper.load.any (fun l => l.job == u8 m.body 0 && l.session != m.session) = false := by
  refine ⟨msg1 0x23 (leBytes 4 1), stJ run1 ctx1, session1, served1 _ _ _ (by decide +kernel), ?_⟩; decide +kernel

theorem witness_PackagesLoadAndUnload_PackageEndLoadsAndUnloadFrees_4 : ∃ (m : GmpMsg) (s : State) (x : Session), Served unloadRequest m x (s.devAt m.now) ∧ s.dev.keeper.load.any (fun l => l.job == u8 m.body 0 && l.session != m.session) = true := by
  refine ⟨msg1 0x23 (leBytes 4 1), ofDev { devJ job1 ctx1 with keeper := { keeper1 with load := some { load1 with session := 2 } } }, session1, served1 _ _ _ (by decide +kernel), ?_⟩; decide +kernel


/-! ### Whole packages in the staging area -/

/-- A still smaller job 2: one slot in each section. -/
def scheduleS : Bytes :=
  leBytes 4 9750 ++ leBytes 4 1 ++ leBytes 4 1 ++ leBytes 2 2 ++ leBytes 2 0 ++ leBytes 8 30000 ++ leBytes 8 0 ++
    (claimEntry 0x2005 full ++ claimEntry 0x3000 full) ++
    (slotEntry 200 0x2005 100 0 3 0 0 0xFFFFFFFF ++ slotEntry 0 0x3000 1000 0 4 0 0 0)
def recsS : List (Nat × Bytes) := [
  (0x101, header1), (0x102, leBytes 32 0), (0x103, leBytes 4 1 ++ leBytes 4 1 ++ leBytes 8 0), (0x104, []), (0x105, leBytes 8 0),
  (0x106, bucketEntry 0 0 0 0 32), (0x107, []), (0x108, tensors1), (0x109, owners1), (0x10A, allotment1), (0x10B, program1), (0x10C, lr1),
  (0x10F, scheduleS)]
def replanS : List (Nat × Bytes) := [(0x104, []), (0x107, []), (0x10F, scheduleS), (0x110, [])]

/-- The staging area with a package in it: its bytes that are not zero. -/
def stagedOf (p : Bytes) : Table Byte := (p.zipIdx.filter (fun b => b.1 != 0#8)).map (fun b => (stagingBase + b.2, b.1))
/-- SM3 of the LOAD package and of the REPLAN package, by another implementation of GM/T 0004. -/
def digestL : Bytes := leBytes 32 0xB5C9AA48519332642FFC684CCC224C12796F100105076FF2C8E0DDB3E9E39837
def digestR : Bytes := leBytes 32 0x09A530E39BEFC019BDF2DBF18ED932CC5862FCAFAB41E180317EB3D98773501C
def loadL : PkgLoad := { session := 1, header := headOf 0 1 960 13, job := 1, length := 960, got := [(0, 960)], lastTick := 0 }
def loadR : PkgLoad := { session := 1, header := headOf 1 1 192 4, job := 1, length := 192, got := [(0, 192)], lastTick := 0 }
def stL : State := { ofDev { dev2 with keeper := { keeper1 with load := some loadL } } with depths := stagedOf (packageOf 0 1 recsS) }
def stR : State :=
  { ofDev { devJ { job1 with state := .halted, recs := recsS } ctx1 with keeper := { keeper1 with load := some loadR } } with
    depths := stagedOf (packageOf 1 1 replanS) }
def loadE : PkgLoad := { loadL with got := [] }
def stE : State := stK { keeper1 with load := some loadE }
/-- A package's outcome, read as a Bool that evaluates. -/
def okWith (e : Except Finding (List (Nat × Bytes))) (recs : List (Nat × Bytes)) : Bool :=
  match e with
  | .ok r => r == recs
  | .error _ => false
theorem eq_ok (e : Except Finding (List (Nat × Bytes))) (recs : List (Nat × Bytes)) (h : okWith e recs = true) : e = .ok recs := by
  cases e with
  | ok r => exact congrArg _ (beq_iff_eq.mp h)
  | error f => exact absurd h (by simp [okWith])
def badWith (e : Except Finding (List (Nat × Bytes))) (f : Finding) : Bool :=
  match e with
  | .ok _ => false
  | .error g => g == f
theorem eq_bad (e : Except Finding (List (Nat × Bytes))) (f : Finding) (h : badWith e f = true) : e = .error f := by
  cases e with
  | error g => exact congrArg _ (beq_iff_eq.mp h)
  | ok r => exact absurd h (by simp [badWith])

theorem witness_PackagesLoadAndUnload_PackageEndLoadsAndUnloadFrees_0 : ∃ (m : GmpMsg) (s : State) (x : Session) (l : PkgLoad) (recs : List (Nat × Bytes)), Served pkgEndRequest m x (s.devAt m.now) ∧ s.dev.keeper.load = some l ∧ l.session = m.session ∧ l.job = u8 m.body 0 ∧ u8 l.header 6 = 0 ∧ Mach.checkPackage { s.machOf with dev := (s.devAt m.now).taken m 0x0022 } l (m.body.drop 4) = .ok recs := by
  refine ⟨msg1 0x22 (leBytes 4 1 ++ digestL), stL, session1, loadL, recsS, served1 _ _ _ (by decide +kernel), ?_, ?_, ?_, ?_, eq_ok _ _ (by decide +kernel)⟩ <;> decide +kernel

theorem witness_PackagesLoadAndUnload_PackageEndLoadsAndUnloadFrees_1 : ∃ (m : GmpMsg) (s : State) (x : Session) (l : PkgLoad) (recs : List (Nat × Bytes)), Served pkgEndRequest m x (s.devAt m.now) ∧ s.dev.keeper.load = some l ∧ l.session = m.session ∧ l.job = u8 m.body 0 ∧ u8 l.header 6 ≠ 0 ∧ Mach.checkPackage { s.machOf with dev := (s.devAt m.now).taken m 0x0022 } l (m.body.drop 4) = .ok recs := by
  refine ⟨msg1 0x22 (leBytes 4 1 ++ digestR), stR, session1, loadR, replanS, served1 _ _ _ (by decide +kernel), ?_, ?_, ?_, ?_, eq_ok _ _ (by decide +kernel)⟩ <;> decide +kernel

theorem witness_PackagesLoadAndUnload_PackageEndLoadsAndUnloadFrees_2 : ∃ (m : GmpMsg) (s : State) (x : Session) (l : PkgLoad) (f : Finding), Served pkgEndRequest m x (s.devAt m.now) ∧ s.dev.keeper.load = some l ∧ l.session = m.session ∧ l.job = u8 m.body 0 ∧ Mach.checkPackage { s.machOf with dev := (s.devAt m.now).taken m 0x0022 } l (m.body.drop 4) = .error f := by
  refine ⟨msg1 0x22 (leBytes 4 1 ++ digestL), stE, session1, loadE, { status := stPkgDigest }, served1 _ _ _ (by decide +kernel), ?_, ?_, ?_, eq_bad _ _ (by decide +kernel)⟩ <;> decide +kernel


/-! ### A use's fragments, and restore data -/

/-- A leaf fragment of bucket 0 from rank 1 by its generation, sequence number and channel flags. -/
def frag1 (gen seq : Nat) : Bytes := mkContribution 1 1 0 0 gen 0 seq 32 0 1 0 0 0 1 (descHashOf 1 0 32 1 seq) 32 0 32
def zeros128 : Bytes := leBytes 128 0
def notice1 (gen seq : Nat) : Bytes := mkContribution 7 1 0 0 gen 0 seq 32 0 1 0 0 0 1 (descHashOf 1 0 32 1 seq) 32 0 32
/-- Held fragments of both ranks for the current use. -/
def held1 : List Frag := [
  { port := 255, header := mkContribution 1 1 0 0 0 0 5 0 0 1 0 0 0 1 (descHashOf 1 0 32 1 5) 32 0 32, payload := zeros128, tick := 0, spilled := false },
  { port := 3, header := frag1 0 5, payload := zeros128, tick := 0, spilled := false }]
def root1 : NodeVal := { frag := 0, node := 1, vals := List.replicate 32 0#32 }
def open1 : Ctx := { ctx1 with state := .opened, frags := held1 }
def drain1 : Ctx := { ctx1 with state := .draining, frags := held1, nodes := [root1] }
/-- CHUNK_STATE of the one chunk at step 3: 32 weights and their Q, all zero, under their SM3. -/
def chunkRec : Bytes :=
  leBytes 1 1 ++ leBytes 1 1 ++ leBytes 2 0 ++ leBytes 4 0 ++ leBytes 8 0 ++ leBytes 4 32 ++ leBytes 4 0 ++ leBytes 6 3 ++ leBytes 2 0 ++
    leBytes 32 0x744952304FF02A587A831177B54604365E9879995655BB2D7FB0DF41B1D8E524 ++ leBytes 192 0
def restored1 : Job := { job1 with restored := chunkRec.zipIdx.map (fun b => (b.2, b.1)) }
def qp1 : Qp := { Qp.none with port := 96 }
def ckpt1 : Ckpt := { job := 1, pull := true, qp := 0, step := 0, length := 8, stream := leBytes 8 5, manifest := [] }
def devC (up : Bool) : Dev :=
  { devJ { job1 with lastEnded := 0, nextStep := 1 } ctx1 with
    keeper := { keeper1 with qps := [(0, qp1)], ckpts := [(1, ckpt1)] }, ports := [(96, { state := if up then .up else .acquire })] }
def launch1 (tick : Nat) (armed : Bool) : Launch := { tick := tick, step := 0, completion := false, stage := if armed then .armed else .pending }
def accum2 : Job :=
  { run1 with recs := (0x101, leBytes 1 1 ++ leBytes 2 0 ++ leBytes 1 2 ++ leBytes 4 2 ++ leBytes 2 2 ++ leBytes 54 0) :: recs1 }
def devN (x : Job) : State := ofDev { devJ x ctx1 with clock := { dev1.clock with gtc := 100000 } }
/-- The slots of a job before entry `i` have acted. -/
def upto (i : Nat) (x : Job) : Job := { x with acted := (List.range i).map (fun k => (k, 1)), returned := if 4 < i then [(4, 1)] else [] }
/-- A slot's entry and device, where it acts. -/
def slotOf (o : Option (Bytes × Dev)) : Bytes × Dev := o.getD ([], dev1)

theorem witness_LaunchesAreTakenCancelledAndStarted_LaunchIsAnnouncedAndCancelled_0 : ∃ (m : GmpMsg) (s : State) (x : Session), Served launchRequest m x (s.devAt m.now) := by
  exact ⟨msg1 0x30 (leBytes 2 1 ++ leBytes 6 0 ++ leBytes 16 360750), stJ job1 ctx1, session1, served1 _ _ _ (by decide +kernel)⟩

theorem witness_LaunchesAreTakenCancelledAndStarted_LaunchIsAnnouncedAndCancelled_1 : ∃ (m : GmpMsg) (s : State) (x : Session) (l : Launch), Served launchCancelRequest m x (s.devAt m.now) ∧ (s.dev.job (u8 m.body 0)).launch = some l ∧ l.step = fld m.body 2 6 ∧ l.stage = .pending := by
  refine ⟨msg1 0x31 (leBytes 2 1 ++ leBytes 6 0), stJ { job1 with launch := some (launch1 97500 false) } ctx1, session1, launch1 97500 false, served1 _ _ _ (by decide +kernel), ?_, ?_, ?_⟩ <;> decide +kernel

theorem witness_LaunchesAreTakenCancelledAndStarted_LaunchIsAnnouncedAndCancelled_2 : ∃ (m : GmpMsg) (s : State) (x : Session) (st : Nat), Served launchCancelRequest m x (s.devAt m.now) ∧ fld m.body 2 6 ≠ noStep ∧ ((st = stLaunchArmed ∧ (∃ l, (s.dev.job (u8 m.body 0)).launch = some l ∧ l.step = fld m.body 2 6 ∧ l.stage = .armed)) ∨ ((∀ l, (s.dev.job (u8 m.body 0)).launch = some l → l.step ≠ fld m.body 2 6) ∧ st = if (s.dev.job (u8 m.body 0)).rcStep = fld m.body 2 6 then stLaunchArmed else stLaunchStep)) := by
  refine ⟨msg1 0x31 (leBytes 2 1 ++ leBytes 6 0), stJ { job1 with launch := some (launch1 97500 true) } ctx1, session1, stLaunchArmed, served1 _ _ _ (by decide +kernel), ?_, Or.inl ⟨rfl, launch1 97500 true, by decide +kernel, by decide +kernel, rfl⟩⟩; decide +kernel

theorem witness_LaunchesAreTakenCancelledAndStarted_LaunchArmsAndStarts_0 : ∃ (j now : Nat) (s : State) (l : Launch), (s.dev.job j).launch = some l ∧ l.stage = .pending ∧ l.tick ≤ (s.devAt now).tick + 9750 := by
  refine ⟨1, 0, stJ { job1 with launch := some (launch1 109750 false) } ctx1, launch1 109750 false, ?_, ?_, ?_⟩ <;> decide +kernel

theorem witness_LaunchesAreTakenCancelledAndStarted_LaunchArmsAndStarts_1 : ∃ (j now : Nat) (tables : EccResult) (s : State) (l : Launch), (s.dev.job j).launch = some l ∧ l.stage = .armed ∧ l.tick ≤ (s.devAt now).tick ∧ (s.devAt now).launchGrade = true ∧ s.dev.faults.held = false ∧ tables ≠ .uncorrectable := by
  refine ⟨1, 0, .clean, stJ { job1 with launch := some (launch1 100000 true) } ctx1, launch1 100000 true, ?_, ?_, ?_, ?_, ?_, ?_⟩ <;> decide +kernel

theorem witness_LaunchesAreTakenCancelledAndStarted_LaunchArmsAndStarts_2 : ∃ (j now : Nat) (tables : EccResult) (s : State) (l : Launch), (s.dev.job j).launch = some l ∧ l.stage = .armed ∧ l.tick ≤ (s.devAt now).tick ∧ ((s.devAt now).launchGrade = false ∨ s.dev.faults.held = true) ∧ tables ≠ .uncorrectable := by
  refine ⟨1, 0, .clean, devN { job1 with launch := some (launch1 100000 true) }, launch1 100000 true, ?_, ?_, ?_, ?_, ?_⟩ <;> decide +kernel

theorem witness_LaunchesAreTakenCancelledAndStarted_LaunchArmsAndStarts_3 : ∃ (j now : Nat) (s : State) (l : Launch), (s.dev.job j).launch = some l ∧ l.stage = .armed ∧ l.tick ≤ (s.devAt now).tick ∧ s.dev.power.cold = false ∧ (s.devAt now).effective { source := 0x0A04, job := some j, step := (s.dev.job j).rcStep } = 4 := by
  refine ⟨1, 0, stJ { job1 with launch := some (launch1 100000 true) } ctx1, launch1 100000 true, ?_, ?_, ?_, ?_, ?_⟩ <;> decide +kernel

theorem witness_LaunchesAreTakenCancelledAndStarted_LaunchArmsAndStarts_4 : ∃ (j now : Nat) (tables : EccResult) (c : Instr) (s : State), ((c = .launchArm j now ∧ ∀ l, (s.dev.job j).launch = some l → l.stage = .armed ∨ (s.devAt now).tick + 9750 < l.tick) ∨ (c = .launchCycle j now tables ∧ ∀ l, (s.dev.job j).launch = some l → l.stage = .pending ∨ (s.devAt now).tick < l.tick)) := by
  exact ⟨1, 0, .clean, .launchArm 1 0, stJ { job1 with launch := some (launch1 109751 false) } ctx1, Or.inl ⟨rfl, of_some (y := launch1 109751 false) (by decide +kernel) (by decide +kernel)⟩⟩

theorem witness_SectionsFollowEachOther_0 : ∃ (j mb : Nat) (tables : EccResult) (s : State), (s.dev.job j).live = true ∧ 1 ≤ mb ∧ mb < (s.dev.job j).accum ∧ (s.dev.job j).runSection = some (.microBatch (mb - 1)) ∧ tables ≠ .uncorrectable := by
  refine ⟨1, 1, .clean, stJ { accum2 with launchTick := 100000 - 9750 } ctx1, ?_, ?_, ?_, ?_, ?_⟩ <;> decide +kernel

theorem witness_SectionsFollowEachOther_1 : ∃ (j : Nat) (tables : EccResult) (s : State), (s.dev.job j).live = true ∧ (s.dev.job j).runSection = some (.microBatch ((s.dev.job j).accum - 1)) ∧ tables ≠ .uncorrectable := by
  refine ⟨1, .clean, stJ { run1 with launchTick := 100000 - 9750 } ctx1, ?_, ?_, ?_⟩ <;> decide +kernel

theorem witness_SectionsFollowEachOther_2 : ∃ (j mb now : Nat) (c : Instr) (s : State), (s.dev.job j).live = true ∧ s.dev.power.cold = false ∧ ((c = .microbatchSectionStart j mb now .uncorrectable ∧ 1 ≤ mb ∧ mb < (s.dev.job j).accum ∧ (s.dev.job j).runSection = some (.microBatch (mb - 1)) ∧ (s.dev.job j).launchTick + mb * scPeriod (s.dev.job j).sched ≤ (s.devAt now).tick) ∨ (c = .tailSectionStart j now .uncorrectable ∧ (s.dev.job j).runSection = some (.microBatch ((s.dev.job j).accum - 1)) ∧ (s.dev.job j).launchTick + (s.dev.job j).accum * scPeriod (s.dev.job j).sched ≤ (s.devAt now).tick)) ∧ (s.devAt now).effective { source := 0x0A04, job := some j, step := (s.dev.job j).rcStep } = 4 := by
  refine ⟨1, 0, 0, .tailSectionStart 1 0 .uncorrectable, stJ { run1 with launchTick := 100000 - 9750 } ctx1, ?_, ?_, Or.inr ⟨rfl, by decide +kernel, by decide +kernel⟩, ?_⟩ <;> decide +kernel

theorem witness_SectionsFollowEachOther_4 : ∃ (j : Nat) (s : State), ((s.dev.job j).live = false ∨ (s.dev.job j).runSection ≠ some .tail) := by
  refine ⟨1, stJ run1 ctx1, ?_⟩; decide +kernel

theorem witness_CommitEndsTheStep_0 : ∃ (m : GmpMsg) (s : State) (x : Session), Served commitRequest m x (s.devAt m.now) ∧ (s.dev.job (u8 m.body 0)).rcStep ≠ noStep ∧ fld m.body 2 6 = (s.dev.job (u8 m.body 0)).rcStep ∧ (s.dev.job (u8 m.body 0)).rcPhase = 5 := by
  refine ⟨msg1 0x32 (leBytes 1 1 ++ leBytes 1 2 ++ leBytes 6 3), stJ { run1 with rcStep := 3, rcPhase := 5 } ctx1, session1, served1 _ _ _ (by decide +kernel), ?_, ?_, ?_⟩ <;> decide +kernel

theorem witness_CommitEndsTheStep_1 : ∃ (m : GmpMsg) (s : State) (x : Session), Served commitRequest m x (s.devAt m.now) ∧ ((s.dev.job (u8 m.body 0)).rcStep = noStep ∨ fld m.body 2 6 ≠ (s.dev.job (u8 m.body 0)).rcStep) := by
  refine ⟨msg1 0x32 (leBytes 1 1 ++ leBytes 1 2 ++ leBytes 6 4), stJ { run1 with rcStep := 3, rcPhase := 5 } ctx1, session1, served1 _ _ _ (by decide +kernel), ?_⟩; decide +kernel

theorem witness_CommitEndsTheStep_2 : ∃ (m : GmpMsg) (s : State) (x : Session), Served commitRequest m x (s.devAt m.now) ∧ (s.dev.job (u8 m.body 0)).rcStep ≠ noStep ∧ fld m.body 2 6 = (s.dev.job (u8 m.body 0)).rcStep ∧ (s.dev.job (u8 m.body 0)).rcPhase ≠ 5 := by
  refine ⟨msg1 0x32 (leBytes 1 1 ++ leBytes 1 2 ++ leBytes 6 3), stJ { run1 with rcStep := 3, rcPhase := 4 } ctx1, session1, served1 _ _ _ (by decide +kernel), ?_, ?_, ?_⟩ <;> decide +kernel

theorem witness_RequestsStopJobsAndContexts_AbandonAndHaltStopTheJob_0 : ∃ (m : GmpMsg) (s : State) (x : Session), Served abandonRequest m x (s.devAt m.now) ∧ (s.dev.job (u8 m.body 0)).rcStep ≠ noStep ∧ fld m.body 2 6 = (s.dev.job (u8 m.body 0)).rcStep ∧ (s.dev.job (u8 m.body 0)).rcPhase < 3 ∧ (s.dev.job (u8 m.body 0)).rootCommitted = false := by
  refine ⟨msg1 0x33 (leBytes 2 1 ++ leBytes 6 3), stJ { run1 with rcStep := 3, rcPhase := 2 } ctx1, session1, served1 _ _ _ (by decide +kernel), ?_, ?_, ?_, ?_⟩ <;> decide +kernel

theorem witness_RequestsStopJobsAndContexts_AbandonAndHaltStopTheJob_1 : ∃ (m : GmpMsg) (s : State) (x : Session), Served abandonRequest m x (s.devAt m.now) ∧ (s.dev.job (u8 m.body 0)).rcStep ≠ noStep ∧ fld m.body 2 6 = (s.dev.job (u8 m.body 0)).rcStep ∧ (3 ≤ (s.dev.job (u8 m.body 0)).rcPhase ∨ (s.dev.job (u8 m.body 0)).rootCommitted = true) := by
  refine ⟨msg1 0x33 (leBytes 2 1 ++ leBytes 6 3), stJ { run1 with rcStep := 3, rcPhase := 3 } ctx1, session1, served1 _ _ _ (by decide +kernel), ?_, ?_, ?_⟩ <;> decide +kernel

theorem witness_RequestsStopJobsAndContexts_AbandonAndHaltStopTheJob_2 : ∃ (m : GmpMsg) (s : State) (x : Session), Served abandonRequest m x (s.devAt m.now) ∧ ((s.dev.job (u8 m.body 0)).rcStep = noStep ∨ fld m.body 2 6 ≠ (s.dev.job (u8 m.body 0)).rcStep) := by
  refine ⟨msg1 0x33 (leBytes 2 1 ++ leBytes 6 4), stJ { run1 with rcStep := 3, rcPhase := 2 } ctx1, session1, served1 _ _ _ (by decide +kernel), ?_⟩; decide +kernel

theorem witness_RequestsStopJobsAndContexts_AbandonAndHaltStopTheJob_3 : ∃ (m : GmpMsg) (s : State) (x : Session), Served jobHaltRequest m x (s.devAt m.now) := by
  exact ⟨msg1 0x34 (leBytes 1 1 ++ leBytes 3 1), stJ run1 ctx1, session1, served1 _ _ _ (by decide +kernel)⟩

theorem witness_RequestsStopJobsAndContexts_ContextsResetAndAbortByRequest_0 : ∃ (m : GmpMsg) (s : State) (x : Session), Served ctxResetRequest m x (s.devAt m.now) ∧ (s.devAt m.now).holds (u8 m.body 0) (fld m.body 2 2) = true ∧ (s.dev.ctx (fld m.body 2 2)).state ≠ .resetting := by
  refine ⟨msg1 0x35 (leBytes 2 1 ++ leBytes 2 0), stJ run1 ctx1, session1, served1 _ _ _ (by decide +kernel), ?_, ?_⟩ <;> decide +kernel

theorem witness_RequestsStopJobsAndContexts_ContextsResetAndAbortByRequest_1 : ∃ (m : GmpMsg) (s : State) (x : Session), Served ctxAbortRequest m x (s.devAt m.now) ∧ (s.devAt m.now).holds (u8 m.body 0) (fld m.body 2 2) = true ∧ (s.dev.ctx (fld m.body 2 2)).abortable = true ∧ (s.dev.ctx (fld m.body 2 2)).bucket ≠ verdictBucket := by
  refine ⟨msg1 0x36 (leBytes 2 1 ++ leBytes 2 0 ++ leBytes 4 stMemberReset), stJ run1 open1, session1, served1 _ _ _ (by decide +kernel), ?_, ?_, ?_⟩ <;> decide +kernel

theorem witness_RequestsStopJobsAndContexts_ContextsResetAndAbortByRequest_2 : ∃ (m : GmpMsg) (s : State) (x : Session), Served ctxAbortRequest m x (s.devAt m.now) ∧ (s.devAt m.now).holds (u8 m.body 0) (fld m.body 2 2) = true ∧ (s.dev.ctx (fld m.body 2 2)).abortable = false := by
  refine ⟨msg1 0x36 (leBytes 2 1 ++ leBytes 2 0 ++ leBytes 4 stMemberReset), stJ run1 { open1 with state := .aborted }, session1, served1 _ _ _ (by decide +kernel), ?_, ?_⟩ <;> decide +kernel

theorem witness_RequestsStopJobsAndContexts_ContextsResetAndAbortByRequest_3 : ∃ (m : GmpMsg) (s : State) (x : Session) (code : Nat) (c : Instr), ((c = .gmpCtxReset m ∧ code = 0x0035 ∧ Served ctxResetRequest m x (s.devAt m.now)) ∨ (c = .gmpCtxAbort m ∧ code = 0x0036 ∧ Served ctxAbortRequest m x (s.devAt m.now))) ∧ (s.devAt m.now).holds (u8 m.body 0) (fld m.body 2 2) = false := by
  refine ⟨msg1 0x35 (leBytes 2 1 ++ leBytes 2 9), stJ run1 ctx1, session1, 0x35, .gmpCtxReset (msg1 0x35 (leBytes 2 1 ++ leBytes 2 9)), Or.inl ⟨rfl, rfl, served1 _ _ _ (by decide +kernel)⟩, ?_⟩; decide +kernel

theorem witness_CheckpointsOpenServeAndClose_CheckpointsOpenAndClose_0 : ∃ (m : GmpMsg) (s : State) (x : Session), Served qpSetupRequest m x (s.devAt m.now) ∧ u8 m.body 0 < 64 ∧ (s.devAt m.now).ethernet (u8 m.body 1) = true ∧ (s.devAt m.now).qpUser (u8 m.body 0) = none := by
  refine ⟨msg1 0x40 (leBytes 1 63 ++ leBytes 1 97 ++ leBytes 46 0), ofDev dev1, session1, served1 _ _ _ (by decide +kernel), ?_, ?_, ?_⟩ <;> decide +kernel

theorem witness_CheckpointsOpenServeAndClose_CheckpointsOpenAndClose_1 : ∃ (m : GmpMsg) (s : State) (x : Session), Served ckptRequest m x (s.devAt m.now) ∧ u8 m.body 1 = 1 ∧ (s.devAt m.now).ckptStatus (u8 m.body 0) (u8 m.body 2) (fld m.body 4 6) = stOk := by
  refine ⟨msg1 0x41 (leBytes 1 1 ++ leBytes 1 1 ++ leBytes 2 0 ++ leBytes 16 0), ofDev { devC true with keeper := { keeper1 with qps := [(0, qp1)] } }, session1, served1 _ _ _ (by decide +kernel), ?_, ?_⟩ <;> decide +kernel

theorem witness_CheckpointsOpenServeAndClose_CheckpointsOpenAndClose_2 : ∃ (j : Nat) (s : State) (k : Nat) (c : Ckpt), s.dev.keeper.ckpts.find? (fun e => e.1 == j) = some (k, c) ∧ s.dev.waits.any (fun w => w.2.rdma.map RdmaOut.qp == some c.qp) = false := by
  refine ⟨1, ofDev (devC true), 1, ckpt1, ?_, ?_⟩ <;> decide +kernel

theorem witness_CheckpointsOpenServeAndClose_CheckpointsOpenAndClose_3 : ∃ (j : Nat) (s : State) (k : Nat) (c : Ckpt), s.dev.keeper.ckpts.find? (fun e => e.1 == j) = some (k, c) := by
  refine ⟨1, ofDev (devC true), 1, ckpt1, ?_⟩; decide +kernel

theorem witness_CheckpointsOpenServeAndClose_CheckpointReadIsServed_0 : ∃ (n va length now : Nat) (s : State) (q : Qp) (j : Nat) (c : Ckpt) (b : Bytes), (s.devAt now).qp n = some q ∧ (s.devAt now).up q.port = true ∧ q.error = false ∧ (s.devAt now).qpUser n = some (j, c) ∧ c.window q va length = some b := by
  refine ⟨0, 0, 8, 0, ofDev (devC true), qp1, 1, ckpt1, leBytes 8 5, ?_, ?_, ?_, ?_, ?_⟩ <;> decide +kernel

theorem witness_CheckpointsOpenServeAndClose_CheckpointReadIsServed_1 : ∃ (n now : Nat) (s : State) (q : Qp), (s.devAt now).qp n = some q ∧ (s.devAt now).up q.port = false := by
  refine ⟨0, 0, ofDev (devC false), qp1, ?_, ?_⟩ <;> decide +kernel

theorem witness_RestoreAndReferencesAreTaken_0 : ∃ (m : GmpMsg) (s : State) (x : Session), Served restoreDataRequest m x (s.devAt m.now) ∧ (s.devAt m.now).takesRestore (u8 m.body 0) = true := by
  refine ⟨msg1 0x42 (leBytes 8 1 ++ leBytes 8 0 ++ chunkRec), stJ job1 ctx1, session1, served1 _ _ _ (by decide +kernel), ?_⟩; decide +kernel

theorem witness_RestoreAndReferencesAreTaken_1 : ∃ (m : GmpMsg) (s : State) (x : Session), Served restoreEndRequest m x (s.devAt m.now) ∧ (s.devAt m.now).takesRestore (u8 m.body 0) = true ∧ (s.dev.job (u8 m.body 0)).restoreFault (s.dev.job (u8 m.body 0)).restoredRecords.1 (s.dev.job (u8 m.body 0)).restoredRecords.2 (fld m.body 2 6) = none := by
  refine ⟨msg1 0x43 (leBytes 2 1 ++ leBytes 6 3), stJ restored1 ctx1, session1, served1 _ _ _ (by decide +kernel), ?_, ?_⟩ <;> decide +kernel

theorem witness_RestoreAndReferencesAreTaken_2 : ∃ (m : GmpMsg) (s : State) (x : Session) (r : Reply), Served restoreEndRequest m x (s.devAt m.now) ∧ (s.devAt m.now).takesRestore (u8 m.body 0) = true ∧ (s.dev.job (u8 m.body 0)).restoreFault (s.dev.job (u8 m.body 0)).restoredRecords.1 (s.dev.job (u8 m.body 0)).restoredRecords.2 (fld m.body 2 6) = some r := by
  refine ⟨msg1 0x43 (leBytes 2 1 ++ leBytes 6 4), stJ restored1 ctx1, session1, { status := stRestoreStep }, served1 _ _ _ (by decide +kernel), ?_, ?_⟩ <;> decide +kernel

theorem witness_RestoreAndReferencesAreTaken_3 : ∃ (m : GmpMsg) (s : State) (x : Session) (rs : List Bytes), Served replayRefRequest m x (s.devAt m.now) ∧ parseLog m.body.length (m.body.drop 8) = some rs ∧ ((addRefs (s.dev.job (u8 m.body 0)).refs (rs.filter (s.dev.job (u8 m.body 0)).wantsRef)).map List.length).sum ≤ (s.dev.job (u8 m.body 0)).replayMib * 2 ^ 20 := by
  refine ⟨msg1 0x44 (leBytes 8 1), stJ job1 ctx1, session1, [], served1 _ _ _ (by decide +kernel), ?_, ?_⟩ <;> decide +kernel

theorem witness_FragmentsAreHeldDroppedOrAbort_0 : ∃ (port now c : Nat) (h p : Bytes) (s : State), (s.dev.job (chJob h)).state ≠ .empty ∧ (s.devAt now).ctxFor h = some c ∧ (chKind h = 1 ∨ chKind h = 2) ∧ (chOp h = 1 ∨ chOp h = 2) ∧ (s.dev.ctx c).abortable = true ∧ chGen h = (s.dev.ctx c).generation ∧ (chSeq h = (s.dev.ctx c).sequence ∨ (serialAfter 32 (chSeq h) (s.dev.ctx c).sequence = true ∧ serialDist 32 (chSeq h) (s.dev.ctx c).sequence ≤ 3)) ∧ (s.dev.job (chJob h)).fragStatus ((s.devAt now).bucketOf c) (s.dev.ctx c).frags port h p = none ∧ (s.dev.ctx c).holds h = false ∧ (((s.devAt now).poolTake (.context (chJob h) (bkQuota ((s.devAt now).bucketOf c) * 1024)) (ctxHolder c) (fragItem h) (48 + p.length)).1 = .taken ∨ s.dev.spilledBytes (chJob h) + (48 + p.length) ≤ (s.dev.job (chJob h)).spillRegion) := by
  refine ⟨3, 0, 0, frag1 0 8, zeros128, stJ run1 ctx1, ?_, ?_, ?_, ?_, ?_, ?_, ?_, ?_, ?_, ?_⟩ <;> decide +kernel

theorem witness_FragmentsAreHeldDroppedOrAbort_1 : ∃ (now n : Nat) (h : Bytes) (s : State), ((s.dev.job (chJob h)).state = .empty ∧ n = 1 ∨ (s.dev.job (chJob h)).state ≠ .empty ∧ chKind h ≠ 7 ∧ n = 2 ∧ (¬ ((chKind h = 1 ∨ chKind h = 2) ∧ (chOp h = 1 ∨ chOp h = 2)) ∨ (s.devAt now).ctxFor h = none)) := by
  refine ⟨0, 1, frag1 0 5, ofDev dev1, ?_⟩; decide +kernel

theorem witness_FragmentsAreHeldDroppedOrAbort_2 : ∃ (port now c n : Nat) (h p : Bytes) (s : State), (s.dev.job (chJob h)).state ≠ .empty ∧ (s.devAt now).ctxFor h = some c ∧ (chKind h = 1 ∨ chKind h = 2) ∧ (chOp h = 1 ∨ chOp h = 2) ∧ (((s.dev.ctx c).state = .aborted ∨ (s.dev.ctx c).state = .resetting) ∧ n = 7 ∨ (s.dev.ctx c).abortable = true ∧ (genDrop (chGen h) (s.dev.ctx c).generation = some n ∨ (chGen h = (s.dev.ctx c).generation ∧ n = 3 ∧ chSeq h ≠ (s.dev.ctx c).sequence ∧ serialAfter 32 (chSeq h) (s.dev.ctx c).sequence = false) ∨ (chGen h = (s.dev.ctx c).generation ∧ n = 6 ∧ (chSeq h = (s.dev.ctx c).sequence ∨ serialAfter 32 (chSeq h) (s.dev.ctx c).sequence = true ∧ serialDist 32 (chSeq h) (s.dev.ctx c).sequence ≤ 3) ∧ (s.dev.ctx c).holds h = true ∧ (s.dev.job (chJob h)).fragStatus ((s.devAt now).bucketOf c) (s.dev.ctx c).frags port h p = none))) := by
  refine ⟨3, 0, 0, 5, frag1 1 5, zeros128, stJ run1 ctx1, ?_, ?_, ?_, ?_, ?_⟩ <;> decide +kernel

theorem witness_FragmentsAreHeldDroppedOrAbort_3 : ∃ (port now c st : Nat) (h p : Bytes) (s : State), (s.dev.job (chJob h)).state ≠ .empty ∧ (s.devAt now).ctxFor h = some c ∧ (chKind h = 1 ∨ chKind h = 2) ∧ (chOp h = 1 ∨ chOp h = 2) ∧ (s.dev.ctx c).abortable = true ∧ chGen h = (s.dev.ctx c).generation ∧ (s.dev.ctx c).bucket ≠ verdictBucket ∧ (serialAfter 32 (chSeq h) (s.dev.ctx c).sequence = true ∧ 3 < serialDist 32 (chSeq h) (s.dev.ctx c).sequence ∧ chSeq h ≠ (s.dev.ctx c).sequence ∧ st = stSeqWindow ∨ (chSeq h = (s.dev.ctx c).sequence ∨ serialAfter 32 (chSeq h) (s.dev.ctx c).sequence = true ∧ serialDist 32 (chSeq h) (s.dev.ctx c).sequence ≤ 3) ∧ ((s.dev.job (chJob h)).fragStatus ((s.devAt now).bucketOf c) (s.dev.ctx c).frags port h p = some st ∨ (s.dev.job (chJob h)).fragStatus ((s.devAt now).bucketOf c) (s.dev.ctx c).frags port h p = none ∧ (s.dev.ctx c).holds h = false ∧ ((s.devAt now).poolTake (.context (chJob h) (bkQuota ((s.devAt now).bucketOf c) * 1024)) (ctxHolder c) (fragItem h) (48 + p.length)).1 ≠ .taken ∧ (s.dev.job (chJob h)).spillRegion < s.dev.spilledBytes (chJob h) + (48 + p.length) ∧ st = stSpillFull)) := by
  refine ⟨3, 0, 0, stTreeUnexpected, mkContribution 1 1 0 0 0 0 5 0 0 1 0 0 0 1 (descHashOf 1 0 32 1 5) 32 0 32, zeros128, stJ run1 ctx1, ?_, ?_, ?_, ?_, ?_, ?_, ?_, ?_⟩ <;> decide +kernel

theorem witness_NoticesAbortNowOrLater_0 : ∃ (now c st : Nat) (h p : Bytes) (s : State), chKind h = 7 ∧ (s.dev.job (chJob h)).state ≠ .empty ∧ (chOp h = 1 ∨ chOp h = 2) ∧ (s.devAt now).ctxFor h = some c ∧ (s.dev.ctx c).abortable = true ∧ chGen h = (s.dev.ctx c).generation ∧ (s.dev.ctx c).bucket ≠ verdictBucket ∧ (noticeStatus h p = some st ∧ chSeq h = (s.dev.ctx c).sequence ∨ noticeStatus h p = none ∧ st = stCtxMalformed) := by
  refine ⟨0, 0, 0x030D, notice1 0 5, leBytes 8 0x030D, stJ run1 open1, ?_, ?_, ?_, ?_, ?_, ?_, ?_, ?_⟩ <;> decide +kernel

theorem witness_NoticesAbortNowOrLater_1 : ∃ (now c st : Nat) (h p : Bytes) (s : State), chKind h = 7 ∧ (s.dev.job (chJob h)).state ≠ .empty ∧ (chOp h = 1 ∨ chOp h = 2) ∧ (s.devAt now).ctxFor h = some c ∧ (s.dev.ctx c).abortable = true ∧ chGen h = (s.dev.ctx c).generation ∧ noticeStatus h p = some st ∧ serialAfter 32 (chSeq h) (s.dev.ctx c).sequence = true ∧ serialDist 32 (chSeq h) (s.dev.ctx c).sequence ≤ 3 ∧ chSeq h ≠ (s.dev.ctx c).sequence := by
  refine ⟨0, 0, 0x0301, notice1 0 8, leBytes 8 0x0301, stJ run1 open1, ?_, ?_, ?_, ?_, ?_, ?_, ?_, ?_, ?_, ?_⟩ <;> decide +kernel

theorem witness_NoticesAbortNowOrLater_2 : ∃ (now c st : Nat) (h p : Bytes) (s : State), chKind h = 7 ∧ (s.dev.job (chJob h)).state ≠ .empty ∧ (chOp h = 1 ∨ chOp h = 2) ∧ (s.devAt now).ctxFor h = some c ∧ (s.dev.ctx c).abortable = true ∧ chGen h = (s.dev.ctx c).generation ∧ noticeStatus h p = some st ∧ serialAfter 32 (chSeq h) (s.dev.ctx c).sequence = false ∧ chSeq h ≠ (s.dev.ctx c).sequence := by
  refine ⟨0, 0, 0x0301, notice1 0 4, leBytes 8 0x0301, stJ run1 open1, ?_, ?_, ?_, ?_, ?_, ?_, ?_, ?_, ?_⟩ <;> decide +kernel

theorem witness_NoticesAbortNowOrLater_3 : ∃ (now c n : Nat) (h : Bytes) (s : State), chKind h = 7 ∧ (s.dev.job (chJob h)).state ≠ .empty ∧ (chOp h = 1 ∨ chOp h = 2) ∧ (s.devAt now).ctxFor h = some c ∧ (((s.dev.ctx c).state = .aborted ∨ (s.dev.ctx c).state = .resetting) ∧ n = 7 ∨ (s.dev.ctx c).abortable = true ∧ genDrop (chGen h) (s.dev.ctx c).generation = some n) := by
  refine ⟨0, 0, 5, notice1 1 5, stJ run1 open1, ?_, ?_, ?_, ?_, ?_⟩ <;> decide +kernel

theorem witness_NoticesAbortNowOrLater_4 : ∃ (now n : Nat) (h : Bytes) (s : State), chKind h = 7 ∧ ((s.dev.job (chJob h)).state = .empty ∧ n = 1 ∨ (s.dev.job (chJob h)).state ≠ .empty ∧ n = 2 ∧ (¬ (chOp h = 1 ∨ chOp h = 2) ∨ (s.devAt now).ctxFor h = none)) := by
  refine ⟨0, 1, notice1 0 5, ofDev dev1, ?_, ?_⟩ <;> decide +kernel

theorem witness_UsesOpenHangAndRearm_UsesOpenWhenTheyMay_0 : ∃ (c now : Nat) (s : State), (s.devAt now).mayOpen c = true ∧ (s.devAt now).unitDown (s.dev.ctx c).basin = false := by
  refine ⟨0, 0, stJ { run1 with chSeq := [(0, 5)] } ctx1, ?_, ?_⟩ <;> decide +kernel

theorem witness_UsesOpenHangAndRearm_UsesOpenWhenTheyMay_1 : ∃ (c now : Nat) (s : State), (s.devAt now).mayOpen c = true ∧ (s.devAt now).unitDown (s.dev.ctx c).basin = true ∧ (s.dev.ctx c).bucket ≠ verdictBucket := by
  refine ⟨0, 0, ofDev { devJ { run1 with chSeq := [(0, 5)] } ctx1 with units := [(5, { state := .resetting })] }, ?_, ?_, ?_⟩ <;> decide +kernel

theorem witness_UsesOpenHangAndRearm_UsesOpenWhenTheyMay_2 : ∃ (c now : Nat) (s : State), (s.devAt now).mayOpen c = false := by
  refine ⟨0, 0, stJ { run1 with chSeq := [(0, 4)] } ctx1, ?_⟩; decide +kernel

theorem witness_UsesDrainAndCommit_0 : ∃ (c now : Nat) (s : State), (s.dev.ctx c).state = .opened ∧ (s.devAt now).computed c = true := by
  refine ⟨0, 0, stJ run1 { open1 with nodes := [root1] }, ?_, ?_⟩ <;> decide +kernel

theorem witness_UsesDrainAndCommit_1 : ∃ (c now : Nat) (s : State), ((s.dev.ctx c).state ≠ .opened ∨ (s.devAt now).computed c = false) := by
  refine ⟨0, 0, stJ run1 open1, ?_⟩; decide +kernel

theorem witness_UsesDrainAndCommit_2 : ∃ (c now : Nat) (s : State), (s.dev.ctx c).state = .draining ∧ ((s.dev.job (s.dev.ctx c).job).rootHere ((s.devAt now).bucketOf c) = false ∧ (s.devAt now).outputsSent c = true ∨ (s.dev.job (s.dev.ctx c).job).rootHere ((s.devAt now).bucketOf c) = true ∧ (s.dev.job (s.dev.ctx c).job).stopped = false ∧ ∃ v, (s.devAt now).rootVals c = some v ∧ ((s.dev.ctx c).bucket = verdictBucket ∨ ((s.dev.job (s.dev.ctx c).job).inflowAll ((s.devAt now).bucketOf c) (s.dev.ctx c).channel (s.dev.ctx c).sequence v).isSome = true)) ∧ (s.dev.ctx c).heldAborts = [] := by
  refine ⟨0, 0, stJ { run1 with recs := (0x107, nodeEntry 0 1 0xFF 3 0) :: recs1 } { drain1 with nodes := [{ root1 with node := 0, sent := true }] }, ?_, Or.inl (by decide +kernel), ?_⟩ <;> decide +kernel

theorem witness_UsesDrainAndCommit_3 : ∃ (c now : Nat) (s : State), ((s.dev.ctx c).state ≠ .draining ∨ (s.dev.job (s.dev.ctx c).job).rootHere ((s.devAt now).bucketOf c) = false ∧ (s.devAt now).outputsSent c = false ∨ (s.dev.job (s.dev.ctx c).job).rootHere ((s.devAt now).bucketOf c) = true ∧ ((s.dev.job (s.dev.ctx c).job).stopped = true ∨ (s.devAt now).rootVals c = none ∨ (s.dev.ctx c).bucket ≠ verdictBucket ∧ ∃ v, (s.devAt now).rootVals c = some v ∧ (s.dev.job (s.dev.ctx c).job).inflowAll ((s.devAt now).bucketOf c) (s.dev.ctx c).channel (s.dev.ctx c).sequence v = none)) := by
  exact ⟨0, 0, stJ { run1 with recs := (0x107, nodeEntry 0 1 0xFF 3 0) :: recs1 } { drain1 with nodes := [{ root1 with node := 0 }] }, Or.inr (Or.inl (by decide +kernel))⟩

theorem witness_UsesOpenHangAndRearm_HangAbortsAndResetArms_0 : ∃ (c now : Nat) (s : State), ((s.dev.ctx c).state = .opened ∨ (s.dev.ctx c).state = .draining) ∧ (s.dev.job (s.dev.ctx c).job).state ≠ .halted ∧ (s.dev.ctx c).openTick + (s.dev.job (s.dev.ctx c).job).hangTicks < (s.devAt now).time ∧ (s.dev.ctx c).bucket ≠ verdictBucket := by
  refine ⟨0, 0, ofDev { devJ run1 open1 with clock := { dev1.clock with time := 2500000001 } }, ?_, ?_, ?_, ?_⟩ <;> decide +kernel

theorem witness_UsesOpenHangAndRearm_HangAbortsAndResetArms_1 : ∃ (c now : Nat) (s : State), ((s.dev.job (s.dev.ctx c).job).state = .halted ∨ ((s.dev.ctx c).state ≠ .opened ∧ (s.dev.ctx c).state ≠ .draining) ∨ (s.devAt now).time ≤ (s.dev.ctx c).openTick + (s.dev.job (s.dev.ctx c).job).hangTicks) := by
  refine ⟨0, 0, ofDev { devJ run1 open1 with clock := { dev1.clock with time := 2500000000 } }, ?_⟩; decide +kernel

theorem witness_UsesOpenHangAndRearm_HangAbortsAndResetArms_2 : ∃ (c : Nat) (s : State), (s.dev.ctx c).state = .resetting := by
  refine ⟨0, stJ run1 { ctx1 with state := .resetting }, ?_⟩; decide +kernel

theorem witness_UsesOpenHangAndRearm_HangAbortsAndResetArms_3 : ∃ (c : Nat) (s : State), (s.dev.ctx c).state ≠ .resetting := by
  refine ⟨0, stJ run1 ctx1, ?_⟩; decide +kernel

theorem witness_ResultsAndWeightsAreTakenOrMissed_ResultsAndWeightsAreTaken_0 : ∃ (port now n : Nat) (r h p : Bytes) (c : Instr) (s : State), ((s.dev.job (ohJob h)).state = .empty ∧ n = 1 ∨ (s.dev.job (ohJob h)).state ≠ .empty ∧ n = 0x00A ∧ (ohKind h ≠ 0x12 ∧ c = .outflowRx port h p now r ∧ (outFormOk 0x11 h p && (s.dev.job (ohJob h)).hasFan (ohChannel h) 0) = false ∨ ohKind h = 0x12 ∧ c = .verdictResultRx port h p now r ∧ (outFormOk 0x12 h p && (s.dev.job (ohJob h)).hasFan (ohChannel h) 1 && (s.dev.job (ohJob h)).resultFits h) = false)) ∧ (c = .outflowRx port h p now r ∨ c = .verdictResultRx port h p now r) := by
  exact ⟨3, 0, 0x00A, [], mkOutflow 0x11 1 1 0 0 0 0 0 0 0 0 0 32 (leBytes 32 0), zeros128, .outflowRx 3 (mkOutflow 0x11 1 1 0 0 0 0 0 0 0 0 0 32 (leBytes 32 0)) zeros128 0 [], stJ run1 ctx1, Or.inr ⟨by decide +kernel, rfl, Or.inl ⟨by decide +kernel, rfl, by decide +kernel⟩⟩, Or.inl rfl⟩

theorem witness_ResultsAndWeightsAreTakenOrMissed_ResultsAndWeightsAreTaken_1 : ∃ (port now fan : Nat) (r h p : Bytes) (c : Instr) (s : State), (s.dev.job (ohJob h)).state ≠ .empty ∧ (fan = 0 ∧ c = .outflowRx port h p now r ∧ outFormOk 0x11 h p = true ∨ fan = 1 ∧ c = .verdictResultRx port h p now r ∧ outFormOk 0x12 h p = true ∧ (s.dev.job (ohJob h)).resultFits h = true) ∧ (s.dev.job (ohJob h)).hasFan (ohChannel h) fan = true := by
  refine ⟨3, 0, 0, [], mkOutflow 0x11 1 0 0 0 0 0 0 0 0 0 0 32 (leBytes 32 0), zeros128, .outflowRx 3 (mkOutflow 0x11 1 0 0 0 0 0 0 0 0 0 0 32 (leBytes 32 0)) zeros128 0 [], stJ run1 ctx1, ?_, Or.inl ⟨rfl, rfl, by decide +kernel⟩, ?_⟩ <;> decide +kernel

theorem witness_ResultsAndWeightsAreTakenOrMissed_ResultsAndWeightsAreTaken_2 : ∃ (h p : Bytes) (s : State), (s.dev.job (ohJob h)).state ≠ .empty ∧ outFormOk 0x12 h p = true ∧ (s.dev.job (ohJob h)).resultFits h = true ∧ (s.dev.job (ohJob h)).hasFan (ohChannel h) 1 = true ∧ (s.dev.job (ohJob h)).onList = true ∧ (s.dev.job (ohJob h)).resultFate h = .take ∧ (s.dev.job (ohJob h)).vres = none := by
  refine ⟨mkOutflow 0x12 1 1 0 0 0 7 0xFFFFF 0 0 0 0 4 (leBytes 32 0), leBytes 16 0, stJ { run1 with vseq := some (7, 0) } ctx1, ?_, ?_, ?_, ?_, ?_, ?_, ?_⟩ <;> decide +kernel

theorem witness_ResultsAndWeightsAreTakenOrMissed_ResultsAndWeightsAreTaken_3 : ∃ (n : Nat) (h p : Bytes) (s : State), (s.dev.job (ohJob h)).state ≠ .empty ∧ outFormOk 0x12 h p = true ∧ (s.dev.job (ohJob h)).resultFits h = true ∧ (s.dev.job (ohJob h)).hasFan (ohChannel h) 1 = true ∧ ((s.dev.job (ohJob h)).onList = false ∧ n = 0 ∨ (s.dev.job (ohJob h)).onList = true ∧ ((s.dev.job (ohJob h)).resultFate h = .stale ∧ n = 4 ∨ (s.dev.job (ohJob h)).resultFate h = .dup ∧ n = 6 ∨ (s.dev.job (ohJob h)).resultFate h = .drop ∧ n = 0)) := by
  refine ⟨4, mkOutflow 0x12 1 1 0 1 0 7 0xFFFFF 0 0 0 0 4 (leBytes 32 0), leBytes 16 0, stJ { run1 with vseq := some (7, 0) } ctx1, ?_, ?_, ?_, ?_, ?_⟩ <;> decide +kernel

theorem witness_ResultsAndWeightsAreTakenOrMissed_ResultsAndWeightsAreTaken_4 : ∃ (port now : Nat) (r h p : Bytes) (c : Instr) (s : State), (s.dev.job (ohJob h)).state ≠ .empty ∧ (ohKind h = 0x12 ∧ c = .outflowRx port h p now r ∨ ohKind h ≠ 0x12 ∧ c = .verdictResultRx port h p now r) := by
  refine ⟨3, 0, [], mkOutflow 0x12 1 1 0 0 0 7 0xFFFFF 0 0 0 0 4 (leBytes 32 0), zeros128, .outflowRx 3 (mkOutflow 0x12 1 1 0 0 0 7 0xFFFFF 0 0 0 0 4 (leBytes 32 0)) zeros128 0 [], stJ run1 ctx1, ?_, Or.inl ⟨by decide +kernel, rfl⟩⟩; decide +kernel

theorem witness_ResultsAndWeightsAreTakenOrMissed_MissingVerdictIsReportedOnce_0 : ∃ (j now : Nat) (b : Bytes) (s : State), (s.dev.job j).bucket verdictBucket = some b ∧ (s.dev.job j).onList = true ∧ (s.dev.job j).vres = none ∧ (s.dev.job j).state ≠ .halted ∧ (s.dev.job j).rcPhase = 2 ∧ (s.dev.job j).verdictRaised = false ∧ (s.dev.ctx (bkCtx b)).openTick + (s.dev.job j).hangTicks < (s.devAt now).time := by
  refine ⟨1, 0, bucketEntry 0xFFFF 1 1 0xFFFFF 32, ofDev { devJ { run1 with rcPhase := 2 } ctx1 with clock := { dev1.clock with time := 2500000001 } }, ?_, ?_, ?_, ?_, ?_, ?_, ?_⟩ <;> decide +kernel

theorem witness_ResultsAndWeightsAreTakenOrMissed_MissingVerdictIsReportedOnce_1 : ∃ (j now : Nat) (s : State), ((s.dev.job j).verdictRaised = true ∨ (s.dev.job j).onList = false ∨ (s.dev.job j).vres.isSome = true ∨ (s.dev.job j).state = .halted ∨ (s.dev.job j).rcPhase ≠ 2 ∨ (s.dev.job j).bucket verdictBucket = none ∨ ∃ b, (s.dev.job j).bucket verdictBucket = some b ∧ (s.devAt now).time ≤ (s.dev.ctx (bkCtx b)).openTick + (s.dev.job j).hangTicks) := by
  exact ⟨1, 0, stJ { run1 with verdictRaised := true } ctx1, Or.inl (by decide +kernel)⟩

theorem witness_InputsMeasureSlackOrAddLag_0 : ∃ (j i told arrival now release : Nat) (e : Bytes) (s : State), SlotDue (s.devAt now) j i 1 e ∧ (s.devAt now).rxArrival j i (tget 0 (s.dev.job j).acted i) told = some arrival ∧ release = (s.devAt now).slotTick j i + slLength e + slSlack e ∧ max arrival release ≤ (s.devAt now).tick := by
  refine ⟨1, 0, 0, 0, 0, 110, scSlot schedule1 0, stJ run1 open1, ⟨by decide +kernel, by decide +kernel, by decide +kernel, by decide +kernel, by decide +kernel, by decide +kernel⟩, ?_, ?_, ?_⟩ <;> decide +kernel

theorem witness_InputsMeasureSlackOrAddLag_1 : ∃ (j i told now : Nat) (e : Bytes) (s : State), SlotDue (s.devAt now) j i 1 e ∧ ((s.devAt now).rxArrival j i (tget 0 (s.dev.job j).acted i) told = none ∨ ∃ arrival, (s.devAt now).rxArrival j i (tget 0 (s.dev.job j).acted i) told = some arrival ∧ (s.devAt now).tick < max arrival ((s.devAt now).slotTick j i + slLength e + slSlack e)) := by
  exact ⟨1, 0, 0, 0, scSlot schedule1 0, stJ run1 ctx1, ⟨by decide +kernel, by decide +kernel, by decide +kernel, by decide +kernel, by decide +kernel, by decide +kernel⟩, Or.inl (by decide +kernel)⟩

theorem witness_InputsMeasureSlackOrAddLag_2 : ∃ (j i arrival now m release : Nat) (e : Bytes) (s : State), e = scSlot (s.dev.job j).sched i ∧ m = tget 0 (s.dev.job j).returned i ∧ (s.devAt now).slotActs j i 5 = true ∧ m < tget 0 (s.dev.job j).acted i ∧ (s.dev.job j).inOrder (resDie (slResource e)) ((s.dev.job j).roundStart i m + slPlace e true) = true ∧ release = (s.devAt now).releaseAt j i m ∧ max arrival release ≤ (s.devAt now).tick := by
  refine ⟨1, 4, 0, 0, 0, 1015, scSlot schedule1 4, stJ { upto 5 run1 with returned := [] } ctx1, ?_, ?_, ?_, ?_, ?_, ?_, ?_⟩ <;> decide +kernel

theorem witness_DepthsAccessesActOrReport_DepthsReadsReportTheirErrors_0 : ∃ (j i arrival now : Nat) (s : State), ((s.devAt now).slotActs j i 5 = false ∨ tget 0 (s.dev.job j).acted i ≤ tget 0 (s.dev.job j).returned i ∨ (s.devAt now).tick < max arrival ((s.devAt now).releaseAt j i (tget 0 (s.dev.job j).returned i))) := by
  refine ⟨1, 4, 100001, 0, stJ { upto 5 run1 with returned := [] } ctx1, ?_⟩; decide +kernel

theorem witness_DepthsAccessesActOrReport_DepthsReadsReportTheirErrors_1 : ∃ (j i arrival now m src : Nat) (ecc : EccResult) (e : Bytes) (s : State), e = scSlot (s.dev.job j).sched i ∧ m = tget 0 (s.dev.job j).returned i ∧ (s.devAt now).slotActs j i 5 = true ∧ m < tget 0 (s.dev.job j).acted i ∧ (s.dev.job j).inOrder (resDie (slResource e)) ((s.dev.job j).roundStart i m + slPlace e true) = true ∧ max arrival ((s.devAt now).releaseAt j i m) ≤ (s.devAt now).tick ∧ (ecc = .corrected ∧ src = 0x0601 ∨ ecc = .uncorrectable ∧ src = 0x0603 ∧ ∀ b, (s.dev.job j).bucket (slBucket e) = some b → bkBucket b = verdictBucket) ∧ (s.devAt now).mild src := by
  refine ⟨1, 4, 1015, 0, 0, 0x0601, .corrected, scSlot schedule1 4, stJ { upto 5 run1 with returned := [] } ctx1, ?_, ?_, ?_, ?_, ?_, ?_, Or.inl ⟨rfl, rfl⟩, mild_of _ _ (by decide +kernel)⟩ <;> decide +kernel

theorem witness_DepthsAccessesActOrReport_DepthsReadsReportTheirErrors_2 : ∃ (j i arrival now m : Nat) (e b : Bytes) (s : State), e = scSlot (s.dev.job j).sched i ∧ m = tget 0 (s.dev.job j).returned i ∧ (s.devAt now).slotActs j i 5 = true ∧ m < tget 0 (s.dev.job j).acted i ∧ (s.dev.job j).inOrder (resDie (slResource e)) ((s.dev.job j).roundStart i m + slPlace e true) = true ∧ max arrival ((s.devAt now).releaseAt j i m) ≤ (s.devAt now).tick ∧ (s.dev.job j).bucket (slBucket e) = some b ∧ bkBucket b ≠ verdictBucket ∧ (s.dev.ctx (bkCtx b)).bucket ≠ verdictBucket ∧ (s.dev.ctx (bkCtx b)).abortable = true ∧ (s.devAt now).effective ((s.devAt now).useFault 0x0602 (some (resUnit (slResource e))) (bkCtx b) stDepthsFault []) = 3 := by
  refine ⟨1, 4, 1015, 0, 0, scSlot schedule1 4, bucketEntry 0 0 0 0 32, stJ { upto 5 run1 with returned := [] } open1, ?_, ?_, ?_, ?_, ?_, ?_, ?_, ?_, ?_, ?_, ?_⟩ <;> decide +kernel

theorem witness_DepthsAccessesActOrReport_DepthsSlotsIssueAccesses_0 : ∃ (j i now kind : Nat) (e : Bytes) (c : Instr) (s : State), SlotDue (s.devAt now) j i kind e ∧ ((kind = 5 ∧ c = .hbmRdSlot j i now) ∨ (kind = 6 ∧ c = .hbmWrSlot j i now ∧ (s.devAt now).writes j e = none)) := by
  exact ⟨1, 4, 0, 5, scSlot schedule1 4, .hbmRdSlot 1 4 0, stJ (upto 4 run1) ctx1, ⟨by decide +kernel, by decide +kernel, by decide +kernel, by decide +kernel, by decide +kernel, by decide +kernel⟩, Or.inl ⟨rfl, rfl⟩⟩

theorem witness_DepthsAccessesActOrReport_DepthsSlotsIssueAccesses_1 : ∃ (j i now c : Nat) (e f b : Bytes) (v : List W32) (d : Dev) (s : State), e = scSlot (s.dev.job j).sched i ∧ (s.devAt now).writes j e = some (b, c) ∧ (s.devAt now).slotIn j i 6 (s.dev.ctx c).microBatch = some (f, d) ∧ (s.devAt now).rootVals c = some v ∧ (s.devAt now).slotDown e = false ∧ (s.dev.ctx c).state = .draining ∧ (s.dev.job j).inflowFree (s.dev.ctx c).channel (s.dev.ctx c).sequence (slChunk e) = true := by
  refine ⟨1, 5, 0, 0, scSlot schedule1 5, (slotOf ((devJ (upto 5 run1) drain1).slotIn 1 5 6 0)).1, bucketEntry 0 0 0 0 32, ((devJ (upto 5 run1) drain1).rootVals 0).getD [], (slotOf ((devJ (upto 5 run1) drain1).slotIn 1 5 6 0)).2, stJ (upto 5 run1) drain1, ?_, ?_, ?_, ?_, ?_, ?_, ?_⟩ <;> decide +kernel

theorem witness_DepthsAccessesActOrReport_DepthsSlotsIssueAccesses_2 : ∃ (j i now c : Nat) (e b : Bytes) (s : State), e = scSlot (s.dev.job j).sched i ∧ (s.devAt now).writes j e = some (b, c) ∧ ((s.devAt now).slotIn j i 6 (s.dev.ctx c).microBatch = none ∨ (s.devAt now).rootVals c = none ∨ (s.devAt now).slotDown e = true ∨ (s.dev.ctx c).state ≠ .draining ∨ (s.dev.job j).inflowFree (s.dev.ctx c).channel (s.dev.ctx c).sequence (slChunk e) = false) := by
  refine ⟨1, 5, 0, 0, scSlot schedule1 5, bucketEntry 0 0 0 0 32, stJ (upto 5 run1) open1, ?_, ?_, ?_⟩ <;> decide +kernel


/-! ### Slots of the tail, frames of the link, and waiting heads -/

def tx1 : Job := { run1 with recs := (0x107, nodeEntry 0 1 0xFF 3 1) :: recs1 }
def verdict1 : VerdictRes :=
  { outcome := 0, skips := [false], gsumsq := [0#32], wsumsq := [0#32], wamax := [0#32], globalSum := 0#32, clip := 0#32, scales := [0] }
def update1 : Job := { tail1 with rcPhase := 3, vres := some verdict1 }
/-- Sync frames of either type, with nothing else set. -/
def sync1 (typ : Nat) : Bytes := leBytes 48 typ
def offer1 : Offer := { key := 5, depth := 0, rackId := 0, rackDepth := 0, tick := 0 }
def stT (c : Clock) : State := ofDev { dev2 with clock := c }
/-- The info field of a lane of port 5 on device 9, under its CRC. -/
def info1 (lane : Nat) : Nat := let v := lane + 5 * 2 ^ 4 + 9 * 2 ^ 32; v + crc16 112 v * 2 ^ 112
def infos1 : List (Nat × Nat) := (List.range 8).map (fun l => (l, info1 l))
def stP97 (p : Port) : State := ofDev { dev2 with ports := [(97, p)] }
def wait1 : Waiting := { inPort := 97, inVc := 2, outPort := 96, outVc := 2, queue := 256, head := leBytes 64 0, flits := 1, arrive := 0, path := 96 }
def devW : Dev := { dev2 with ports := [(96, { state := .up }), (97, { state := .up, waiting := [wait1] })] }
def retained1 : Retained := { seq := 5, vc := 0, ftype := 1, data := leBytes 64 0, tick := 0 }
/-- A port entry of port 97: its address 02:…:61, fe80::1. -/
def ip1 : Bytes := leBytes 2 0x80FE ++ leBytes 13 0 ++ [1#8]
def mac1 : Bytes := leBytes 6 0x610000000002
def entry97 : Bytes := leBytes 1 97 ++ leBytes 1 0 ++ mac1 ++ leBytes 8 0 ++ ip1 ++ leBytes 16 0
def devE : Dev := { dev2 with image := [(0x11, linkConfig1), (0x13, entry97)], ports := [(97, { state := .up })] }
/-- An ICMPv6 Echo Request to that address. -/
def echo1 : Bytes := icmpFrame (leBytes 6 4) mac1 (leBytes 2 0x80FE ++ leBytes 13 0 ++ [2#8]) ip1 64 128 (leBytes 8 7)
def bist (u : Nat) (x : UnitSt) : State := ofDev { dev2 with units := [(u, x)] }
def session0 : Session := { session1 with rights := 0 }
def dev97 : Dev := { dev1 with ports := [(97, { state := .up })] }
/-- The tail of a step whose use's root values stand in their inflow slot. -/
def fold1 : Job := tail1.putInflow (bucketEntry 0 0 0 0 32) 0 5 0 (List.replicate 32 0#32)
def rdma1 : RdmaOut := { qp := 0, psn := 0, write := true, va := 0, bytes := [] }
def waitR : Waiting :=
  { inPort := 255, inVc := 1000, outPort := 96, outVc := 2, queue := 0, head := [], flits := 2, arrive := 0, path := 0, rdma := some rdma1, complete := true }
def devWR : Dev := { dev2 with ports := [(96, { state := .up, waiting := [waitR] })] }
/-- A load-balanced head of job 1 whose one path is port 96, which takes no encapsulated packets. -/
def waitB : Waiting := { wait1 with queue := 1, head := mkRoute clP2p 1 0 0 40 2 0 1 0, dlb := true }
def jobB : Job := { job1 with recs := (0x104, leBytes 4 0 ++ leBytes 4 1 ++ leBytes 8 96) :: recs1 }
def devWB : Dev := { devJ jobB ctx1 with ports := [(96, { state := .up }), (97, { state := .up, waiting := [waitB] })] }
/-- Port 97 with encapsulation, and a frame whose encapsulation header does not fit. -/
def entryX : Bytes := leBytes 1 97 ++ leBytes 1 1 ++ mac1 ++ leBytes 8 0 ++ ip1 ++ leBytes 16 0
def devX : Dev := { dev2 with image := [(0x11, linkConfig1), (0x13, entryX)], ports := [(97, { state := .up })] }
def encap1 : Bytes := mac1 ++ leBytes 6 4 ++ [0x86#8, 0xDD#8, 0x60#8] ++ leBytes 3 0 ++ [0#8, 10#8, 17#8, 64#8] ++ leBytes 16 0 ++ ip1 ++ leBytes 10 0

theorem witness_SectionsFollowEachOther_3 : ∃ (j lag now : Nat) (s : State) (x : Job), x = s.dev.job j ∧ x.live = true ∧ x.runSection = some .tail ∧
    lag = (s.devAt now).lagMax x := by
  refine ⟨1, ((stJ tail1 ctx1).devAt 0).lagMax tail1, 0, stJ tail1 ctx1, tail1, ?_, ?_, ?_, ?_⟩ <;> decide +kernel

theorem witness_SessionsAnswerTimeOutAndReport_ReadyWordsAreCoalesced_0 : ∃ (now b n : Nat) (s : State) (y : Session), s.dev.keeper.up = true ∧
    s.dev.keeper.readyTick = some b ∧ b + msTicks ≤ (s.devAt now).time ∧ s.dev.session n = some y ∧ y.confirmed = true ∧ y.ready = true ∧
    s.dev.darkPort y.port = false := by
  refine ⟨0, 5, 1, ofDev { dev1 with keeper := { keeper1 with readyTick := some 5, sessions := [{ session1 with ready := true }] }, clock := { time := 2500005 } },
    { session1 with ready := true }, ?_, ?_, ?_, ?_, ?_, ?_, ?_⟩ <;> decide +kernel

theorem witness_BasinSlotsComputeNodes_0 : ∃ (j i w off now c : Nat) (staging : EccResult) (u : Option Upset) (e f b : Bytes) (ks : List Kid) (d : Dev) (s : State), e = scSlot (s.dev.job j).sched i ∧ (s.dev.job j).bucket (slBucket e) = some b ∧ bkChannel b = slChannel e ∧ c = bkCtx b ∧ (s.devAt now).basinIdle c (tget 0 (s.dev.job j).acted i) = false ∧ (s.devAt now).slotIn j i 3 (s.dev.ctx c).round = some (f, d) ∧ (s.devAt now).mayCompute c w off = true ∧ (s.devAt now).kidsOf c w off = some ks ∧ ((s.devAt now).nodeValue c w off ks u).check = 0 ∧ (staging = .uncorrectable → (s.devAt now).stagedKid c off ks = false) := by
  refine ⟨1, 1, 1, 0, 0, 0, .clean, none, scSlot schedule1 1, (slotOf ((devJ (upto 1 run1) open1).slotIn 1 1 3 0)).1, bucketEntry 0 0 0 0 32, ((devJ (upto 1 run1) open1).kidsOf 0 1 0).getD [], (slotOf ((devJ (upto 1 run1) open1).slotIn 1 1 3 0)).2, stJ (upto 1 run1) open1, ?_, ?_, ?_, ?_, ?_, ?_, ?_, ?_, ?_, ?_⟩ <;> decide +kernel

theorem witness_BasinSlotsComputeNodes_1 : ∃ (j i now c : Nat) (e b : Bytes) (work : BasinWork) (s : State), e = scSlot (s.dev.job j).sched i ∧ (s.dev.job j).bucket (slBucket e) = some b ∧ bkChannel b = slChannel e ∧ c = bkCtx b ∧ (s.devAt now).basinIdle c (tget 0 (s.dev.job j).acted i) = false ∧ ((s.devAt now).slotIn j i 3 (s.dev.ctx c).round = none ∨ (∃ w off, work = .node w off ∧ ((s.devAt now).kidsOf c w off = none ∨ (s.devAt now).mayCompute c w off = false)) ∨ (∃ fs, work = .tile fs) ∧ ((s.dev.ctx c).state ≠ .opened ∨ (s.devAt now).unitDown (s.dev.ctx c).basin = true)) := by
  refine ⟨1, 1, 0, 0, scSlot schedule1 1, bucketEntry 0 0 0 0 32, .node 1 0, stJ (upto 1 run1) { open1 with frags := [] }, ?_, ?_, ?_, ?_, ?_, Or.inr (Or.inl ⟨1, 0, rfl, Or.inl (by decide +kernel)⟩)⟩ <;> decide +kernel

theorem witness_BasinSlotsComputeNodes_2 : ∃ (j i now c : Nat) (u : Option Upset) (e f b : Bytes) (fs : List (W32 × W32)) (d : Dev) (s : State), e = scSlot (s.dev.job j).sched i ∧ (s.dev.job j).bucket (slBucket e) = some b ∧ bkChannel b = slChannel e ∧ c = bkCtx b ∧ (s.devAt now).basinIdle c (tget 0 (s.dev.job j).acted i) = false ∧ (s.devAt now).slotIn j i 3 (s.dev.ctx c).round = some (f, d) ∧ (s.dev.ctx c).state = .opened ∧ (s.devAt now).unitDown (s.dev.ctx c).basin = false ∧ (tileSum (s.dev.job (s.dev.ctx c).job).ovf (u.map (fun y => (y.op, y.hit))) fs).ev.check = 0 := by
  refine ⟨1, 1, 0, 0, none, scSlot schedule1 1, (slotOf ((devJ (upto 1 run1) open1).slotIn 1 1 3 0)).1, bucketEntry 0 0 0 0 32, [(0x3F800000#32, 0x40000000#32)], (slotOf ((devJ (upto 1 run1) open1).slotIn 1 1 3 0)).2, stJ (upto 1 run1) open1, ?_, ?_, ?_, ?_, ?_, ?_, ?_, ?_, ?_⟩ <;> decide +kernel

theorem witness_BasinSlotsComputeNodes_3 : ∃ (j i now c src : Nat) (staging : EccResult) (u : Option Upset) (work : BasinWork) (e f b : Bytes) (d : Dev) (s : State), e = scSlot (s.dev.job j).sched i ∧ (s.dev.job j).bucket (slBucket e) = some b ∧ bkChannel b = slChannel e ∧ c = bkCtx b ∧ (s.devAt now).basinIdle c (tget 0 (s.dev.job j).acted i) = false ∧ (s.devAt now).slotIn j i 3 (s.dev.ctx c).round = some (f, d) ∧ (s.dev.ctx c).bucket ≠ verdictBucket ∧ ((∃ w off ks, work = .node w off ∧ (s.devAt now).mayCompute c w off = true ∧ (s.devAt now).kidsOf c w off = some ks ∧ (src = 0x0A02 ∧ staging = .uncorrectable ∧ (s.devAt now).stagedKid c off ks = true ∨ src = 0x0401 ∧ (staging = .uncorrectable → (s.devAt now).stagedKid c off ks = false) ∧ ((s.devAt now).nodeValue c w off ks u).check ≠ 0)) ∨ (∃ fs, work = .tile fs ∧ src = 0x0401 ∧ (s.dev.ctx c).state = .opened ∧ (s.devAt now).unitDown (s.dev.ctx c).basin = false ∧ (tileSum (s.dev.job (s.dev.ctx c).job).ovf (u.map (fun y => (y.op, y.hit))) fs).ev.check ≠ 0)) ∧ (∀ r : FaultRec, r.source = src → r.cleared = false → (s.devAt now).effective r = 3) := by
  refine ⟨1, 1, 0, 0, 0x0A02, .uncorrectable, none, .node 1 0, scSlot schedule1 1, (slotOf ((devJ (upto 1 run1) open1).slotIn 1 1 3 0)).1, bucketEntry 0 0 0 0 32, (slotOf ((devJ (upto 1 run1) open1).slotIn 1 1 3 0)).2, stJ (upto 1 run1) open1, ?_, ?_, ?_, ?_, ?_, ?_, ?_, Or.inl ⟨1, 0, ((devJ (upto 1 run1) open1).kidsOf 0 1 0).getD [], rfl, by decide +kernel, by decide +kernel, Or.inl ⟨rfl, rfl, by decide +kernel⟩⟩, (fun r hr hc => by rw [effective_calm _ r (by decide +kernel) hc, hr]; decide +kernel)⟩ <;> decide +kernel

theorem witness_BasinSlotsComputeNodes_4 : ∃ (j i now : Nat) (e : Bytes) (s : State), SlotDue (s.devAt now) j i 3 e ∧ (∀ b, (s.dev.job j).bucket (slBucket e) = some b → bkChannel b = slChannel e → (s.devAt now).basinIdle (bkCtx b) (tget 0 (s.dev.job j).acted i) = true) := by
  exact ⟨1, 1, 0, scSlot schedule1 1, stJ (upto 1 run1) { open1 with state := .aborted }, ⟨by decide +kernel, by decide +kernel, by decide +kernel, by decide +kernel, by decide +kernel, by decide +kernel⟩, of_some (y := bucketEntry 0 0 0 0 32) (by decide +kernel) (by decide +kernel)⟩

theorem witness_TxAndRngSlotsAct_TxSlotsSendWhatWaits_0 : ∃ (j i now p : Nat) (e : Bytes) (u : TxItem) (r : List TxItem) (d : Dev) (s : State), (s.devAt now).slotNow j i 2 = some (e, d) ∧ p = resUnit (slResource e) ∧ resClass (slResource e) = 1 ∧ s.dev.up p = true ∧ (s.devAt now).fabric p = true ∧ s.dev.darkPort p = false ∧ d.txItems j e = u :: r ∧ (∀ x ∈ u :: r, d.staleItem x = false) ∧ tget 0 (d.job j).moved i + flitsOf (d.txContent u).length ≤ slRoom e ∧ d.txMay j u = true := by
  refine ⟨1, 3, 0, 3, (slotOf ((devJ (upto 3 tx1) drain1).slotNow 1 3 2)).1, .node 0 1 0, [], (slotOf ((devJ (upto 3 tx1) drain1).slotNow 1 3 2)).2, stJ (upto 3 tx1) drain1, ?_, ?_, ?_, ?_, ?_, ?_, ?_, ?_, ?_, ?_⟩ <;> decide +kernel

theorem witness_TxAndRngSlotsAct_TxSlotsSendWhatWaits_1 : ∃ (j i now p : Nat) (e : Bytes) (d : Dev) (s : State), (s.devAt now).slotNow j i 2 = some (e, d) ∧ p = resUnit (slResource e) ∧ (d.txItems j e = [] ∨ resClass (slResource e) ≠ 1 ∨ s.dev.up p = false ∨ (s.devAt now).fabric p = false ∨ ∃ u r, d.txItems j e = u :: r ∧ (∀ x ∈ u :: r, d.staleItem x = false) ∧ (slRoom e < tget 0 (d.job j).moved i + flitsOf (d.txContent u).length ∨ d.txMay j u = false)) := by
  refine ⟨1, 3, 0, 3, (slotOf ((devJ (upto 3 run1) ctx1).slotNow 1 3 2)).1, (slotOf ((devJ (upto 3 run1) ctx1).slotNow 1 3 2)).2, stJ (upto 3 run1) ctx1, ?_, ?_, Or.inl (by decide +kernel)⟩ <;> decide +kernel

theorem witness_TxAndRngSlotsAct_TxSlotsSendWhatWaits_2 : ∃ (j i now : Nat) (s : State), (s.devAt now).slotNow j i 2 = none := by
  refine ⟨1, 3, 0, stJ run1 ctx1, ?_⟩; decide +kernel

theorem witness_TxAndRngSlotsAct_TxSlotsSendWhatWaits_3 : ∃ (j i now : Nat) (e : Bytes) (s : State), SlotDue (s.devAt now) j i 2 e := by
  exact ⟨1, 3, 0, scSlot schedule1 3, stJ (upto 3 run1) ctx1, ⟨by decide +kernel, by decide +kernel, by decide +kernel, by decide +kernel, by decide +kernel, by decide +kernel⟩⟩

theorem witness_TxAndRngSlotsAct_RngSlotsComputeOneBlock_0 : ∃ (j i now : Nat) (e : Bytes) (s : State), SlotDue (s.devAt now) j i 7 e := by
  exact ⟨1, 2, 0, scSlot schedule1 2, stJ (upto 2 run1) ctx1, ⟨by decide +kernel, by decide +kernel, by decide +kernel, by decide +kernel, by decide +kernel, by decide +kernel⟩⟩

theorem witness_TarnSlotsFoldUpdateAndSend_TarnSlotsFold_0 : ∃ (j i now c : Nat) (e f : Bytes) (vs : List W32) (d : Dev) (s : State), e = scSlot (s.dev.job j).sched i ∧ (s.devAt now).slotDown e = false ∧ (s.dev.job j).owned.contains (slChunk e) = true ∧ owStack ((s.dev.job j).chunk (slChunk e)) = resUnit (slResource e) ∧ (s.dev.job j).live = true ∧ (s.devAt now).foldCtx j e = some c ∧ (s.dev.ctx c).job = j ∧ (s.dev.ctx c).bucket ≠ verdictBucket ∧ (s.devAt now).slotIn j i 4 (s.dev.ctx c).round = some (f, d) ∧ (s.dev.job j).rootHere ((s.devAt now).bucketOf c) = true ∧ (s.devAt now).rootVals c = some vs ∧ (s.dev.ctx c).heldAborts = [] ∧ ((s.dev.job j).inflowAll ((s.devAt now).bucketOf c) (s.dev.ctx c).channel (s.dev.ctx c).sequence vs).isSome = true := by
  refine ⟨1, 6, 0, 0, scSlot schedule1 6, (slotOf ((devJ (upto 6 fold1) drain1).slotIn 1 6 4 0)).1, ((devJ (upto 6 fold1) drain1).rootVals 0).getD [], (slotOf ((devJ (upto 6 fold1) drain1).slotIn 1 6 4 0)).2, stJ (upto 6 fold1) drain1, ?_, ?_, ?_, ?_, ?_, ?_, ?_, ?_, ?_, ?_, ?_, ?_, ?_⟩ <;> decide +kernel

theorem witness_TarnSlotsFoldUpdateAndSend_TarnSlotsFold_1 : ∃ (j i now : Nat) (e : Bytes) (s : State), SlotDue (s.devAt now) j i 4 e ∧ (s.devAt now).foldCtx j e = none := by
  refine ⟨1, 6, 0, scSlot schedule1 6, stJ (upto 6 tail1) open1, ⟨by decide +kernel, by decide +kernel, by decide +kernel, by decide +kernel, by decide +kernel, by decide +kernel⟩, ?_⟩; decide +kernel

theorem witness_TarnSlotsFoldUpdateAndSend_TarnSlotsUpdateAndSend_0 : ∃ (j i now : Nat) (e f : Bytes) (r : VerdictRes) (d : Dev) (s : State), e = scSlot (s.dev.job j).sched i ∧ (s.devAt now).slotIn j i 4 0 = some (f, d) ∧ (s.devAt now).slotDown e = false ∧ (s.dev.job j).owned.contains (slChunk e) = true ∧ owStack ((s.dev.job j).chunk (slChunk e)) = resUnit (slResource e) ∧ (s.dev.job j).vres = some r ∧ (s.dev.job j).rcPhase = 3 ∧ (s.dev.job j).updated.contains (slChunk e) = false ∧ s.dev.power.cold = false := by
  refine ⟨1, 6, 0, scSlot schedule1 6, (slotOf ((devJ (upto 6 update1) ctx1).slotIn 1 6 4 0)).1, verdict1, (slotOf ((devJ (upto 6 update1) ctx1).slotIn 1 6 4 0)).2, stJ (upto 6 update1) ctx1, ?_, ?_, ?_, ?_, ?_, ?_, ?_, ?_, ?_⟩ <;> decide +kernel

theorem witness_TarnSlotsFoldUpdateAndSend_TarnSlotsUpdateAndSend_1 : ∃ (j i now : Nat) (e f : Bytes) (d : Dev) (s : State), e = scSlot (s.dev.job j).sched i ∧ (s.devAt now).slotIn j i 4 0 = some (f, d) ∧ (s.devAt now).slotDown e = false ∧ (s.dev.job j).owned.contains (slChunk e) = true ∧ owStack ((s.dev.job j).chunk (slChunk e)) = resUnit (slResource e) ∧ (s.dev.job j).live = true ∧ (s.dev.job j).vres.isSome = true ∧ (s.dev.job j).outFormed.contains (slChunk e) = false ∧ (s.dev.job j).outTurn (slChunk e) = true ∧ (∀ k ∈ (s.dev.job j).chunksOfTensor (owTensor ((s.dev.job j).chunk (slChunk e))), k ∈ (s.dev.job j).owned → k ∈ (s.dev.job j).updated) ∧ s.dev.power.cold = false := by
  refine ⟨1, 6, 0, scSlot schedule1 6, (slotOf ((devJ { upto 6 update1 with updated := [0], rcPhase := 4 } ctx1).slotIn 1 6 4 0)).1, (slotOf ((devJ { upto 6 update1 with updated := [0], rcPhase := 4 } ctx1).slotIn 1 6 4 0)).2, stJ { upto 6 update1 with updated := [0], rcPhase := 4 } ctx1, ?_, ?_, ?_, ?_, ?_, ?_, ?_, ?_, ?_, ?_, ?_⟩ <;> decide +kernel

theorem witness_TarnSlotsFoldUpdateAndSend_TarnSlotsUpdateAndSend_2 : ∃ (j i now : Nat) (e : Bytes) (work : TarnWork) (s : State), SlotDue (s.devAt now) j i 4 e ∧ ((s.dev.job j).owned.contains (slChunk e) = false ∨ owStack ((s.dev.job j).chunk (slChunk e)) ≠ resUnit (slResource e) ∨ (s.devAt now).slotDown e = true ∨ work = .update ∧ (s.dev.job j).vres.isSome = true ∧ (s.dev.job j).updated.contains (slChunk e) = true ∨ work = .outflow ∧ (s.dev.job j).outFormed.contains (slChunk e) = true) := by
  refine ⟨1, 6, 0, scSlot schedule1 6, .update, stJ { upto 6 update1 with updated := [0] } ctx1, ⟨by decide +kernel, by decide +kernel, by decide +kernel, by decide +kernel, by decide +kernel, by decide +kernel⟩, ?_⟩; decide +kernel

theorem witness_SyncFramesAreSentAndAnswered_0 : ∃ (p now : Nat) (s : State), (s.devAt now).reqIsDue p = true ∧ s.dev.darkPort p = false := by
  refine ⟨3, 0, stP { state := .calibrate }, ?_, ?_⟩ <;> decide +kernel

theorem witness_SyncFramesAreSentAndAnswered_1 : ∃ (p now : Nat) (s : State), (s.devAt now).reqIsDue p = false := by
  refine ⟨3, 0, stP { state := .up }, ?_⟩; decide +kernel

theorem witness_SyncFramesAreSentAndAnswered_2 : ∃ (p now : Nat) (b : Bytes) (s : State), (s.devAt now).syncs p = true ∧ s.dev.darkPort p = false ∧ sfBad b 1 = false := by
  refine ⟨3, 0, sync1 1, stP { state := .calibrate }, ?_, ?_, ?_⟩ <;> decide +kernel

theorem witness_SyncFramesAreSentAndAnswered_3 : ∃ (p now t2 t3 : Nat) (b : Bytes) (c : Instr) (s : State), (s.devAt now).syncs p = true ∧ (c = .syncReqRx p b t2 t3 now ∧ sfBad b 1 = true ∨ c = .syncRespRx p b t2 now ∧ sfBad b 2 = true) := by
  refine ⟨3, 0, 0, 0, sync1 2, .syncReqRx 3 (sync1 2) 0 0 0, stP { state := .up }, ?_, Or.inl ⟨rfl, by decide +kernel⟩⟩; decide +kernel

theorem witness_SyncFramesAreSentAndAnswered_4 : ∃ (p now n t2 t3 : Nat) (b : Bytes) (c : Instr) (s : State), (s.devAt now).syncs p = false ∧ (c = .syncPeriod p now n ∨ c = .syncReqRx p b t2 t3 now ∨ c = .syncRespRx p b n now) := by
  refine ⟨97, 0, 0, 0, 0, sync1 2, .syncRespRx 97 (sync1 2) 0 0, stP97 { state := .up }, ?_, Or.inr (Or.inr rfl)⟩; decide +kernel

theorem witness_SyncResponsesMeasureDelay_0 : ∃ (p now t4 : Nat) (b : Bytes) (s : State) (x : Nat) (del : Int), (s.devAt now).syncs p = true ∧ sfBad b 2 = false ∧ (s.dev.port p).sentT1 = some (sfSeq b, x) ∧ del = ((s.devAt now).exchange p b t4).1 := by
  refine ⟨3, 0, 9, sync1 2, stP { state := .up, sentT1 := some (0, 4) }, 4, ((stP { state := .up, sentT1 := some (0, 4) }).dev.exchange 3 (sync1 2) 9).1, ?_, ?_, ?_, ?_⟩ <;> decide +kernel

theorem witness_SyncResponsesMeasureDelay_1 : ∃ (p now : Nat) (b : Bytes) (s : State), (s.devAt now).syncs p = true ∧ sfBad b 2 = false ∧ (∀ q x, (s.dev.port p).sentT1 = some (q, x) → q ≠ sfSeq b) := by
  refine ⟨3, 0, sync1 2, stP { state := .up }, ?_, ?_, (fun q x h => of_none (by decide +kernel) h)⟩ <;> decide +kernel

theorem witness_TimeIsLostAndReturns_TimeIsLostInOrder_0 : ∃ (now : Nat) (s : State), s.dev.clock.state = .locked ∧ s.dev.clock.upstream < 96 ∧ s.dev.clock.respTick + 2 * Sys2Proof.Machine.syncPeriod ≤ (s.devAt now).time ∧ (∀ o ∈ s.dev.clock.offers, o.1 = s.dev.clock.upstream) ∧ (s.devAt now).ownKey = noKey := by
  refine ⟨0, stT { dev1.clock with state := .locked, upstream := 95, time := 526500, offers := [(95, offer1)] }, ?_, ?_, ?_, ?_, ?_⟩ <;> decide +kernel

theorem witness_TimeIsLostAndReturns_TimeIsLostInOrder_1 : ∃ (now : Nat) (s : State), s.dev.clock.spring = false ∧ s.dev.clock.adoptedKey ≠ noKey ∧ s.dev.clock.keyTick + 4 * Sys2Proof.Machine.syncPeriod ≤ (s.devAt now).time := by
  refine ⟨0, stT { dev1.clock with adoptedKey := 5, time := 1053000 }, ?_, ?_, ?_⟩ <;> decide +kernel

theorem witness_TimeIsLostAndReturns_TimeIsLostInOrder_2 : ∃ (now : Nat) (s : State), s.dev.clock.state = .holdover ∧ s.dev.clock.spring = false ∧ s.dev.clock.holdTick + secTicks ≤ (s.devAt now).time := by
  refine ⟨0, stT { dev1.clock with state := .holdover, time := 2500000000 }, ?_, ?_, ?_⟩ <;> decide +kernel

theorem witness_TimeIsLostAndReturns_TimeIsLostInOrder_3 : ∃ (now : Nat) (c : Instr) (s : State), ((c = .syncRespTimeout now ∧ ((s.devAt now).time < s.dev.clock.respTick + 2 * Sys2Proof.Machine.syncPeriod ∨ 96 ≤ s.dev.clock.upstream ∨ s.dev.clock.state ≠ .locked ∧ s.dev.clock.state ≠ .acquiring)) ∨ (c = .springLost now ∧ ((s.devAt now).time < s.dev.clock.keyTick + 4 * Sys2Proof.Machine.syncPeriod ∨ s.dev.clock.spring = true ∨ s.dev.clock.adoptedKey = noKey)) ∨ (c = .holdoverExpired now ∧ ((s.devAt now).time < s.dev.clock.holdTick + secTicks ∨ s.dev.clock.state ≠ .holdover))) := by
  exact ⟨0, .holdoverExpired 0, stT { dev1.clock with state := .holdover, time := 2499999999 }, Or.inr (Or.inr ⟨rfl, by decide +kernel⟩)⟩

theorem witness_TimeIsLostAndReturns_TimeIsLostInOrder_4 : ∃ (now : Nat) (s : State), s.dev.clock.state = .holdover ∧ s.dev.clock.spring = true ∧ s.dev.clock.pllLocked = true ∧ s.dev.clock.refOk = true ∧ s.dev.clock.holdTick + secTicks ≤ (s.devAt now).time := by
  refine ⟨0, stT { dev1.clock with state := .holdover, spring := true, pllLocked := true, refOk := true, time := 2500000000 }, ?_, ?_, ?_, ?_, ?_⟩ <;> decide +kernel

theorem witness_TimeIsLostAndReturns_ReferenceStopsAndReturns_1 : ∃ (s : State), s.dev.clock.refOk = false := by
  refine ⟨stT { dev1.clock with refOk := false }, ?_⟩; decide +kernel

theorem witness_TimeIsLostAndReturns_ReferenceStopsAndReturns_2 : ∃ (s : State), s.dev.clock.refOk = true := by
  refine ⟨stT { dev1.clock with refOk := true }, ?_⟩; decide +kernel

theorem witness_TimeIsLostAndReturns_ReferenceStopsAndReturns_4 : ∃ (now : Nat) (s : State), s.dev.clock.offers = [] ∧ (s.devAt now).ownKey < noKey ∧ s.dev.clock.refOk = true ∧ s.dev.clock.state = .invalid := by
  refine ⟨0, ofDev { dev1 with image := [(0x10, [1#8])] }, ?_, ?_, ?_, ?_⟩ <;> decide +kernel

theorem witness_TimeIsLostAndReturns_ReferenceStopsAndReturns_5 : ∃ (s : State), s.dev.power.refAbsent = true := by
  refine ⟨ofDev { dev1 with power := { released := true, refAbsent := true } }, ?_⟩; decide +kernel

theorem witness_TimeIsLostAndReturns_ReferenceStopsAndReturns_6 : ∃ (s : State), s.dev.power.refAbsent = false := by
  refine ⟨ofDev dev1, ?_⟩; decide +kernel

theorem witness_BringupFollowsTrainingFrames_0 : ∃ (p rings now : Nat) (s : State), (s.devAt now).bringsUp p = true ∧ (s.dev.port p).state = .txTune ∧ (s.devAt now).ringsNeeded p rings = true := by
  refine ⟨3, 255, 0, stP { state := .txTune }, ?_, ?_, ?_⟩ <;> decide +kernel

theorem witness_BringupFollowsTrainingFrames_1 : ∃ (p rings now : Nat) (s : State), ((s.dev.port p).state ≠ .txTune ∨ (s.devAt now).ringsNeeded p rings = false ∨ (s.devAt now).bringsUp p = false) := by
  refine ⟨3, 127, 0, stP { state := .txTune }, ?_⟩; decide +kernel

theorem witness_BringupFollowsTrainingFrames_2 : ∃ (p now n : Nat) (l g : List (Nat × Nat)) (s : State), (s.devAt now).fabric p = true ∧ (s.dev.port p).state = .acquire ∧ g = ((l.filter (fun e => !infoBad e.2)).filter (fun e => !(s.dev.port p).retired.contains (inLane e.2))) ∧ n = (if 8 ≤ g.length then (s.dev.port p).infoRun + 1 else 0) := by
  refine ⟨3, 0, 4, infos1, infos1, stP { state := .acquire, infoRun := 3 }, ?_, ?_, ?_, ?_⟩ <;> decide +kernel

theorem witness_BringupFollowsTrainingFrames_3 : ∃ (p skew now : Nat) (l g : List (Nat × Nat)) (s : State), (s.devAt now).fabric p = true ∧ (s.dev.port p).state = .identify ∧ g = ((l.filter (fun e => !infoBad e.2)).filter (fun e => !(s.dev.port p).retired.contains (inLane e.2))) ∧ 8 ≤ g.length ∧ (s.devAt now).mild 0x0102 ∧ (s.devAt now).identifyFault p g skew = none := by
  refine ⟨3, 512, 0, infos1, infos1, stP { state := .identify }, ?_, ?_, ?_, ?_, mild_of _ _ (by decide +kernel), ?_⟩ <;> decide +kernel

theorem witness_BringupFollowsTrainingFrames_4 : ∃ (p skew now c : Nat) (l g : List (Nat × Nat)) (s : State), (s.devAt now).fabric p = true ∧ (s.dev.port p).state = .identify ∧ g = ((l.filter (fun e => !infoBad e.2)).filter (fun e => !(s.dev.port p).retired.contains (inLane e.2))) ∧ 8 ≤ g.length ∧ (s.devAt now).mild 0x0101 ∧ (s.devAt now).identifyFault p g skew = some c := by
  refine ⟨3, 513, 0, 0x0D, infos1, infos1, stP { state := .identify }, ?_, ?_, ?_, ?_, mild_of _ _ (by decide +kernel), ?_⟩ <;> decide +kernel

theorem witness_BringupFollowsTrainingFrames_5 : ∃ (p now : Nat) (l g : List (Nat × Nat)) (s : State), (s.devAt now).fabric p = true ∧ (s.dev.port p).state = .identify ∧ g = ((l.filter (fun e => !infoBad e.2)).filter (fun e => !(s.dev.port p).retired.contains (inLane e.2))) ∧ g.length < 8 := by
  refine ⟨3, 0, [], [], stP { state := .identify }, ?_, ?_, ?_, ?_⟩ <;> decide +kernel

theorem witness_BringupFollowsTrainingFrames_6 : ∃ (p now n : Nat) (l g : List (Nat × Nat)) (s : State), (s.devAt now).fabric p = true ∧ (s.dev.port p).state = .handshake ∧ g = ((l.filter (fun e => !infoBad e.2)).filter (fun e => !(s.dev.port p).retired.contains (inLane e.2))) ∧ n = (if g.head?.any (fun i => inReady i.2) = true then (s.dev.port p).readyRun + 1 else 0) := by
  refine ⟨3, 0, 0, infos1, infos1, stP { state := .handshake }, ?_, ?_, ?_, ?_⟩ <;> decide +kernel

theorem witness_BringupTimesOut_0 : ∃ (p now n : Nat) (f : AcquireFinding) (c : Instr) (was st : LinkState) (causes : List Nat) (s : State), ((c = .txTuneTimeout p now ∧ was = .txTune ∧ n = 300 * msTicks ∧ st = .fault ∧ causes = [(s.devAt now).tuneCause p]) ∨ (c = .acquireTimeout p .noLight now ∧ was = .acquire ∧ n = 200 * msTicks ∧ st = .acquire ∧ causes = [0x01]) ∨ (c = .acquireTimeout p .swapped now ∧ was = .acquire ∧ n = 200 * msTicks ∧ st = .acquire ∧ causes = [0x02]) ∨ (c = .acquireTimeout p .modeMismatch now ∧ was = .acquire ∧ n = 200 * msTicks ∧ st = .acquire ∧ causes = [0x0E]) ∨ (c = .acquireTimeout p f now ∧ was = .acquire ∧ n = 200 * msTicks ∧ st = .acquire ∧ causes = [0x01, 0x02, 0x0E]) ∨ (c = .identifyTimeout p now ∧ was = .identify ∧ n = 10 * msTicks ∧ st = .fault ∧ causes = [0x04, 0x0D]) ∨ (c = .handshakeTimeout p now ∧ was = .handshake ∧ n = 100 * msTicks ∧ st = .acquire ∧ causes = [0x0C]) ∨ (c = .calibrateTimeout p now ∧ was = .calibrate ∧ n = msTicks ∧ st = .acquire ∧ causes = [0x11])) := by
  exact ⟨3, 0, 200 * msTicks, .swapped, .acquireTimeout 3 .swapped 0, .acquire, .acquire, [0x02], stP { state := .acquire }, Or.inr (Or.inr (Or.inl ⟨rfl, rfl, rfl, rfl, rfl⟩))⟩

theorem witness_EthernetPortsLockAndPortsRetrain_0 : ∃ (p now : Nat) (s : State), (s.devAt now).ethernet p = true ∧ (s.devAt now).bringsUp p = true ∧ ((s.dev.port p).state = .acquire ∨ (s.dev.port p).state = .handshake) := by
  refine ⟨97, 0, stP97 { state := .handshake }, ?_, ?_, ?_⟩ <;> decide +kernel

theorem witness_EthernetPortsLockAndPortsRetrain_1 : ∃ (p now : Nat) (locked fault : Bool) (st : LinkState) (s : State), (s.devAt now).ethernet p = true ∧ (s.devAt now).bringsUp p = true ∧ s.dev.up p = true ∧ (s.devAt now).mild 0x0101 ∧ (locked = false ∧ st = .acquire ∨ locked = true ∧ fault = true ∧ st = .handshake) := by
  refine ⟨97, 0, false, true, .acquire, ofDev dev97, ?_, ?_, ?_, mild_of _ _ (by decide +kernel), Or.inl ⟨rfl, rfl⟩⟩ <;> decide +kernel

theorem witness_EthernetPortsLockAndPortsRetrain_2 : ∃ (p now : Nat) (locked fault : Bool) (s : State), (s.devAt now).ethernet p = true ∧ (s.devAt now).bringsUp p = true ∧ (s.dev.up p = true ∧ locked = true ∧ fault = false ∨ (s.dev.port p).state = .txTune ∨ (s.dev.port p).state = .fault) := by
  refine ⟨97, 0, true, false, stP97 { state := .up }, ?_, ?_, ?_⟩ <;> decide +kernel

theorem witness_EthernetPortsLockAndPortsRetrain_3 : ∃ (p now : Nat) (s : State), ((s.devAt now).ethernet p = false ∨ (s.devAt now).bringsUp p = false ∨ (s.dev.port p).state = .disabled) := by
  refine ⟨3, 0, stP { state := .up }, ?_⟩; decide +kernel

theorem witness_EthernetPortsLockAndPortsRetrain_4 : ∃ (m : GmpMsg) (s : State) (x : Session), Served retrainRequest m x (s.devAt m.now) ∧ (s.devAt m.now).bringsUp (u8 m.body 0) = true ∧ (s.dev.port (u8 m.body 0)).state ≠ .disabled ∧ (s.dev.up (u8 m.body 0) = true → (s.devAt m.now).mild 0x0101) := by
  refine ⟨msg1 0x50 (leBytes 4 97), stP97 { state := .up }, session1, served1 _ _ _ (by decide +kernel), ?_, ?_, (fun _ => mild_of _ _ (by decide +kernel))⟩ <;> decide +kernel

theorem witness_LinksGoDown_0 : ∃ (p now : Nat) (s : State), s.dev.up p = true ∧ p < 98 ∧ (s.devAt now).mild 0x0101 := by
  refine ⟨97, 0, stP97 { state := .up }, ?_, ?_, mild_of _ _ (by decide +kernel)⟩ <;> decide +kernel

theorem witness_LinksGoDown_1 : ∃ (p : Nat) (s : State), s.dev.up p = false := by
  refine ⟨97, stP97 { state := .calibrate }, ?_⟩; decide +kernel

theorem witness_LinksGoDown_2 : ∃ (p now : Nat) (l : List (Nat × Nat)) (s : State), (s.devAt now).fabric p = true ∧ s.dev.up p = true ∧ ((s.dev.port p).rxSleep = 0 ∨ (if (s.dev.port p).rxSleep = 1 then 2 else 16) ≤ (s.dev.port p).rxExit) ∧ 2 ≤ l.length ∧ (s.devAt now).mild 0x0101 := by
  refine ⟨3, 0, [(0, info1 0), (1, info1 1)], stP { state := .up }, ?_, ?_, ?_, ?_, mild_of _ _ (by decide +kernel)⟩ <;> decide +kernel

theorem witness_LinksGoDown_3 : ∃ (p now : Nat) (s : State), (s.devAt now).fabric p = true ∧ s.dev.up p = true := by
  refine ⟨3, 0, stP { state := .up }, ?_, ?_⟩ <;> decide +kernel

theorem witness_LinksGoDown_4 : ∃ (p lane now : Nat) (s : State), (s.devAt now).fabric p = true ∧ s.dev.up p = true ∧ lane ≤ 8 ∧ (s.dev.port p).retired.contains lane = false ∧ (s.dev.port p).retired ≠ [] ∧ (s.devAt now).mild 0x0101 := by
  refine ⟨3, 8, 0, stP { state := .up, retired := [7] }, ?_, ?_, ?_, ?_, ?_, mild_of _ _ (by decide +kernel)⟩ <;> decide +kernel

theorem witness_LinksGoDown_5 : ∃ (p lane now : Nat) (s : State), (s.devAt now).fabric p = true ∧ s.dev.up p = true ∧ lane ≤ 8 ∧ (s.dev.port p).txLost.contains lane = false ∧ (s.dev.port p).txLost ≠ [] ∧ (s.devAt now).mild 0x0101 := by
  refine ⟨3, 8, 0, stP { state := .up, txBad := [0] }, ?_, ?_, ?_, ?_, ?_, mild_of _ _ (by decide +kernel)⟩ <;> decide +kernel

theorem witness_LanesAreSparedAndSleep_TheFirstBadLaneIsSpared_0 : ∃ (p lane now : Nat) (s : State), (s.devAt now).takesFlits p = true ∧ lane ≤ 8 ∧ (s.dev.port p).retired = [] ∧ (s.devAt now).mild 0x0104 := by
  refine ⟨3, 8, 0, stP { state := .up }, ?_, ?_, ?_, mild_of _ _ (by decide +kernel)⟩ <;> decide +kernel

theorem witness_LanesAreSparedAndSleep_TheFirstBadLaneIsSpared_1 : ∃ (p lane now : Nat) (s : State), (s.devAt now).takesFlits p = true ∧ lane ≤ 8 ∧ (s.dev.port p).txLost = [] ∧ (s.devAt now).mild 0x0104 := by
  refine ⟨3, 8, 0, stP { state := .calibrate }, ?_, ?_, ?_, mild_of _ _ (by decide +kernel)⟩ <;> decide +kernel

theorem witness_LanesAreSparedAndSleep_TheFirstBadLaneIsSpared_2 : ∃ (p lane now : Nat) (s : State), (s.devAt now).takesFlits p = true ∧ lane ≤ 8 ∧ (s.dev.port p).txLost.contains lane = true := by
  refine ⟨3, 8, 0, stP { state := .up, txBad := [8] }, ?_, ?_, ?_⟩ <;> decide +kernel

theorem witness_LanesAreSparedAndSleep_TheFirstBadLaneIsSpared_3 : ∃ (p lane now : Nat) (b : Bool) (s : State), ((s.devAt now).takesFlits p = false ∨ 8 < lane ∨ b = false ∧ (s.dev.port p).retired.contains lane = true) := by
  refine ⟨97, 8, 0, true, stP97 { state := .up }, ?_⟩; decide +kernel

theorem witness_LanesAreSparedAndSleep_LinksSleepAndWake_0 : ∃ (p level wake now : Nat) (s : State), (s.devAt now).fabric p = true ∧ s.dev.up p = true ∧ (s.dev.port p).txSleep = 0 ∧ (s.devAt now).maySleep p level ((s.devAt now).tick + 64) wake = true := by
  refine ⟨3, 1, 1088, 0, stP { state := .up, closed := 0x3FFFFFFF }, ?_, ?_, ?_, ?_⟩ <;> decide +kernel

theorem witness_LanesAreSparedAndSleep_LinksSleepAndWake_1 : ∃ (p level wake now : Nat) (s : State), ((s.devAt now).maySleep p level ((s.devAt now).tick + 64) wake = false ∨ (s.devAt now).fabric p = false ∨ s.dev.up p = false ∨ (s.dev.port p).txSleep ≠ 0) := by
  refine ⟨3, 1, 1087, 0, stP { state := .up, closed := 0x3FFFFFFF }, ?_⟩; decide +kernel

theorem witness_LanesAreSparedAndSleep_LinksSleepAndWake_2 : ∃ (p now : Nat) (s : State), (s.dev.port p).txSleep ≠ 0 ∧ (s.dev.port p).wakeTick ≤ (s.devAt now).tick + (if (s.dev.port p).txSleep = 1 then 128 else 1024) := by
  refine ⟨3, 0, stP { state := .up, txSleep := 1, wakeTick := 128 }, ?_, ?_⟩ <;> decide +kernel

theorem witness_LanesAreSparedAndSleep_LinksSleepAndWake_3 : ∃ (p now : Nat) (s : State), ((s.dev.port p).txSleep = 0 ∨ (s.devAt now).tick + (if (s.dev.port p).txSleep = 1 then 128 else 1024) < (s.dev.port p).wakeTick) := by
  refine ⟨3, 0, stP { state := .up, txSleep := 1, wakeTick := 129 }, ?_⟩; decide +kernel

theorem witness_HeadroomAndOneLineAreReported_HeadroomIsMeasured_0 : ∃ (p now least : Nat) (tx rx powers : List (Nat × Nat)) (rings : Table Nat) (s : State), powers = ringPowers tx rx ∧ (s.dev.port p).state ≠ .disabled ∧ s.dev.power.heatersOff = false ∧ (s.devAt now).ownRings p powers ≠ [] ∧ (∀ e ∈ (s.devAt now).ownRings p powers, 0 < e.2 ∧ e.2 < heaterMax) ∧ (s.devAt now).mild 0x0207 ∧ rings = (s.devAt now).ringsAfter p powers ∧ least = min (leastWarm rings) (leastCool rings) := by
  refine ⟨3, 0, min (leastWarm ((stP { state := .up }).dev.ringsAfter 3 [(0, 100)])) (leastCool ((stP { state := .up }).dev.ringsAfter 3 [(0, 100)])), [(0, 100)], [], [(0, 100)], ((stP { state := .up }).dev.ringsAfter 3 [(0, 100)]), stP { state := .up }, ?_, ?_, ?_, ?_, ?_, mild_of _ _ (by decide +kernel), ?_, ?_⟩ <;> decide +kernel

theorem witness_HeadroomAndOneLineAreReported_HeadroomIsMeasured_1 : ∃ (p now lane power : Nat) (tx rx : List (Nat × Nat)) (s : State), (s.devAt now).ownRings p (ringPowers tx rx) = [(lane, power)] ∧ (power = 0 ∨ heaterMax ≤ power) ∧ lane < 9 ∧ (s.devAt now).takesFlits p = true ∧ s.dev.power.heatersOff = false ∧ (s.dev.port p).txLost = [] ∧ (s.devAt now).mild 0x0207 ∧ (s.devAt now).mild 0x0104 := by
  refine ⟨3, 0, 8, 0, [(8, 0)], [], stP { state := .up }, ?_, ?_, ?_, ?_, ?_, ?_, mild_of _ _ (by decide +kernel), mild_of _ _ (by decide +kernel)⟩ <;> decide +kernel

theorem witness_HeadroomAndOneLineAreReported_HeadroomIsMeasured_2 : ∃ (p now : Nat) (tx rx : List (Nat × Nat)) (s : State), ((s.devAt now).ownRings p (ringPowers tx rx) = [] ∨ (s.dev.port p).state = .disabled ∨ s.dev.power.heatersOff = true) := by
  refine ⟨3, 0, [], [], stP { state := .up }, ?_⟩; decide +kernel

theorem witness_FeedFaultsTakeThePortDown_0 : ∃ (p now lines line power src cause : Nat) (c : Instr) (f : Port → Port) (s : State), (s.devAt now).feedWatched p = true ∧ ((c = .laserFeedLost p now ∧ src = 0x0201 ∧ cause = 0x06 ∧ f = fun x => { x with feedState := 3, lines := 0, feedPower := 0x8000 }) ∨ (c = .laserLinesMissing p lines power now ∧ (s.devAt now).fabric p = true ∧ src = 0x0203 ∧ cause = 0x07 ∧ f = fun x => { x with lines := lines % 512, feedPower := power % 65536 }) ∨ (c = .laserLineMissing p line power now ∧ (s.devAt now).fabric p = true ∧ line ≤ 8 ∧ bit (s.dev.port p).feedLines line = true ∧ (s.dev.port p).feedLines ≠ 511 ∧ src = 0x0203 ∧ cause = 0x07 ∧ f = fun x => { x with lines := ((s.dev.port p).feedLines - 2 ^ line) % 512, feedPower := power % 65536 }) ∨ (c = .laserPolarization p now ∧ src = 0x0204 ∧ cause = 0x08 ∧ f = fun x => { x with feedState := 1 }) ∨ (c = .laserPlanMismatch p now ∧ (s.dev.port p).state = .txTune ∧ src = 0x0205 ∧ cause = 0x09 ∧ f = fun x => { x with feedState := 2 })) ∧ (s.devAt now).mild src ∧ (s.dev.up p = true → (s.devAt now).mild 0x0101) := by
  refine ⟨3, 0, 0, 0, 0, 0x0201, 0x06, .laserFeedLost 3 0, (fun x => { x with feedState := 3, lines := 0, feedPower := 0x8000 }), stP { state := .up }, ?_, Or.inl ⟨rfl, rfl, rfl, rfl⟩, mild_of _ _ (by decide +kernel), (fun _ => mild_of _ _ (by decide +kernel))⟩; decide +kernel

theorem witness_FeedFaultsTakeThePortDown_1 : ∃ (p now lines power : Nat) (c : Instr) (s : State), ((s.devAt now).feedWatched p = false ∧ (c = .laserFeedLost p now ∨ c = .laserLinesMissing p lines power now ∨ c = .laserPolarization p now ∨ c = .laserPlanMismatch p now ∨ c = .laserLineMissing p lines power now ∨ c = .laserPowerHigh p power now) ∨ (s.devAt now).fabric p = false ∧ (c = .laserLinesMissing p lines power now ∨ c = .laserLineMissing p lines power now) ∨ (8 < lines ∨ bit (s.dev.port p).feedLines lines = false) ∧ c = .laserLineMissing p lines power now ∨ (s.dev.port p).state ≠ .txTune ∧ c = .laserPlanMismatch p now) := by
  exact ⟨98, 0, 0, 0, .laserFeedLost 98 0, stP { state := .up }, Or.inl ⟨by decide +kernel, Or.inl rfl⟩⟩

theorem witness_HeadroomAndOneLineAreReported_OneLineMissingIsSpared_0 : ∃ (p line now : Nat) (s : State), (s.devAt now).fabric p = true ∧ (s.devAt now).feedWatched p = true ∧ line ≤ 8 ∧ (s.dev.port p).feedLines = 511 ∧ (s.dev.port p).txLost = [] ∧ (s.devAt now).mild 0x0202 ∧ (s.devAt now).mild 0x0104 := by
  refine ⟨3, 8, 0, stP { state := .up, lines := 511 }, ?_, ?_, ?_, ?_, ?_, mild_of _ _ (by decide +kernel), mild_of _ _ (by decide +kernel)⟩ <;> decide +kernel

theorem witness_HeadroomAndOneLineAreReported_OneLineMissingIsSpared_1 : ∃ (p now : Nat) (s : State), (s.devAt now).feedWatched p = true ∧ (s.devAt now).mild 0x0206 := by
  refine ⟨3, 0, stP { state := .up }, ?_, mild_of _ _ (by decide +kernel)⟩; decide +kernel

theorem witness_LinkFramesCrossTheLink_LinkFramesAreReceived_0 : ∃ (p now : Nat) (corrected : List Nat) (s : State), (s.devAt now).takesFlits p = true ∧ (s.dev.port p).windowFrames < 65536 ∧ (∀ l, l < 9 → tget 0 (s.dev.port p).corrWindow l + corrected.getD l 0 ≤ 2048) ∧ (s.devAt now).mild 0x0103 := by
  refine ⟨3, 0, List.replicate 9 2048, stP { state := .up, windowFrames := 65535 }, ?_, ?_, ?_, mild_of _ _ (by decide +kernel)⟩ <;> decide +kernel

theorem witness_LinkFramesCrossTheLink_LinkFramesAreReceived_1 : ∃ (p now : Nat) (h : Bytes) (s : State), (s.devAt now).fabric p = true ∧ (s.dev.port p).state = .handshake ∧ (s.dev.port p).countdown ≠ 0 ∧ frameBad h = false ∧ (s.devAt now).mild 0x0103 := by
  refine ⟨3, 0, dev1.frameHeader 3 0 0, stP { state := .handshake, countdown := 1 }, ?_, ?_, ?_, ?_, mild_of _ _ (by decide +kernel)⟩ <;> decide +kernel

theorem witness_LinkFramesCrossTheLink_LinkFramesAreReceived_2 : ∃ (p now : Nat) (s : State), (s.devAt now).takesFlits p = false ∧ ((s.dev.port p).state ≠ .handshake ∨ (s.devAt now).fabric p = false ∨ (s.dev.port p).countdown = 0) := by
  refine ⟨97, 0, stP97 { state := .up }, ?_, ?_⟩ <;> decide +kernel

theorem witness_LinkFramesCrossTheLink_LinkFramesAreSent_0 : ∃ (p now : Nat) (cell : EccResult) (s : State), (s.devAt now).sendsFrames p = true ∧ s.dev.darkPort p = false ∧ (cell = .uncorrectable → (s.devAt now).mild 0x0A03) := by
  refine ⟨3, 0, .clean, stP { state := .up }, ?_, ?_, (fun h => nomatch h)⟩ <;> decide +kernel

theorem witness_LinkFramesCrossTheLink_LinkFramesAreSent_1 : ∃ (p now : Nat) (s : State), (s.devAt now).sendsFrames p = false := by
  refine ⟨97, 0, stP97 { state := .up }, ?_⟩; decide +kernel

theorem witness_DataFlitsComeInOrder_0 : ∃ (p slot tr now : Nat) (s : State), (s.devAt now).takesFlits p = true ∧ (s.dev.port p).damaged.contains slot = false ∧ trBad tr = false ∧ trType tr ≠ 0 ∧ trType tr ≠ 5 ∧ trSeq tr = (s.dev.port p).rxExpected := by
  refine ⟨3, 74, 1 + 64 * 16777215, 0, stP { state := .up, rxExpected := 16777215 }, ?_, ?_, ?_, ?_, ?_, ?_⟩ <;> decide +kernel

theorem witness_DataFlitsComeInOrder_1 : ∃ (p slot tr now : Nat) (s : State), (s.devAt now).takesFlits p = true ∧ (s.dev.port p).damaged.contains slot = false ∧ trBad tr = false ∧ trType tr ≠ 0 ∧ trType tr ≠ 5 ∧ trSeq tr ≠ (s.dev.port p).rxExpected ∧ serialAfter 24 (trSeq tr) (s.dev.port p).rxExpected = false := by
  refine ⟨3, 74, 1 + 64 * 4, 0, stP { state := .up, rxExpected := 5 }, ?_, ?_, ?_, ?_, ?_, ?_, ?_⟩ <;> decide +kernel

theorem witness_DataFlitsComeInOrder_2 : ∃ (p slot tr now : Nat) (x : Bytes) (c : Instr) (s : State), (s.devAt now).takesFlits p = true ∧ (((s.dev.port p).damaged.contains slot = true ∨ trBad tr = true) ∧ (c = .dataFlitRx p slot tr x now ∨ c = .ctrlFlitRx p slot tr x now) ∨ c = .dataFlitRx p slot tr x now ∧ trBad tr = false ∧ trType tr ≠ 0 ∧ trType tr ≠ 5 ∧ trSeq tr ≠ (s.dev.port p).rxExpected ∧ serialAfter 24 (trSeq tr) (s.dev.port p).rxExpected = true) := by
  refine ⟨3, 74, 1 + 64 * 6, 0, leBytes 64 0, .dataFlitRx 3 74 (1 + 64 * 6) (leBytes 64 0) 0, stP { state := .up, rxExpected := 5 }, ?_, Or.inr ⟨rfl, by decide +kernel, by decide +kernel, by decide +kernel, by decide +kernel, by decide +kernel⟩⟩; decide +kernel

theorem witness_DataFlitsComeInOrder_3 : ∃ (p slot tr now : Nat) (x : Bytes) (c : Instr) (s : State), (c = .dataFlitRx p slot tr x now ∨ c = .ctrlFlitRx p slot tr x now) ∧ ((s.devAt now).takesFlits p = false ∨ (s.dev.port p).damaged.contains slot = false ∧ trBad tr = false ∧ (c = .dataFlitRx p slot tr x now ∧ (trType tr = 0 ∨ trType tr = 5) ∨ c = .ctrlFlitRx p slot tr x now ∧ trType tr ≠ 5)) := by
  exact ⟨97, 0, 1, 0, leBytes 64 0, .dataFlitRx 97 0 1 (leBytes 64 0) 0, stP97 { state := .up }, Or.inl rfl, Or.inl (by decide +kernel)⟩

theorem witness_RetryFreesReplaysAndGivesUp_0 : ∃ (p slot tr now : Nat) (x : Bytes) (s : State), (s.devAt now).takesFlits p = true ∧ (s.dev.port p).damaged.contains slot = false ∧ trBad tr = false ∧ trType tr = 5 ∧ u8 x 0 = 1 ∧ bit (u8 x 1) 0 = false := by
  refine ⟨3, 0, 5, 0, leBytes 64 1, stP { state := .up }, ?_, ?_, ?_, ?_, ?_, ?_⟩ <;> decide +kernel

theorem witness_RetryFreesReplaysAndGivesUp_1 : ∃ (p slot tr now e : Nat) (x : Bytes) (s : State), (s.devAt now).takesFlits p = true ∧ (s.dev.port p).damaged.contains slot = false ∧ trBad tr = false ∧ trType tr = 5 ∧ u8 x 0 = 1 ∧ bit (u8 x 1) 0 = true ∧ e = bits (fld x 4 4) 23 0 ∧ (s.dev.port p).retained.filter (fun r => !serialAfter 24 e r.seq) ≠ [] ∧ (s.dev.port p).replays = 0 := by
  refine ⟨3, 0, 5, 0, 5, leBytes 64 0x500000101, stP { state := .up, retained := [retained1] }, ?_, ?_, ?_, ?_, ?_, ?_, ?_, ?_, ?_⟩ <;> decide +kernel

theorem witness_RetryFreesReplaysAndGivesUp_2 : ∃ (p slot tr now e : Nat) (x : Bytes) (s : State), (s.devAt now).takesFlits p = true ∧ (s.dev.port p).damaged.contains slot = false ∧ trBad tr = false ∧ trType tr = 5 ∧ u8 x 0 = 1 ∧ bit (u8 x 1) 0 = true ∧ e = bits (fld x 4 4) 23 0 ∧ (s.dev.port p).retained.filter (fun r => !serialAfter 24 e r.seq) = (s.dev.port p).retained ∧ (s.dev.port p).replays ≠ 0 := by
  refine ⟨3, 0, 5, 0, 0, leBytes 64 0x101, stP { state := .up, replays := 1 }, ?_, ?_, ?_, ?_, ?_, ?_, ?_, ?_, ?_⟩ <;> decide +kernel

theorem witness_RetryFreesReplaysAndGivesUp_3 : ∃ (p slot tr now : Nat) (x : Bytes) (s : State), (s.devAt now).takesFlits p = true ∧ (s.dev.port p).damaged.contains slot = false ∧ trBad tr = false ∧ trType tr = 5 ∧ u8 x 0 ≠ 1 := by
  refine ⟨3, 0, 5, 0, leBytes 64 2, stP { state := .up }, ?_, ?_, ?_, ?_, ?_⟩ <;> decide +kernel

theorem witness_RetryFreesReplaysAndGivesUp_4 : ∃ (p now : Nat) (r : Retained) (l : List Retained) (s : State), (s.dev.port p).retained = r :: l ∧ max r.tick (s.dev.port p).ackTick + (s.devAt now).retryTicks p ≤ (s.devAt now).tick ∧ (s.dev.port p).replays < 8 := by
  refine ⟨3, 0, retained1, [], ofDev { devJ job1 ctx1 with ports := [(3, { state := .up, retained := [retained1], replays := 7, ackTick := 98500 })] }, ?_, ?_, ?_⟩ <;> decide +kernel

theorem witness_RetryFreesReplaysAndGivesUp_5 : ∃ (p now : Nat) (r : Retained) (l : List Retained) (s : State), (s.dev.port p).retained = r :: l ∧ max r.tick (s.dev.port p).ackTick + (s.devAt now).retryTicks p ≤ (s.devAt now).tick ∧ 8 ≤ (s.dev.port p).replays ∧ s.dev.up p = true ∧ (s.devAt now).mild 0x0101 := by
  refine ⟨3, 0, retained1, [], ofDev { devJ job1 ctx1 with ports := [(3, { state := .up, retained := [retained1], replays := 8, ackTick := 98500 })] }, ?_, ?_, ?_, ?_, mild_of _ _ (by decide +kernel)⟩ <;> decide +kernel

theorem witness_RetryFreesReplaysAndGivesUp_6 : ∃ (p now : Nat) (s : State), ((s.dev.port p).retained = [] ∨ ∃ r l, (s.dev.port p).retained = r :: l ∧ (s.devAt now).tick < max r.tick (s.dev.port p).ackTick + (s.devAt now).retryTicks p) := by
  exact ⟨3, 0, ofDev { devJ job1 ctx1 with ports := [(3, { state := .up, retained := [retained1], ackTick := 98501 })] }, Or.inr ⟨retained1, [], by decide +kernel, by decide +kernel⟩⟩

theorem witness_HeadsOpenAndStart_HeadsOpenTheirPackets_0 : ∃ (p v now : Nat) (h : Bytes) (s : State), s.dev.up p = true ∧ (s.devAt now).rxFate p v = none ∧ 2 ≤ flitsOf (rhLength h) := by
  refine ⟨3, 5, 0, leBytes 6 0 ++ leBytes 58 49, stP { state := .up }, ?_, ?_, ?_⟩ <;> decide +kernel

theorem witness_HeadsOpenAndStart_HeadsOpenTheirPackets_1 : ∃ (p v now : Nat) (h : Bytes) (s : State), s.dev.up p = true ∧ (s.devAt now).rxFate p v = none ∧ flitsOf (rhLength h) = 1 := by
  refine ⟨3, 5, 0, leBytes 64 0, stP { state := .up }, ?_, ?_, ?_⟩ <;> decide +kernel

theorem witness_HeadsOpenAndStart_HeadsOpenTheirPackets_2 : ∃ (p ftype : Nat) (s : State), s.dev.up p = true ∧ (ftype = 1 ∨ ftype = 4) := by
  refine ⟨3, 1, stP { state := .up }, ?_, ?_⟩ <;> decide +kernel

theorem witness_HeadsOpenAndStart_HeadsOpenTheirPackets_3 : ∃ (p ftype : Nat) (s : State), (s.dev.up p = false ∨ (ftype ≠ 1 ∧ ftype ≠ 4)) := by
  refine ⟨3, 5, stP { state := .up }, ?_⟩; decide +kernel

theorem witness_HeadsOpenAndStart_HeadsStartOnTheirOutputs_0 : ∃ (p v a now : Nat) (w : Waiting) (d : Dev) (s : State), s.dev.up p = true ∧ s.dev.faults.held = false ∧ d = ((s.devAt now).pullTo p).dropStaleHeads p v ∧ d.winner p v = some (a, w) ∧ w.rdma = none ∧ (w.dlb = true → d.ethRefuses p w.head = none) := by
  refine ⟨96, 2, 97, 0, wait1, ((devW.pullTo 96).dropStaleHeads 96 2), ofDev devW, ?_, ?_, ?_, ?_, ?_, ?_⟩ <;> decide +kernel

theorem witness_HeadsOpenAndStart_HeadsStartOnTheirOutputs_1 : ∃ (p v a now : Nat) (w : Waiting) (r : RdmaOut) (q : Qp) (d : Dev) (s : State), s.dev.up p = true ∧ s.dev.faults.held = false ∧ d = ((s.devAt now).pullTo p).dropStaleHeads p v ∧ d.winner p v = some (a, w) ∧ w.rdma = some r ∧ w.dlb = false ∧ s.dev.darkPort p = false ∧ q = tget Qp.none s.dev.keeper.qps r.qp := by
  refine ⟨96, 2, 96, 0, waitR, rdma1, Qp.none, ((devWR.pullTo 96).dropStaleHeads 96 2), ofDev devWR, ?_, ?_, ?_, ?_, ?_, ?_, ?_, ?_⟩ <;> decide +kernel

theorem witness_HeadsOpenAndStart_HeadsStartOnTheirOutputs_2 : ∃ (p v a now c : Nat) (w : Waiting) (d : Dev) (s : State), s.dev.up p = true ∧ s.dev.faults.held = false ∧ d = ((s.devAt now).pullTo p).dropStaleHeads p v ∧ d.winner p v = some (a, w) ∧ w.dlb = true ∧ d.ethRefuses p w.head = some c := by
  refine ⟨96, 2, 97, 0, 0x2D, waitB, ((devWB.pullTo 96).dropStaleHeads 96 2), ofDev devWB, ?_, ?_, ?_, ?_, ?_, ?_⟩ <;> decide +kernel

theorem witness_HeadsOpenAndStart_HeadsStartOnTheirOutputs_3 : ∃ (p v now : Nat) (d : Dev) (s : State), s.dev.up p = true ∧ s.dev.faults.held = false ∧ d = ((s.devAt now).pullTo p).dropStaleHeads p v ∧ d.winner p v = none := by
  refine ⟨96, 3, 0, ((devW.pullTo 96).dropStaleHeads 96 3), ofDev devW, ?_, ?_, ?_, ?_⟩ <;> decide +kernel

theorem witness_HeadsOpenAndStart_HeadsStartOnTheirOutputs_4 : ∃ (p : Nat) (s : State), (s.dev.up p = false ∨ s.dev.faults.held = true) := by
  refine ⟨95, ofDev devW, ?_⟩; decide +kernel

theorem witness_EscapesAndGatesAct_HeadsEscapeToVc7_0 : ∃ (p v a now : Nat) (w : Waiting) (s : State), (s.devAt now).firsts.find? (fun w => w.1 == p && w.2.inPort == p && w.2.inVc == v && w.2.outVc != 7 && w.2.rdma.isNone) = some (a, w) := by
  refine ⟨97, 2, 97, 0, { wait1 with outPort := 97 }, stP97 { state := .up, waiting := [{ wait1 with outPort := 97 }] }, ?_⟩; decide +kernel

theorem witness_EscapesAndGatesAct_HeadsEscapeToVc7_1 : ∃ (p v now : Nat) (s : State), (s.devAt now).firsts.find? (fun w => w.1 == p && w.2.inPort == p && w.2.inVc == v && w.2.outVc != 7 && w.2.rdma.isNone) = none := by
  refine ⟨96, 2, 0, ofDev dev2, ?_⟩; decide +kernel

theorem witness_EscapesAndGatesAct_WindowBoundariesSetTheGates_0 : ∃ (now : Nat) (s : State), (s.devAt now).tick / 325 ≠ s.dev.clock.window ∧ (s.devAt now).tick % 325 < 2 := by
  refine ⟨0, stT { dev1.clock with gtc := 326 }, ?_, ?_⟩ <;> decide +kernel

theorem witness_EscapesAndGatesAct_WindowBoundariesSetTheGates_1 : ∃ (now : Nat) (s : State), ((s.devAt now).tick / 325 = s.dev.clock.window ∨ 2 ≤ (s.devAt now).tick % 325) := by
  refine ⟨0, stT { dev1.clock with gtc := 327 }, ?_⟩; decide +kernel

theorem witness_EthernetAndOutOfBandFramesAct_EthernetFramesAreCheckedAndAnswered_0 : ∃ (p now n : Nat) (f : Bytes) (ok : Bool) (s : State), (s.devAt now).ethernet p = true ∧ s.dev.up p = true ∧ (((9216 < f.length + 4 ∨ f.length + 4 < 64) ∧ n = 0x2A) ∨ (f.length + 4 ≤ 9216 ∧ 64 ≤ f.length + 4 ∧ ok = false ∧ n = 0x2B) ∨ (f.length + 4 ≤ 9216 ∧ 64 ≤ f.length + 4 ∧ ok = true ∧ frType f = 0x8808 ∧ n = 0x2C)) := by
  refine ⟨97, 0, 0x2B, leBytes 60 0, false, ofDev devE, ?_, ?_, ?_⟩ <;> decide +kernel

theorem witness_EthernetAndOutOfBandFramesAct_EthernetFramesAreCheckedAndAnswered_1 : ∃ (p now : Nat) (f r e : Bytes) (s : State), (s.devAt now).ethernet p = true ∧ s.dev.up p = true ∧ f.length + 4 ≤ 9216 ∧ 64 ≤ f.length + 4 ∧ frType f ≠ 0x8808 ∧ s.dev.faults.held = false ∧ e = ((s.devAt now).ethEntry p).getD [] ∧ (e ≠ [] ∧ frDst f = epLocalMac e ∨ isGroup (frDst f) = true) ∧ isEncap e f (s.devAt now).encapUdp = false ∧ (s.devAt now).ownRow p f = false ∧ s.dev.keeper.up = true ∧ keeperAnswer (epLocalMac e) [epLocalIp e] f = some r ∧ s.dev.darkPort p = false ∧ ((s.devAt now).poolTake .keeper (portHolder p) 0 f.length).1 = .taken := by
  refine ⟨97, 0, echo1, (keeperAnswer mac1 [ip1] echo1).getD [], entry97, ofDev devE, ?_, ?_, ?_, ?_, ?_, ?_, ?_, ?_, ?_, ?_, ?_, ?_, ?_, ?_⟩ <;> decide +kernel

theorem witness_EthernetAndOutOfBandFramesAct_EthernetFramesAreCheckedAndAnswered_2 : ∃ (p now : Nat) (f e : Bytes) (s : State), (s.devAt now).ethernet p = true ∧ s.dev.up p = true ∧ f.length + 4 ≤ 9216 ∧ 64 ≤ f.length + 4 ∧ frType f ≠ 0x8808 ∧ e = ((s.devAt now).ethEntry p).getD [] ∧ isEncap e f (s.devAt now).encapUdp = false ∧ s.dev.faults.held = false ∧ (e = [] ∨ frDst f ≠ epLocalMac e) ∧ isGroup (frDst f) = false ∧ (∀ r, (s.devAt now).l2Entry (frDst f) = some r → l2Port r = p) := by
  refine ⟨97, 0, leBytes 60 2, [], stP97 { state := .up }, ?_, ?_, ?_, ?_, ?_, ?_, ?_, ?_, ?_, ?_, (fun r h => of_none (by decide +kernel) h)⟩ <;> decide +kernel

theorem witness_EthernetAndOutOfBandFramesAct_EthernetFramesAreCheckedAndAnswered_3 : ∃ (p now : Nat) (f e : Bytes) (s : State), (s.devAt now).ethernet p = true ∧ s.dev.up p = true ∧ f.length + 4 ≤ 9216 ∧ 64 ≤ f.length + 4 ∧ frType f ≠ 0x8808 ∧ e = ((s.devAt now).ethEntry p).getD [] ∧ s.dev.faults.held = false ∧ isEncap e f (s.devAt now).encapUdp = true ∧ encapGood f = false := by
  refine ⟨97, 0, encap1, entryX, ofDev devX, ?_, ?_, ?_, ?_, ?_, ?_, ?_, ?_, ?_⟩ <;> decide +kernel

theorem witness_EthernetAndOutOfBandFramesAct_EthernetFramesAreCheckedAndAnswered_4 : ∃ (p now : Nat) (f e : Bytes) (s : State), (s.devAt now).ethernet p = true ∧ s.dev.up p = true ∧ f.length + 4 ≤ 9216 ∧ 64 ≤ f.length + 4 ∧ frType f ≠ 0x8808 ∧ e = ((s.devAt now).ethEntry p).getD [] ∧ (s.dev.faults.held = true ∨ isEncap e f (s.devAt now).encapUdp = false ∧ (e ≠ [] ∧ frDst f = epLocalMac e ∨ isGroup (frDst f) = true) ∧ (s.devAt now).ownRow p f = true) := by
  refine ⟨97, 0, leBytes 60 0, [], ofDev { dev2 with ports := [(97, { state := .up })], faults := { held := true } }, ?_, ?_, ?_, ?_, ?_, ?_, ?_⟩ <;> decide +kernel

theorem witness_EthernetAndOutOfBandFramesAct_EthernetFramesAreCheckedAndAnswered_5 : ∃ (p now : Nat) (s : State), ((s.devAt now).ethernet p = false ∨ s.dev.up p = false) := by
  refine ⟨3, 0, stP { state := .up }, ?_⟩; decide +kernel

theorem witness_EthernetAndOutOfBandFramesAct_OutOfBandFramesAreAnswered_0 : ∃ (f : Bytes) (s : State), s.dev.keeper.up = true ∧ (frDst f = s.dev.keeper.oobMac ∨ isGroup (frDst f) = true) := by
  refine ⟨leBytes 60 0xFFFFFFFFFFFF, ofDev dev1, ?_, ?_⟩ <;> decide +kernel

theorem witness_EthernetAndOutOfBandFramesAct_OutOfBandFramesAreAnswered_1 : ∃ (f : Bytes) (ok : Bool) (s : State), (ok = false ∨ s.dev.keeper.up = false ∨ (frDst f ≠ s.dev.keeper.oobMac ∧ isGroup (frDst f) = false)) := by
  refine ⟨leBytes 60 0xFFFFFFFFFFFF, false, ofDev dev1, ?_⟩; decide +kernel

theorem witness_TimeIsInvalidatedAndResetsBegin_ManagersInvalidateTimeAndReset_0 : ∃ (m : GmpMsg) (s : State) (x : Session), Served timeInvalidateRequest m x (s.devAt m.now) := by
  exact ⟨msg1 0x51 [], ofDev dev1, session1, served1 _ _ _ (by decide +kernel)⟩

theorem witness_TimeIsInvalidatedAndResetsBegin_ManagersInvalidateTimeAndReset_1 : ∃ (m : GmpMsg) (s : State) (x : Session), Served resetWarmRequest m x (s.devAt m.now) ∧ s.dev.keeper.imageState ≠ .bad ∧ s.dev.power.warm = none := by
  refine ⟨msg1 0x52 (leBytes 4 0), ofDev dev1, session1, served1 _ _ _ (by decide +kernel), ?_, ?_⟩ <;> decide +kernel

theorem witness_TimeIsInvalidatedAndResetsBegin_ManagersInvalidateTimeAndReset_2 : ∃ (m : GmpMsg) (s : State) (x : Session), Served resetWarmRequest m x (s.devAt m.now) ∧ s.dev.keeper.imageState ≠ .bad ∧ s.dev.power.warm.isSome = true := by
  refine ⟨msg1 0x52 (leBytes 4 0), ofDev { dev1 with power := { released := true, warm := some 0 } }, session1, served1 _ _ _ (by decide +kernel), ?_, ?_⟩ <;> decide +kernel

theorem witness_TimeIsInvalidatedAndResetsBegin_ManagersInvalidateTimeAndReset_3 : ∃ (m : GmpMsg) (s : State) (x : Session), Served resetWarmRequest m x (s.devAt m.now) ∧ s.dev.keeper.imageState = .bad := by
  refine ⟨msg1 0x52 (leBytes 4 0), stK { keeper1 with imageState := .bad }, session1, served1 _ _ _ (by decide +kernel), ?_⟩; decide +kernel

theorem witness_TimeIsInvalidatedAndResetsBegin_ManagersInvalidateTimeAndReset_4 : ∃ (m : GmpMsg) (s : State) (x : Session), Served resetColdRequest m x (s.devAt m.now) := by
  exact ⟨msg1 0x52 (leBytes 4 1), ofDev dev1, session1, served1 _ _ _ (by decide +kernel)⟩

theorem witness_TimeIsInvalidatedAndResetsBegin_KeeperFailsAndReturns_0 : ∃ (now : Nat) (s : State), (s.devAt now).effective { source := 0x0C02 } = 5 ∧ s.dev.power.cold = false := by
  refine ⟨0, ofDev dev1, ?_, ?_⟩ <;> decide +kernel

theorem witness_TimeIsInvalidatedAndResetsBegin_KeeperFailsAndReturns_1 : ∃ (s : State), s.dev.power.warm.isSome = true ∧ s.dev.keeper.up = false := by
  refine ⟨ofDev { devJ job1 ctx1 with keeper := {}, power := { released := true, warm := some 0 } }, ?_, ?_⟩ <;> decide +kernel

theorem witness_TimeIsInvalidatedAndResetsBegin_KeeperFailsAndReturns_2 : ∃ (s : State), (s.dev.power.warm = none ∨ s.dev.keeper.up = true) := by
  refine ⟨stJ job1 ctx1, ?_⟩; decide +kernel

theorem witness_UnitsResetReturnOrRetire_UnitsReturnOrRetire_0 : ∃ (u now key : Nat) (c : Instr), ((c = .bistComplete true u true now ∧ u < 8 ∧ key = tarnUnit u) ∨ (c = .bistComplete false u true now ∧ u < 48 ∧ key = u) ∨ (c = .hbmStackReady u true now ∧ u < 8 ∧ key = stackUnit u)) := by
  exact ⟨7, 0, tarnUnit 7, .bistComplete true 7 true 0, Or.inl ⟨rfl, by decide, rfl⟩⟩

theorem witness_UnitsResetReturnOrRetire_UnitsReturnOrRetire_1 : ∃ (u now key src : Nat) (c : Instr) (s : State), ((c = .bistComplete true u false now ∧ u < 8 ∧ key = tarnUnit u ∧ src = 0x0503) ∨ (c = .hbmStackReady u false now ∧ u < 8 ∧ key = stackUnit u ∧ src = 0x0606)) ∧ (∀ r : FaultRec, r.source = src → (s.devAt now).effective r ≤ 4) := by
  exact ⟨7, 0, stackUnit 7, 0x0606, .hbmStackReady 7 false 0, bist (stackUnit 7) { state := .resetting }, Or.inr ⟨rfl, by decide, rfl, rfl⟩, (le_of_calm _ 0x0606 4 (by decide +kernel))⟩

theorem witness_UnitsResetReturnOrRetire_UnitsReturnOrRetire_2 : ∃ (b z h now : Nat) (s : State), b < 50 ∧ (s.devAt now).home b = h ∧ h < 48 ∧ s.dev.power.cold = false ∧ z ≠ b ∧ ((s.devAt now).spareFor b).or (s.devAt now).freeSpare = some z ∧ (s.devAt now).mild 0x0402 := by
  refine ⟨47, 48, 47, 0, ofDev dev2, ?_, ?_, ?_, ?_, ?_, ?_, mild_of _ _ (by decide +kernel)⟩ <;> decide +kernel

theorem witness_UnitsResetReturnOrRetire_UnitsReturnOrRetire_3 : ∃ (b now : Nat) (s : State), b < 50 ∧ (s.devAt now).home b < 48 ∧ (s.devAt now).spareFor b = none ∧ (s.devAt now).freeSpare = none ∧ (s.devAt now).mild 0x0402 ∧ (s.devAt now).mild 0x0403 := by
  refine ⟨47, 0, ofDev { dev2 with units := [(48, { state := .retired }), (49, { state := .retired })] }, ?_, ?_, ?_, ?_, mild_of _ _ (by decide +kernel), mild_of _ _ (by decide +kernel)⟩ <;> decide +kernel

theorem witness_UnitsResetReturnOrRetire_UnitsReturnOrRetire_4 : ∃ (b now : Nat) (s : State), (b = 48 ∨ b = 49) ∧ 48 ≤ (s.dev.unit b).standsFor ∧ (∀ e ∈ s.dev.ctxs, e.2.basin ≠ b) ∧ (s.devAt now).mild 0x0402 := by
  refine ⟨49, 0, ofDev dev2, ?_, ?_, ?_, mild_of _ _ (by decide +kernel)⟩ <;> decide +kernel

theorem witness_UnitsResetReturnOrRetire_UnitsReturnOrRetire_5 : ∃ (b : Nat) (s : State), (b = 48 ∨ b = 49) ∧ (s.dev.unit b).state ≠ .retired ∧ ((∀ e ∈ s.dev.ctxs, e.2.basin ≠ b) ∨ (s.dev.unit b).state = .standingIn) := by
  refine ⟨49, ofDev dev2, ?_, ?_, ?_⟩ <;> decide +kernel

theorem witness_UnitsResetReturnOrRetire_UnitsReturnOrRetire_6 : ∃ (u now : Nat) (c : Instr) (ok : Bool), ((c = .bistComplete true u ok now ∨ c = .hbmStackReady u ok now) ∧ 8 ≤ u) ∨ (c = .bistComplete false u ok now ∧ 50 ≤ u) := by
  exact ⟨8, 0, .hbmStackReady 8 true 0, true, Or.inl ⟨Or.inr rfl, by decide⟩⟩

theorem witness_UnitsResetReturnOrRetire_UnitsReturnOrRetire_7 : ∃ (u : Nat) (s : State), u < 8 ∧ (s.dev.unit (tarnUnit u)).state = .resetting := by
  refine ⟨7, bist (tarnUnit 7) { state := .resetting }, ?_, ?_⟩ <;> decide +kernel

theorem witness_UnitsResetReturnOrRetire_UnitsReturnOrRetire_8 : ∃ (u : Nat) (s : State), (8 ≤ u ∨ (s.dev.unit (tarnUnit u)).state ≠ .resetting) := by
  refine ⟨7, ofDev dev2, ?_⟩; decide +kernel

theorem witness_UnitsResetReturnOrRetire_StackErrorsResetAndBudgetsPass_0 : ∃ (st now : Nat) (s : State), st < 8 ∧ (s.devAt now).effective { source := 0x0605, unit := some st } = 4 ∧ s.dev.power.cold = false ∧ s.dev.power.warm = none := by
  refine ⟨7, 0, ofDev dev2, ?_, ?_, ?_, ?_⟩ <;> decide +kernel

theorem witness_UnitsResetReturnOrRetire_StackErrorsResetAndBudgetsPass_1 : ∃ (st : Nat), 8 ≤ st := by
  refine ⟨8, ?_⟩; decide +kernel

theorem witness_UnitsResetReturnOrRetire_StackErrorsResetAndBudgetsPass_2 : ∃ (j now : Nat) (s : State), (s.dev.job j).state = .halted ∧ (s.dev.job j).launch = none ∧ (s.dev.job j).budgetExceeded = false ∧ (s.dev.job j).haltTick + (s.dev.job j).recoveryMs * msTicks ≤ (s.devAt now).time := by
  refine ⟨1, 0, ofDev { devJ { job1 with state := .halted, haltTick := 5 } ctx1 with clock := { dev1.clock with time := 2500005 } }, ?_, ?_, ?_, ?_⟩ <;> decide +kernel

theorem witness_UnitsResetReturnOrRetire_StackErrorsResetAndBudgetsPass_3 : ∃ (j now : Nat) (s : State), ((s.dev.job j).state ≠ .halted ∨ (s.dev.job j).launch ≠ none ∨ (s.dev.job j).budgetExceeded = true ∨ (s.devAt now).time < (s.dev.job j).haltTick + (s.dev.job j).recoveryMs * msTicks) := by
  refine ⟨1, 0, ofDev { devJ { job1 with state := .halted, haltTick := 5 } ctx1 with clock := { dev1.clock with time := 2500004 } }, ?_⟩; decide +kernel

theorem witness_SuppliesAndResetsAct_SuppliesAndResetInputs_0 : ∃ (rail : Nat) (s : State), rail < 7 ∧ s.dev.power.cold = false := by
  refine ⟨6, ofDev dev1, ?_, ?_⟩ <;> decide +kernel

theorem witness_SuppliesAndResetsAct_SuppliesAndResetInputs_1 : ∃ (rail : Nat) (s : State), (7 ≤ rail ∨ s.dev.power.cold = true) := by
  refine ⟨7, ofDev dev1, ?_⟩; decide +kernel

theorem witness_SuppliesAndResetsAct_ResetReleaseStartsTheDevice_0 : ∃ (s : State), (s.dev.power.released && s.dev.power.pwrOk) = false := by
  refine ⟨State.reset, ?_⟩; decide +kernel

theorem witness_SuppliesAndResetsAct_ResetReleaseStartsTheDevice_1 : ∃ (s : State), s.dev.power.released = true ∧ s.dev.power.pwrOk = true := by
  refine ⟨ofDev dev1, ?_, ?_⟩ <;> decide +kernel

theorem witness_ClocksAndTemperaturesAct_DieClocksStretchAndStop_0 : ∃ (i temp now src : Nat) (c : Instr) (s : State), i < 2 ∧ (s.devAt now).mild src ∧ ((c = .clockStretch i now ∧ src = 0x0B01 ∧ (s.dev.die i).stretching = none) ∨ (c = .clockStop i temp now ∧ src = 0x0B02 ∧ (s.dev.die i).stopped = none)) := by
  refine ⟨1, 90, 0, 0x0B01, .clockStretch 1 0, ofDev dev1, ?_, mild_of _ _ (by decide +kernel), Or.inl ⟨rfl, rfl, by decide +kernel⟩⟩; decide +kernel

theorem witness_ClocksAndTemperaturesAct_DieClocksStretchAndStop_1 : ∃ (i temp now : Nat) (c : Instr) (s : State), ((c = .clockStretch i now ∧ (2 ≤ i ∨ (s.dev.die i).stretching.isSome = true)) ∨ (c = .clockStop i temp now ∧ (2 ≤ i ∨ (s.dev.die i).stopped.isSome = true))) := by
  exact ⟨2, 90, 0, .clockStop 2 90 0, ofDev dev1, Or.inr ⟨rfl, Or.inl (by decide)⟩⟩

theorem witness_ClocksAndTemperaturesAct_DieClocksStretchAndStop_2 : ∃ (i b least now : Nat) (c : Instr) (s : State), ((c = .clockStretchEnd i least now ∧ droopEnd ≤ least ∧ (s.dev.die i).stretching = some b) ∨ (c = .clockGateEnd i now ∧ s.dev.power.warmWait < 2 ∧ (s.dev.die i).stopped = some b)) := by
  exact ⟨1, 3, 725, 0, .clockStretchEnd 1 725 0, ofDev { dev1 with dies := [(1, { stretching := some 3 })] }, Or.inl ⟨rfl, by decide +kernel, by decide +kernel⟩⟩

theorem witness_ClocksAndTemperaturesAct_DieClocksStretchAndStop_3 : ∃ (i least now : Nat) (c : Instr) (s : State), ((c = .clockStretchEnd i least now ∧ (least < droopEnd ∨ (s.dev.die i).stretching = none)) ∨ (c = .clockGateEnd i now ∧ (2 ≤ s.dev.power.warmWait ∨ (s.dev.die i).stopped = none))) := by
  exact ⟨1, 724, 0, .clockStretchEnd 1 724 0, ofDev { dev1 with dies := [(1, { stretching := some 3 })] }, Or.inl ⟨rfl, Or.inl (by decide +kernel)⟩⟩

theorem witness_ClocksAndTemperaturesAct_TemperatureWarnsAndShutsDown_0 : ∃ (now : Nat) (s : State), (s.devAt now).mild 0x0B03 := by
  exact ⟨0, ofDev dev1, mild_of _ _ (by decide +kernel)⟩

theorem witness_ClocksAndTemperaturesAct_TemperatureWarnsAndShutsDown_1 : ∃ (s : State), s.dev.power.cold = false := by
  refine ⟨ofDev dev1, ?_⟩; decide +kernel

theorem witness_ClocksAndTemperaturesAct_TemperatureWarnsAndShutsDown_2 : ∃ (s : State), s.dev.power.cold = true := by
  refine ⟨ofDev { dev1 with power := { released := true, cold := true } }, ?_⟩; decide +kernel

theorem witness_PinFaultsAct_0 : ∃ (f : PinFinding) (now g : Nat) (c : Instr), ((g = 1 ∧ c = .oobPins f now) ∨ (g = 2 ∧ c = .evtPins f now) ∨ (g = 3 ∧ c = .refclkPins f now) ∨ (g = 4 ∧ c = .alertPin f now)) := by
  exact ⟨{ pin := 0, kind := 1, other := 0xFF, phase := 0, measured := 0 }, 0, 4, .alertPin { pin := 0, kind := 1, other := 0xFF, phase := 0, measured := 0 } 0, Or.inr (Or.inr (Or.inr ⟨rfl, rfl⟩))⟩

theorem witness_SiltTriggersProbesAndPulsesAct_PinsAndTimesTriggerSilt_0 : ∃ (n now src : Nat) (c : Instr) (s : State), ((c = .evtTriggerIn n now ∧ src = 1 ∧ ((s.devAt now).evtPinsOf 3).any (fun e => u8 e 0 == n) = true ∧ s.dev.power.evtClamped.contains n = false) ∨ (c = .timeTrigger n now ∧ src = 2 * (n + 1) ∧ n < 2 ∧ (s.devAt now).timeTrigger n ≠ noKey ∧ (s.devAt now).timeTrigger n ≤ (s.devAt now).gtc ∧ s.dev.clock.state ≠ .invalid ∧ n ∉ s.dev.silt.fired)) := by
  exact ⟨3, 0, 1, .evtTriggerIn 3 0, ofDev { dev1 with image := [(0x03, leBytes 16 0x0303)] }, Or.inl ⟨rfl, rfl, by decide +kernel, by decide +kernel⟩⟩

theorem witness_SiltTriggersProbesAndPulsesAct_PinsAndTimesTriggerSilt_1 : ∃ (n now : Nat) (c : Instr) (s : State), ((c = .evtTriggerIn n now ∧ (((s.devAt now).evtPinsOf 3).any (fun e => u8 e 0 == n) = false ∨ s.dev.power.evtClamped.contains n = true)) ∨ (c = .timeTrigger n now ∧ (2 ≤ n ∨ (s.devAt now).timeTrigger n = noKey ∨ (s.devAt now).gtc < (s.devAt now).timeTrigger n ∨ n ∈ s.dev.silt.fired ∨ s.dev.clock.state = .invalid))) := by
  exact ⟨1, 0, .timeTrigger 1 0, ofDev dev1, Or.inr ⟨rfl, by decide +kernel⟩⟩

theorem witness_SiltTriggersProbesAndPulsesAct_ProbesSampleAndPulsesFire_0 : ∃ (i now : Nat) (s : State), (s.devAt now).probeDue i = true := by
  refine ⟨63, 0, ofDev { dev1 with probes := [(63, { entry := leBytes 12 0x0202 ++ leBytes 4 64 })], clock := { dev1.clock with state := .locked, gtc := 64 } }, ?_⟩; decide +kernel

theorem witness_SiltTriggersProbesAndPulsesAct_ProbesSampleAndPulsesFire_1 : ∃ (i now : Nat) (s : State), (s.devAt now).probeDue i = false := by
  refine ⟨63, 0, ofDev dev1, ?_⟩; decide +kernel

theorem witness_SiltTriggersProbesAndPulsesAct_ProbesSampleAndPulsesFire_2 : ∃ (st now : Nat) (s : State), st < 8 ∧ 128 ≤ s.dev.silt.buffered ∧ fld (s.devAt now).trace (36 + 8 * st) 4 ≠ 0 ∧ (¬ (3 * st ≤ (s.devAt now).window ∧ (s.devAt now).window ≤ 3 * st + 2)) ∧ (s.devAt now).claimed (0x4000 + st) = false := by
  refine ⟨7, 0, ofDev { dev1 with silt := { buffered := 128 }, image := [(0x20, leBytes 92 0 ++ leBytes 4 1 ++ leBytes 32 0)] }, ?_, ?_, ?_, ?_, ?_⟩ <;> decide +kernel

theorem witness_SiltTriggersProbesAndPulsesAct_ProbesSampleAndPulsesFire_3 : ∃ (st now : Nat) (s : State), (s.dev.silt.buffered < 128 ∨ 8 ≤ st ∨ (s.devAt now).claimed (0x4000 + st) = true ∨ fld (s.devAt now).trace (36 + 8 * st) 4 = 0 ∨ (3 * st ≤ (s.devAt now).window ∧ (s.devAt now).window ≤ 3 * st + 2)) := by
  refine ⟨7, 0, ofDev { dev1 with silt := { buffered := 127 } }, ?_⟩; decide +kernel

theorem witness_SiltTriggersProbesAndPulsesAct_ProbesSampleAndPulsesFire_4 : ∃ (n now : Nat) (s : State), (s.devAt now).pulseDue n = true := by
  refine ⟨3, 0, ofDev { dev1 with image := [(0x03, leBytes 8 0x0203 ++ leBytes 8 1000)], clock := { dev1.clock with state := .locked, gtc := 1000 } }, ?_⟩; decide +kernel

theorem witness_SiltTriggersProbesAndPulsesAct_ProbesSampleAndPulsesFire_5 : ∃ (n now : Nat) (s : State), (s.devAt now).pulseDue n = false := by
  refine ⟨3, 0, ofDev dev1, ?_⟩; decide +kernel

theorem witness_TheGaugeMetersAndLogs_0 : ∃ (s : State), s.dev.gauge.powered = false := by
  refine ⟨State.reset, ?_⟩; decide +kernel

theorem witness_TheGaugeMetersAndLogs_1 : ∃ (s : State), s.dev.gauge.powered = true := by
  refine ⟨ofDev { dev1 with gauge := { powered := true } }, ?_⟩; decide +kernel

theorem witness_TheGaugeMetersAndLogs_4 : ∃ (s : State), s.dev.gauge.log.length + 1 < sealMax := by
  refine ⟨State.reset, ?_⟩; decide +kernel

theorem witness_GaugeRequestsAnswer_0 : ∃ (m : GmpMsg) (s : State) (x : Session) (code : Nat) (c : Instr), ((c = .gmpGaugeIdentity m ∧ code = 0x0070 ∧ Served gaugeIdentityRequest m x (s.devAt m.now)) ∨ (c = .gmpGaugeRead m ∧ code = 0x0071 ∧ Served gaugeReadRequest m x (s.devAt m.now)) ∨ (c = .gmpGaugeLog m ∧ code = 0x0072 ∧ Served gaugeLogRequest m x (s.devAt m.now))) := by
  exact ⟨msg1 0x72 [], ofDev dev1, session1, 0x72, .gmpGaugeLog (msg1 0x72 []), Or.inr (Or.inr ⟨rfl, rfl, served1 _ _ _ (by decide +kernel)⟩)⟩

theorem witness_GaugeRequestsAnswer_1 : ∃ (s : State), s.dev.keeper.up = true ∧ s.dev.gauge.powered = true ∧ s.dev.gauge.answered = false := by
  refine ⟨ofDev { dev1 with gauge := { powered := true } }, ?_, ?_, ?_⟩ <;> decide +kernel

theorem witness_GaugeRequestsAnswer_2 : ∃ (s : State), (s.dev.keeper.up = false ∨ s.dev.gauge.powered = false ∨ s.dev.gauge.answered = true) := by
  refine ⟨ofDev { dev1 with gauge := { powered := true, answered := true } }, ?_⟩; decide +kernel

theorem witness_SessionsAnswerTimeOutAndReport_ReadyWordsAreCoalesced_1 : ∃ (now : Nat) (s : State), (∀ b, s.dev.keeper.readyTick = some b → s.dev.keeper.up = true → (s.devAt now).time < b + msTicks) := by
  exact ⟨0, ofDev { dev1 with keeper := { keeper1 with readyTick := some 5 }, clock := { time := 2500004 } }, of_some (y := 5) (by decide +kernel) (by decide +kernel)⟩

theorem witness_SamplesFallInTheirBins_0 : ∃ (p : Probe) (v w u i : Nat), i < 32 ∧ w = min v 0xFFFFFFFF ∧ u = w / 2 ^ u8 p.entry 2 := by
  refine ⟨{ entry := leBytes 16 0 }, 0x100000000, 0xFFFFFFFF, 0xFFFFFFFF, 31, ?_, ?_, ?_⟩ <;> decide +kernel

theorem witness_EscalationIsOneLevel_0 : ∃ (d : Dev) (r : FaultRec), r.source < 65536 ∧ d.configured r.source ≤ (sourceOf r.source).max := by
  refine ⟨dev1, { source := 0x0101 }, ?_, ?_⟩ <;> decide +kernel

theorem witness_RightsAreNeeded_0 : ∃ (e : (GmpMsg → Instr) × Nat × Nat) (readBack : Bytes) (stack : Nat) (ecc : EccResult) (m : GmpMsg) (s : State) (x : Session), e ∈ rightRows readBack stack ecc ∧ (s.devAt m.now).hears m.port = true ∧ msgBadForm m = false ∧ (s.devAt m.now).confirmed m.session = some x ∧ m.mac = hmacSm3 x.macIn (msgSigned m e.2.1) ∧ x.seqIn < m.seq ∧ (x.kept.any (fun k => k.tag == m.tag)) = false ∧ x.busyTags.contains m.tag = false ∧ s.dev.keeper.imageState ≠ .bad ∧ Nat.land x.rights e.2.2 = 0 := by
  refine ⟨(.gmpRead, 0x0010, 1), [], 0, .clean, msg1 0x10 [], stK { keeper1 with sessions := [session0] }, session0, List.mem_append_left _ (List.mem_cons_self ..), ?_, ?_, ?_, msg1_mac 0x10 _, ?_, ?_, ?_, ?_, ?_⟩ <;> decide +kernel

theorem witness_GenerationsMustMatch_0 : ∃ (port now c n : Nat) (r h p : Bytes) (cmd : Instr) (s : State), ((cmd = .fragmentRx port h p now r ∧ (chKind h = 1 ∨ chKind h = 2)) ∨ (cmd = .abortNoticeRx port h p now ∧ chKind h = 7)) ∧ (s.dev.job (chJob h)).state ≠ .empty ∧ (chOp h = 1 ∨ chOp h = 2) ∧ (s.devAt now).ctxFor h = some c ∧ (s.dev.ctx c).abortable = true ∧ ((1 ≤ ((chGen h : Int) - (s.dev.ctx c).generation) % 2 ^ 16 ∧ ((chGen h : Int) - (s.dev.ctx c).generation) % 2 ^ 16 < 2 ^ 15 ∧ n = 5) ∨ (2 ^ 15 ≤ ((chGen h : Int) - (s.dev.ctx c).generation) % 2 ^ 16 ∧ n = 4)) := by
  refine ⟨3, 0, 0, 5, [], frag1 0x7FFF 5, zeros128, .fragmentRx 3 (frag1 0x7FFF 5) zeros128 0 [], stJ run1 ctx1, Or.inl ⟨rfl, by decide +kernel⟩, ?_, ?_, ?_, ?_, ?_⟩ <;> decide +kernel

theorem witness_TheAdderTakesSpecialOperands_0 : ∃ (a : W32), 0x7F800000#32 < a &&& 0x7FFFFFFF#32 := by
  refine ⟨0x7F800001#32, ?_⟩; decide +kernel

theorem witness_TheAdderTakesSpecialOperands_1 : ∃ (a b : W32), a &&& 0x7FFFFFFF#32 ≤ 0x7F800000#32 ∧ 0x7F800000#32 < b &&& 0x7FFFFFFF#32 := by
  refine ⟨0x7F800000#32, 0xFF800001#32, ?_, ?_⟩ <;> decide +kernel

theorem witness_TheAdderTakesSpecialOperands_3 : ∃ (a b : W32), (a = 0x7F800000#32 ∨ a = 0xFF800000#32) ∧ b &&& 0x7FFFFFFF#32 ≤ 0x7F800000#32 ∧ b ≠ a ^^^ 0x80000000#32 := by
  refine ⟨0xFF800000#32, 0xFF800000#32, ?_, ?_, ?_⟩ <;> decide +kernel

theorem witness_TheAdderTakesSpecialOperands_4 : ∃ (a b : W32), a &&& 0x7FFFFFFF#32 < 0x7F800000#32 ∧ (b = 0x7F800000#32 ∨ b = 0xFF800000#32) := by
  refine ⟨0x7F7FFFFF#32, 0xFF800000#32, ?_, ?_⟩ <;> decide +kernel

theorem witness_TheAdderTakesSpecialOperands_5 : ∃ (a b : W32), a &&& 0x7FFFFFFF#32 = 0#32 ∧ b &&& 0x7FFFFFFF#32 = 0#32 := by
  refine ⟨0x80000000#32, 0#32, ?_, ?_⟩ <;> decide +kernel

theorem witness_TheAdderTakesSpecialOperands_6 : ∃ (a b : W32), a &&& 0x7FFFFFFF#32 = 0#32 ∧ b &&& 0x7FFFFFFF#32 ≠ 0#32 ∧ b &&& 0x7FFFFFFF#32 < 0x7F800000#32 := by
  refine ⟨0x80000000#32, 1#32, ?_, ?_, ?_⟩ <;> decide +kernel

theorem witness_TheAdderTakesSpecialOperands_7 : ∃ (a b : W32), b &&& 0x7FFFFFFF#32 = 0#32 ∧ a &&& 0x7FFFFFFF#32 ≠ 0#32 ∧ a &&& 0x7FFFFFFF#32 < 0x7F800000#32 := by
  refine ⟨0x7F7FFFFF#32, 0x80000000#32, ?_, ?_, ?_⟩ <;> decide +kernel

theorem witness_TheAdderTakesSpecialOperands_8 : ∃ (a b : W32), a &&& 0x7FFFFFFF#32 ≤ 0x7F800000#32 ∧ b &&& 0x7FFFFFFF#32 ≤ 0x7F800000#32 := by
  refine ⟨0x7F800000#32, 0xFF800000#32, ?_, ?_⟩ <;> decide +kernel

theorem witness_TheGtcAdvancesByOne_0 : ∃ (c : Clock), c.frozen = false ∧ c.frac < 65536 := by
  refine ⟨{ frozen := false, frac := 65535, slew := 1, state := .locked }, ?_, ?_⟩ <;> decide +kernel

theorem witness_TheGtcAdvancesByOne_1 : ∃ (c : Clock) (i j : Nat), c.frozen = false ∧ c.frac < 65536 ∧ i < j ∧ j < i + 65536 ∧ ((fun c : Clock => c.run 1)^[i + 1] c).gtc ≠ ((fun c : Clock => c.run 1)^[i] c).gtc + 1 := by
  refine ⟨{ frozen := false, frac := 65534, slew := 3, state := .locked }, 1, 65536, ?_, ?_, ?_, ?_, ?_⟩ <;> decide +kernel

theorem witness_HeadersAndLanesReadBack_0 : ∃ (kind job channel flags gen micro seq node step op elem wire bucket tree hash count frag fcount : Nat) (h : Bytes), kind < 2 ^ 8 ∧ job < 2 ^ 8 ∧ channel < 64 ∧ flags < 2 ^ 8 ∧ gen < 2 ^ 16 ∧ micro < 2 ^ 16 ∧ seq < 2 ^ 32 ∧ node < 2 ^ 32 ∧ step < 2 ^ 48 ∧ op < 2 ^ 8 ∧ elem < 2 ^ 8 ∧ wire < 2 ^ 8 ∧ bucket < 2 ^ 16 ∧ tree < 2 ^ 32 ∧ hash < 2 ^ 32 ∧ count < 2 ^ 32 ∧ frag < 2 ^ 32 ∧ fcount < 2 ^ 16 ∧ h = mkContribution kind job channel flags gen micro seq node step op elem wire bucket tree hash count frag fcount := by
  refine ⟨255, 255, 63, 255, 65535, 65535, 4294967295, 4294967295, 281474976710655, 255, 255, 255, 65535, 4294967295, 4294967295, 4294967295, 4294967295, 65535, mkContribution 255 255 63 255 65535 65535 4294967295 4294967295 281474976710655 255 255 255 65535 4294967295 4294967295 4294967295 4294967295 65535, ?_, ?_, ?_, ?_, ?_, ?_, ?_, ?_, ?_, ?_, ?_, ?_, ?_, ?_, ?_, ?_, ?_, ?_, ?_⟩ <;> decide +kernel

theorem witness_HeadersAndLanesReadBack_1 : ∃ (kind job channel flags gen seq tensor step format off count : Nat) (scale gscale : Int) (prov h : Bytes), kind < 2 ^ 8 ∧ job < 2 ^ 8 ∧ channel < 64 ∧ gen < 2 ^ 16 ∧ seq < 2 ^ 32 ∧ tensor < 2 ^ 20 ∧ step < 2 ^ 48 ∧ format < 2 ^ 8 ∧ off < 2 ^ 64 ∧ count < 2 ^ 16 ∧ prov.length = 32 ∧ h = mkOutflow kind job channel flags gen scale seq tensor step format gscale off count prov := by
  refine ⟨255, 255, 63, 255, 65535, 4294967295, 1048575, 281474976710655, 255, 18446744073709551615, 65535, -1, -1, List.replicate 32 0xFF#8, mkOutflow 255 255 63 255 65535 (-1) 4294967295 1048575 281474976710655 255 (-1) 18446744073709551615 65535 (List.replicate 32 0xFF#8), ?_, ?_, ?_, ?_, ?_, ?_, ?_, ?_, ?_, ?_, ?_, ?_⟩ <;> decide +kernel

theorem witness_HeadersAndLanesReadBack_2 : ∃ (xs : List Nat), (∀ x ∈ xs, x < 4) := by
  refine ⟨[0, 1, 2, 3], ?_⟩; decide +kernel

theorem witness_HeadersAndLanesReadBack_3 : ∃ (c k : Nat), c < 8 ∧ k < 544 := by
  refine ⟨7, 543, ?_, ?_⟩ <;> decide +kernel


/-! ### The manual's worked examples -/

/-- R31: STEP_STATUS of a job at step 20,000, PARTIAL, timing inexact, scale history reset. -/
theorem test_step_status : ({ stStep := 20000, stOutcome := 1, stInexact := true, stShr := true } : Job).stepStatus = 0x0031000000004E20 := by
  decide +kernel
/-- After R49: the block of 3.625 and −0.01, and its elements under both roundings. -/
theorem test_b32_block : b32Scale [0x40680000#32, 0xBC23D70A#32] = 0x79 ∧ (b32Elem .infinity 0x79 .rne 0x40680000#32).v = 0x76 ∧
    (b32Elem .infinity 0x79 .rne 0xBC23D70A#32).v = 0xB2 := by decide +kernel
theorem test_b32_random : (b32Elem .infinity 0x79 (.sr 0x7FFF) 0x40680000#32).v = 0x77 ∧ (b32Elem .infinity 0x79 (.sr 0x8000) 0x40680000#32).v = 0x76 ∧
    (b32Decode .infinity 0x79 0x76).v = 0x40600000#32 ∧ (b32Decode .infinity 0x79 0xB2).v = 0xBC200000#32 := by decide +kernel
/-- After R55: the bit below the window is dropped. -/
theorem test_add_drops : addf .infinity 0x3F800000#32 0x33800001#32 = 0x3F800000#32 := by decide +kernel
/-- After R58: the product is truncated before the cancellation. -/
theorem test_fma_truncates : fmaf .infinity 0x3F800003#32 0x3F800003#32 0xBF800000#32 = 0x35400000#32 := by decide +kernel
/-- After R53. -/
theorem test_add_nan : addf .infinity 0x7F800001#32 0xFFC01234#32 = 0x7FC00001#32 ∧ addf .infinity 0x3F800000#32 0xFFC01234#32 = 0xFFC01234#32 := by
  decide +kernel
/-- After R65: stochastic rounding to BF16 up and down. -/
theorem test_bf16_random : (narrow .infinity fmtBF16 (.sr 0x2A7C) 0x3F814000#32).v = 0x3F82 ∧
    (narrow .infinity fmtBF16 (.sr 0x9000) 0x3F814000#32).v = 0x3F81 ∧ (narrow .infinity fmtBF16 .rne 0x3F814000#32).v = 0x3F81 := by decide +kernel
/-- After R70: the counter words of an accumulator draw. -/
theorem test_draw_counter :
    quadOf ({ seed := 0#64, step := 1000, microBatch := 2, tensor := 5, element := 1234567, use := .accumulator } : Draw).counter =
      ⟨0x00025AD0#32, 0x20000500#32, 0x003E8000#32, 0x10000000#32⟩ := by decide +kernel
/-- The examples of Lysros-exact mode: the sticky bit rounds up, then two ties. -/
theorem test_lysros_fold : (lysrosAdd 0x3F800000#32 0x33800001#32).v = 0x3F800001#32 ∧ (lysrosAdd 0x3F800001#32 0x33800000#32).v = 0x3F800002#32 ∧
    (lysrosAdd 0x3F800002#32 0x33800000#32).v = 0x3F800002#32 := by decide +kernel
/-- The tree of six ranks. -/
theorem test_tree_of_six : addf .infinity (addf .infinity (addf .infinity 0x3F800000#32 0x33800000#32) (addf .infinity 0x33800000#32 0x33800000#32))
    (addf .infinity 0x33800000#32 0x33800000#32) = 0x3F800002#32 ∧ treeK 6 = 3 := by decide +kernel
/-- After R141: the weight of 64 updates of 2⁻³⁰ and its residue. -/
theorem test_qadd : (qadd .infinity 0x3F800000#32 0x30800000#32 0x7E00).w = 0x3F800001#32 ∧
    (qadd .infinity 0x3F800000#32 0x30800000#32 0x7E00).q = -32768 := by decide +kernel
/-- After R228: symbol 0x2D3 behind the precoded value 1, and back. -/
theorem test_precode : precode 1 (pamOf 0x2D3) = [1, 3, 2, 0, 3] ∧ [1, 3, 2, 0, 3].map levelOf = [-1, 3, 1, -3, 3] ∧
    pamOf 0x2D3 = [2, 0, 1, 2, 3] ∧ decodePam 1 [1, 3, 2, 0, 3] = [2, 0, 1, 2, 3] := by decide +kernel
/-- After R437: FEC_CORR_LANE of lane S on port 41. -/
theorem test_counter_index : ctrIdx 2 41 0x18 = 0x02029018 := by decide +kernel
/-- The packets of R263: a head alone, and the largest Outflow fragment. -/
theorem test_flits : flitsOf 48 = 1 ∧ flitsOf 16432 = 257 ∧ flitsOf 16464 = 258 := by decide +kernel
/-- R320: a gate that closes in 60 ticks lets neither a 50-flit nor a 5-flit head start; 69 ticks are enough for the latter. -/
theorem test_gate : ({ dev1 with ports := [(3, { closed := 2 })], clock := { gtc := 265 } } : Dev).gatePasses 3 5 0 = false ∧
    ({ dev1 with ports := [(3, { closed := 2 })], clock := { gtc := 256 } } : Dev).gatePasses 3 5 0 = true := by decide +kernel
/-- R319's table: job 90 is served, job 41 wakes and is served four times. -/
def fair1 : FairLevel := (((({} : FairLevel).wake 90).serve 90 258 1 true).wake 41)
theorem test_fair_queues : fair1.pick [41, 90] = some 41 ∧ (tget {} fair1.queues 90).f = 4328521728 ∧
    (tget {} (((fair1.serve 41 258 4 true).serve 41 258 4 true).serve 41 258 4 true).queues 41).s = 3246391296 := by decide +kernel
/-- SM3 of "abc", from the standard. -/
theorem test_sm3 : sm3 [0x61#8, 0x62#8, 0x63#8] = beBytes 32 0x66C7F0F462EEEDD9D1F2D46BDC10E4E24167C4875CF2F7A2297DA02B8F4BA8E0 := by
  decide +kernel

/-! ### Single steps -/

/-- A next state's property, as a Bool that evaluates. -/
def nextHas (o : Host.Outcome State Fault Refusal) (p : State → Bool) : Bool :=
  match o with
  | .next t => p t
  | _ => false

theorem test_idle : nextHas (step (ofDev dev1)) (fun t => t.dev.clock.time == 1 && t.dev.clock.gtc == 1#64) = true := by decide +kernel
theorem test_queue : nextHas (step { ofDev dev1 with pending := [.refStopped 0, .gaugeStart] })
    (fun t => t.pending == [.gaugeStart] && !t.dev.clock.refOk) = true := by decide +kernel
/-- A basin slot adds the two ranks: 1.0 and 2⁻²⁴ · (1 + 2⁻²³) give 1.0 (R55, R79). -/
def ones (v : Nat) : Bytes := (List.range 32).flatMap (fun _ => leBytes 4 v)
def held2 : List Frag := [
  { port := 255, header := mkContribution 1 1 0 0 0 0 5 0 0 1 0 0 0 1 0 32 0 32, payload := ones 0x3F800000, tick := 0, spilled := false },
  { port := 3, header := mkContribution 1 1 0 0 0 0 5 32 0 1 0 0 0 1 0 32 0 32, payload := ones 0x33800001, tick := 0, spilled := false }]
theorem test_basin_slot : nextHas (exec (.basinSlot 1 1 (.node 1 0) none .clean 0) (stJ (upto 1 run1) { open1 with frags := held2 }))
    (fun t => (t.dev.ctx 0).nodes.map NodeVal.vals == [List.replicate 32 0x3F800000#32]) = true := by decide +kernel
theorem test_hang : nextHas (exec (.hangTimeout 0 0) (ofDev { devJ run1 open1 with clock := { dev1.clock with time := 2500000001 } }))
    (fun t => (t.dev.ctx 0).state == .aborted && (t.dev.ctx 0).status == stHangTimeout) = true := by decide +kernel
theorem test_retry_gives_up : nextHas (exec (.retryTimer 3 0)
    (ofDev { devJ job1 ctx1 with ports := [(3, { state := .up, retained := [retained1], replays := 8, ackTick := 98500 })] }))
    (fun t => (t.dev.port 3).state == .txTune && (t.dev.port 3).cause == 0x0B && (t.dev.ctx 0).state == .aborted) = true := by decide +kernel
/-- R406: a request on a number already used is not served; nothing is sent. -/
theorem test_replayed_request : nextHas (exec (.gmpPing { msg1 4 [] with seq := 0 }) (ofDev dev1))
    (fun t => t.dev.sent == []) = true := by decide +kernel
/-- The manual's board with an NVM supply at 1.8 V: pin 5 fails the power-up pin test at 1,778 mV (R494, R495). -/
def nvmFinding : PinFinding := { pin := 5, kind := 6, other := 0xFF, phase := 0, measured := 0x06F2 }
theorem test_nvm_pins : nextHas (exec (.resetRelease { seed := 1, readable := true, writable := true } true true [(0, nvmFinding)]) State.reset)
    (fun t => t.dev.keeper.imageState == .bad && t.dev.keeper.imageStatus == stImg 1 && t.dev.faults.alertLow &&
      t.dev.faults.ring.any (fun e => recSource e.bytes == 0x0D01 && u8 e.bytes 18 % 8 == 2)) = true := by decide +kernel


/-! ### Inner premises -/

theorem witness_BringupTimesOut_mild_0 : ((stP { state := .acquire }).devAt (200 * msTicks)).lasted 3 .acquire (200 * msTicks) = true ∧
    ((stP { state := .acquire }).devAt (200 * msTicks)).mild 0x0101 := by
  refine ⟨?_, mild_of _ _ ?_⟩ <;> decide +kernel

theorem witness_BringupTimesOut_early_0 : ((stP { state := .acquire }).devAt (200 * msTicks - 1)).lasted 3 .acquire (200 * msTicks) = false := by
  decide +kernel

theorem witness_BringupTimesOut_backoff_1 : ((stP { state := .fault }).devAt (250 * msTicks)).lasted 3 .fault (250 * msTicks) = true ∧
    ((stP { state := .fault }).devAt (250 * msTicks - 1)).lasted 3 .fault (250 * msTicks) = false := by
  decide +kernel

theorem witness_HeadsEscapeToVc7_early_0 : ∃ (w : Waiting) (s : State),
    (s.devAt 0).firsts.find? (fun w => w.1 == 97 && w.2.inPort == 97 && w.2.inVc == 2 && w.2.outVc != 7 && w.2.rdma.isNone) = some (97, w) ∧
    (s.devAt 0).tick < w.arrive + (s.devAt 0).escapeWait := by
  refine ⟨{ wait1 with arrive := 5 }, ofDev { devW with ports := [(96, { state := .up }), (97, { state := .up, waiting := [{ wait1 with arrive := 5 }] })] }, ?_, ?_⟩ <;>
    decide +kernel

theorem witness_HeadsEscapeToVc7_escape_0 : ∃ (now : Nat) (w : Waiting) (s : State),
    (s.devAt now).firsts.find? (fun w => w.1 == 97 && w.2.inPort == 97 && w.2.inVc == 2 && w.2.outVc != 7 && w.2.rdma.isNone) = some (97, w) ∧
    w.arrive + (s.devAt now).escapeWait ≤ (s.devAt now).tick ∧
    (∀ q ∈ (s.devAt now).pathsOf w, s.dev.up q = false ∨ (s.devAt now).ready w q w.outVc = false) := by
  refine ⟨0, wait1, ofDev { devW with ports := [(97, { state := .up, waiting := [wait1] })] }, ?_, ?_, ?_⟩ <;> decide +kernel

end Sys2Proof.Tests
end

section
/-! SUPPORT. What a count and a request of the staging pool leave alone, and that the pool's answer depends on no counter. -/

namespace Sys2Proof.Machine

theorem ctx_congr {a b : Dev} (h : a.ctxs = b.ctxs) (i : Nat) : a.ctx i = b.ctx i := by rw [Dev.ctx, h, Dev.ctx]
theorem job_congr {a b : Dev} (h : a.jobs = b.jobs) (j : Nat) : a.job j = b.job j := by rw [Dev.job, h, Dev.job]

/-! ### Counters -/

/-- A device without its counters. Two devices that agree on it answer every question alike that no counter decides. -/
def Dev.uncounted (d : Dev) : Dev := { d with ctrs := [] }

@[simp] theorem uncounted_count (d : Dev) (i n : Nat) : (d.count i n).uncounted = d.uncounted := by rw [count_eq]; rfl
@[simp] theorem uncounted_countDev (d : Dev) (i n : Nat) : (d.countDev i n).uncounted = d.uncounted := uncounted_count _ _ _
@[simp] theorem uncounted_countPool (d : Dev) (p i n : Nat) : (d.countPool p i n).uncounted = d.uncounted := uncounted_count _ _ _
@[simp] theorem uncounted_countJob (d : Dev) (j i n : Nat) : (d.countJob j i n).uncounted = d.uncounted := by simp [Dev.countJob]

/-- Counting changes the counters only. -/
theorem countJob_eq (d : Dev) (j i n : Nat) : d.countJob j i n = { d with ctrs := (d.countJob j i n).ctrs } := by
  unfold Dev.countJob
  rw [count_eq (d.count _ _), count_eq d]

@[simp] theorem ctxs_countJob (d : Dev) (j i n : Nat) : (d.countJob j i n).ctxs = d.ctxs := by rw [countJob_eq]
@[simp] theorem jobs_countJob (d : Dev) (j i n : Nat) : (d.countJob j i n).jobs = d.jobs := by rw [countJob_eq]
@[simp] theorem ctx_countJob (d : Dev) (j i n c : Nat) : (d.countJob j i n).ctx c = d.ctx c := ctx_congr (ctxs_countJob _ _ _ _) c
@[simp] theorem job_countJob (d : Dev) (j i n k : Nat) : (d.countJob j i n).job k = d.job k := job_congr (jobs_countJob _ _ _ _) k

/-! ### The staging pool (R311 to R315) -/

/-- A device without its staging pool and its counters. -/
def Dev.unpooled (d : Dev) : Dev := { d with pool := {}, ctrs := [] }

theorem unpooled_of_uncounted {d e : Dev} (h : d.uncounted = e.uncounted) : d.unpooled = e.unpooled :=
  congrArg (fun x : Dev => { x with pool := {} }) h

theorem unpooled_fields {a b : Dev} (h : a.unpooled = b.unpooled) :
    a.ctxs = b.ctxs ∧ a.jobs = b.jobs ∧ a.ports = b.ports ∧ a.faults = b.faults ∧ a.clock = b.clock :=
  ⟨(congrArg Dev.ctxs h :), (congrArg Dev.jobs h :), (congrArg Dev.ports h :), (congrArg Dev.faults h :), (congrArg Dev.clock h :)⟩

@[simp] theorem unpooled_takeBlock (d : Dev) (q : Nat) : (d.takeBlock q).2.unpooled = d.unpooled := rfl
@[simp] theorem unpooled_countPool (d : Dev) (q i n : Nat) : (d.countPool q i n).unpooled = d.unpooled :=
  unpooled_of_uncounted (uncounted_countPool d q i n)
@[simp] theorem unpooled_countDev (d : Dev) (i n : Nat) : (d.countDev i n).unpooled = d.unpooled :=
  unpooled_of_uncounted (uncounted_countDev d i n)
@[simp] theorem unpooled_countJob (d : Dev) (j i n : Nat) : (d.countJob j i n).unpooled = d.unpooled :=
  unpooled_of_uncounted (uncounted_countJob d j i n)

/-- One block is a block of the first pool that serves, which it is counted at and at the pool asked (R311). -/
theorem oneBlock_eq (d : Dev) (a : Asker) (holder more q : Nat) :
    d.oneBlock a holder more q =
      (([0, 1, 2, 3].filter (fun r => decide (q ≤ r))).find? (fun r => d.poolServes a holder more r)).map (fun r =>
        ((d.takeBlock r).1, ((d.takeBlock r).2.countPool r 0 1).countPool q 1 (b2n (decide (q < r))))) := by
  unfold Dev.oneBlock
  split
  · next h => rw [h]; rfl
  · next r h => rw [h]; rfl

theorem unpooled_oneBlock {d d' : Dev} {a : Asker} {holder more q : Nat} {b : Nat × Nat}
    (h : d.oneBlock a holder more q = some (b, d')) : d'.unpooled = d.unpooled := by
  rw [oneBlock_eq] at h
  obtain ⟨r, -, hr⟩ := Option.map_eq_some_iff.mp h
  rw [← (Prod.mk.inj hr).2]
  simp

/-- A request of the staging pool touches the pool and the counters only. -/
@[simp] theorem unpooled_poolTake (d : Dev) (a : Asker) (holder item b : Nat) : (d.poolTake a holder item b).2.unpooled = d.unpooled := by
  unfold Dev.poolTake
  dsimp only
  split
  · split
    · next h =>
      have first := unpooled_oneBlock h
      exact first
    · simp
  · split
    · next h =>
      split
      · next h' =>
        have both := (unpooled_oneBlock h').trans (unpooled_oneBlock h)
        exact both
      · simp
    · simp
  · rfl

/-- Devices that differ in counters only are given the same block, or none. -/
theorem oneBlock_congr {d e : Dev} (h : d.uncounted = e.uncounted) (a : Asker) (holder more q : Nat) :
    (d.oneBlock a holder more q = none ∧ e.oneBlock a holder more q = none) ∨
      ∃ b d' e', d.oneBlock a holder more q = some (b, d') ∧ e.oneBlock a holder more q = some (b, e') ∧ d'.uncounted = e'.uncounted := by
  have serves : ∀ r, d.poolServes a holder more r = e.poolServes a holder more r :=
    fun r => (congrArg (fun x : Dev => x.poolServes a holder more r) h :)
  have block : ∀ r, (d.takeBlock r).1 = (e.takeBlock r).1 := fun r => (congrArg (fun x : Dev => (x.takeBlock r).1) h :)
  have left : ∀ r, (d.takeBlock r).2.uncounted = (e.takeBlock r).2.uncounted :=
    fun r => (congrArg (fun x : Dev => (x.takeBlock r).2.uncounted) h :)
  simp only [oneBlock_eq, serves, block]
  cases ([0, 1, 2, 3].filter (fun r => decide (q ≤ r))).find? (fun r => e.poolServes a holder more r) with
  | none => exact .inl ⟨rfl, rfl⟩
  | some r => exact .inr ⟨_, _, _, rfl, rfl, by simp [left]⟩

/-- Devices that differ in counters only answer a request of the staging pool alike. -/
theorem poolTake_answer_congr {d e : Dev} (h : d.uncounted = e.uncounted) (a : Asker) (holder item b : Nat) :
    (d.poolTake a holder item b).1 = (e.poolTake a holder item b).1 := by
  have quota : d.overQuota a holder b = e.overQuota a holder b := (congrArg (fun x : Dev => x.overQuota a holder b) h :)
  unfold Dev.poolTake
  dsimp only
  rw [quota]
  split
  · next q _ =>
    obtain ⟨hd, he⟩ | ⟨x, d', e', hd, he, -⟩ := oneBlock_congr h a holder 0 q <;> rw [hd, he]
  · next q r _ =>
    obtain ⟨hd, he⟩ | ⟨x, d', e', hd, he, h'⟩ := oneBlock_congr h a holder 0 q
    · rw [hd, he]
    · obtain ⟨hd', he'⟩ | ⟨y, _, _, hd', he', -⟩ := oneBlock_congr h' a holder (blockSize x.1) r <;> simp only [hd, he, hd', he']
  · rfl

end Sys2Proof.Machine
end

section
/-! SUPPORT. What a packet of the device's own touches: ports, the frames that wait, reports; and what the audit touches. -/

namespace Sys2Proof.Machine

/-! ### Packets of the device's own (R109, R247, R302) -/

/-- A device without what a packet of its own may touch: the ports, the frames that wait, and what `Dev.quiet` puts aside. -/
def Dev.inward (d : Dev) : Dev := { d.quiet with ports := [], own := [] }

theorem inward_of_quiet {a b : Dev} (h : a.quiet = b.quiet) : a.inward = b.inward :=
  congrArg (fun d : Dev => { d with ports := [], own := [] }) h

theorem inward_fields {a b : Dev} (h : a.inward = b.inward) : a.ctxs = b.ctxs ∧ a.jobs = b.jobs ∧ a.faults = b.faults :=
  ⟨(congrArg Dev.ctxs h :), (congrArg Dev.jobs h :), (congrArg Dev.faults h :)⟩

@[simp] theorem inward_modPort (d : Dev) (p : Nat) (f : Port → Port) : (d.modPort p f).inward = d.inward := rfl
@[simp] theorem inward_send (d : Dev) (x : Sent) : (d.send x).inward = d.inward := inward_of_quiet (quiet_send _ _)
@[simp] theorem inward_countPort (d : Dev) (p i n : Nat) : (d.countPort p i n).inward = d.inward := inward_of_quiet (quiet_countPort _ _ _ _)
@[simp] theorem inward_countDev (d : Dev) (i n : Nat) : (d.countDev i n).inward = d.inward := inward_of_quiet (quiet_countDev _ _ _)
@[simp] theorem inward_mirror (d : Dev) (x : Bool) (p : Nat) (r : Option Bytes) (b : Bytes) : (d.mirror x p r b).inward = d.inward :=
  inward_of_quiet (quiet_mirror _ _ _ _ _)

/-- A fold of an operation that touches nothing inward touches nothing inward. -/
theorem inward_foldl {α : Type} (f : Dev → α → Dev) (h : ∀ d a, (f d a).inward = d.inward) (l : List α) (d : Dev) :
    (l.foldl f d).inward = d.inward := by
  induction l generalizing d with
  | nil => rfl
  | cons a l ih => rw [List.foldl_cons, ih, h]

@[simp] theorem inward_sendTraining (d : Dev) (p r k : Nat) : (d.sendTraining p r k).inward = d.inward := by simp [Dev.sendTraining]
@[simp] theorem inward_exitTraining (d : Dev) (p : Nat) : (d.exitTraining p).inward = d.inward :=
  inward_foldl _ (fun _ _ => inward_sendTraining _ _ _ _) _ _
@[simp] theorem inward_endSleep (d : Dev) (p : Nat) : (d.endSleep p).inward = d.inward := by
  unfold Dev.endSleep
  rw [inward_modPort]
  split
  · simp
  · split <;> simp
@[simp] theorem inward_wake (d : Dev) (p : Nat) : (d.wake p).inward = d.inward := by
  unfold Dev.wake
  split <;> simp
@[simp] theorem inward_putVc6 (d : Dev) (f : OwnFrame) : (d.putVc6 f).inward = d.inward := by
  simp [Dev.putVc6, Dev.enqueue, Dev.relink, Dev.wrote]

theorem inward_admitOwn (fs : List OwnFrame) (used : Nat) (held : List Nat) (d : Dev) : (admitOwn fs used held d).1.inward = d.inward := by
  induction fs generalizing used held d with
  | nil => rfl
  | cons f r ih =>
    unfold admitOwn
    split
    · rfl
    · split
      · rw [ih, inward_modPort]
      · split
        · rw [ih, inward_putVc6]
        · exact ih _ _ _

@[simp] theorem inward_moveOwn (d : Dev) : d.moveOwn.inward = d.inward := by
  unfold Dev.moveOwn
  split
  · rfl
  · have admitted := inward_admitOwn d.own d.rdmaCells [] { d with own := [] }
    exact admitted
@[simp] theorem inward_sendOwn (d : Dev) (fs : List OwnFrame) : (d.sendOwn fs).inward = d.inward := inward_moveOwn _
@[simp] theorem inward_sendVc6 (d : Dev) (p cls job : Nat) (content : Bytes) : (d.sendVc6 p cls job content).inward = d.inward := by
  simp [Dev.sendVc6]

/-- The notices of an abort mark their use as announced; for the rest they are packets (R109, R110). -/
theorem inward_sendNotices (d : Dev) (c seq gen step micro status node : Nat) (from' : Option Nat) :
    (d.sendNotices c seq gen step micro status node from').inward =
      (d.modCtx c (fun x => { x with forwarded := x.forwarded ++ [(seq, gen)] })).inward :=
  inward_foldl _ (fun _ _ => inward_sendVc6 _ _ _ _ _) _ _

theorem ctx_sendNotices_same (d : Dev) (c seq gen step micro status node : Nat) (from' : Option Nat) :
    (d.sendNotices c seq gen step micro status node from').ctx c =
      { d.ctx c with forwarded := (d.ctx c).forwarded ++ [(seq, gen)] } := by
  rw [ctx_congr (inward_fields (inward_sendNotices d c seq gen step micro status node from')).1, ctx_modCtx_same]

theorem ctx_sendNotices_other (d : Dev) {c i : Nat} (hi : i ≠ c) (seq gen step micro status node : Nat) (from' : Option Nat) :
    (d.sendNotices c seq gen step micro status node from').ctx i = d.ctx i := by
  rw [ctx_congr (inward_fields (inward_sendNotices d c seq gen step micro status node from')).1, ctx_modCtx_other _ hi]

/-! ### The audit (R331 to R336) -/

/-- A device without the audit store and the counters. -/
def Dev.unaudited (d : Dev) : Dev := { d with audit := {}, ctrs := [] }

@[simp] theorem unaudited_auditPut (d : Dev) (r : Bytes) : (d.auditPut r).unaudited = d.unaudited := by
  unfold Dev.auditPut Dev.countDev
  dsimp only
  split
  · rfl
  · rw [count_eq]; rfl

/-- The records of a use touch the audit store and the counters only. -/
@[simp] theorem unaudited_auditUse (d : Dev) (c : Nat) (b : Bool) : (d.auditUse c b).unaudited = d.unaudited := by
  unfold Dev.auditUse
  dsimp only
  generalize (d.ctx c).digests.filter _ = l
  have keeps : ∀ (g : UseDigest → Bytes) (l : List UseDigest) (e : Dev), (l.foldl (fun e u => e.auditPut (g u)) e).unaudited = e.unaudited := by
    intro g l
    induction l with
    | nil => intro e; rfl
    | cons u l ih => intro e; rw [List.foldl_cons, ih, unaudited_auditPut]
  exact keeps _ _ _

theorem ctxs_auditUse (d : Dev) (c : Nat) (b : Bool) : (d.auditUse c b).ctxs = d.ctxs := (congrArg Dev.ctxs (unaudited_auditUse d c b) :)
theorem jobs_auditUse (d : Dev) (c : Nat) (b : Bool) : (d.auditUse c b).jobs = d.jobs := (congrArg Dev.jobs (unaudited_auditUse d c b) :)

theorem unaudited_countJob (d : Dev) (j i n : Nat) : (d.countJob j i n).unaudited = d.unaudited :=
  congrArg (fun x : Dev => { x with audit := {} }) (uncounted_countJob d j i n)

theorem unaudited_fields {a b : Dev} (h : a.unaudited = b.unaudited) :
    a.ctxs = b.ctxs ∧ a.jobs = b.jobs ∧ a.ports = b.ports ∧ a.faults = b.faults :=
  ⟨(congrArg Dev.ctxs h :), (congrArg Dev.jobs h :), (congrArg Dev.ports h :), (congrArg Dev.faults h :)⟩

/-- A fragment is digested where its channel has an engine: its context's digests change, and besides only the audit and the counters. -/
theorem digestFrag_cases (d : Dev) (c port : Nat) (sent : Bool) (h payload : Bytes) :
    d.digestFrag c port sent h payload = d ∨
      ∃ (e : Dev) (g : List UseDigest → List UseDigest), e.unaudited = d.unaudited ∧
        d.digestFrag c port sent h payload = e.modCtx c (fun k => { k with digests := g k.digests }) := by
  unfold Dev.digestFrag
  split
  · exact .inl rfl
  · next e _ =>
    refine .inr ?_
    dsimp only
    split
    · exact ⟨d.engineTake e (normContribution h ++ payload).length, fun l => addLeaf l _ _ _ _ _, rfl, rfl⟩
    · exact ⟨_, fun l => addLeaf l _ _ _ _ _, unaudited_countJob d _ _ _, rfl⟩

theorem ctx_digestFrag_same (d : Dev) (c port : Nat) (sent : Bool) (h payload : Bytes) :
    (d.digestFrag c port sent h payload).ctx c =
      { d.ctx c with digests := ((d.digestFrag c port sent h payload).ctx c).digests } := by
  obtain hd | ⟨e, g, he, hd⟩ := digestFrag_cases d c port sent h payload
  · rw [hd]
  · rw [hd, ctx_modCtx_same, ctx_congr (unaudited_fields he).1]

theorem ctx_digestFrag_other (d : Dev) {c i : Nat} (hi : i ≠ c) (port : Nat) (sent : Bool) (h payload : Bytes) :
    (d.digestFrag c port sent h payload).ctx i = d.ctx i := by
  obtain hd | ⟨e, g, he, hd⟩ := digestFrag_cases d c port sent h payload
  · rw [hd]
  · rw [hd, ctx_modCtx_other _ hi, ctx_congr (unaudited_fields he).1]

theorem digestFrag_fields (d : Dev) (c port : Nat) (sent : Bool) (h payload : Bytes) :
    (d.digestFrag c port sent h payload).jobs = d.jobs ∧ (d.digestFrag c port sent h payload).ports = d.ports ∧
      (d.digestFrag c port sent h payload).faults = d.faults := by
  obtain hd | ⟨e, g, he, hd⟩ := digestFrag_cases d c port sent h payload
  · rw [hd]; exact ⟨rfl, rfl, rfl⟩
  · rw [hd]; exact (unaudited_fields he).2

end Sys2Proof.Machine
end

section
/-! SUPPORT. What the abort of a use of a gradient bucket leaves (R92, R109). -/

namespace Sys2Proof.Machine

/-- A context without anything held for its current use (R109 item 1). -/
def Ctx.withoutUse (x : Ctx) : Ctx :=
  { x with frags := x.frags.filter (fun f => chSeq f.header != x.sequence), nodes := [], remW := [], useCounts := [],
           firstNonfinite := 0xFFFFFFFF, digests := x.digests.filter (fun u => u.seq != x.sequence) }

/-- A job without the inflow of a context's current use. -/
def Job.withoutInflow (y : Job) (x : Ctx) : Job :=
  { y with inflow := y.inflow.filter (fun v => !(v.channel == x.channel && v.seq == x.sequence)) }

theorem ctxs_dropUse (d : Dev) (c : Nat) : (d.dropUse c).ctxs = (d.modCtx c Ctx.withoutUse).ctxs := rfl
theorem jobs_dropUse (d : Dev) (c : Nat) : (d.dropUse c).jobs = (d.modJob (d.ctx c).job (·.withoutInflow (d.ctx c))).jobs := rfl

/-- A device whose context has lost its use and stands ABORTED with a status; nothing is reported yet. -/
def Dev.useLost (d : Dev) (c status : Nat) : Dev :=
  ((d.auditUse c true).dropUse c).modCtx c (fun x => { x with state := .aborted, status := status })

theorem ctx_useLost_same (d : Dev) (c status : Nat) :
    (d.useLost c status).ctx c = { (d.ctx c).withoutUse with state := .aborted, status := status } := by
  have dropped : ((d.auditUse c true).dropUse c).ctx c = (d.ctx c).withoutUse := by
    rw [ctx_congr (ctxs_dropUse _ _), ctx_modCtx_same, ctx_congr (ctxs_auditUse _ _ _)]
  rw [Dev.useLost, ctx_modCtx_same, dropped]

theorem ctx_useLost_other (d : Dev) {c i : Nat} (hi : i ≠ c) (status : Nat) : (d.useLost c status).ctx i = d.ctx i := by
  have dropped : ((d.auditUse c true).dropUse c).ctx i = d.ctx i := by
    rw [ctx_congr (ctxs_dropUse _ _), ctx_modCtx_other _ hi, ctx_congr (ctxs_auditUse _ _ _)]
  rw [Dev.useLost, ctx_modCtx_other _ hi, dropped]

theorem jobs_useLost (d : Dev) (c status : Nat) :
    (d.useLost c status).jobs = (d.modJob (d.ctx c).job (·.withoutInflow (d.ctx c))).jobs := by
  rw [Dev.useLost, jobs_modCtx, jobs_dropUse, ctx_congr (ctxs_auditUse _ _ _), Dev.modJob, Dev.modJob, jobs_auditUse]

/-- The same once the trace and the fault record of the abort are written (R109 item 3). -/
def Dev.abortNoted (d : Dev) (c status node : Nat) : Dev :=
  ((d.useLost c status).siltCtx c (d.ctx c).state).recordFault ((d.useLost c status).abortRecord c status node)

theorem rest_abortNoted (d : Dev) (c status node : Nat) : (d.abortNoted c status node).rest = (d.useLost c status).rest := by
  simp [Dev.abortNoted]

/-- The record of an abort names its status as its source. -/
theorem abortNoted_recorded (d : Dev) (c node : Nat) {status : Nat} (h : status < 65536) :
    ∃ e ∈ (d.abortNoted c status node).faults.ring, recSource e.bytes = status :=
  recordFault_source _ ((d.useLost c status).abortRecord c status node) h

/-- An abort ends with its notices, unless they went out ahead of the use: they add to what the context has announced, and otherwise leave
the contexts, the jobs and the fault records alone. -/
theorem abortUse_announced (d : Dev) (c status node : Nat) (from' : Option Nat) :
    ((d.abortUse c status node from').ctx c =
      { (d.abortNoted c status node).ctx c with forwarded := ((d.abortUse c status node from').ctx c).forwarded }) ∧
    (∀ i, i ≠ c → (d.abortUse c status node from').ctx i = (d.abortNoted c status node).ctx i) ∧
    (d.abortUse c status node from').jobs = (d.abortNoted c status node).jobs ∧
    (d.abortUse c status node from').faults = (d.abortNoted c status node).faults := by
  have shape : d.abortUse c status node from' =
      if from'.isSome && (d.ctx c).forwarded.contains ((d.ctx c).sequence, (d.ctx c).generation) then d.abortNoted c status node
      else (d.abortNoted c status node).sendNotices c (d.ctx c).sequence (d.ctx c).generation (d.useStep c) (d.ctx c).microBatch status node
        from' := rfl
  rw [shape]
  split
  · exact ⟨rfl, fun _ _ => rfl, rfl, rfl⟩
  · have sent := inward_fields (inward_sendNotices (d.abortNoted c status node) c (d.ctx c).sequence (d.ctx c).generation
      (d.useStep c) (d.ctx c).microBatch status node from')
    refine ⟨?_, fun i hi => ctx_sendNotices_other _ hi _ _ _ _ _ _ _, sent.2.1, sent.2.2⟩
    rw [ctx_sendNotices_same]

theorem ctx_abortUse_same (d : Dev) (c status node : Nat) (from' : Option Nat) :
    (d.abortUse c status node from').ctx c =
      { (d.ctx c).withoutUse with
        state := .aborted, status := status, forwarded := ((d.abortUse c status node from').ctx c).forwarded } := by
  rw [(abortUse_announced d c status node from').1, rest_ctx (rest_abortNoted d c status node), ctx_useLost_same]

theorem ctx_abortUse_other (d : Dev) {c i : Nat} (hi : i ≠ c) (status node : Nat) (from' : Option Nat) :
    (d.abortUse c status node from').ctx i = d.ctx i := by
  rw [(abortUse_announced d c status node from').2.1 i hi, rest_ctx (rest_abortNoted d c status node), ctx_useLost_other _ hi]

theorem job_abortUse (d : Dev) (c status node : Nat) (from' : Option Nat) (j : Nat) :
    (d.abortUse c status node from').job j =
      if j = (d.ctx c).job then (d.job j).withoutInflow (d.ctx c) else d.job j := by
  have hjobs : (d.abortUse c status node from').jobs = (d.modJob (d.ctx c).job (·.withoutInflow (d.ctx c))).jobs := by
    rw [(abortUse_announced d c status node from').2.2.1, (rest_fields (rest_abortNoted d c status node)).2.2.1, jobs_useLost]
  rw [Dev.job, hjobs, Dev.modJob, tget_tmod]
  split
  · next h => rw [h]; rfl
  · rfl

theorem abortUse_recorded (d : Dev) (c node : Nat) (from' : Option Nat) {status : Nat} (h : status < 65536) :
    ∃ e ∈ (d.abortUse c status node from').faults.ring, recSource e.bytes = status := by
  rw [(abortUse_announced d c status node from').2.2.2]
  exact abortNoted_recorded d c node h

/-- The abort of a gradient bucket's use abandons no step (R29, R149). -/
theorem abortCtx_gradient (d : Dev) {c : Nat} (h : (d.ctx c).bucket ≠ verdictBucket) (status node : Nat) (from' : Option Nat) :
    d.abortCtx c status node from' = d.abortUse c status node from' := by
  simp [Dev.abortCtx, h]

/-- A command that aborts a gradient bucket's use, on a device with the contexts and jobs of the state, leaves the context `Aborted`. -/
theorem aborted_of_abortCtx {s t : State} {d : Dev} {c status node : Nat} {from' : Option Nat} (hctxs : d.ctxs = s.dev.ctxs)
    (hjobs : d.jobs = s.dev.jobs) (hbucket : (s.dev.ctx c).bucket ≠ verdictBucket) (hstatus : status < 65536)
    (ht : t.dev = (d.abortCtx c status node from').noteReady) : Aborted s t c status := by
  have hctx : ∀ i, d.ctx i = s.dev.ctx i := ctx_congr hctxs
  have hjob : ∀ j, d.job j = s.dev.job j := job_congr hjobs
  rw [abortCtx_gradient d (by rwa [hctx])] at ht
  have same : t.dev.ctx c = { (s.dev.ctx c).withoutUse with
      state := .aborted, status := status, forwarded := (t.dev.ctx c).forwarded } := by
    rw [ht, noteReady_ctx, ← hctx]
    exact ctx_abortUse_same d c status node from'
  have job : ∀ j, t.dev.job j =
      if j = (s.dev.ctx c).job then (s.dev.job j).withoutInflow (s.dev.ctx c) else s.dev.job j := fun j => by
    rw [ht, noteReady_job, job_abortUse, hctx, hjob]
  refine ⟨(congrArg Ctx.state same :), (congrArg Ctx.status same :), (congrArg Ctx.sequence same :), (congrArg Ctx.generation same :),
    (congrArg Ctx.nodes same :), (congrArg Ctx.frags same :), ?_, fun i hi => ?_, fun j => ?_, fun j hj => ?_⟩
  · rw [ht, noteReady_faults]
    exact abortUse_recorded d c node from' hstatus
  · rw [ht, noteReady_ctx, ctx_abortUse_other d hi, hctx]
  · rw [job]
    split <;> rfl
  · rw [job, if_neg hj]

end Sys2Proof.Machine
end

section
/-! PROOFS. What a received fragment does (R11, R97 to R99, R106, R108). -/

namespace Sys2Proof.Machine

/-! ### Sequences -/

theorem leVal_lt (bs : Bytes) : leVal bs < 256 ^ bs.length := by
  induction bs with
  | nil => simp [leVal]
  | cons b bs ih =>
    have hb : b.toNat < 256 := b.isLt
    rw [leVal, List.length_cons, pow_succ]
    omega

theorem chSeq_lt (h : Bytes) : chSeq h < 2 ^ 32 :=
  calc chSeq h < 256 ^ (slice h 8 4).length := leVal_lt _
    _ ≤ 256 ^ 4 := Nat.pow_le_pow_right (by decide) (List.length_take_le _ _)

/-- A header's sequence is at no distance from itself. -/
theorem serialDist_chSeq_self (h : Bytes) : serialDist 32 (chSeq h) (chSeq h) = 0 := by
  have := chSeq_lt h
  unfold serialDist
  omega

/-- A fragment is for the current use of a context or one at most three ahead (R97). -/
def Ctx.awaits (x : Ctx) (h : Bytes) : Prop :=
  chSeq h = x.sequence ∨ serialAfter 32 (chSeq h) x.sequence = true ∧ serialDist 32 (chSeq h) x.sequence ≤ 3

theorem awaits_not_past {x : Ctx} {h : Bytes} (hw : x.awaits h) : ¬ (chSeq h ≠ x.sequence ∧ serialAfter 32 (chSeq h) x.sequence = false) := by
  rintro ⟨hne, hpast⟩
  obtain heq | ⟨hafter, -⟩ := hw
  · exact hne heq
  · simp [hpast] at hafter

theorem awaits_dist {x : Ctx} {h : Bytes} (hw : x.awaits h) : ¬ 3 < serialDist 32 (chSeq h) x.sequence := by
  obtain heq | ⟨-, hdist⟩ := hw
  · rw [← heq, serialDist_chSeq_self]
    decide
  · exact not_lt.mpr hdist

theorem abortable_not_ended {x : Ctx} (h : x.abortable = true) : (x.state == .aborted || x.state == .resetting) = false := by
  unfold Ctx.abortable at h
  cases hs : x.state <;> simp_all

/-- A status of R108 fits its two bytes. -/
theorem fragStatus_lt {x : Job} {b : Bytes} {frags : List Frag} {port : Nat} {h payload : Bytes} {st : Nat}
    (hst : x.fragStatus b frags port h payload = some st) : st < 65536 := by
  unfold Job.fragStatus at hst
  split at hst
  · cases hst; decide
  · split at hst
    · cases hst; decide
    · split at hst
      · cases hst; decide
      · split at hst
        · cases hst; decide
        · cases hst

/-! ### A fragment that is held -/

/-- The fragment as it is held. -/
def Dev.fragOf (d : Dev) (port : Nat) (route h payload : Bytes) (spilled : Bool) : Frag :=
  { port := port, header := h, payload := payload, tick := d.tick, spilled := spilled, gen := (d.port port).linkGen, route := route }

theorem ctx_keepFrag_same (d : Dev) (c port : Nat) (route h payload : Bytes) (spilled : Bool) :
    (d.keepFrag c port route h payload spilled).ctx c =
      { d.ctx c with frags := (d.ctx c).frags ++ [d.fragOf port route h payload spilled], spilled := (d.ctx c).spilled || spilled,
                     digests := ((d.keepFrag c port route h payload spilled).ctx c).digests } :=
  (ctx_digestFrag_same _ c port false h payload).trans (by rw [ctx_modCtx_same]; rfl)

theorem ctx_keepFrag_other (d : Dev) {c i : Nat} (hi : i ≠ c) (port : Nat) (route h payload : Bytes) (spilled : Bool) :
    (d.keepFrag c port route h payload spilled).ctx i = d.ctx i :=
  (ctx_digestFrag_other _ hi port false h payload).trans (ctx_modCtx_other _ hi _)

theorem keepFrag_fields (d : Dev) (c port : Nat) (route h payload : Bytes) (spilled : Bool) :
    (d.keepFrag c port route h payload spilled).jobs = d.jobs ∧ (d.keepFrag c port route h payload spilled).ports = d.ports ∧
      (d.keepFrag c port route h payload spilled).faults = d.faults :=
  digestFrag_fields _ c port false h payload

/-- How staging answers for a fragment of a context (R106, R313). -/
def Dev.stagingAnswer (d : Dev) (c : Nat) (h payload : Bytes) : PoolAnswer :=
  (d.poolTake (.context (chJob h) (bkQuota (d.bucketOf c) * 1024)) (ctxHolder c) (fragItem h) (48 + payload.length)).1

/-- Whether the spill region has room for a fragment (R106, R122). -/
def Dev.spillRoom (d : Dev) (h payload : Bytes) : Prop :=
  d.spilledBytes (chJob h) + (48 + payload.length) ≤ (d.job (chJob h)).spillRegion

theorem spillFrag_room (d : Dev) (c port : Nat) (route h payload : Bytes) (refused : Bool) (hr : d.spillRoom h payload) :
    ∃ e : Dev, d.spillFrag c port route h payload refused = e.keepFrag c port route h payload true ∧ e.unpooled = d.unpooled :=
  ⟨(d.countJob (chJob h) 0x013 (b2n refused)).countJob (chJob h) 0x014 (48 + payload.length), if_neg (not_lt.mpr hr), by simp⟩

theorem spillFrag_full (d : Dev) (c port : Nat) (route h payload : Bytes) (refused : Bool) (hr : ¬ d.spillRoom h payload) :
    d.spillFrag c port route h payload refused = d.abortCtx c stSpillFull (d.ownNode c) none :=
  if_pos (not_le.mp hr)

/-- The spill region's room depends on the contexts and the jobs only. -/
theorem spillRoom_congr {a b : Dev} (hctxs : a.ctxs = b.ctxs) (hjobs : a.jobs = b.jobs) (h payload : Bytes) :
    a.spillRoom h payload ↔ b.spillRoom h payload := by
  unfold Dev.spillRoom Dev.spilledBytes Dev.ctxsOf Dev.ctx Dev.job
  rw [hctxs, hjobs]

theorem stagingAnswer_congr {a b : Dev} (hab : a.uncounted = b.uncounted) (c : Nat) (h payload : Bytes) :
    a.stagingAnswer c h payload = b.stagingAnswer c h payload := by
  have bucket : a.bucketOf c = b.bucketOf c := (congrArg (fun x : Dev => x.bucketOf c) hab :)
  rw [Dev.stagingAnswer, Dev.stagingAnswer, bucket]
  exact poolTake_answer_congr hab _ _ _ _

theorem takeFrag_taken (d : Dev) (c port : Nat) (route h payload : Bytes) (hs : d.stagingAnswer c h payload = .taken) :
    ∃ e : Dev, e.unpooled = d.unpooled ∧ d.takeFrag c port route h payload = e.keepFrag c port route h payload false := by
  have frame := unpooled_poolTake d (.context (chJob h) (bkQuota (d.bucketOf c) * 1024)) (ctxHolder c) (fragItem h) (48 + payload.length)
  unfold Dev.stagingAnswer at hs
  unfold Dev.takeFrag
  dsimp only
  generalize d.poolTake _ _ _ _ = z at hs frame ⊢
  obtain ⟨answer, e⟩ := z
  subst hs
  exact ⟨e.countDev 0x100 (48 + payload.length), (unpooled_countDev _ _ _).trans frame, rfl⟩

theorem takeFrag_spills (d : Dev) (c port : Nat) (route h payload : Bytes) (hs : d.stagingAnswer c h payload ≠ .taken) :
    ∃ (e : Dev) (refused : Bool), e.unpooled = d.unpooled ∧
      d.takeFrag c port route h payload = e.spillFrag c port route h payload refused := by
  have frame := unpooled_poolTake d (.context (chJob h) (bkQuota (d.bucketOf c) * 1024)) (ctxHolder c) (fragItem h) (48 + payload.length)
  unfold Dev.stagingAnswer at hs
  unfold Dev.takeFrag
  dsimp only
  generalize d.poolTake _ _ _ _ = z at hs frame ⊢
  obtain ⟨answer, e⟩ := z
  cases answer with
  | taken => exact absurd rfl hs
  | overQuota => exact ⟨e, false, frame, rfl⟩
  | refused => exact ⟨e, true, frame, rfl⟩

/-- A fragment that has passed every check is held in staging where staging takes it, and otherwise in the spill region, where that has
room. -/
theorem takeFrag_held (d : Dev) (c port : Nat) (route h payload : Bytes)
    (hroom : d.stagingAnswer c h payload = .taken ∨ d.spillRoom h payload) :
    ∃ (e : Dev) (spilled : Bool), e.unpooled = d.unpooled ∧ d.takeFrag c port route h payload = e.keepFrag c port route h payload spilled ∧
      (spilled = true ↔ d.stagingAnswer c h payload ≠ .taken) := by
  by_cases hs : d.stagingAnswer c h payload = .taken
  · obtain ⟨e, he, htake⟩ := takeFrag_taken d c port route h payload hs
    exact ⟨e, false, he, htake, by simp [hs]⟩
  · obtain ⟨e, refused, he, htake⟩ := takeFrag_spills d c port route h payload hs
    have same := unpooled_fields he
    obtain ⟨e', hspill, he'⟩ := spillFrag_room e c port route h payload refused
      ((spillRoom_congr same.1 same.2.1 _ _).mpr (hroom.resolve_left hs))
    exact ⟨e', true, he'.trans he, htake.trans hspill, by simp [hs]⟩

/-- Where neither has room for it, its context aborts with ST_SPILL_FULL. -/
theorem takeFrag_full (d : Dev) (c port : Nat) (route h payload : Bytes) (hs : d.stagingAnswer c h payload ≠ .taken)
    (hspill : ¬ d.spillRoom h payload) :
    ∃ e : Dev, e.unpooled = d.unpooled ∧ d.takeFrag c port route h payload = e.abortCtx c stSpillFull (e.ownNode c) none := by
  obtain ⟨e, refused, he, htake⟩ := takeFrag_spills d c port route h payload hs
  have same := unpooled_fields he
  exact ⟨e, he, htake.trans (spillFrag_full e c port route h payload refused (mt (spillRoom_congr same.1 same.2.1 _ _).mp hspill))⟩

/-! ### A fragment for a context, from the generation on -/

section
variable (d : Dev) (c port : Nat) (route h payload : Bytes)

theorem ctxFrag_ended (hx : (d.ctx c).state = .aborted ∨ (d.ctx c).state = .resetting) :
    d.ctxFrag c port route h payload = d.countJob (chJob h) 0x007 1 := by
  rcases hx with hx | hx <;> simp [Dev.ctxFrag, hx]

variable (hx : (d.ctx c).abortable = true)
include hx

theorem ctxFrag_generation {n : Nat} (hgen : genDrop (chGen h) (d.ctx c).generation = some n) :
    d.ctxFrag c port route h payload = d.countJob (chJob h) n 1 := by
  simp [Dev.ctxFrag, abortable_not_ended hx, hgen]

variable (hgen : chGen h = (d.ctx c).generation)
include hgen

theorem ctxFrag_past (hne : chSeq h ≠ (d.ctx c).sequence) (hpast : serialAfter 32 (chSeq h) (d.ctx c).sequence = false) :
    d.ctxFrag c port route h payload = d.countJob (chJob h) 0x003 1 := by
  simp [Dev.ctxFrag, abortable_not_ended hx, genDrop, hgen, hne, hpast]

theorem ctxFrag_ahead (hafter : serialAfter 32 (chSeq h) (d.ctx c).sequence = true)
    (hfar : 3 < serialDist 32 (chSeq h) (d.ctx c).sequence) :
    d.ctxFrag c port route h payload = d.abortCtx c stSeqWindow (d.ownNode c) none := by
  simp [Dev.ctxFrag, abortable_not_ended hx, genDrop, hgen, hafter, hfar]

variable (hw : (d.ctx c).awaits h)
include hw

theorem ctxFrag_bad {st : Nat} (hst : (d.job (chJob h)).fragStatus (d.bucketOf c) (d.ctx c).frags port h payload = some st) :
    d.ctxFrag c port route h payload = d.abortCtx c st (d.ownNode c) none := by
  simp [Dev.ctxFrag, abortable_not_ended hx, genDrop, hgen, awaits_not_past hw, awaits_dist hw, hst]

variable (hok : (d.job (chJob h)).fragStatus (d.bucketOf c) (d.ctx c).frags port h payload = none)
include hok

theorem ctxFrag_again (hheld : (d.ctx c).holds h = true) : d.ctxFrag c port route h payload = d.countJob (chJob h) 0x006 1 := by
  simp [Dev.ctxFrag, abortable_not_ended hx, genDrop, hgen, awaits_not_past hw, awaits_dist hw, hok, hheld]

theorem ctxFrag_takes (hnew : (d.ctx c).holds h = false) : d.ctxFrag c port route h payload = d.takeFrag c port route h payload := by
  simp [Dev.ctxFrag, abortable_not_ended hx, genDrop, hgen, awaits_not_past hw, awaits_dist hw, hok, hnew]

end

end Sys2Proof.Machine
end

section
/-! PROOFS. The statements on the queue's front and on received fragments. -/

namespace Sys2Proof.Machine

/-- Settles O1: what a step is where a command waits. -/
theorem stepRunsFrontCommand : Obligations.StepRunsFrontCommand := fun _ _ _ => rfl

/-! ### FRAGMENT_RX (R11, R97 to R99, R106, R108) -/

/-- The device that looks at a fragment of a context: a replayed one is counted first. -/
def Dev.fragSeen (d : Dev) (h : Bytes) : Dev := d.countJob (chJob h) 0x009 (b2n (chReplay h))

/-- A fragment of kind LEAF or PARTIAL and of an op that is, of a job that is loaded, whose context is `c` (R108 check 1). -/
structure FragReaches (s : State) (now : Nat) (h : Bytes) (c : Nat) : Prop where
  job : (s.dev.job (chJob h)).state ≠ .empty
  ctx : (s.devAt now).ctxFor h = some c
  kind : chKind h = 1 ∨ chKind h = 2
  op : chOp h = 1 ∨ chOp h = 2

theorem ctx_devAt (s : State) (now c : Nat) : (s.devAt now).ctx c = s.dev.ctx c := ctx_congr (to_ctxs _ _) c
theorem job_devAt (s : State) (now j : Nat) : (s.devAt now).job j = s.dev.job j := job_congr (to_jobs _ _) j

section
variable (port now : Nat) (r h p : Bytes) (s : State)

/-- A fragment that is counted and dropped changes nothing but counters. -/
theorem fragmentRx_dropped {d : Dev} {n : Nat} (hd : d.rest = (s.devAt now).rest)
    (hrx : Dev.fragmentRx port r h p (s.devAt now) = d.countJob (chJob h) n 1) :
    ∃ t, exec (.fragmentRx port h p now r) s = .next t ∧ t.dev.rest = (s.devAt now).rest ∧ t.dev.ctrs = (d.countJob (chJob h) n 1).ctrs :=
  ⟨_, rfl, by rw [event_dev, rest_noteReady, hrx, rest_countJob, hd], by rw [event_dev, noteReady_ctrs, hrx]⟩

/-- One without a job or a context is dropped. -/
theorem fragmentRx_homeless {n : Nat}
    (hn : (s.dev.job (chJob h)).state = .empty ∧ n = 1 ∨ (s.dev.job (chJob h)).state ≠ .empty ∧ chKind h ≠ 7 ∧ n = 2 ∧
      (¬ ((chKind h = 1 ∨ chKind h = 2) ∧ (chOp h = 1 ∨ chOp h = 2)) ∨ (s.devAt now).ctxFor h = none)) :
    Dev.fragmentRx port r h p (s.devAt now) = (s.devAt now).countJob (chJob h) n 1 := by
  unfold Dev.fragmentRx
  rw [job_devAt]
  obtain ⟨hjob, rfl⟩ | ⟨hjob, hkind, rfl, hno⟩ := hn
  · simp [hjob]
  · by_cases hform : (chKind h = 1 ∨ chKind h = 2) ∧ (chOp h = 1 ∨ chOp h = 2)
    · have hctx := hno.resolve_left (not_not.mpr hform)
      simp [hjob, hkind, hform, hctx]
    · simp [hjob, hkind, hform]

variable {now h s} {c : Nat} (hr : FragReaches s now h c)
include hr

theorem fragmentRx_reaches :
    Dev.fragmentRx port r h p (s.devAt now) = ((s.devAt now).fragSeen h).ctxFrag c port r h p := by
  obtain ⟨hjob, hctx, hkind, hop⟩ := hr
  have hnotice : chKind h ≠ 7 := by omega
  unfold Dev.fragmentRx
  rw [job_devAt]
  simp [hjob, hnotice, hkind, hop, hctx, Dev.fragSeen]

/-- A fragment whose status or whose distance aborts its context. -/
theorem fragmentRx_aborts {st : Nat} {d : Dev} (hbucket : (s.dev.ctx c).bucket ≠ verdictBucket) (hst : st < 65536)
    (hctxs : d.ctxs = s.dev.ctxs) (hjobs : d.jobs = s.dev.jobs)
    (hfrag : ((s.devAt now).fragSeen h).ctxFrag c port r h p = d.abortCtx c st (d.ownNode c) none) :
    ∃ t, exec (.fragmentRx port h p now r) s = .next t ∧ Aborted s t c st :=
  ⟨_, rfl, aborted_of_abortCtx hctxs hjobs hbucket hst (by rw [event_dev, ← hfrag, ← fragmentRx_reaches port r p hr])⟩

end

@[simp] theorem ctx_fragSeen (s : State) (now c : Nat) (h : Bytes) : ((s.devAt now).fragSeen h).ctx c = s.dev.ctx c :=
  (ctx_countJob _ _ _ _ _).trans (ctx_devAt s now c)
@[simp] theorem job_fragSeen (s : State) (now j : Nat) (h : Bytes) : ((s.devAt now).fragSeen h).job j = s.dev.job j :=
  (job_countJob _ _ _ _ _).trans (job_devAt s now j)
@[simp] theorem bucketOf_fragSeen (s : State) (now c : Nat) (h : Bytes) :
    ((s.devAt now).fragSeen h).bucketOf c = (s.devAt now).bucketOf c := by
  simp [Dev.bucketOf, ctx_devAt, job_devAt]
theorem ctxs_fragSeen (s : State) (now : Nat) (h : Bytes) : ((s.devAt now).fragSeen h).ctxs = s.dev.ctxs :=
  (ctxs_countJob _ _ _ _).trans (to_ctxs _ _)
theorem jobs_fragSeen (s : State) (now : Nat) (h : Bytes) : ((s.devAt now).fragSeen h).jobs = s.dev.jobs :=
  (jobs_countJob _ _ _ _).trans (to_jobs _ _)
theorem stagingAnswer_fragSeen (s : State) (now c : Nat) (h p : Bytes) :
    ((s.devAt now).fragSeen h).stagingAnswer c h p = (s.devAt now).stagingAnswer c h p :=
  stagingAnswer_congr (uncounted_countJob _ _ _ _) c h p
theorem spillRoom_fragSeen (s : State) (now : Nat) (h p : Bytes) : ((s.devAt now).fragSeen h).spillRoom h p ↔ s.dev.spillRoom h p :=
  spillRoom_congr (ctxs_fragSeen s now h) (jobs_fragSeen s now h) h p

/-! ### The fates of a fragment -/

section
variable {port now c : Nat} {r h p : Bytes} {s : State}

/-- One that passes every check, and for which there is room, is held: what holds it has changed in the pool and the counters only. -/
theorem fragmentRx_held (hr : FragReaches s now h c) (hx : (s.dev.ctx c).abortable = true) (hgen : chGen h = (s.dev.ctx c).generation)
    (hw : (s.dev.ctx c).awaits h)
    (hok : (s.dev.job (chJob h)).fragStatus ((s.devAt now).bucketOf c) (s.dev.ctx c).frags port h p = none)
    (hnew : (s.dev.ctx c).holds h = false) (hroom : (s.devAt now).stagingAnswer c h p = .taken ∨ s.dev.spillRoom h p) :
    ∃ (e : Dev) (spilled : Bool), e.unpooled = (s.devAt now).unpooled ∧
      Dev.fragmentRx port r h p (s.devAt now) = e.keepFrag c port r h p spilled ∧
      (spilled = true ↔ (s.devAt now).stagingAnswer c h p ≠ .taken) := by
  rw [fragmentRx_reaches port r p hr, ctxFrag_takes _ c port r h p (by simpa) (by simpa) (by simpa) (by simpa) (by simpa),
    ← stagingAnswer_fragSeen]
  obtain ⟨e, spilled, he, htake, hspilled⟩ := takeFrag_held ((s.devAt now).fragSeen h) c port r h p
    (by rwa [stagingAnswer_fragSeen, spillRoom_fragSeen])
  exact ⟨e, spilled, he.trans (unpooled_countJob _ _ _ _), htake, hspilled⟩

/-- One for a context that has ended, of another generation, of a past use or received before is counted as that. -/
theorem fragmentRx_counted {n : Nat} (hr : FragReaches s now h c)
    (hn : ((s.dev.ctx c).state = .aborted ∨ (s.dev.ctx c).state = .resetting) ∧ n = 7 ∨
      (s.dev.ctx c).abortable = true ∧ (genDrop (chGen h) (s.dev.ctx c).generation = some n ∨
        (chGen h = (s.dev.ctx c).generation ∧ n = 3 ∧ chSeq h ≠ (s.dev.ctx c).sequence ∧
          serialAfter 32 (chSeq h) (s.dev.ctx c).sequence = false) ∨
        (chGen h = (s.dev.ctx c).generation ∧ n = 6 ∧ (s.dev.ctx c).awaits h ∧ (s.dev.ctx c).holds h = true ∧
          (s.dev.job (chJob h)).fragStatus ((s.devAt now).bucketOf c) (s.dev.ctx c).frags port h p = none))) :
    Dev.fragmentRx port r h p (s.devAt now) = ((s.devAt now).fragSeen h).countJob (chJob h) n 1 := by
  rw [fragmentRx_reaches port r p hr]
  obtain ⟨hended, rfl⟩ | ⟨hx, hgen | ⟨hgen, rfl, hne, hpast⟩ | ⟨hgen, rfl, hw, hheld, hok⟩⟩ := hn
  · exact ctxFrag_ended _ c port r h p (by simpa)
  · exact ctxFrag_generation _ c port r h p (by simpa) (by simpa)
  · exact ctxFrag_past _ c port r h p (by simpa) (by simpa) (by simpa) (by simpa)
  · exact ctxFrag_again _ c port r h p (by simpa) (by simpa) (by simpa) (by simpa) (by simpa)

/-- One more than three uses ahead aborts its context, as does one that fails a check and one for which there is no room. -/
theorem fragmentRx_fails {st : Nat} (hr : FragReaches s now h c) (hx : (s.dev.ctx c).abortable = true)
    (hgen : chGen h = (s.dev.ctx c).generation) (hbucket : (s.dev.ctx c).bucket ≠ verdictBucket)
    (hst : serialAfter 32 (chSeq h) (s.dev.ctx c).sequence = true ∧ 3 < serialDist 32 (chSeq h) (s.dev.ctx c).sequence ∧
        st = stSeqWindow ∨
      (s.dev.ctx c).awaits h ∧
        ((s.dev.job (chJob h)).fragStatus ((s.devAt now).bucketOf c) (s.dev.ctx c).frags port h p = some st ∨
          (s.dev.job (chJob h)).fragStatus ((s.devAt now).bucketOf c) (s.dev.ctx c).frags port h p = none ∧
            (s.dev.ctx c).holds h = false ∧ (s.devAt now).stagingAnswer c h p ≠ .taken ∧ ¬ s.dev.spillRoom h p ∧ st = stSpillFull)) :
    ∃ t, exec (.fragmentRx port h p now r) s = .next t ∧ Aborted s t c st := by
  have hctxs := ctxs_fragSeen s now h
  have hjobs := jobs_fragSeen s now h
  obtain ⟨hafter, hfar, rfl⟩ | ⟨hw, hbad | ⟨hok, hnew, hstaging, hspill, rfl⟩⟩ := hst
  · exact fragmentRx_aborts port r p hr hbucket (by decide) hctxs hjobs
      (ctxFrag_ahead _ c port r h p (by simpa) (by simpa) (by simpa) (by simpa))
  · exact fragmentRx_aborts port r p hr hbucket (fragStatus_lt hbad) hctxs hjobs
      (ctxFrag_bad _ c port r h p (by simpa) (by simpa) (by simpa) (by simpa))
  · obtain ⟨e, he, hfull⟩ := takeFrag_full ((s.devAt now).fragSeen h) c port r h p (by rwa [stagingAnswer_fragSeen])
      (by rwa [spillRoom_fragSeen])
    have same := unpooled_fields he
    exact fragmentRx_aborts port r p hr hbucket (by decide) (same.1.trans hctxs) (same.2.1.trans hjobs)
      ((ctxFrag_takes _ c port r h p (by simpa) (by simpa) (by simpa) (by simpa) (by simpa)).trans hfull)

end

/-- Settles O20: each fate of a fragment by the branch of `Dev.ctxFrag` that it takes. -/
theorem fragmentsAreHeldDroppedOrAbort : Obligations.FragmentsAreHeldDroppedOrAbort := by
  refine ⟨fun port now c r h p s hjob hctx hkind hop hx hgen hw hok hnew hroom => ?_,
    fun port now n r h p s hn => fragmentRx_dropped port now r h p s rfl (fragmentRx_homeless port now r h p s hn),
    fun port now c n r h p s hjob hctx hkind hop hn => ?_,
    fun port now c st r h p s hjob hctx hkind hop hx hgen hbucket hst => ?_⟩
  · obtain ⟨e, spilled, he, hrx, hspilled⟩ := fragmentRx_held (r := r) ⟨hjob, hctx, hkind, hop⟩ hx hgen hw hok hnew hroom
    obtain ⟨hctxs, hjobs, hports, hfaults, -⟩ := unpooled_fields he
    have ctx : ∀ i, e.ctx i = s.dev.ctx i := ctx_congr (hctxs.trans (to_ctxs _ _))
    have same := ctx_keepFrag_same e c port r h p spilled
    obtain ⟨kjobs, kports, kfaults⟩ := keepFrag_fields e c port r h p spilled
    rw [ctx c] at same
    refine ⟨s.event now (Dev.fragmentRx port r h p), e.fragOf port r h p spilled, rfl, ?_⟩
    rw [event_dev, hrx]
    simp only [noteReady_ctx, noteReady_jobs, noteReady_ports, noteReady_faults]
    exact ⟨(congrArg Ctx.frags same :), rfl, rfl, rfl, rfl, (congrArg Dev.tick he :), rfl, hspilled, (congrArg Ctx.state same :),
      (congrArg Ctx.sequence same :), (congrArg Ctx.generation same :), fun i hi => (ctx_keepFrag_other e hi port r h p spilled).trans (ctx i),
      kjobs.trans (hjobs.trans (to_jobs _ _)), kports.trans (hports.trans (to_ports _ _)), kfaults.trans (hfaults.trans (to_faults _ _))⟩
  · exact fragmentRx_dropped port now r h p s (rest_countJob _ _ _ _) (fragmentRx_counted ⟨hjob, hctx, hkind, hop⟩ hn)
  · refine fragmentRx_fails ⟨hjob, hctx, hkind, hop⟩ hx hgen hbucket ?_
    obtain ⟨hafter, hfar, -, rfl⟩ | ⟨hw, hbad | ⟨hok, hnew, hstaging, hfull, rfl⟩⟩ := hst
    · exact .inl ⟨hafter, hfar, rfl⟩
    · exact .inr ⟨hw, .inl hbad⟩
    · exact .inr ⟨hw, .inr ⟨hok, hnew, hstaging, not_le.mpr hfull, rfl⟩⟩

end Sys2Proof.Machine
end

section
/-! PROOFS. The statement on the state after reset. -/

namespace Sys2Proof.Machine

/-- STEP_STATUS of a job whose steps have not ended (R31). -/
theorem stepStatus_fresh : ({} : Job).stepStatus = 0x000FFFFFFFFFFFFF := by decide

/-- JOB_RECOVERY of a job with no uncommitted step (R378). -/
theorem recovery_fresh : ({} : Job).recovery = 0x0000FFFFFFFFFFFF := by decide

/-- After reset the spare Basins, 48 and 49, are the only units that are listed (R366). -/
theorem unit_reset (u : Nat) : (State.reset.dev.unit u).state = if u = 48 ∨ u = 49 then UnitState.standby else .inService := by
  change (tget {} [(48, { state := .standby }), (49, { state := .standby })] u : UnitSt).state = _
  by_cases h48 : u = 48
  · simp [tget, h48]
  · by_cases h49 : u = 49 <;> simp [tget, h48, h49]

/-- Settles O3: every table of the state after reset but that of the units lists nothing. -/
theorem resetLeavesDefaults : Obligations.ResetLeavesDefaults :=
  ⟨rfl, rfl, rfl, fun _ => ⟨rfl, stepStatus_fresh, recovery_fresh⟩, fun _ => ⟨rfl, rfl, rfl⟩, fun _ => rfl, unit_reset, rfl, rfl, rfl,
    rfl, rfl, rfl, rfl⟩

end Sys2Proof.Machine
end

section
/-! SUPPORT. Packets of the device's own, the records of a use and its abort leave the Keeper alone, but for what a fault record sends. -/

namespace Sys2Proof.Machine

/-- What every step of a fold keeps, the fold keeps. -/
theorem foldl_keeps {α β γ : Type} (P : β → γ) (f : β → α → β) (hf : ∀ b a, P (f b a) = P b) (l : List α) (b : β) :
    P (l.foldl f b) = P b := by
  induction l generalizing b with
  | nil => rfl
  | cons a l ih => rw [List.foldl_cons, ih, hf]

@[simp] theorem keeper_modPort (d : Dev) (p : Nat) (f : Port → Port) : (d.modPort p f).keeper = d.keeper := rfl
@[simp] theorem keeper_modJob (d : Dev) (j : Nat) (f : Job → Job) : (d.modJob j f).keeper = d.keeper := rfl

/-! ### Packets of the device's own (R109, R247, R302) -/

@[simp] theorem keeper_sendTraining (d : Dev) (p r k : Nat) : (d.sendTraining p r k).keeper = d.keeper := by simp [Dev.sendTraining]
@[simp] theorem keeper_exitTraining (d : Dev) (p : Nat) : (d.exitTraining p).keeper = d.keeper :=
  keeper_foldl _ (fun _ _ => keeper_sendTraining _ _ _ _) _ _
@[simp] theorem keeper_endSleep (d : Dev) (p : Nat) : (d.endSleep p).keeper = d.keeper := by simp [Dev.endSleep]
@[simp] theorem keeper_wake (d : Dev) (p : Nat) : (d.wake p).keeper = d.keeper := by simp [Dev.wake]
@[simp] theorem keeper_putVc6 (d : Dev) (f : OwnFrame) : (d.putVc6 f).keeper = d.keeper := by
  simp [Dev.putVc6, Dev.enqueue, Dev.relink, Dev.wrote]

theorem keeper_admitOwn (fs : List OwnFrame) (used : Nat) (held : List Nat) (d : Dev) : (admitOwn fs used held d).1.keeper = d.keeper := by
  induction fs generalizing used held d with
  | nil => rfl
  | cons f r ih =>
    unfold admitOwn
    split
    · rfl
    · split
      · rw [ih, keeper_modPort]
      · split
        · rw [ih, keeper_putVc6]
        · exact ih _ _ _

@[simp] theorem keeper_moveOwn (d : Dev) : d.moveOwn.keeper = d.keeper := by
  unfold Dev.moveOwn
  split
  · rfl
  · have admitted := keeper_admitOwn d.own d.rdmaCells [] { d with own := [] }
    exact admitted
@[simp] theorem keeper_sendOwn (d : Dev) (fs : List OwnFrame) : (d.sendOwn fs).keeper = d.keeper := keeper_moveOwn _
@[simp] theorem keeper_sendVc6 (d : Dev) (p cls job : Nat) (content : Bytes) : (d.sendVc6 p cls job content).keeper = d.keeper := by
  simp [Dev.sendVc6]

/-! ### The abort of a use (R109) -/

@[simp] theorem keeper_sendNotices (d : Dev) (c seq gen step micro status node : Nat) (from' : Option Nat) :
    (d.sendNotices c seq gen step micro status node from').keeper = d.keeper :=
  keeper_foldl _ (fun _ _ => keeper_sendVc6 _ _ _ _ _) _ _

theorem keeper_useLost (d : Dev) (c status : Nat) : (d.useLost c status).keeper = d.keeper :=
  (congrArg Dev.keeper (unaudited_auditUse d c true) :)

theorem sameSessions_abortNoted (d : Dev) (c status node : Nat) : d.sameSessions (d.abortNoted c status node) :=
  sameSessions_trans (sameSessions_of_keeper ((keeper_siltCtx _ _ _).trans (keeper_useLost d c status))) (sameSessions_recordFault _ _)

theorem sameSessions_abortUse (d : Dev) (c status node : Nat) (from' : Option Nat) : d.sameSessions (d.abortUse c status node from') := by
  have shape : d.abortUse c status node from' =
      if from'.isSome && (d.ctx c).forwarded.contains ((d.ctx c).sequence, (d.ctx c).generation) then d.abortNoted c status node
      else (d.abortNoted c status node).sendNotices c (d.ctx c).sequence (d.ctx c).generation (d.useStep c) (d.ctx c).microBatch status node
        from' := rfl
  rw [shape]
  split
  · exact sameSessions_abortNoted d c status node
  · exact sameSessions_trans (sameSessions_abortNoted d c status node) (sameSessions_of_keeper (keeper_sendNotices _ _ _ _ _ _ _ _ _))

end Sys2Proof.Machine
end

section
/-! SUPPORT. What a request that is served leaves behind its reply (R405, R410, R411). -/

namespace Sys2Proof.Machine

/-- The machine on which a served request acts: its datagram has been taken. -/
def State.taking (s : State) (m : GmpMsg) (code : Nat) : Mach := { s.machOf with dev := (s.devAt m.now).taken m code }

theorem rest_taking (s : State) (m : GmpMsg) (code : Nat) : (s.taking m code).dev.rest = (s.devAt m.now).rest :=
  rest_of_quiet (quiet_taken _ _ _)
@[simp] theorem job_taking (s : State) (m : GmpMsg) (code j : Nat) : (s.taking m code).dev.job j = s.dev.job j :=
  (rest_job (rest_taking s m code) j).trans (job_devAt s m.now j)
@[simp] theorem ctx_taking (s : State) (m : GmpMsg) (code c : Nat) : (s.taking m code).dev.ctx c = s.dev.ctx c :=
  (rest_ctx (rest_taking s m code) c).trans (ctx_devAt s m.now c)

section
variable {r : Request} {m : GmpMsg} {s : State} {x : Session} (h : Served r m x (s.devAt m.now))
include h

/-- A served request whose effect keeps the sessions is answered, and its reply touches reports only. -/
theorem gmpCommand_answers {k : Mach} {a : Reply} (ha : r.act m x (s.taking m r.msg) = (k, some a))
    (hs : (s.taking m r.msg).dev.sameSessions k.dev) :
    Answered (gmpCommand r m s) m r.msg a.body ∧ (gmpCommand r m s).dev.rest = k.dev.rest ∧
      (gmpCommand r m s).dev.faults = k.dev.faults := by
  obtain ⟨y, hy⟩ := served_session r m s x h
  obtain ⟨z, hz, -⟩ := sameSessions_some hs hy
  have quiet : (gmpCommand r m s).dev.quiet = k.dev.quiet := by
    rw [gmpCommand_reply r m s x h ha, quiet_noteReady, quiet_gmpReply]
  exact ⟨answered_reply r m s x h ha hz, rest_of_quiet quiet, quiet_faults quiet⟩

/-- One that acts on the device alone. -/
theorem gmpCommand_acts {f : Dev → Dev} {a : Reply} (ha : r.act m x (s.taking m r.msg) = ((s.taking m r.msg).mod f, some a))
    (hs : (s.taking m r.msg).dev.sameSessions (f (s.taking m r.msg).dev)) :
    Answered (gmpCommand r m s) m r.msg a.body ∧ (gmpCommand r m s).dev.rest = (f (s.taking m r.msg).dev).rest ∧
      (gmpCommand r m s).dev.faults = (f (s.taking m r.msg).dev).faults :=
  gmpCommand_answers h ha hs

/-- One whose effect is only its answer changes nothing but reports. -/
theorem gmpCommand_refuses {a : Reply} (ha : r.act m x (s.taking m r.msg) = (s.taking m r.msg, some a)) :
    Answered (gmpCommand r m s) m r.msg a.body ∧ (gmpCommand r m s).dev.rest = (s.devAt m.now).rest := by
  obtain ⟨answered, rest, -⟩ := gmpCommand_answers h ha (sameSessions_refl _)
  exact ⟨answered, rest.trans (rest_taking s m r.msg)⟩

end

end Sys2Proof.Machine
end

section
/-! SUPPORT. How operations carry a job forward: what they make of it but for its books, and what they leave of the sessions, of the other
jobs and of the contexts. -/

namespace Sys2Proof.Machine

/-- A job without its books: the marks of STEP_STATUS and STEP_TIMING, its inflow and remainders, the recipes, the alarms, the provenance,
the logbook, the comparisons of a replay, and the Outflow fragments it holds. -/
def Job.unbooked (x : Job) : Job :=
  { x with stInexact := false, stShr := false, stSpare := false, stComparable := false, tmLag := 0, tmCauses := 0, tmSlackMin := 0,
           causes := 0, inflow := [], rems := [], recipes := [], shr := false, shrCount := 0, alarms := [], erosionRun := 0,
           eroded := false, wdig := [], prov := [], nodeDigests := [], logBatches := [], logSeq := 0, lastSeal := [], least := none,
           divergences := 0, compared := false, diverged := false, norefs := 0, outHeld := [] }

/-- A change of a job that none of its books decides. -/
def Job.Plain (g : Job → Job) : Prop := ∀ x : Job, (g x.unbooked).unbooked = (g x).unbooked

theorem Job.Plain.comp {g f : Job → Job} (hg : Job.Plain g) (hf : Job.Plain f) : Job.Plain (fun x => g (f x)) := fun x => by
  rw [← hg, hf, hg]

/-- A context without its place in the sequence of uses. -/
def Ctx.unplaced (x : Ctx) : Ctx := { x with sequence := 0, microBatch := 0, launched := false }

/-- A context whose reset is requested: RESETTING with nothing held (R92). -/
def Ctx.Emptied (x : Ctx) : Prop := x.state = .resetting ∧ x.frags = [] ∧ x.heldAborts = []

/-- `e` is `d` with job `j` carried forward by `g`, its books apart: every session is as it was but for the messages sent on it, the jobs
outside `js` are untouched, and each context, its place apart, is as it was or has been reset. -/
structure Dev.Carries (js : Set Nat) (j : Nat) (g : Job → Job) (d e : Dev) : Prop where
  sessions : d.sameSessions e
  job : (e.job j).unbooked = (g (d.job j)).unbooked
  others : ∀ i, i ∉ js → e.job i = d.job i
  ctxs : ∀ c, (e.ctx c).unplaced = (d.ctx c).unplaced ∨ (e.ctx c).Emptied ∧ (e.ctx c).job = (d.ctx c).job

theorem emptied_of_unplaced {x y : Ctx} (h : y.unplaced = x.unplaced) (hx : x.Emptied) : y.Emptied :=
  ⟨(congrArg Ctx.state h :).trans hx.1, (congrArg Ctx.frags h :).trans hx.2.1, (congrArg Ctx.heldAborts h :).trans hx.2.2⟩

namespace Dev.Carries

variable {js : Set Nat} {j : Nat} {g : Job → Job} {d e t : Dev}

theorem refl (d : Dev) : Carries js j id d d := ⟨sameSessions_refl d, rfl, fun _ _ => rfl, fun _ => .inl rfl⟩

theorem trans {g' : Job → Job} (h : Carries js j g d e) (h' : Carries js j g' e t) (hg' : Job.Plain g') :
    Carries js j (fun x => g' (g x)) d t where
  sessions := sameSessions_trans h.sessions h'.sessions
  job := calc (t.job j).unbooked
    _ = (g' (e.job j).unbooked).unbooked := h'.job.trans (hg' _).symm
    _ = (g' (g (d.job j)).unbooked).unbooked := by rw [h.job]
    _ = (g' (g (d.job j))).unbooked := hg' _
  others i hi := (h'.others i hi).trans (h.others i hi)
  ctxs c := by
    obtain hc' | hc' := h'.ctxs c
    · have hjob : (t.ctx c).job = (e.ctx c).job := (congrArg Ctx.job hc' :)
      obtain hc | ⟨hc, hcjob⟩ := h.ctxs c
      · exact .inl (hc'.trans hc)
      · exact .inr ⟨emptied_of_unplaced hc' hc, hjob.trans hcjob⟩
    · obtain hc | ⟨-, hcjob⟩ := h.ctxs c
      · exact .inr ⟨hc'.1, hc'.2.trans (congrArg Ctx.job hc :)⟩
      · exact .inr ⟨hc'.1, hc'.2.trans hcjob⟩

/-- What only keeps books goes after anything. -/
theorem books (h : Carries js j g d e) (h' : Carries js j id e t) : Carries js j g d t := h.trans h' (fun _ => rfl)

/-- A job named by `js` is changed. -/
theorem ofModJob {i : Nat} (hi : i ∈ js) (k : Job → Job) (hk : ((d.modJob i k).job j).unbooked = (g (d.job j)).unbooked) :
    Carries js j g d (d.modJob i k) where
  sessions := sameSessions_of_keeper rfl
  job := hk
  others _ hn := job_modJob_other d (ne_of_mem_of_not_mem hi hn).symm k
  ctxs _ := .inl rfl

/-- Only what the change makes of the job at hand counts. -/
theorem congr {g' : Job → Job} (h : Carries js j g d e) (hg : g (d.job j) = g' (d.job j)) : Carries js j g' d e :=
  { h with job := h.job.trans (congrArg Job.unbooked hg) }

theorem modJob {k : Job → Job} (h : Carries js j g d e) (hj : j ∈ js) (hk : Job.Plain k) :
    Carries js j (fun x => k (g x)) d (e.modJob j k) :=
  h.trans (ofModJob hj k (by rw [job_modJob_same])) hk

/-- Books of a job named by `js` are kept. -/
theorem modBooks (h : Carries js j g d e) {i : Nat} (hi : i ∈ js) (k : Job → Job) (hk : ∀ x, (k x).unbooked = x.unbooked) :
    Carries js j g d (e.modJob i k) := by
  refine h.books (ofModJob hi k ?_)
  by_cases hij : j = i
  · subst hij
    rw [job_modJob_same]
    exact hk _
  · rw [job_modJob_other e hij]
    rfl

/-- An operation that touches neither the Keeper nor a job or a context. -/
theorem tables (h : Carries js j g d e) (hkeeper : t.keeper = e.keeper) (hjobs : t.jobs = e.jobs) (hctxs : t.ctxs = e.ctxs) :
    Carries js j g d t :=
  h.books ⟨sameSessions_of_keeper hkeeper, congrArg Job.unbooked (job_congr hjobs j), fun i _ => job_congr hjobs i,
    fun c => .inl (congrArg Ctx.unplaced (ctx_congr hctxs c))⟩

theorem countJob (h : Carries js j g d e) (i k n : Nat) : Carries js j g d (e.countJob i k n) :=
  h.tables (keeper_countJob _ _ _ _) (jobs_countJob _ _ _ _) (ctxs_countJob _ _ _ _)

theorem siltWrite (h : Carries js j g d e) (m : SiltMsg) (n : Nat) : Carries js j g d (e.siltWrite m n) := by
  obtain ⟨-, hctxs, hjobs, -⟩ := rest_fields (rest_siltWrite e m n)
  exact h.tables (keeper_siltWrite _ _ _) hjobs hctxs

theorem recordFault (h : Carries js j g d e) (r : FaultRec) : Carries js j g d (e.recordFault r) := by
  have same := rest_recordFault e r
  exact h.books ⟨sameSessions_recordFault e r, congrArg Job.unbooked (rest_job same j), fun i _ => rest_job same i,
    fun c => .inl (congrArg Ctx.unplaced (rest_ctx same c))⟩

theorem modCtx (h : Carries js j g d e) (c : Nat) (k : Ctx → Ctx) (hk : ∀ x, (k x).unplaced = x.unplaced) :
    Carries js j g d (e.modCtx c k) := by
  refine h.books ⟨sameSessions_of_keeper rfl, rfl, fun _ _ => rfl, fun i => .inl ?_⟩
  by_cases hi : i = c
  · subst hi
    rw [ctx_modCtx_same, hk]
  · rw [ctx_modCtx_other _ hi]

theorem ite {p : Prop} [Decidable p] {e' : Dev} (h : Carries js j g d e) (h' : Carries js j g d e') :
    Carries js j g d (if p then e else e') := by
  split
  · exact h
  · exact h'

/-- A fold of operations that keep books. -/
theorem foldl {α : Type} (h : Carries js j g d e) (f : Dev → α → Dev) (hf : ∀ d a, Carries js j id d (f d a)) (l : List α) :
    Carries js j g d (l.foldl f e) := by
  induction l generalizing e with
  | nil => exact h
  | cons a l ih => exact ih (h.books (hf e a))

/-- Of a context that leaves its state for another, the reset is requested. -/
theorem emptied {c : Nat} (h : Carries js j g d e) (hne : (e.ctx c).state ≠ (d.ctx c).state) : (e.ctx c).Emptied := by
  obtain hc | ⟨hc, -⟩ := h.ctxs c
  · exact absurd (congrArg Ctx.state hc :) hne
  · exact hc

theorem ctx_job (h : Carries js j g d e) (c : Nat) : (e.ctx c).job = (d.ctx c).job := by
  obtain hc | ⟨-, hc⟩ := h.ctxs c
  · exact (congrArg Ctx.job hc :)
  · exact hc

/-- A context that is RESETTING stays so. -/
theorem resetting {c : Nat} (h : Carries js j g d e) (hc : (d.ctx c).state = .resetting) : (e.ctx c).state = .resetting := by
  obtain same | ⟨hempty, -⟩ := h.ctxs c
  · exact (congrArg Ctx.state same :).trans hc
  · exact hempty.1

/-- One that is not FREE does not become so. -/
theorem not_free {c : Nat} (h : Carries js j g d e) (hc : (d.ctx c).state ≠ .free) : (e.ctx c).state ≠ .free := by
  obtain same | ⟨hempty, -⟩ := h.ctxs c
  · rwa [show (e.ctx c).state = (d.ctx c).state from (congrArg Ctx.state same :)]
  · rw [hempty.1]
    decide

end Dev.Carries

end Sys2Proof.Machine
end

section
/-! SUPPORT. The end of a step carries its job forward: its status, its batch, its alarms and recipes, its comparisons (R31, R177, R346 to
R355). -/

namespace Sys2Proof.Machine

/-- A job whose STEP_STATUS describes an ended step, its marks apart (R31). -/
def Job.withStatus (step outcome : Nat) (x : Job) : Job := { x with lastEnded := step, stStep := step, stOutcome := outcome }

theorem wrap_eq (x : Job) (now : Nat) : x.wrap now =
    { x with state := (x.wrap now).state, haltCause := (x.wrap now).haltCause, haltTick := (x.wrap now).haltTick,
             launch := (x.wrap now).launch, stopped := (x.wrap now).stopped, runSection := (x.wrap now).runSection } := by
  unfold Job.wrap
  split <;> rfl

theorem plain_wrap (now : Nat) : Job.Plain (·.wrap now) := by
  intro x
  change (if x.nextStep = noStep then _ else _ : Job).unbooked = (if x.nextStep = noStep then _ else _ : Job).unbooked
  split <;> rfl

theorem plain_nextUp (step now : Nat) : Job.Plain (fun y => y.keepProv.nextUp step now) :=
  (plain_wrap now).comp (fun _ => rfl)

namespace Dev.Carries

variable {js : Set Nat} {j : Nat} {g : Job → Job} {d e : Dev}

theorem writeStatus (h : Carries js j g d e) (hj : j ∈ js) (step outcome : Nat) (shr : Bool) :
    Carries js j (fun x => (g x).withStatus step outcome) d (e.writeStatus j step outcome shr) :=
  h.trans (ofModJob hj _ (by rw [job_modJob_same]; rfl)) (fun _ => rfl)

theorem dropCompare (h : Carries js j g d e) (hj : j ∈ js) : Carries js j g d (e.modJob j Job.dropCompare) :=
  h.modBooks hj _ (fun _ => rfl)

theorem logBatch (h : Carries js j g d e) (hj : j ∈ js) (step : Nat) (head : Bytes) (rest : List (Nat × Bytes)) :
    Carries js j g d (e.logBatch j step head rest) := by
  unfold Dev.logBatch
  dsimp only
  split
  · exact h
  · exact ((h.modBooks hj _ (fun _ => by rfl)).countJob _ _ _).countJob _ _ _

theorem erosion (h : Carries js j g d e) (hj : j ∈ js) : Carries js j g d (e.erosion j) := by
  have counts (n : Nat) : Carries js j g d (e.modJob j (fun x => { x with erosionRun := n })) := h.modBooks hj _ (fun _ => rfl)
  have clears : Carries js j g d (e.modJob j (fun x => { x with erosionRun := 0, eroded := false })) := h.modBooks hj _ (fun _ => rfl)
  unfold Dev.erosion
  dsimp only
  exact .ite (.ite (((counts _).modBooks hj _ (fun _ => by rfl)).recordFault _) (counts _)) (.ite (clears.recordFault _) clears)

theorem endRecords (h : Carries js j g d e) (hj : j ∈ js) (step : Nat) (rest : List (Nat × Bytes)) :
    Carries js j g d (e.endRecords j step rest) := by
  unfold Dev.endRecords
  dsimp only
  refine (erosion ?_ hj).modBooks hj _ (fun _ => by rfl)
  split
  · exact (h.logBatch hj _ _ _).recordFault _
  · exact h.logBatch hj _ _ _

theorem sample (h : Carries js j g d e) (q inst v : Nat) : Carries js j g d (e.sample q inst v) := h.tables rfl rfl rfl

theorem reportAlarm (h : Carries js j g d e) (i step t alarm : Nat) (site raised : Bool) (run : Nat) (c : Cond) :
    Carries js j g d (e.reportAlarm i step t alarm site raised run c) :=
  (h.siltWrite _ _).recordFault _

theorem evalAlarm (h : Carries js j g d e) (hj : j ∈ js) (t alarm : Nat) (site : Bool) :
    Carries js j g d (e.evalAlarm j t alarm site) := by
  unfold Dev.evalAlarm
  dsimp only
  split
  · exact h
  · split
    · exact (h.modBooks hj _ (fun _ => by rfl)).reportAlarm _ _ _ _ _ _ _ _
    · exact h.modBooks hj _ (fun _ => by rfl)

theorem evalAlarms (h : Carries js j g d e) (hj : j ∈ js) : Carries js j g d (e.evalAlarms j) := by
  unfold Dev.evalAlarms
  dsimp only
  refine h.foldl _ (fun d t => (refl d).foldl _ (fun d a => ?_) _) _
  have owner := ((refl (js := js) d).evalAlarm hj t a false).ite (p := (e.job j).ownedTensors.contains t) (refl d)
  exact .ite (owner.evalAlarm hj _ _ _) owner

theorem auditPut (h : Carries js j g d e) (r : Bytes) : Carries js j g d (e.auditPut r) := by
  have same := unaudited_auditPut e r
  obtain ⟨hctxs, hjobs, -⟩ := unaudited_fields same
  exact h.tables (congrArg Dev.keeper same :) hjobs hctxs

theorem auditOutflow (h : Carries js j g d e) (i step : Nat) : Carries js j g d (e.auditOutflow i step) :=
  (h.foldl _ (fun d _ => (refl d).auditPut _) _).tables rfl rfl rfl

theorem settleCompare (h : Carries js j g d e) (hj : j ∈ js) (shr : Bool) : Carries js j g d (e.settleCompare j shr) := by
  unfold Dev.settleCompare
  dsimp only
  split
  · exact (h.countJob _ _ _).dropCompare hj
  · exact h.countJob _ _ _

theorem reportHistory (h : Carries js j g d e) (i step : Nat) (refilled : Bool) : Carries js j g d (e.reportHistory i step refilled) :=
  (h.siltWrite _ _).recordFault _

theorem countHistory (h : Carries js j g d e) (hj : j ∈ js) (step : Nat) : Carries js j g d (e.countHistory j step) := by
  unfold Dev.countHistory
  dsimp only
  split
  · exact h
  · split
    · exact h.modBooks hj _ (fun _ => by rfl)
    · exact (h.modBooks hj _ (fun _ => by rfl)).reportHistory _ _ _

/-- A step that ends at its commit token: STEP_STATUS describes it, and the job is at the next step (R25, R31, R376). -/
theorem endStep (h : Carries js j g d e) (hj : j ∈ js) (outcome : Nat) (shr : Bool) :
    ∃ now, Carries js j (fun x => ((g x).withStatus (e.job j).rcStep outcome).keepProv.nextUp (e.job j).rcStep now) d
      (e.endStep j outcome shr) := by
  unfold Dev.endStep
  dsimp only
  refine ⟨_, modJob (k := fun y => y.keepProv.nextUp (e.job j).rcStep _) (books ?_ (.ite ((refl _).countHistory hj _) (refl _))) hj ?_⟩
  · refine modBooks (auditOutflow (endRecords ?_ hj _ _) _ _) hj _ (fun y => by split <;> rfl)
    exact (((h.settleCompare hj _).writeStatus hj _ _ _).sample _ _ _).evalAlarms hj
  · exact plain_nextUp _ _

end Dev.Carries

end Sys2Proof.Machine
end

section
/-! PROOFS. The statement on the commit token (R25, R31, R32, R376). -/

namespace Sys2Proof.Machine

/-- The outcome that a commit token gives a step: a device of the result list writes its own (R32). -/
def Job.commitOutcome (x : Job) (token : Nat) : Nat :=
  if x.onList then (x.vres.map VerdictRes.outcome).getD 0 else token % 16

/-- The scale_history_reset that goes with it (R32). -/
def Job.commitShr (x : Job) (token : Nat) : Bool := if x.onList then x.shr else bit token 4

section
variable (m : GmpMsg) (x : Session) {k : Mach}

theorem commitRequest_ends (hstep : (k.dev.job (u8 m.body 0)).rcStep ≠ noStep)
    (hthis : fld m.body 2 6 = (k.dev.job (u8 m.body 0)).rcStep) (hphase : (k.dev.job (u8 m.body 0)).rcPhase = 5) :
    commitRequest.act m x k = (k.mod (·.endStep (u8 m.body 0) ((k.dev.job (u8 m.body 0)).commitOutcome (u8 m.body 1))
      ((k.dev.job (u8 m.body 0)).commitShr (u8 m.body 1))), some {}) := by
  by_cases hlist : (k.dev.job (u8 m.body 0)).onList <;>
    simp [commitRequest, onDev, Mach.mod, Job.commitOutcome, Job.commitShr, hstep, hthis, hphase, hlist]

theorem commitRequest_otherStep
    (hstep : (k.dev.job (u8 m.body 0)).rcStep = noStep ∨ fld m.body 2 6 ≠ (k.dev.job (u8 m.body 0)).rcStep) :
    commitRequest.act m x k = (k, some { status := stCommitStep }) := by
  simp [commitRequest, onDev, hstep]

theorem commitRequest_early (hstep : (k.dev.job (u8 m.body 0)).rcStep ≠ noStep)
    (hthis : fld m.body 2 6 = (k.dev.job (u8 m.body 0)).rcStep) (hphase : (k.dev.job (u8 m.body 0)).rcPhase ≠ 5) :
    commitRequest.act m x k = (k, some { status := stCommitEarly }) := by
  simp [commitRequest, onDev, hstep, hthis, hphase]

end

/-- What a step's end leaves of its job (R25, R31, R376). -/
theorem nextUp_fields (x : Job) (step outcome now : Nat) {y : Job}
    (hy : y.unbooked = ((x.withStatus step outcome).keepProv.nextUp step now).unbooked) :
    y.stStep = step ∧ y.stOutcome = outcome ∧ y.rcStep = noStep ∧ y.rcPhase = 0 ∧ y.nextStep = step + 1 ∧ y.lastEnded = step := by
  rw [Job.nextUp, wrap_eq] at hy
  exact ⟨(congrArg Job.stStep hy :), (congrArg Job.stOutcome hy :), (congrArg Job.rcStep hy :), (congrArg Job.rcPhase hy :),
    (congrArg Job.nextStep hy :), (congrArg Job.lastEnded hy :)⟩

/-- Settles O16: a token that finds its step at OUTFLOW_DONE carries the job to its next step, and every other one is refused. -/
theorem commitEndsTheStep : Obligations.CommitEndsTheStep := by
  refine ⟨fun m s x h hstep hthis hphase => ?_, fun m s x h hstep => ?_, fun m s x h hstep hthis hphase => ?_⟩
  · have ends := commitRequest_ends m x (k := s.taking m 0x0032) (by simpa) (by simpa) (by simpa)
    obtain ⟨now, carried⟩ := (Dev.Carries.refl (js := {u8 m.body 0}) (j := u8 m.body 0) (s.taking m 0x0032).dev).endStep rfl
      ((s.dev.job (u8 m.body 0)).commitOutcome (u8 m.body 1)) ((s.dev.job (u8 m.body 0)).commitShr (u8 m.body 1))
    rw [job_taking] at ends
    obtain ⟨answered, rest, -⟩ := gmpCommand_acts h ends carried.sessions
    have job := carried.job
    rw [job_taking, ← hthis] at job
    obtain ⟨hst, hout, hrc, hph, hnext, hlast⟩ := nextUp_fields _ _ _ _ job
    refine ⟨gmpCommand commitRequest m s, rfl, answered, ?_⟩
    simp only [rest_job rest]
    exact ⟨hst, hout, hrc, hph, hnext, hlast, fun j hj => (carried.others j hj).trans (job_taking _ _ _ _)⟩
  · exact ⟨_, rfl, gmpCommand_refuses h (commitRequest_otherStep m x (by simpa))⟩
  · exact ⟨_, rfl, gmpCommand_refuses h (commitRequest_early m x (by simpa) (by simpa) (by simpa))⟩

end Sys2Proof.Machine
end

section
/-! SUPPORT. Context resets and the abandonment of a step carry its job forward (R29, R31, R92, R380). -/

namespace Sys2Proof.Machine

/-- An entry that is not the default is listed. -/
theorem mem_of_tget_ne {α : Type} {d : α} {t : Table α} {i : Nat} (h : tget d t i ≠ d) : (i, tget d t i) ∈ t := by
  induction t with
  | nil => exact absurd rfl h
  | cons e r ih =>
    obtain ⟨k, w⟩ := e
    by_cases hk : i = k
    · simp [tget, hk]
    · simp only [tget, hk, if_false] at h ⊢
      exact List.mem_cons_of_mem _ (ih h)

/-- A job's contexts that are not FREE are listed among them. -/
theorem mem_ctxsOf {d : Dev} {j c : Nat} (hfree : (d.ctx c).state ≠ .free) (hjob : (d.ctx c).job = j) : c ∈ d.ctxsOf j := by
  have listed : (c, d.ctx c) ∈ d.ctxs := mem_of_tget_ne (fun h => hfree (congrArg Ctx.state h))
  exact List.mem_map.mpr ⟨_, List.mem_filter.mpr ⟨listed, by simp [hfree, hjob]⟩, rfl⟩

theorem plain_halt (cause now : Nat) : Job.Plain (·.halt cause now) := fun _ => rfl
theorem plain_rewind : Job.Plain Job.rewind := fun _ => rfl
theorem plain_withStatus (step outcome : Nat) : Job.Plain (·.withStatus step outcome) := fun _ => rfl

namespace Dev.Carries

variable {js : Set Nat} {j : Nat} {g : Job → Job} {d e : Dev}

theorem markJob (h : Carries js j g d e) {i : Nat} (hi : i ∈ js) (cause : Nat) : Carries js j g d (e.markJob i cause) := by
  unfold Dev.markJob
  dsimp only
  exact .ite ((h.modBooks hi _ (fun _ => by rfl)).siltWrite _ _) h

theorem markSteps (h : Carries Set.univ j g d e) (cause : Nat) : Carries Set.univ j g d (e.markSteps cause) :=
  h.foldl _ (fun _ _ => (refl _).markJob (Set.mem_univ _) _) _

theorem dropOutflow (h : Carries js j g d e) (hj : j ∈ js) : Carries js j g d (e.dropOutflow j) :=
  modBooks (h.tables (t := e.poolFree _) rfl rfl rfl) hj _ (fun _ => by rfl)

theorem audit (h : Carries js j g d e) (a : Audit) : Carries js j g d { e with audit := a } := h.tables rfl rfl rfl

theorem rewindCtxs (h : Carries js j g d e) (i : Nat) : Carries js j g d (e.rewindCtxs i) :=
  h.foldl _ (fun _ _ => .ite ((refl _).modCtx _ _ (fun _ => by rfl)) (refl _)) _

/-- A context whose use is aborted where it still could be, and which then holds nothing. -/
theorem emptyCtx (h : Carries Set.univ j g d e) (c node : Nat) (k : Ctx → Ctx) (hk : ∀ x, (k x).Emptied ∧ (k x).job = x.job)
    (p : Holding → Bool) (aborted : Prop) [Decidable aborted] :
    Carries Set.univ j g d (((if aborted then e else e.abortUse c stCtxReset node none).poolFree p).modCtx c k) := by
  generalize ht : (if aborted then e else e.abortUse c stCtxReset node none) = t
  have same : e.sameSessions t ∧ (t.job j).unbooked = (e.job j).unbooked ∧ (t.ctx c).job = (e.ctx c).job ∧
      ∀ i, i ≠ c → t.ctx i = e.ctx i := by
    split at ht
    · subst ht
      exact ⟨sameSessions_refl _, rfl, rfl, fun _ _ => rfl⟩
    · subst ht
      refine ⟨sameSessions_abortUse _ _ _ _ _, ?_, by rw [ctx_abortUse_same]; rfl, fun i hi => ctx_abortUse_other _ hi _ _ _⟩
      rw [job_abortUse]
      split <;> rfl
  obtain ⟨sessions, job, ctx, others⟩ := same
  refine h.books ⟨sameSessions_trans sessions (sameSessions_of_keeper rfl), job, fun i hi => absurd trivial hi, fun i => ?_⟩
  by_cases hi : i = c
  · subst hi
    rw [ctx_modCtx_same]
    exact .inr ⟨(hk _).1, (hk _).2.trans ctx⟩
  · rw [ctx_modCtx_other _ hi]
    exact .inl (congrArg Ctx.unplaced (others i hi))

theorem resetCtx (h : Carries Set.univ j g d e) (c : Nat) : Carries Set.univ j g d (e.resetCtx c) := by
  unfold Dev.resetCtx
  dsimp only
  refine .ite h (markSteps (siltWrite (emptyCtx h c _ _ (fun x => ?_) _ _) _ _) 3)
  exact ⟨⟨rfl, rfl, rfl⟩, rfl⟩

end Dev.Carries

/-- A context that is reset is RESETTING. -/
theorem resetCtx_resetting (d : Dev) {c : Nat} (hfree : (d.ctx c).state ≠ .free) : ((d.resetCtx c).ctx c).state = .resetting := by
  unfold Dev.resetCtx
  dsimp only
  split
  · next hover => simpa [hfree] using hover
  · refine (((Dev.Carries.refl (j := 0) _).siltWrite _ _).markSteps 3).resetting ?_
    rw [ctx_modCtx_same]

/-- Each context of a list that is reset is RESETTING. -/
theorem foldl_resetCtx_resetting {c : Nat} {l : List Nat} {d : Dev} (hfree : (d.ctx c).state ≠ .free) (hc : c ∈ l) :
    ((l.foldl (fun d c => d.resetCtx c) d).ctx c).state = .resetting := by
  induction l generalizing d with
  | nil => exact absurd hc List.not_mem_nil
  | cons a l ih =>
    have first : Dev.Carries Set.univ 0 id d (d.resetCtx a) := (Dev.Carries.refl d).resetCtx a
    obtain rfl | hl := List.mem_cons.mp hc
    · exact ((Dev.Carries.refl (j := 0) _).foldl _ (fun _ _ => (Dev.Carries.refl _).resetCtx _) l).resetting (resetCtx_resetting d hfree)
    · exact ih (first.not_free hfree) hl

/-! ### Abandonment (R380) -/

/-- The device of an abandoned step once its job is halted and the job's contexts are reset (R380 items 1 and 2). -/
def Dev.stepStopped (d : Dev) (j : Nat) : Dev :=
  ((d.modJob j (·.halt 2 d.time)).ctxsOf j).foldl (fun d c => d.resetCtx c) (d.modJob j (·.halt 2 d.time))

theorem stepStopped_carries (d : Dev) (j : Nat) : Dev.Carries Set.univ j (·.halt 2 d.time) d (d.stepStopped j) :=
  ((Dev.Carries.refl d).modJob (Set.mem_univ j) (plain_halt 2 d.time)).foldl _ (fun _ _ => (Dev.Carries.refl _).resetCtx _) _

theorem abandonStep_of_stopped (d : Dev) (j : Nat) :
    Dev.Carries Set.univ j (fun x => (x.withStatus (d.job j).rcStep 3).rewind) (d.stepStopped j) (d.abandonStep j) := by
  have hj := Set.mem_univ j
  unfold Dev.abandonStep
  dsimp only
  refine .recordFault (.audit (.dropOutflow (.modJob (.endRecords ?_ hj _ _) hj plain_rewind) hj) _) _
  exact .writeStatus (.dropCompare (.rewindCtxs (.refl _) j) hj) hj _ _ _

/-- An abandoned step leaves its job HALTED with STEP_STATUS describing the step, and as it was before the launch (R29, R31, R380). -/
theorem abandonStep_carries (d : Dev) (j : Nat) :
    Dev.Carries Set.univ j (fun x => ((x.halt 2 d.time).withStatus (d.job j).rcStep 3).rewind) d (d.abandonStep j) :=
  (stepStopped_carries d j).trans (abandonStep_of_stopped d j) (plain_rewind.comp (plain_withStatus _ _))

/-- Every context of the job is reset. -/
theorem abandonStep_resetting (d : Dev) {j c : Nat} (hfree : (d.ctx c).state ≠ .free) (hjob : (d.ctx c).job = j) :
    ((d.abandonStep j).ctx c).state = .resetting :=
  (abandonStep_of_stopped d j).resetting (foldl_resetCtx_resetting hfree (mem_ctxsOf hfree hjob))

/-! ### Aborts and resets by request (R92, R109) -/

/-- The abort of a use, of a Verdict's too, is that of a use which at most abandons the step besides (R149). -/
theorem abortCtx_carries (d : Dev) (c status node : Nat) (from' : Option Nat) :
    ∃ g, Dev.Carries Set.univ (d.ctx c).job g (d.abortUse c status node from') (d.abortCtx c status node from') := by
  unfold Dev.abortCtx
  dsimp only
  split
  · exact ⟨_, abandonStep_carries _ _⟩
  · exact ⟨_, .refl _⟩

/-- What GMP_CTX_RESET does to a context: a use that still can be aborted is aborted before (R92). -/
def Dev.resetByRequest (d : Dev) (c : Nat) : Dev :=
  (if (d.ctx c).abortable then d.abortCtx c stCtxReset (d.ownNode c) none else d).resetCtx c

/-- The reset of a context that had ended its use, and what came between, leave it with nothing held. -/
theorem resetCtx_of_ended {d e : Dev} {j c : Nat} {g : Job → Job} (carried : Dev.Carries Set.univ j g d e)
    (hfree : (d.ctx c).state ≠ .free) (hreset : (d.ctx c).state ≠ .resetting) :
    d.sameSessions (e.resetCtx c) ∧ ((e.resetCtx c).ctx c).Emptied ∧ ((e.resetCtx c).ctx c).job = (d.ctx c).job := by
  have resetting := resetCtx_resetting e (carried.not_free hfree)
  have through := carried.resetCtx c
  refine ⟨through.sessions, through.emptied ?_, through.ctx_job c⟩
  rw [resetting]
  exact hreset.symm

/-- A context that is reset by request is RESETTING with nothing held. -/
theorem resetByRequest_emptied (d : Dev) {c : Nat} (hfree : (d.ctx c).state ≠ .free) (hreset : (d.ctx c).state ≠ .resetting) :
    d.sameSessions (d.resetByRequest c) ∧ ((d.resetByRequest c).ctx c).Emptied ∧ ((d.resetByRequest c).ctx c).job = (d.ctx c).job := by
  unfold Dev.resetByRequest
  split
  · obtain ⟨g, carried⟩ := abortCtx_carries d c stCtxReset (d.ownNode c) none
    have ctx := ctx_abortUse_same d c stCtxReset (d.ownNode c) none
    have aborted : ((d.abortUse c stCtxReset (d.ownNode c) none).ctx c).state = .aborted := (congrArg Ctx.state ctx :)
    obtain ⟨sessions, emptied, job⟩ := resetCtx_of_ended (c := c) carried (by simp [aborted]) (by simp [aborted])
    exact ⟨sameSessions_trans (sameSessions_abortUse _ _ _ _ _) sessions, emptied, job.trans (congrArg Ctx.job ctx :)⟩
  · exact resetCtx_of_ended (.refl (j := (d.ctx c).job) d) hfree hreset

end Sys2Proof.Machine
end

section
/-! SUPPORT. A job that GMP_JOB_HALT halts, and the answers to the halts that waited (R41, R379). -/

namespace Sys2Proof.Machine

/-- The job whose step's partial state is gone, its sequencer stopped (R41). -/
def Job.stoppedShort (x : Job) : Job :=
  { x.discardStep with
    rcStep := noStep, rcPhase := 0, rootCommitted := false, verdictRaised := false, runSection := none, stopped := true }

/-- The job whose uncommitted step ends INTERRUPTED (R31, R41). -/
def Job.interrupted (x : Job) : Job := if x.rcStep = noStep then x else (x.withStatus x.rcStep 4).stoppedShort

/-- The halted job of an owner that is lost (R379). -/
def Job.ownerLost (x : Job) : Job := { x with haltCause := 5, launch := none }

/-- The job that is halted, by the bits owner_lost and verdict_done of the request (R41, R379). -/
def Job.haltedBy : Bool → Bool → Nat → Job → Job
  | false, _, now, x => x.gmpHalt now
  | true, false, now, x => (x.gmpHalt now).ownerLost
  | true, true, now, x => (x.gmpHalt now).ownerLost.interrupted

theorem gmpHalt_halted {x : Job} (h : x.state = .halted) (now : Nat) : x.gmpHalt now = x := by simp [Job.gmpHalt, h]

theorem gmpHalt_going {x : Job} (h : x.state ≠ .halted) (now : Nat) :
    x.gmpHalt now = { x.halt 1 now with stopped := !x.inUpdate, runSection := if x.inUpdate then x.runSection else none } := by
  simp [Job.gmpHalt, h]

@[simp] theorem state_gmpHalt (x : Job) (now : Nat) : (x.gmpHalt now).state = .halted := by
  by_cases h : x.state = .halted
  · rw [gmpHalt_halted h, h]
  · rw [gmpHalt_going h]
    rfl

@[simp] theorem inUpdate_gmpHalt (x : Job) (now : Nat) : (x.gmpHalt now).inUpdate = x.inUpdate := by
  by_cases h : x.state = .halted
  · rw [gmpHalt_halted h]
  · rw [gmpHalt_going h]
    rfl

theorem plain_gmpHalt (now : Nat) : Job.Plain (·.gmpHalt now) := fun x => by
  dsimp only
  by_cases h : x.state = .halted
  · rw [gmpHalt_halted h, gmpHalt_halted (x := x.unbooked) h]
    rfl
  · rw [gmpHalt_going h, gmpHalt_going (x := x.unbooked) h]
    rfl

theorem interrupted_fields (x : Job) : x.interrupted.state = x.state ∧ x.interrupted.haltCause = x.haltCause ∧
    (x.inUpdate = false → x.interrupted.inUpdate = false) := by
  unfold Job.interrupted
  split
  · exact ⟨rfl, rfl, id⟩
  · exact ⟨rfl, rfl, fun _ => rfl⟩

theorem plain_interrupted : Job.Plain Job.interrupted := fun x => by
  unfold Job.interrupted
  rw [show x.unbooked.rcStep = x.rcStep from rfl]
  split <;> rfl

section
variable (lost done : Bool) (now : Nat) (x : Job)

theorem state_haltedBy : (x.haltedBy lost done now).state = .halted := by
  cases lost
  · exact state_gmpHalt x now
  · cases done
    · exact state_gmpHalt x now
    · exact (interrupted_fields _).1.trans (state_gmpHalt x now)

theorem inUpdate_haltedBy (h : x.inUpdate = false) : (x.haltedBy lost done now).inUpdate = false := by
  have halted : (x.gmpHalt now).inUpdate = false := (inUpdate_gmpHalt x now).trans h
  cases lost
  · exact halted
  · cases done
    · exact halted
    · exact (interrupted_fields _).2.2 halted

theorem haltCause_haltedBy_lost : (x.haltedBy true done now).haltCause = 5 := by
  cases done
  · rfl
  · exact (interrupted_fields _).2.1

theorem haltCause_haltedBy_kept (h : x.state ≠ .halted) : (x.haltedBy false done now).haltCause = 1 :=
  (congrArg Job.haltCause (gmpHalt_going h now) :)

end

namespace Dev.Carries

variable {js : Set Nat} {j : Nat} {g : Job → Job} {d e : Dev}

theorem interrupt (h : Carries js j g d e) (hj : j ∈ js) : Carries js j (fun x => (g x).interrupted) d (e.interrupt j) := by
  refine h.trans ?_ plain_interrupted
  unfold Dev.interrupt
  dsimp only
  split
  · next hstep => exact (refl e).congr (by simp [Job.interrupted, hstep])
  · next hstep =>
    refine congr (g := fun x => (x.withStatus (e.job j).rcStep 4).stoppedShort) (.audit (.foldl (.dropOutflow ?_ hj) _ ?_ _) _) ?_
    · refine .modJob (.endRecords (.writeStatus (.dropCompare (refl e) hj) hj _ _ _) hj _ _) hj ?_
      exact fun _ => rfl
    · exact fun _ _ => (refl _).modCtx _ _ (fun _ => by rfl)
    · simp [Job.interrupted, hstep]

/-- GMP_JOB_HALT's change of a job (R41, R379). -/
theorem haltJob (h : Carries js j g d e) (hj : j ∈ js) (lost done : Bool) :
    Carries js j (fun x => (g x).haltedBy lost done e.time) d (e.haltJob j lost done) := by
  have halted := h.modJob hj (plain_gmpHalt e.time)
  have owner := halted.modJob hj (k := Job.ownerLost) (fun _ => rfl)
  unfold Dev.haltJob
  cases lost
  · exact halted
  · cases done
    · exact owner
    · simp only [if_true, Bool.and_self]
      exact owner.interrupt hj

end Dev.Carries

/-! ### The answers (R379, R410, R411) -/

/-- Whether what a halt waits for is over. -/
def Dev.haltOver (d : Dev) (w : Nat × Nat × Nat) : Bool :=
  if w.1 = 256 then d.jobs.all (fun e => !e.2.updating) else !(d.job w.1).updating

/-- The answer to a halt that waited: a dump's, or the job's JOB_RECOVERY. -/
def Dev.answerHalt (d : Dev) (w : Nat × Nat × Nat) : Dev :=
  if w.1 = 256 then (d.openDump w.2.1 1).1.gmpReply w.2.1 0x0060 w.2.2 (d.openDump w.2.1 1).2.body
  else d.gmpReply w.2.1 0x0034 w.2.2 ({ payload := leBytes 8 (d.job w.1).recovery } : Reply).body

theorem haltDone_eq (d : Dev) : d.haltDone =
    (d.keeper.haltWaits.filter d.haltOver).foldl Dev.answerHalt
      (d.modKeeper (fun k => { k with haltWaits := k.haltWaits.filter (fun w => !d.haltOver w) })) := rfl

@[simp] theorem jobs_gmpReply (d : Dev) (n msg tag : Nat) (b : Bytes) : (d.gmpReply n msg tag b).jobs = d.jobs :=
  (rest_fields (rest_gmpReply d n msg tag b)).2.2.1

theorem jobs_answerHalt (d : Dev) (w : Nat × Nat × Nat) : (d.answerHalt w).jobs = d.jobs := by
  unfold Dev.answerHalt
  split
  · rw [jobs_gmpReply]
    rfl
  · rw [jobs_gmpReply]

theorem jobs_foldl_answerHalt (l : List (Nat × Nat × Nat)) (d : Dev) : (l.foldl Dev.answerHalt d).jobs = d.jobs :=
  foldl_keeps Dev.jobs _ jobs_answerHalt l d

theorem jobs_haltDone (d : Dev) : d.haltDone.jobs = d.jobs := by
  rw [haltDone_eq, jobs_foldl_answerHalt]
  rfl

/-- A reply opens and closes no session. -/
theorem session_isSome_gmpReply (d : Dev) (k msg tag : Nat) (b : Bytes) (n : Nat) :
    ((d.gmpReply k msg tag b).session n).isSome = (d.session n).isSome := by
  unfold Dev.gmpReply
  split
  · rfl
  · rw [session_modSession, session_gmpSend]
    · simp
    · exact fun _ => rfl

theorem session_isSome_answerHalt (d : Dev) (w : Nat × Nat × Nat) (n : Nat) :
    ((d.answerHalt w).session n).isSome = (d.session n).isSome := by
  unfold Dev.answerHalt
  split <;> rw [session_isSome_gmpReply]
  rfl

theorem session_isSome_foldl_answerHalt (l : List (Nat × Nat × Nat)) (d : Dev) (n : Nat) :
    ((l.foldl Dev.answerHalt d).session n).isSome = (d.session n).isSome :=
  foldl_keeps (fun d => (d.session n).isSome) _ (fun d w => session_isSome_answerHalt d w n) l d

theorem jobs_waitHalt (d : Dev) (j n tag : Nat) : (d.waitHalt j n tag).jobs = d.jobs := jobs_haltDone _

/-- A device on which a halt waits besides. -/
def Dev.addHaltWait (d : Dev) (w : Nat × Nat × Nat) : Dev := d.modKeeper (fun k => { k with haltWaits := k.haltWaits ++ [w] })

theorem waitHalt_eq (d : Dev) (j n tag : Nat) : d.waitHalt j n tag = (d.addHaltWait (j, n, tag)).haltDone := rfl

/-- What has just begun to wait, and need not, is answered last. -/
theorem filter_haltOver_addHaltWait {d : Dev} {j : Nat} (n tag : Nat) (hj : j ≠ 256) (hover : (d.job j).updating = false) :
    ∃ l, (d.addHaltWait (j, n, tag)).keeper.haltWaits.filter (d.addHaltWait (j, n, tag)).haltOver = l ++ [(j, n, tag)] := by
  have over' : (d.addHaltWait (j, n, tag)).haltOver (j, n, tag) = true := by
    rw [Dev.haltOver, if_neg hj]
    exact congrArg not hover
  refine ⟨d.keeper.haltWaits.filter (d.addHaltWait (j, n, tag)).haltOver, ?_⟩
  rw [show (d.addHaltWait (j, n, tag)).keeper.haltWaits = d.keeper.haltWaits ++ [(j, n, tag)] from rfl, List.filter_append]
  simp [over']

/-- A halt that waits for nothing is answered last, with the job's JOB_RECOVERY. -/
theorem waitHalt_answers (d : Dev) {j n : Nat} (tag : Nat) (hj : j ≠ 256) (hover : (d.job j).updating = false)
    (hn : (d.session n).isSome) :
    ∃ z, (d.waitHalt j n tag).session n = some z ∧
      z.kept.getLast? = some { tag := tag, msg := 0x0034, body := ({ payload := leBytes 8 (d.job j).recovery } : Reply).body } := by
  obtain ⟨l, last⟩ := filter_haltOver_addHaltWait n tag hj hover
  rw [waitHalt_eq, haltDone_eq, last, List.foldl_append]
  generalize he : l.foldl Dev.answerHalt _ = e
  have job : e.job j = d.job j := by
    rw [← he]
    exact job_congr (jobs_foldl_answerHalt _ _) j
  have open' : (e.session n).isSome := by
    rw [← he, session_isSome_foldl_answerHalt]
    exact hn
  obtain ⟨y, hy⟩ := Option.isSome_iff_exists.mp open'
  rw [List.foldl_cons, List.foldl_nil, Dev.answerHalt, if_neg hj, job]
  exact session_gmpReply e n 0x0034 tag _ y hy

end Sys2Proof.Machine
end

section
/-! PROOFS. The statement on the requests that stop jobs and contexts (R29, R31, R92, R109, R379, R380). -/

namespace Sys2Proof.Machine

/-! ### GMP_ABANDON (R380) -/

section
variable (m : GmpMsg) (x : Session) {k : Mach}

theorem abandonRequest_abandons (hstep : (k.dev.job (u8 m.body 0)).rcStep ≠ noStep)
    (hthis : fld m.body 2 6 = (k.dev.job (u8 m.body 0)).rcStep) (hphase : (k.dev.job (u8 m.body 0)).rcPhase < 3)
    (hroot : (k.dev.job (u8 m.body 0)).rootCommitted = false) :
    abandonRequest.act m x k = (k.mod (·.abandonStep (u8 m.body 0)), some {}) := by
  simp [abandonRequest, onDev, Mach.mod, hstep, hthis, hroot, not_le.mpr hphase]

theorem abandonRequest_late (hstep : (k.dev.job (u8 m.body 0)).rcStep ≠ noStep)
    (hthis : fld m.body 2 6 = (k.dev.job (u8 m.body 0)).rcStep)
    (hlate : 3 ≤ (k.dev.job (u8 m.body 0)).rcPhase ∨ (k.dev.job (u8 m.body 0)).rootCommitted = true) :
    abandonRequest.act m x k = (k, some { status := stAbandonLate }) := by
  simp [abandonRequest, onDev, hstep, hthis, hlate]

theorem abandonRequest_otherStep
    (hstep : (k.dev.job (u8 m.body 0)).rcStep = noStep ∨ fld m.body 2 6 ≠ (k.dev.job (u8 m.body 0)).rcStep) :
    abandonRequest.act m x k = (k, some { status := stLaunchStep }) := by
  simp [abandonRequest, onDev, hstep]

end

/-- What an abandonment leaves of its job (R29, R31, R380). -/
theorem abandoned_fields (x : Job) (step now : Nat) {y : Job}
    (hy : y.unbooked = (((x.halt 2 now).withStatus step 3).rewind).unbooked) :
    y.state = .halted ∧ y.haltCause = 2 ∧ y.rcStep = noStep ∧ y.stStep = step ∧ y.stOutcome = 3 ∧ y.nextStep = x.nextStep ∧
      y.chSeq = x.chSeqAtLaunch ∧ y.launch = none :=
  ⟨(congrArg Job.state hy :), (congrArg Job.haltCause hy :), (congrArg Job.rcStep hy :), (congrArg Job.stStep hy :),
    (congrArg Job.stOutcome hy :), (congrArg Job.nextStep hy :), (congrArg Job.chSeq hy :), (congrArg Job.launch hy :)⟩

/-- An abandonment before the Verdict ends the step, and every context of the job is reset. -/
theorem gmpAbandon_ends {m : GmpMsg} {s : State} {x : Session} (h : Served abandonRequest m x (s.devAt m.now))
    (hstep : (s.dev.job (u8 m.body 0)).rcStep ≠ noStep) (hthis : fld m.body 2 6 = (s.dev.job (u8 m.body 0)).rcStep)
    (hphase : (s.dev.job (u8 m.body 0)).rcPhase < 3) (hroot : (s.dev.job (u8 m.body 0)).rootCommitted = false) :
    Answered (gmpCommand abandonRequest m s) m 0x0033 ({} : Reply).body ∧
      (∃ now, ((gmpCommand abandonRequest m s).dev.job (u8 m.body 0)).unbooked =
        ((((s.dev.job (u8 m.body 0)).halt 2 now).withStatus (fld m.body 2 6) 3).rewind).unbooked) ∧
      ∀ c, (s.dev.ctx c).state ≠ .free → (s.dev.ctx c).job = u8 m.body 0 →
        ((gmpCommand abandonRequest m s).dev.ctx c).state = .resetting := by
  have abandons := abandonRequest_abandons m x (k := s.taking m 0x0033) (by simpa) (by simpa) (by simpa) (by simpa)
  have carried := abandonStep_carries (s.taking m 0x0033).dev (u8 m.body 0)
  obtain ⟨answered, rest, -⟩ := gmpCommand_acts h abandons carried.sessions
  have job := carried.job
  rw [job_taking, ← hthis] at job
  refine ⟨answered, ⟨_, by rw [rest_job rest]; exact job⟩, fun c hfree hjob => ?_⟩
  rw [rest_ctx rest]
  exact abandonStep_resetting _ (by simpa) (by simpa)

/-! ### GMP_JOB_HALT (R379) -/

theorem u8_lt (b : Bytes) (o : Nat) : u8 b o < 256 :=
  calc u8 b o < 256 ^ (slice b o 1).length := leVal_lt _
    _ ≤ 256 ^ 1 := Nat.pow_le_pow_right (by decide) (List.length_take_le _ _)

/-- The session that serves a request is the one that its datagram names. -/
theorem served_number {r : Request} {m : GmpMsg} {x : Session} {d : Dev} (h : Served r m x d) : x.number = m.session := by
  obtain ⟨-, -, hconfirmed, -⟩ := h
  exact session_number d _ _ (Option.filter_eq_some_iff.mp hconfirmed).1

/-- A job that GMP_JOB_HALT names is halted, and its answer is JOB_RECOVERY where no Update holds it back. -/
theorem gmpJobHalt_halts {m : GmpMsg} {s : State} {x : Session} (h : Served jobHaltRequest m x (s.devAt m.now)) :
    ∃ now,
      ((gmpCommand jobHaltRequest m s).dev.job (u8 m.body 0)).unbooked =
        ((s.dev.job (u8 m.body 0)).haltedBy (bit (u8 m.body 1) 0) (bit (u8 m.body 1) 1) now).unbooked ∧
      (∀ j, j ≠ u8 m.body 0 → (gmpCommand jobHaltRequest m s).dev.job j = s.dev.job j) ∧
      ((s.dev.job (u8 m.body 0)).inUpdate = false → Answered (gmpCommand jobHaltRequest m s) m 0x0034
        ({ payload := leBytes 8 ((gmpCommand jobHaltRequest m s).dev.job (u8 m.body 0)).recovery } : Reply).body) := by
  have carried := (Dev.Carries.refl (js := {u8 m.body 0}) (s.taking m 0x0034).dev).haltJob rfl (bit (u8 m.body 1) 0) (bit (u8 m.body 1) 1)
  generalize hd : (s.taking m 0x0034).dev.haltJob (u8 m.body 0) (bit (u8 m.body 1) 0) (bit (u8 m.body 1) 1) = d at carried
  have dev : (gmpCommand jobHaltRequest m s).dev = (d.waitHalt (u8 m.body 0) m.session m.tag).noteReady := by
    rw [gmpCommand_silent jobHaltRequest m s x h rfl, ← served_number h, ← hd]
    rfl
  have job : ∀ j, (gmpCommand jobHaltRequest m s).dev.job j = d.job j := fun j => by
    rw [dev, noteReady_job, job_congr (jobs_waitHalt _ _ _ _)]
  have halted := carried.job
  rw [job_taking] at halted
  refine ⟨_, by rw [job]; exact halted, fun j hj => ?_, fun hupdate => ?_⟩
  · rw [job, carried.others j hj, job_taking]
  · obtain ⟨y, hy⟩ := served_session jobHaltRequest m s x h
    obtain ⟨z, hz, -⟩ := sameSessions_some carried.sessions hy
    have over' : (d.job (u8 m.body 0)).updating = false := by
      have ended : (d.job (u8 m.body 0)).inUpdate = false :=
        (congrArg Job.inUpdate halted :).trans (inUpdate_haltedBy _ _ _ _ hupdate)
      simp [Job.updating, ended]
    obtain ⟨w, hw, hlast⟩ := waitHalt_answers d m.tag (Nat.ne_of_lt (u8_lt m.body 0)) over' (by rw [hz]; rfl)
    exact ⟨w, by rw [dev, noteReady_session, hw], by rw [job]; exact hlast⟩

/-! ### GMP_CTX_RESET and GMP_CTX_ABORT (R92, R109) -/

theorem holds_taking (s : State) (m : GmpMsg) (code j c : Nat) : (s.taking m code).dev.holds j c = (s.devAt m.now).holds j c := by
  simp [Dev.holds, ctx_devAt]

section
variable (m : GmpMsg) (x : Session) {k : Mach}

theorem ctxResetRequest_resets (hheld : k.dev.holds (u8 m.body 0) (fld m.body 2 2) = true) :
    ctxResetRequest.act m x k = (k.mod (·.resetByRequest (fld m.body 2 2)), some {}) := by
  simp [ctxResetRequest, onDev, Mach.mod, Dev.resetByRequest, hheld]

theorem ctxResetRequest_refuses (hheld : k.dev.holds (u8 m.body 0) (fld m.body 2 2) = false) :
    ctxResetRequest.act m x k = (k, some { status := stGmpMalformed }) := by
  simp [ctxResetRequest, onDev, hheld]

theorem ctxAbortRequest_aborts (hheld : k.dev.holds (u8 m.body 0) (fld m.body 2 2) = true)
    (hx : (k.dev.ctx (fld m.body 2 2)).abortable = true) (hbucket : (k.dev.ctx (fld m.body 2 2)).bucket ≠ verdictBucket) :
    ctxAbortRequest.act m x k =
      (k.mod (fun d => d.abortUse (fld m.body 2 2) stMemberReset (d.ownNode (fld m.body 2 2)) none), some {}) := by
  simp [ctxAbortRequest, onDev, Mach.mod, Dev.abortAll, hheld, hx, abortCtx_gradient _ hbucket]

theorem ctxAbortRequest_keeps (hheld : k.dev.holds (u8 m.body 0) (fld m.body 2 2) = true)
    (hx : (k.dev.ctx (fld m.body 2 2)).abortable = false) : ctxAbortRequest.act m x k = (k, some {}) := by
  simp [ctxAbortRequest, onDev, Dev.abortAll, hheld, hx]

theorem ctxAbortRequest_refuses (hheld : k.dev.holds (u8 m.body 0) (fld m.body 2 2) = false) :
    ctxAbortRequest.act m x k = (k, some { status := stGmpMalformed }) := by
  simp [ctxAbortRequest, onDev, hheld]

end

/-- A context that a job holds is not FREE. -/
theorem not_free_of_holds {d : Dev} {j c : Nat} (h : d.holds j c = true) : (d.ctx c).state ≠ .free := by
  unfold Dev.holds at h
  simp only [Bool.and_eq_true, bne_iff_ne] at h
  exact h.1

/-- A context that its job resets is RESETTING with nothing held. -/
theorem gmpCtxReset_resets {m : GmpMsg} {s : State} {x : Session} (h : Served ctxResetRequest m x (s.devAt m.now))
    (hheld : (s.devAt m.now).holds (u8 m.body 0) (fld m.body 2 2) = true) (hreset : (s.dev.ctx (fld m.body 2 2)).state ≠ .resetting) :
    Answered (gmpCommand ctxResetRequest m s) m 0x0035 ({} : Reply).body ∧
      ((gmpCommand ctxResetRequest m s).dev.ctx (fld m.body 2 2)).Emptied ∧
      ((gmpCommand ctxResetRequest m s).dev.ctx (fld m.body 2 2)).job = (s.dev.ctx (fld m.body 2 2)).job := by
  rw [← holds_taking s m 0x0035] at hheld
  obtain ⟨sessions, emptied, hjob⟩ := resetByRequest_emptied (s.taking m 0x0035).dev (not_free_of_holds hheld) (by simpa)
  obtain ⟨answered, rest, -⟩ := gmpCommand_acts h (ctxResetRequest_resets m x hheld) sessions
  rw [rest_ctx rest]
  exact ⟨answered, emptied, hjob.trans (congrArg Ctx.job (ctx_taking _ _ _ _))⟩

/-- What is said of an abort is said of the contexts, the jobs and the fault records. -/
theorem aborted_congr {s t u : State} {c status : Nat} (hrest : t.dev.rest = u.dev.rest) (hfaults : t.dev.faults = u.dev.faults)
    (h : Aborted s u c status) : Aborted s t c status := by
  unfold Aborted at h ⊢
  simpa only [rest_ctx hrest, rest_job hrest, hfaults] using h

/-- A gradient bucket's use that can be aborted is. -/
theorem gmpCtxAbort_aborts {m : GmpMsg} {s : State} {x : Session} (h : Served ctxAbortRequest m x (s.devAt m.now))
    (hheld : (s.devAt m.now).holds (u8 m.body 0) (fld m.body 2 2) = true) (hx : (s.dev.ctx (fld m.body 2 2)).abortable = true)
    (hbucket : (s.dev.ctx (fld m.body 2 2)).bucket ≠ verdictBucket) :
    Answered (gmpCommand ctxAbortRequest m s) m 0x0036 ({} : Reply).body ∧
      Aborted s (gmpCommand ctxAbortRequest m s) (fld m.body 2 2) stMemberReset := by
  rw [← holds_taking s m 0x0036] at hheld
  have aborts := ctxAbortRequest_aborts m x hheld (by simpa) (by simpa)
  obtain ⟨answered, rest, faults⟩ := gmpCommand_acts h aborts (sameSessions_abortUse _ _ _ _ _)
  generalize hd : (s.taking m ctxAbortRequest.msg).dev = d at rest faults
  obtain ⟨-, hctxs, hjobs, -⟩ := rest_fields (hd ▸ rest_taking s m ctxAbortRequest.msg)
  have gradient := abortCtx_gradient d (by rwa [ctx_congr hctxs, ctx_devAt]) stMemberReset (d.ownNode (fld m.body 2 2)) none
  refine ⟨answered, aborted_congr
    (u := { s with dev := (d.abortCtx (fld m.body 2 2) stMemberReset (d.ownNode (fld m.body 2 2)) none).noteReady }) ?_ ?_
    (aborted_of_abortCtx (hctxs.trans (to_ctxs _ _)) (hjobs.trans (to_jobs _ _)) hbucket (by decide) rfl)⟩
  · rw [rest, rest_noteReady, gradient]
  · rw [faults, noteReady_faults, gradient]

/-- Settles O17: each request by the change of the device that its effect is. -/
theorem requestsStopJobsAndContexts : Obligations.RequestsStopJobsAndContexts := by
  refine ⟨⟨fun m s x h hstep hthis hphase hroot => ?_, fun m s x h hstep hthis hlate => ?_, fun m s x h hstep => ?_,
      fun m s x h => ?_⟩, fun m s x h hheld hreset => ?_, fun m s x h hheld hx hbucket => ?_,
      fun m s x h hheld hx => ?_, fun m s x code c hc hheld => ?_⟩
  · obtain ⟨answered, ⟨now, job⟩, resets⟩ := gmpAbandon_ends h hstep hthis hphase hroot
    obtain ⟨hstate, hcause, hrc, hst, hout, hnext, hseq, hlaunch⟩ := abandoned_fields _ _ _ job
    exact ⟨_, rfl, answered, hstate, hcause, hrc, hst, hout, hnext, hseq, hlaunch, resets⟩
  · exact ⟨_, rfl, gmpCommand_refuses h (abandonRequest_late m x (by simpa) (by simpa) (by simpa))⟩
  · exact ⟨_, rfl, gmpCommand_refuses h (abandonRequest_otherStep m x (by simpa))⟩
  · obtain ⟨now, job, others, answered⟩ := gmpJobHalt_halts h
    refine ⟨_, rfl, (congrArg Job.state job :).trans (state_haltedBy _ _ _ _), answered, fun hlost => ?_, fun hgoing hkept => ?_,
      others⟩
    · rw [hlost] at job
      exact (congrArg Job.haltCause job :).trans (haltCause_haltedBy_lost _ _ _)
    · rw [hkept] at job
      exact (congrArg Job.haltCause job :).trans (haltCause_haltedBy_kept _ _ _ hgoing)
  · obtain ⟨answered, ⟨hstate, hfrags, haborts⟩, hjob⟩ := gmpCtxReset_resets h hheld hreset
    exact ⟨_, rfl, answered, hstate, hfrags, haborts, hjob⟩
  · obtain ⟨answered, hstate, hstatus, hseq, -, -, -, hrecord, hothers, -⟩ := gmpCtxAbort_aborts h hheld hx hbucket
    exact ⟨_, rfl, answered, hstate, hstatus, hseq, hothers, hrecord⟩
  · exact ⟨_, rfl, gmpCommand_refuses h (ctxAbortRequest_keeps m x (by rwa [holds_taking]) (by simpa))⟩
  · obtain ⟨rfl, rfl, h⟩ | ⟨rfl, rfl, h⟩ := hc
    · exact ⟨_, rfl, gmpCommand_refuses h (ctxResetRequest_refuses m x (by rwa [holds_taking]))⟩
    · exact ⟨_, rfl, gmpCommand_refuses h (ctxAbortRequest_refuses m x (by rwa [holds_taking]))⟩

end Sys2Proof.Machine
end


section
/-! SUPPORT. What a restore makes of its job: the bytes it keeps, the records it writes, and the job at the restored step (R17, R89, R125,
R158, R163 to R165, R177, R341). -/

namespace Sys2Proof.Machine

/-! ### Bytes of a stream (R163) -/

/-- A job that takes restore data at an offset of the stream. -/
def Job.takeBytes (off : Nat) (bs : Bytes) (x : Job) : Job :=
  { x with restored := bs.zipIdx.foldl (fun t b => tset t (off + b.2) b.1) x.restored }

/-- Bytes put into a table from `off + n` on leave every entry outside them alone. -/
theorem tget_putBytes_other {α : Type} (d : α) (off : Nat) {a : Nat} (bs : List α) : ∀ (n : Nat) (t : Table α),
    a < off + n ∨ off + n + bs.length ≤ a → tget d ((bs.zipIdx n).foldl (fun t b => tset t (off + b.2) b.1) t) a = tget d t a := by
  induction bs with
  | nil => intros; rfl
  | cons b bs ih =>
    intro n t ha
    rw [List.length_cons] at ha
    rw [List.zipIdx_cons, List.foldl_cons, ih _ _ (by omega), tget_tset_other]
    show a ≠ off + n
    omega

theorem tget_putBytes {α : Type} (d : α) (off : Nat) (bs : List α) : ∀ (n i : Nat) (t : Table α), i < bs.length →
    tget d ((bs.zipIdx n).foldl (fun t b => tset t (off + b.2) b.1) t) (off + n + i) = bs.getD i d := by
  induction bs with
  | nil => exact fun _ _ _ hi => absurd hi (Nat.not_lt_zero _)
  | cons b bs ih =>
    intro n i t hi
    rw [List.zipIdx_cons, List.foldl_cons]
    cases i with
    | zero =>
      rw [tget_putBytes_other _ _ _ _ _ (by omega)]
      exact tget_tset_same d t (off + n) b
    | succ i =>
      have next := ih (n + 1) i (tset t (off + n) b) (by simpa using hi)
      rwa [show off + (n + 1) + i = off + n + (i + 1) by omega] at next

/-! ### What an operation on the memories carries forward -/

theorem plain_restoredTo (step now : Nat) : Job.Plain (·.restoredTo step now) := (plain_wrap now).comp (fun _ => rfl)

theorem unbooked_writeSite (x : Job) (e : Bytes × Nat) (r : Bytes) : (x.writeSite e r).unbooked = x.unbooked := by
  unfold Job.writeSite
  split <;> rfl

theorem unbooked_writeSites (l : List (Bytes × Nat)) (r : Bytes) (x : Job) :
    (l.foldl (fun y e => y.writeSite e r) x).unbooked = x.unbooked :=
  foldl_keeps Job.unbooked _ (fun y e => unbooked_writeSite y e r) l x

theorem dev_put (k : Mach) (a : Nat) (b : Bytes) : (k.put a b).dev = k.dev := rfl

theorem dev_stampFrame (k : Mach) (x : Job) (c : Nat) (u : Option Upset) : (k.stampFrame x c u).1.dev = k.dev := by
  unfold Mach.stampFrame
  dsimp only
  rw [dev_put]
  split
  · rw [dev_put]
  · rfl

/-- Statistics and accumulators stand in the memories alone. -/
theorem afterRestore_anchors (k : Mach) (j step : Nat) : ∃ n : Mach, n.dev = k.dev ∧ k.afterRestore j step = n.anchors j step := by
  unfold Mach.afterRestore
  refine ⟨_, ?_, rfl⟩
  exact foldl_keeps Mach.dev _ (fun n c => (dev_put _ _ _).trans (dev_stampFrame n (k.dev.job j) c none)) _ k

/-- A restore writes its records, renews the recipes, the job and its alarms, and then computes what follows from the weights. -/
theorem restore_afterRestore (k : Mach) (j step : Nat) (rs : List Bytes) :
    ∃ (n : Mach) (now : Nat), k.restore j step rs = n.afterRestore j step ∧
      n.dev = ((((rs.filter (k.dev.job j).takesRecord).foldl (fun k r => k.writeRecord j r) k).dev.restoreRecipes j step
        (rs.filter (k.dev.job j).takesRecord)).modJob j (·.restoredTo step now)).resetAlarms j step := by
  unfold Mach.restore
  exact ⟨_, _, rfl, rfl⟩

namespace Dev.Carries

variable {js : Set Nat} {j : Nat} {g : Job → Job} {d e : Dev} {k : Mach}

theorem countDepths (h : Carries js j g d e) (a n : Nat) (write : Bool) : Carries js j g d (e.countDepths a n write) :=
  h.tables (keeper_countStack _ _ _ _) (rest_fields (rest_countStack _ _ _ _)).2.2.1 (rest_fields (rest_countStack _ _ _ _)).2.1

/-- A fold over the memories and the device of operations that keep books. -/
theorem foldlMach {α : Type} (h : Carries js j g d k.dev) (f : Mach → α → Mach) (hf : ∀ k a, Carries js j id k.dev (f k a).dev)
    (l : List α) : Carries js j g d (l.foldl f k).dev := by
  induction l generalizing k with
  | nil => exact h
  | cons a l ih => exact ih (h.books (hf k a))

theorem writeChunk (h : Carries js j g d k.dev) (x : Job) (c : Nat) (r : Bytes) : Carries js j g d (k.writeChunk x c r).dev := by
  unfold Mach.writeChunk
  split
  · exact h
  · exact h.foldlMach _ (fun k _ => countDepths (refl k.dev) _ _ _) _

theorem writeRecord (h : Carries js j g d k.dev) (hj : j ∈ js) (r : Bytes) : Carries js j g d (k.writeRecord j r).dev :=
  modBooks (h.foldlMach _ (fun k _ => writeChunk (refl k.dev) _ _ _) _) hj _ (fun _ => unbooked_writeSites _ _ _)

theorem partRestore (h : Carries js j g d k.dev) (hj : j ∈ js) (rs : List Bytes) : Carries js j g d (k.partRestore j rs).dev := by
  refine h.foldlMach _ (fun k r => ?_) _
  have drawn : Carries js j id k.dev k.dev.draw.2 := (refl k.dev).tables rfl rfl rfl
  dsimp only
  split
  · exact writeRecord (k := { k with dev := k.dev.draw.2 }) drawn hj r
  · exact drawn

theorem restoreRecipes (h : Carries js j g d e) (hj : j ∈ js) (step : Nat) (rs : List Bytes) :
    Carries js j g d (e.restoreRecipes j step rs) := by
  unfold Dev.restoreRecipes
  dsimp only
  exact .ite h (.ite ((h.modBooks hj _ (fun _ => by rfl)).reportHistory _ _ _) (h.modBooks hj _ (fun _ => by rfl)))

theorem resetAlarms (h : Carries js j g d e) (hj : j ∈ js) (step : Nat) : Carries js j g d (e.resetAlarms j step) := by
  unfold Dev.resetAlarms
  dsimp only
  exact modBooks (h.foldl _ (fun d _ => (refl d).reportAlarm _ _ _ _ _ _ _ _) _) hj _ (fun _ => by rfl)

theorem anchors (h : Carries js j g d k.dev) (hj : j ∈ js) (step : Nat) : Carries js j g d (k.anchors j step).dev :=
  h.foldlMach _ (fun _ _ => (refl _).modBooks hj _ (fun _ => by rfl)) _

theorem afterRestore (h : Carries js j g d k.dev) (hj : j ∈ js) (step : Nat) : Carries js j g d (k.afterRestore j step).dev := by
  obtain ⟨n, hn, hafter⟩ := afterRestore_anchors k j step
  rw [hafter]
  exact anchors (hn ▸ h) hj step

/-- A restore that succeeds leaves its job at the step after the restored one (R164). -/
theorem restore (h : Carries js j g d k.dev) (hj : j ∈ js) (step : Nat) (rs : List Bytes) :
    ∃ now, Carries js j (fun x => (g x).restoredTo step now) d (k.restore j step rs).dev := by
  obtain ⟨n, now, hrestore, hn⟩ := restore_afterRestore k j step rs
  have written := h.foldlMach _ (fun k r => writeRecord (refl k.dev) hj r) (rs.filter (k.dev.job j).takesRecord)
  have renewed : Carries js j (fun x => (g x).restoredTo step now) d n.dev := by
    rw [hn]
    exact ((written.restoreRecipes hj _ _).modJob hj (plain_restoredTo step now)).resetAlarms hj step
  rw [hrestore]
  exact ⟨now, renewed.afterRestore hj step⟩

end Dev.Carries

/-- The anchors of a restore leave the alarms alone. -/
theorem alarms_anchors (k : Mach) (j step : Nat) : ((k.anchors j step).dev.job j).alarms = (k.dev.job j).alarms :=
  foldl_keeps (fun k : Mach => (k.dev.job j).alarms) _ (fun _ _ => (congrArg Job.alarms (job_modJob_same _ _ _) :)) _ k

theorem alarms_afterRestore (k : Mach) (j step : Nat) : ((k.afterRestore j step).dev.job j).alarms = (k.dev.job j).alarms := by
  obtain ⟨n, hn, hafter⟩ := afterRestore_anchors k j step
  rw [hafter, alarms_anchors, hn]

theorem alarms_resetAlarms (d : Dev) (j step : Nat) : ((d.resetAlarms j step).job j).alarms = [] := by
  unfold Dev.resetAlarms
  dsimp only
  rw [job_modJob_same]

/-- After a restore no alarm is left (R177). -/
theorem alarms_restore (k : Mach) (j step : Nat) (rs : List Bytes) : ((k.restore j step rs).dev.job j).alarms = [] := by
  obtain ⟨n, now, hrestore, hn⟩ := restore_afterRestore k j step rs
  rw [hrestore, alarms_afterRestore, hn, alarms_resetAlarms]

end Sys2Proof.Machine
end

section
/-! PROOFS. The statement on restore data, the end of a restore and reference records (R17, R163, R164, R351). -/

namespace Sys2Proof.Machine

theorem takesRestore_congr {a b : Dev} (hctxs : a.ctxs = b.ctxs) (hjobs : a.jobs = b.jobs) (j : Nat) :
    a.takesRestore j = b.takesRestore j := by
  unfold Dev.takesRestore Dev.ctxsOf Dev.ctx Dev.job
  rw [hctxs, hjobs]

theorem takesRestore_taking (s : State) (m : GmpMsg) (code j : Nat) :
    (s.taking m code).dev.takesRestore j = (s.devAt m.now).takesRestore j := by
  obtain ⟨-, hctxs, hjobs, -⟩ := rest_fields (rest_taking s m code)
  exact takesRestore_congr hctxs hjobs j

/-! ### Restore data (R163) -/

theorem restoreDataRequest_takes (m : GmpMsg) (x : Session) {k : Mach} (h : k.dev.takesRestore (u8 m.body 0) = true) :
    ∃ n, restoreDataRequest.act m x k =
      (k.mod (fun d => (d.modJob (u8 m.body 0) (·.takeBytes (fld m.body 8 8) (m.body.drop 16))).countJob (u8 m.body 0) 0x00B n),
        some {}) := by
  simp only [restoreDataRequest, onDev, h]
  exact ⟨_, rfl⟩

/-- Restore data is kept at its place in the stream, and nothing else of a job changes. -/
theorem gmpRestoreData_keeps {m : GmpMsg} {s : State} {x : Session} (h : Served restoreDataRequest m x (s.devAt m.now))
    (htakes : (s.devAt m.now).takesRestore (u8 m.body 0) = true) :
    Answered (gmpCommand restoreDataRequest m s) m 0x0042 ({} : Reply).body ∧
      (gmpCommand restoreDataRequest m s).dev.job (u8 m.body 0) =
        (s.dev.job (u8 m.body 0)).takeBytes (fld m.body 8 8) (m.body.drop 16) ∧
      ∀ j, j ≠ u8 m.body 0 → (gmpCommand restoreDataRequest m s).dev.job j = s.dev.job j := by
  obtain ⟨n, takes⟩ := restoreDataRequest_takes m x (k := s.taking m 0x0042) (by rwa [takesRestore_taking])
  obtain ⟨answered, rest, -⟩ := gmpCommand_acts h takes (sameSessions_of_keeper (by simp))
  refine ⟨answered, ?_, fun j hj => ?_⟩
  · rw [rest_job rest, job_countJob, job_modJob_same, job_taking]
  · rw [rest_job rest, job_countJob, job_modJob_other _ hj, job_taking]

/-! ### The end of a restore (R164) -/

/-- A job that holds no restore data any longer. -/
def Job.forgetRestored (x : Job) : Job := { x with restored := [] }

/-- A job that waits for another restore. -/
def Job.restoreFailed (x : Job) : Job := { x with restoreBad := true }

section
variable {k : Mach} {j step : Nat} (htakes : k.dev.takesRestore j = true)
include htakes

theorem endRestore_fails {r : Reply}
    (hfault : (k.dev.job j).restoreFault (k.dev.job j).restoredRecords.1 (k.dev.job j).restoredRecords.2 step = some r) :
    ∃ n, k.endRestore j step = ((((k.mod (·.countJob j 0x00B n)).partRestore j (k.dev.job j).restoredRecords.1).mod
      (·.modJob j Job.restoreFailed)).mod (·.modJob j Job.forgetRestored), r) := by
  simp only [Mach.endRestore, htakes, hfault]
  exact ⟨_, rfl⟩

theorem endRestore_passes
    (hfault : (k.dev.job j).restoreFault (k.dev.job j).restoredRecords.1 (k.dev.job j).restoredRecords.2 step = none) :
    ∃ n, k.endRestore j step = (((k.mod (·.countJob j 0x00B n)).restore j step (k.dev.job j).restoredRecords.1).mod
      (·.modJob j Job.forgetRestored), {}) := by
  simp only [Mach.endRestore, htakes, hfault]
  exact ⟨_, rfl⟩

end

/-- What a restore leaves of its job (R17, R164). -/
theorem restored_fields (x : Job) (step now : Nat) {y : Job} (hy : y.unbooked = (x.restoredTo step now).unbooked) :
    y.state = (if step + 1 = noStep then JobState.halted else .loaded) ∧ y.nextStep = step + 1 ∧ y.rcStep = noStep ∧
      y.restoreBad = false := by
  have state : (x.restoredTo step now).state = if step + 1 = noStep then JobState.halted else .loaded := by
    rw [Job.restoredTo, Job.wrap]
    dsimp only
    split <;> rfl
  refine ⟨(congrArg Job.state hy :).trans state, ?_⟩
  rw [Job.restoredTo, wrap_eq] at hy
  exact ⟨(congrArg Job.nextStep hy :), (congrArg Job.rcStep hy :), (congrArg Job.restoreBad hy :)⟩

/-- A restore that passes its checks. -/
theorem gmpRestoreEnd_passes {m : GmpMsg} {s : State} {x : Session} (h : Served restoreEndRequest m x (s.devAt m.now))
    (htakes : (s.devAt m.now).takesRestore (u8 m.body 0) = true)
    (hfault : (s.dev.job (u8 m.body 0)).restoreFault (s.dev.job (u8 m.body 0)).restoredRecords.1
      (s.dev.job (u8 m.body 0)).restoredRecords.2 (fld m.body 2 6) = none) :
    ∃ (y : Job) (now : Nat), y.unbooked = ((s.dev.job (u8 m.body 0)).restoredTo (fld m.body 2 6) now).unbooked ∧ y.alarms = [] ∧
      (gmpCommand restoreEndRequest m s).dev.job (u8 m.body 0) = y.forgetRestored := by
  rw [← takesRestore_taking s m 0x0043] at htakes
  obtain ⟨n, passes⟩ := endRestore_passes (step := fld m.body 2 6) htakes (by simpa)
  have counted := (Dev.Carries.refl (js := {u8 m.body 0}) (j := u8 m.body 0) (s.taking m 0x0043).dev).countJob (u8 m.body 0) 0x00B n
  obtain ⟨now, carried⟩ := Dev.Carries.restore (k := (s.taking m 0x0043).mod (·.countJob (u8 m.body 0) 0x00B n)) counted rfl
    (fld m.body 2 6) ((s.taking m 0x0043).dev.job (u8 m.body 0)).restoredRecords.1
  have alarms := alarms_restore ((s.taking m 0x0043).mod (·.countJob (u8 m.body 0) 0x00B n)) (u8 m.body 0) (fld m.body 2 6)
    ((s.taking m 0x0043).dev.job (u8 m.body 0)).restoredRecords.1
  generalize ((s.taking m 0x0043).mod (·.countJob (u8 m.body 0) 0x00B n)).restore _ _ _ = k at passes carried alarms
  have job := carried.job
  rw [job_taking] at job
  have ends : restoreEndRequest.act m x (s.taking m 0x0043) = (k.mod (·.modJob (u8 m.body 0) Job.forgetRestored), some {}) := by
    simp only [restoreEndRequest, passes]
  obtain ⟨-, rest, -⟩ := gmpCommand_answers h ends (sameSessions_trans carried.sessions (sameSessions_of_keeper rfl))
  exact ⟨_, now, job, alarms, by rw [rest_job rest, Mach.mod, job_modJob_same]⟩

/-- One that fails is answered with the check that failed, and waits for another. -/
theorem gmpRestoreEnd_fails {m : GmpMsg} {s : State} {x : Session} {r : Reply} (h : Served restoreEndRequest m x (s.devAt m.now))
    (htakes : (s.devAt m.now).takesRestore (u8 m.body 0) = true)
    (hfault : (s.dev.job (u8 m.body 0)).restoreFault (s.dev.job (u8 m.body 0)).restoredRecords.1
      (s.dev.job (u8 m.body 0)).restoredRecords.2 (fld m.body 2 6) = some r) :
    Answered (gmpCommand restoreEndRequest m s) m 0x0043 r.body ∧
      ((gmpCommand restoreEndRequest m s).dev.job (u8 m.body 0)).restoreBad = true ∧
      ((gmpCommand restoreEndRequest m s).dev.job (u8 m.body 0)).restored = [] := by
  rw [← takesRestore_taking s m 0x0043] at htakes
  obtain ⟨n, fails⟩ := endRestore_fails (step := fld m.body 2 6) htakes (by simpa)
  have counted := (Dev.Carries.refl (js := {u8 m.body 0}) (j := u8 m.body 0) (s.taking m 0x0043).dev).countJob (u8 m.body 0) 0x00B n
  have carried := Dev.Carries.partRestore (k := (s.taking m 0x0043).mod (·.countJob (u8 m.body 0) 0x00B n)) counted rfl
    ((s.taking m 0x0043).dev.job (u8 m.body 0)).restoredRecords.1
  generalize ((s.taking m 0x0043).mod (·.countJob (u8 m.body 0) 0x00B n)).partRestore _ _ = k at fails carried
  have ends : restoreEndRequest.act m x (s.taking m 0x0043) =
      ((k.mod (·.modJob (u8 m.body 0) Job.restoreFailed)).mod (·.modJob (u8 m.body 0) Job.forgetRestored), some r) := by
    simp only [restoreEndRequest, fails]
  obtain ⟨answered, rest, -⟩ := gmpCommand_answers h ends (sameSessions_trans carried.sessions (sameSessions_of_keeper rfl))
  refine ⟨answered, ?_⟩
  rw [rest_job rest, Mach.mod, job_modJob_same, Mach.mod, job_modJob_same]
  exact ⟨rfl, rfl⟩

/-! ### Reference records (R351) -/

theorem replayRefRequest_keeps (m : GmpMsg) (x : Session) {k : Mach} {rs : List Bytes}
    (hparse : parseLog m.body.length (m.body.drop 8) = some rs)
    (hroom : ((addRefs (k.dev.job (u8 m.body 0)).refs (rs.filter (k.dev.job (u8 m.body 0)).wantsRef)).map List.length).sum ≤
      (k.dev.job (u8 m.body 0)).replayMib * 2 ^ 20) :
    ∃ n, replayRefRequest.act m x k = (k.mod (fun d => (d.modJob (u8 m.body 0) (fun y =>
      { y with refs := addRefs (k.dev.job (u8 m.body 0)).refs (rs.filter (k.dev.job (u8 m.body 0)).wantsRef) })).countJob
        (u8 m.body 0) 0x00F n), some {}) := by
  simp only [replayRefRequest, onDev, hparse, Option.getD_some, not_lt.mpr hroom, if_false]
  exact ⟨_, rfl⟩

/-- A job is changed as its entry says, on devices that differ in reports only. -/
theorem rest_modJob_congr {a b : Dev} (h : a.rest = b.rest) {j : Nat} {f g : Job → Job} (hfg : f (b.job j) = g (b.job j)) :
    (a.modJob j f).rest = (b.modJob j g).rest := by
  have same : b.modJob j f = b.modJob j g := by
    unfold Dev.modJob tmod
    rw [show f (tget {} b.jobs j) = g (tget {} b.jobs j) from hfg]
  rw [← same]
  exact (congrArg (fun d : Dev => d.modJob j f) h :)

/-- Reference records that fit are kept, each in place of an earlier one of its key. -/
theorem gmpReplayRef_keeps {m : GmpMsg} {s : State} {x : Session} {rs : List Bytes} (h : Served replayRefRequest m x (s.devAt m.now))
    (hparse : parseLog m.body.length (m.body.drop 8) = some rs)
    (hroom : ((addRefs (s.dev.job (u8 m.body 0)).refs (rs.filter (s.dev.job (u8 m.body 0)).wantsRef)).map List.length).sum ≤
      (s.dev.job (u8 m.body 0)).replayMib * 2 ^ 20) :
    Answered (gmpCommand replayRefRequest m s) m 0x0044 ({} : Reply).body ∧
      (gmpCommand replayRefRequest m s).dev.rest =
        ((s.devAt m.now).modJob (u8 m.body 0) (fun y => { y with refs := addRefs y.refs (rs.filter y.wantsRef) })).rest := by
  obtain ⟨n, keeps⟩ := replayRefRequest_keeps m x (k := s.taking m 0x0044) hparse (by simpa using hroom)
  obtain ⟨answered, rest, -⟩ := gmpCommand_acts h keeps (sameSessions_of_keeper (by simp))
  refine ⟨answered, rest.trans ((rest_countJob _ _ _ _).trans (rest_modJob_congr (rest_taking s m _) ?_))⟩
  rw [job_taking, job_devAt]

/-- Settles O19: bytes by their offset, and a restore's end by the outcome of its checks. -/
theorem restoreAndReferencesAreTaken : Obligations.RestoreAndReferencesAreTaken := by
  refine ⟨fun m s x h htakes => ?_, fun m s x h htakes hfault => ?_, fun m s x r h htakes hfault => ?_,
    fun m s x rs h hparse hroom => ⟨_, rfl, gmpReplayRef_keeps h hparse hroom⟩⟩
  · obtain ⟨answered, job, others⟩ := gmpRestoreData_keeps h htakes
    refine ⟨_, rfl, answered, fun i hi => ?_, fun a ha => ?_, ?_, others⟩
    · rw [job]
      have byte := tget_putBytes 0#8 (fld m.body 8 8) (m.body.drop 16) 0 i (s.dev.job (u8 m.body 0)).restored (by simpa using hi)
      refine Eq.trans byte ?_
      simp [List.getD_eq_getElem?_getD]
    · rw [job]
      exact tget_putBytes_other 0#8 (fld m.body 8 8) (m.body.drop 16) 0 _ (by simpa using ha)
    · rw [job]
      rfl
  · obtain ⟨y, now, hy, halarms, job⟩ := gmpRestoreEnd_passes h htakes hfault
    obtain ⟨hstate, hnext, hrc, hbad⟩ := restored_fields _ _ _ hy
    refine ⟨_, rfl, ?_⟩
    rw [job]
    exact ⟨hstate, hnext, hrc, hbad, rfl, halarms⟩
  · exact ⟨_, rfl, gmpRestoreEnd_fails h htakes hfault⟩

end Sys2Proof.Machine
end

section
/-! PROOFS. The adder's special operands, by their encodings (R43, R53). -/

namespace Sys2Proof.Machine

/-! ### The kinds of an operand by its magnitude -/

theorem expF_lt (a : W32) : expF a < 256 := Nat.mod_lt _ (by decide)
theorem frcF_lt (a : W32) : frcF a < 2 ^ 23 := Nat.mod_lt _ (by decide)

/-- The mask leaves the 31 bits below the sign. -/
theorem toNat_unsigned (a : W32) : (a &&& 0x7FFFFFFF#32).toNat = a.toNat % 2 ^ 31 := Nat.and_two_pow_sub_one_eq_mod a.toNat 31

/-- An encoding without its sign is its exponent field over its fraction field (R43). -/
theorem toNat_magnitude (a : W32) : (a &&& 0x7FFFFFFF#32).toNat = 2 ^ 23 * expF a + frcF a := by
  rw [toNat_unsigned]
  simp only [expF, frcF, bits]
  omega

theorem sgn_iff (a : W32) : sgn a = true ↔ 2 ^ 31 ≤ a.toNat := by
  have := a.isLt
  simp only [sgn, decide_eq_true_eq]
  omega

/-- Sign and magnitude are the whole of an encoding. -/
theorem eq_of_magnitude {a b : W32} (hm : a &&& 0x7FFFFFFF#32 = b &&& 0x7FFFFFFF#32) (hs : sgn a = sgn b) : a = b := by
  have same : a.toNat % 2 ^ 31 = b.toNat % 2 ^ 31 := by rw [← toNat_unsigned, ← toNat_unsigned, hm]
  have sign : 2 ^ 31 ≤ a.toNat ↔ 2 ^ 31 ≤ b.toNat := by rw [← sgn_iff, ← sgn_iff, hs]
  have ha := a.isLt
  have hb := b.isLt
  exact BitVec.eq_of_toNat_eq (by omega)

theorem isNaN_iff (a : W32) : isNaN a = true ↔ 0x7F800000#32 < a &&& 0x7FFFFFFF#32 := by
  have := expF_lt a
  have := frcF_lt a
  rw [isNaN, decide_eq_true_eq, BitVec.lt_def, toNat_magnitude]
  simp only [BitVec.toNat_ofNat]
  omega

theorem isInf_iff (a : W32) : isInf a = true ↔ a &&& 0x7FFFFFFF#32 = 0x7F800000#32 := by
  have := expF_lt a
  have := frcF_lt a
  rw [isInf, decide_eq_true_eq, ← BitVec.toNat_inj, toNat_magnitude]
  simp only [BitVec.toNat_ofNat]
  omega

theorem isZero_iff (a : W32) : isZero a = true ↔ a &&& 0x7FFFFFFF#32 = 0#32 := by
  rw [isZero, decide_eq_true_eq, ← BitVec.toNat_inj, toNat_magnitude]
  simp only [BitVec.toNat_ofNat]
  omega

theorem isNaN_eq_false {a : W32} (h : a &&& 0x7FFFFFFF#32 ≤ 0x7F800000#32) : isNaN a = false :=
  Bool.eq_false_iff.mpr fun hn => BitVec.not_lt.mpr h ((isNaN_iff a).mp hn)

theorem isInf_eq_false {a : W32} (h : a &&& 0x7FFFFFFF#32 < 0x7F800000#32) : isInf a = false :=
  Bool.eq_false_iff.mpr fun hi => BitVec.ne_of_lt h ((isInf_iff a).mp hi)

theorem isZero_eq_false {a : W32} (h : a &&& 0x7FFFFFFF#32 ≠ 0#32) : isZero a = false :=
  Bool.eq_false_iff.mpr fun hz => h ((isZero_iff a).mp hz)

/-- The infinities are those of the two signs. -/
theorem eq_infOf {a : W32} (h : isInf a = true) : a = infOf (sgn a) := by
  apply eq_of_magnitude
  · rw [(isInf_iff a).mp h]
    cases sgn a <;> decide
  · cases sgn a <;> decide

/-- The zeros are those of the two signs. -/
theorem eq_zeroOf {a : W32} (h : isZero a = true) : a = zeroOf (sgn a) := by
  apply eq_of_magnitude
  · rw [(isZero_iff a).mp h]
    cases sgn a <;> decide
  · cases sgn a <;> decide

/-! ### The rows of R53 -/

/-- A special operand's row is the adder's result, in either mode. -/
theorem addf_of_special {a b v : W32} (h : (addSpecial a b).map Res.v = some v) (m : Ovf) : addf m a b = v := by
  obtain ⟨r, hr, hv⟩ := Option.map_eq_some_iff.mp h
  rw [addf, addR, hr]
  exact hv

/-- An infinity first: it comes through, unless the other operand is the opposite infinity. -/
theorem addf_infinity_left (m : Ovf) {a b : W32} (ha : a = 0x7F800000#32 ∨ a = 0xFF800000#32)
    (hb : b &&& 0x7FFFFFFF#32 ≤ 0x7F800000#32) (hne : b ≠ a ^^^ 0x80000000#32) : addf m a b = a := by
  have nan : isNaN a = false := by obtain rfl | rfl := ha <;> decide
  have inf : isInf a = true := by obtain rfl | rfl := ha <;> decide
  have opposite : (isInf b && (sgn a != sgn b)) = false := by
    rw [Bool.and_eq_false_imp]
    intro hi
    have hb' := eq_infOf hi
    obtain rfl | rfl := ha <;> cases hs : sgn b <;> rw [hs] at hb'
    · decide
    · exact absurd hb' hne
    · exact absurd hb' hne
    · decide
  refine addf_of_special ?_ m
  simp only [addSpecial, nan, isNaN_eq_false hb, inf, opposite, Bool.true_and, Bool.false_eq_true, if_false, if_true]
  rfl

/-- An infinity second, beside a finite operand, comes through. -/
theorem addf_infinity_right (m : Ovf) {a b : W32} (ha : a &&& 0x7FFFFFFF#32 < 0x7F800000#32)
    (hb : b = 0x7F800000#32 ∨ b = 0xFF800000#32) : addf m a b = b := by
  have nan : isNaN b = false := by obtain rfl | rfl := hb <;> decide
  have inf : isInf b = true := by obtain rfl | rfl := hb <;> decide
  exact addf_of_special (by simp [addSpecial, isNaN_eq_false (BitVec.le_of_lt ha), nan, isInf_eq_false ha, inf]) m

/-- Two zeros give the zero whose sign is set in both. -/
theorem addf_zeros (m : Ovf) {a b : W32} (ha : a &&& 0x7FFFFFFF#32 = 0#32) (hb : b &&& 0x7FFFFFFF#32 = 0#32) :
    addf m a b = a &&& b := by
  have za := eq_zeroOf ((isZero_iff a).mpr ha)
  have zb := eq_zeroOf ((isZero_iff b).mpr hb)
  rw [za, zb]
  cases sgn a <;> cases sgn b <;> exact addf_of_special rfl m

/-- A zero first leaves a finite operand as it is. -/
theorem addf_zero_left (m : Ovf) {a b : W32} (ha : a &&& 0x7FFFFFFF#32 = 0#32) (hb : b &&& 0x7FFFFFFF#32 ≠ 0#32)
    (hfin : b &&& 0x7FFFFFFF#32 < 0x7F800000#32) : addf m a b = b := by
  have small : a &&& 0x7FFFFFFF#32 < 0x7F800000#32 := by rw [ha]; decide
  exact addf_of_special (by simp [addSpecial, isNaN_eq_false (BitVec.le_of_lt small), isNaN_eq_false (BitVec.le_of_lt hfin),
    isInf_eq_false small, isInf_eq_false hfin, (isZero_iff a).mpr ha, isZero_eq_false hb]) m

/-! ### The order of the operands (R53 to R55) -/

/-- Without a NaN the special rows take the operands in either order: equal infinities are one value. -/
theorem addSpecial_comm {a b : W32} (ha : isNaN a = false) (hb : isNaN b = false) : addSpecial a b = addSpecial b a := by
  simp only [addSpecial, ha, hb, Bool.false_eq_true, if_false]
  cases ia : isInf a <;> cases ib : isInf b
  case true.true =>
    cases hs : sgn a == sgn b
    · simp [bne, hs, BEq.comm (a := sgn b)]
    · rw [eq_infOf ia, eq_infOf ib, eq_of_beq hs]
  case false.false => cases isZero a <;> cases isZero b <;> simp [Bool.and_comm]
  all_goals simp

/-- Where neither magnitude is the larger the operands are equal but for their signs. -/
theorem magnitude_of_not_swapped {a b : W32} (hab : swapped a b = false) (hba : swapped b a = false) :
    expF a = expF b ∧ frcF a = frcF b := by
  have := frcF_lt a
  have := frcF_lt b
  rw [swapped, decide_eq_false_iff_not] at hab hba
  unfold expU sigU at hab hba
  split_ifs at hab hba <;> omega

/-- Operands of one magnitude are added alike in either order: they are equal, or their difference is +0. -/
theorem addOrdered_comm (m : Ovf) {a b : W32} (hab : swapped a b = false) (hba : swapped b a = false) :
    addOrdered m a b = addOrdered m b a := by
  obtain ⟨hexp, hfrc⟩ := magnitude_of_not_swapped hab hba
  by_cases hs : sgn a = sgn b
  · rw [eq_of_magnitude (BitVec.eq_of_toNat_eq (by rw [toNat_magnitude, toNat_magnitude, hexp, hfrc])) hs]
  · have he : expU a = expU b := by rw [expU, expU, hexp]
    have hsig : sigU a = sigU b := by rw [sigU, sigU, hexp, hfrc]
    simp [addOrdered, he, hsig, hs, Ne.symm hs, tap, finishSum, failed]

/-- The operand of the larger magnitude is one only. -/
theorem swapped_asymm {a b : W32} (h : swapped a b = true) : swapped b a = false := by
  simp only [swapped, decide_eq_true_eq, decide_eq_false_iff_not] at h ⊢
  omega

theorem addf_comm (m : Ovf) {a b : W32} (ha : isNaN a = false) (hb : isNaN b = false) : addf m a b = addf m b a := by
  rw [addf, addf, addR, addR, addSpecial_comm ha hb]
  cases addSpecial b a with
  | some r => rfl
  | none =>
    cases hab : swapped a b with
    | true => simp [swapped_asymm hab]
    | false =>
      cases hba : swapped b a with
      | true => simp
      | false => simp [addOrdered_comm m hab hba]

/-- Settles O58, row by row of R53's table; that the order of the operands is no matter is R55's. -/
theorem theAdderTakesSpecialOperands : Obligations.TheAdderTakesSpecialOperands := by
  refine ⟨fun m a b ha => ?_, fun m a b ha hb => ?_, fun m => ⟨addf_of_special rfl m, addf_of_special rfl m⟩,
    fun m a b => addf_infinity_left m, fun m a b => addf_infinity_right m, fun m a b => addf_zeros m, fun m a b => addf_zero_left m,
    fun m a b hb ha hfin => ?_, fun m a b ha hb => addf_comm m (isNaN_eq_false ha) (isNaN_eq_false hb)⟩
  · exact addf_of_special (by rw [addSpecial, (isNaN_iff a).mpr ha]; rfl) m
  · exact addf_of_special (by rw [addSpecial, isNaN_eq_false ha, (isNaN_iff b).mpr hb]; rfl) m
  · have small : b &&& 0x7FFFFFFF#32 < 0x7F800000#32 := by rw [hb]; decide
    rw [addf_comm m (isNaN_eq_false (BitVec.le_of_lt hfin)) (isNaN_eq_false (BitVec.le_of_lt small))]
    exact addf_zero_left m hb ha hfin

end Sys2Proof.Machine
end

section
/-! SUPPORT. A round of a slot, the release of fragments, and a fault that aborts a use. -/

namespace Sys2Proof.Machine

/-! ### A round begins (R210, R213, R216) -/

/-- A job without what a round of a slot writes down: its lag, the rounds counted and what the last one moved. -/
def Job.unslotted (x : Job) : Job := { x with lag0 := 0, lag1 := 0, acted := [], moved := [] }

@[simp] theorem unslotted_addLag (x : Job) (die n : Nat) : (x.addLag die n).unslotted = x.unslotted := by
  unfold Job.addLag
  split <;> rfl

theorem unslotted_addLists (x : Job) (b : Bytes) (u : Option Upset) (n i : Nat) (ls rs : List W32) :
    x.unslotted.addLists b u n i ls rs = x.addLists b u n i ls rs := by
  induction ls generalizing i rs with
  | nil => rfl
  | cons l ls ih =>
    cases rs with
    | nil => rfl
    | cons r rs =>
      simp only [Job.addLists, ih]
      rfl

theorem unslotted_addKids (x : Job) (b : Bytes) (off : Nat) (u : Option Upset) (kids : List (List W32)) :
    x.unslotted.addKids b off u kids = x.addKids b off u kids := by
  cases kids with
  | nil => rfl
  | cons v r => simp only [Job.addKids, unslotted_addLists]

/-- A node's value rests on nothing that a round writes down. -/
theorem unslotted_nodeOut (x : Job) (b : Bytes) (step micro w off : Nat) (kids : List (List W32)) (e : List W32) (u : Option Upset) :
    x.unslotted.nodeOut b step micro w off kids e u = x.nodeOut b step micro w off kids e u := by
  unfold Job.nodeOut
  rw [unslotted_addKids]
  rfl

/-- A device in a round of a slot of another one: the jobs only may differ, and in what a round writes down only. -/
structure Dev.InRound (d d' : Dev) : Prop where
  frame : d' = { d with jobs := d'.jobs }
  job : ∀ k, (d'.job k).unslotted = (d.job k).unslotted

theorem inRound_refl (d : Dev) : d.InRound d := ⟨rfl, fun _ => rfl⟩

theorem inRound_begun (d : Dev) (j i : Nat) : d.InRound (d.begun j i) := by
  refine ⟨rfl, fun k => ?_⟩
  by_cases hk : k = j
  · subst hk
    rw [Dev.begun, job_modJob_same]
    exact unslotted_addLag _ _ _
  · rw [Dev.begun, job_modJob_other _ hk]

/-- The next round of a slot that is due begins. -/
theorem takeSlot_due {d : Dev} {j i kind : Nat} {e : Bytes} (h : SlotDue d j i kind e) :
    d.takeSlot j i kind = some (e, d.begun j i) := by
  obtain ⟨rfl, hacts, hround, hbegun, htick, horder⟩ := h
  have ordered : (!(d.job j).live || (d.job j).inOrder (resDie (slResource (scSlot (d.job j).sched i)))
      ((d.job j).roundStart i (tget 0 (d.job j).acted i) + slPlace (scSlot (d.job j).sched i) (kind == 1))) = true := by
    cases hlive : (d.job j).live
    · rfl
    · simpa using horder hlive
  have due : (d.job j).nextClaim (slResource (scSlot (d.job j).sched i)) (d.dueAt j i (tget 0 (d.job j).acted i)) ≤ d.tick := htick
  unfold Dev.takeSlot
  dsimp only
  rw [if_pos (by simp only [hacts, hround, hbegun, due, ordered, decide_true, Bool.and_self])]
  rfl

theorem takeSlot_begins {d d' : Dev} {j i kind : Nat} {e : Bytes} (h : d.takeSlot j i kind = some (e, d')) : d' = d.begun j i := by
  unfold Dev.takeSlot at h
  dsimp only at h
  split at h
  · cases h
    rfl
  · cases h

/-- A slot that acts in a round is in it, whether the round goes on or begins. -/
theorem slotIn_inRound {d d' : Dev} {j i kind m : Nat} {e : Bytes} (h : d.slotIn j i kind m = some (e, d')) : d.InRound d' := by
  unfold Dev.slotIn at h
  split at h
  · split at h
    · cases h
      exact inRound_refl d
    · cases h
  · rw [takeSlot_begins h]
    exact inRound_begun d j i

section
variable {d d' : Dev} (h : d.InRound d')
include h

theorem inRound_ctxs : d'.ctxs = d.ctxs := by rw [h.frame]
theorem inRound_ctx (c : Nat) : d'.ctx c = d.ctx c := ctx_congr (inRound_ctxs h) c
theorem inRound_ports : d'.ports = d.ports := by rw [h.frame]
theorem inRound_tiles : d'.tiles = d.tiles := by rw [h.frame]
theorem inRound_effective (r : FaultRec) : d'.effective r = d.effective r := by rw [h.frame]; rfl
theorem inRound_stagedKid (c off : Nat) (ks : List Kid) : d'.stagedKid c off ks = d.stagedKid c off ks := by rw [h.frame]; rfl
theorem inRound_ovf (k : Nat) : (d'.job k).ovf = (d.job k).ovf := (congrArg Job.ovf (h.job k) :)

/-- A node's value is the same in a round of a slot. -/
theorem inRound_nodeValue (c w off : Nat) (ks : List Kid) (u : Option Upset) : d'.nodeValue c w off ks u = d.nodeValue c w off ks u := by
  have job := h.job (d.ctx c).job
  have bucket : d'.bucketOf c = d.bucketOf c := by
    rw [Dev.bucketOf, Dev.bucketOf, inRound_ctx h]
    exact (congrArg (fun x : Job => (x.bucket (d.ctx c).bucket).getD (leBytes 32 0)) job :)
  have step : d'.useStep c = d.useStep c := by
    rw [Dev.useStep, Dev.useStep, inRound_ctx h]
    exact (congrArg (fun x : Job => x.stepOf (d.ctx c).launched) job :)
  have rem : (d'.job (d.ctx c).job).remIn = (d.job (d.ctx c).job).remIn := (congrArg Job.remIn job :)
  unfold Dev.nodeValue
  dsimp only
  rw [bucket, step, inRound_ctx h, ← unslotted_nodeOut, job, unslotted_nodeOut, rem]

end

/-! ### Fragments leave staging (R106) -/

/-- The fragment once it has been combined or passed on, where it is one of those. -/
def Frag.takenIf (p : Frag → Bool) (f : Frag) : Frag := if p f then { f with taken := true } else f

@[simp] theorem header_takenIf (p : Frag → Bool) (f : Frag) : (f.takenIf p).header = f.header := by
  unfold Frag.takenIf
  split <;> rfl

theorem taken_takenIf {p : Frag → Bool} {f : Frag} (h : p f = true) : (f.takenIf p).taken = true := by
  rw [Frag.takenIf, if_pos h]

@[simp] theorem unpooled_poolFreeItem (d : Dev) (holder item : Nat) : (d.poolFreeItem holder item).unpooled = d.unpooled := rfl

theorem unpooled_foldl {α : Type} (f : Dev → α → Dev) (h : ∀ d a, (f d a).unpooled = d.unpooled) (l : List α) (d : Dev) :
    (l.foldl f d).unpooled = d.unpooled := by
  induction l generalizing d with
  | nil => rfl
  | cons a l ih => rw [List.foldl_cons, ih, h]

theorem unpooled_modCtx {a b : Dev} (h : a.unpooled = b.unpooled) (c : Nat) (f : Ctx → Ctx) :
    (a.modCtx c f).unpooled = (b.modCtx c f).unpooled := (congrArg (fun d : Dev => d.modCtx c f) h :)

/-- But for the pool and the counters, a release marks the fragments and changes nothing else. -/
theorem unpooled_releaseFrags (d : Dev) (c : Nat) (p : Frag → Bool) :
    (d.releaseFrags c p).unpooled = (d.modCtx c (fun x => { x with frags := x.frags.map (Frag.takenIf p) })).unpooled := by
  refine unpooled_modCtx (Eq.trans (unpooled_countDev _ _ _) ?_) c _
  exact unpooled_foldl _ (fun _ _ => unpooled_poolFreeItem _ _ _) _ d

/-! ### A fault of severity 3 (R109, R360, R361) -/

/-- A record of one class leaves the other classes, but that of the overwrite mark, as they are. -/
theorem recordFault_otherClass (d : Dev) (r : FaultRec) {k : Nat} (hk : k ≠ r.cls) (hk' : k ≠ 0x0C) :
    tget {} (d.recordFault r).faults.classes k = tget {} d.faults.classes k := by
  have once : ∀ (x : Dev) (q : FaultRec), k ≠ q.cls →
      tget {} (x.writeRecord q).faults.classes k = tget {} x.faults.classes k := by
    intro x q hq
    rw [(writeRecord_faults x q).2.2.1, Dev.afterRecord]
    split
    · rfl
    · dsimp only [Faults.put]
      exact tget_tmod_other _ _ hq _
  unfold Dev.recordFault
  split
  · exact (once _ { source := 0x0C03 } hk').trans (once d r hk)
  · exact once d r hk

/-- A fault's severity is the same after the record of another class. -/
theorem effective_recordFault (d : Dev) {q r : FaultRec} (hr : r.cls ≠ q.cls) (hr' : r.cls ≠ 0x0C) :
    (d.recordFault q).effective r = d.effective r := by
  have configured : (d.recordFault q).configured r.source = d.configured r.source :=
    (congrArg (fun x : Dev => x.configured r.source) (rest_recordFault d q) :)
  unfold Dev.effective
  rw [configured, recordFault_otherClass d q hr hr']

/-- A fault of severity 3 of a class above 3 aborts the use of its context, and its record follows that of the abort. -/
theorem raiseFault_aborts {d : Dev} {r : FaultRec} {c : Nat} (hcls : 3 < r.cls) (heff : d.effective r = 3) (hctx : r.ctx = some c)
    (hopen : (d.ctx c).abortable = true) : d.raiseFault r = (d.abortCtx c r.status (d.ownNode c) none).recordFault r := by
  simp [Dev.raiseFault, Dev.faultActs, Dev.abortAll, not_le.mpr hcls, heff, hctx, hopen]

/-- A device has aborted the use of a context with a status, after a fault of a source: the others stand as they did. -/
structure Dev.UseFailed (d t : Dev) (c status src : Nat) : Prop where
  state : (t.ctx c).state = .aborted
  status : (t.ctx c).status = status
  record : ∃ r ∈ t.faults.ring, recSource r.bytes = src
  others : ∀ k, k ≠ c → t.ctx k = d.ctx k

/-- A fault of severity 3 that concerns an open use of a gradient bucket fails that use. -/
theorem raiseFault_useFailed {d : Dev} {c src : Nat} (status : Nat) (unit : Option Nat) (detail : Bytes) (hsrc : 3 < src / 256)
    (hsrc' : src < 65536) (heff : ∀ r : FaultRec, r.source = src → r.cleared = false → d.effective r = 3)
    (hopen : (d.ctx c).state = .opened) (hbucket : (d.ctx c).bucket ≠ verdictBucket) :
    d.UseFailed (d.raiseFault (d.useFault src unit c status detail)) c status src := by
  have abortable : (d.ctx c).abortable = true := by rw [Ctx.abortable, hopen]; rfl
  have raised : d.raiseFault (d.useFault src unit c status detail) =
      (d.abortUse c status (d.ownNode c) none).recordFault (d.useFault src unit c status detail) := by
    rw [raiseFault_aborts (r := d.useFault src unit c status detail) hsrc (heff _ rfl rfl) rfl abortable, abortCtx_gradient d hbucket]
    rfl
  have ctx : ∀ k, (d.raiseFault (d.useFault src unit c status detail)).ctx k = (d.abortUse c status (d.ownNode c) none).ctx k := by
    rw [raised]
    exact rest_ctx (rest_recordFault _ _)
  refine ⟨?_, ?_, ?_, fun k hk => ?_⟩
  · rw [ctx, ctx_abortUse_same]
  · rw [ctx, ctx_abortUse_same]
  · rw [raised]
    exact recordFault_source _ _ hsrc'
  · rw [ctx, ctx_abortUse_other _ hk]

end Sys2Proof.Machine
end

section
/-! PROOFS. What a BASIN slot does (R59, R79, R80, R213, R326, R359). -/

namespace Sys2Proof.Machine

/-! ### A hosted node over one fragment (R79, R80, R326, R359) -/

/-- Whether a fragment of a context is one that a node takes over the fragment at an offset. -/
def Ctx.combines (x : Ctx) (off : Nat) (ks : List Kid) (f : Frag) : Bool :=
  chSeq f.header == x.sequence && chFrag f.header == off && (ks.map Kid.node).contains (chNode f.header)

/-- The fragments whose headers name the use, the offset and a child that the node took are free. -/
theorem taken_of_combined {x : Ctx} {off : Nat} {ks : List Kid} :
    ∀ g ∈ x.frags.map (Frag.takenIf (x.combines off ks)), chSeq g.header = x.sequence → chFrag g.header = off →
      chNode g.header ∈ ks.map Kid.node → g.taken = true := by
  intro g hg hseq hoff hnode
  obtain ⟨f, -, rfl⟩ := List.mem_map.mp hg
  rw [header_takenIf] at hseq hoff hnode
  exact taken_takenIf (by simpa [Ctx.combines, hseq, hoff] using hnode)

/-- A device has a node's value over one fragment in the open use, and the fragments that it took are free. -/
structure Dev.NodeJoined (d t : Dev) (c w off : Nat) (ks : List Kid) (r : NodeOut) : Prop where
  nodes : (t.ctx c).nodes = (d.ctx c).nodes ++ [{ frag := off, node := w, vals := r.vals, enc := r.enc }]
  state : (t.ctx c).state = (d.ctx c).state
  frags : (t.ctx c).frags = (d.ctx c).frags.map (Frag.takenIf ((d.ctx c).combines off ks))
  others : ∀ k, k ≠ c → t.ctx k = d.ctx k
  ports : t.ports = d.ports

section
variable (d : Dev) (c w off : Nat) (ks : List Kid) (u : Option Upset)

theorem basinNode_upset (h : (d.nodeValue c w off ks u).check ≠ 0) :
    d.basinNode c w off ks u = d.basinUpset c (d.nodeValue c w off ks u).check ((u.map Upset.element).getD 0) := if_pos h

/-- The pool and the counters apart, a node whose checks hold joins the use and takes its fragments. -/
theorem unpooled_basinNode (h : (d.nodeValue c w off ks u).check = 0) :
    (d.basinNode c w off ks u).unpooled = ((d.keepNode c w off ks (d.nodeValue c w off ks u)).modCtx c (fun x =>
      { x with frags := x.frags.map (Frag.takenIf ((d.ctx c).combines off ks)) })).unpooled := by
  have kept : ∀ i n, (((d.keepNode c w off ks (d.nodeValue c w off ks u)).count i n).ctx c).sequence = (d.ctx c).sequence := fun i n => by
    rw [rest_ctx (rest_count _ _ _), Dev.keepNode, ctx_modCtx_same]
  unfold Dev.basinNode
  dsimp only
  rw [if_neg (not_not.mpr h), unpooled_releaseFrags]
  simp only [kept]
  exact unpooled_modCtx (unpooled_of_uncounted (uncounted_count _ _ _)) c _

theorem basinNode_joins (h : (d.nodeValue c w off ks u).check = 0) :
    d.NodeJoined (d.basinNode c w off ks u) c w off ks (d.nodeValue c w off ks u) ∧ (d.basinNode c w off ks u).jobs = d.jobs ∧
      (d.basinNode c w off ks u).faults = d.faults := by
  obtain ⟨hctxs, hjobs, hports, hfaults, -⟩ := unpooled_fields (unpooled_basinNode d c w off ks u h)
  have ctx := ctx_congr hctxs
  have same := ctx c
  rw [ctx_modCtx_same, Dev.keepNode, ctx_modCtx_same] at same
  refine ⟨⟨(congrArg Ctx.nodes same :), (congrArg Ctx.state same :), (congrArg Ctx.frags same :), fun k hk => ?_, hports⟩, hjobs, hfaults⟩
  rw [ctx, ctx_modCtx_other _ hk, Dev.keepNode, ctx_modCtx_other _ hk]

/-- The record of a corrected error of a staging block (R359). -/
def Dev.stagingCorrected (d : Dev) (c : Nat) : Dev :=
  d.recordFault { source := 0x0A01, job := some (d.ctx c).job, step := d.useStep c }

variable {d c off ks}

theorem basinReads_uncorrectable (h : d.stagedKid c off ks = true) :
    d.basinReads c w off ks u .uncorrectable = d.raiseFault (d.useFault 0x0A02 none c stBasinFault []) := by
  simp [Dev.basinReads, h]

theorem basinReads_corrected (h : d.stagedKid c off ks = true) :
    d.basinReads c w off ks u .corrected = (d.stagingCorrected c).basinNode c w off ks u := by
  simp [Dev.basinReads, h, Dev.stagingCorrected]

theorem basinReads_clean {staging : EccResult} (h : d.stagedKid c off ks = true → staging = .clean) :
    d.basinReads c w off ks u staging = d.basinNode c w off ks u := by
  cases hs : d.stagedKid c off ks
  · simp [Dev.basinReads, hs]
  · simp [Dev.basinReads, hs, h hs]

/-- Without an uncorrectable error the node is computed, after the record of a corrected one. -/
theorem basinReads_computes {staging : EccResult} (h : staging = .uncorrectable → d.stagedKid c off ks = false) :
    ∃ e : Dev, (e = d ∨ e = d.stagingCorrected c) ∧ (staging = .corrected → d.stagedKid c off ks = true → e = d.stagingCorrected c) ∧
      d.basinReads c w off ks u staging = e.basinNode c w off ks u := by
  cases hs : d.stagedKid c off ks
  · exact ⟨d, .inl rfl, by simp, basinReads_clean w u (by simp [hs])⟩
  · cases staging with
    | clean => exact ⟨d, .inl rfl, by simp, basinReads_clean w u (fun _ => rfl)⟩
    | corrected => exact ⟨_, .inr rfl, fun _ _ => rfl, basinReads_corrected w u hs⟩
    | uncorrectable => simp [hs] at h

end

/-- A corrected error is reported, and nothing else follows. -/
theorem rest_stagingCorrected (d : Dev) (c : Nat) : (d.stagingCorrected c).rest = d.rest := rest_recordFault _ _

theorem rest_of_read {d e : Dev} {c : Nat} (h : e = d ∨ e = d.stagingCorrected c) : e.rest = d.rest := by
  obtain rfl | rfl := h
  · rfl
  · exact rest_stagingCorrected d c

theorem nodeValue_of_rest {d e : Dev} (h : e.rest = d.rest) (c w off : Nat) (ks : List Kid) (u : Option Upset) :
    e.nodeValue c w off ks u = d.nodeValue c w off ks u := (congrArg (fun x : Dev => x.nodeValue c w off ks u) h :)

/-- A hosted node whose blocks can be read and whose checks hold joins the use. -/
theorem basinReads_joins {d : Dev} {c w off : Nat} {ks : List Kid} {u : Option Upset} {staging : EccResult}
    (hcheck : (d.nodeValue c w off ks u).check = 0) (hread : staging = .uncorrectable → d.stagedKid c off ks = false) :
    d.NodeJoined (d.basinReads c w off ks u staging) c w off ks (d.nodeValue c w off ks u) ∧
      (d.basinReads c w off ks u staging).jobs = d.jobs ∧
      (staging = .corrected → d.stagedKid c off ks = true →
        ∃ r ∈ (d.basinReads c w off ks u staging).faults.ring, recSource r.bytes = 0x0A01) := by
  obtain ⟨e, he, hcorrected, hreads⟩ := basinReads_computes w u hread
  have rest := rest_of_read he
  have value := nodeValue_of_rest rest c w off ks u
  obtain ⟨⟨nodes, state, frags, others, ports⟩, jobs, faults⟩ := basinNode_joins e c w off ks u (by rw [value, hcheck])
  have ctx := rest_ctx rest
  rw [hreads]
  simp only [value, ctx] at nodes state frags others
  obtain ⟨hports, -, hjobs, -⟩ := rest_fields rest
  refine ⟨⟨nodes, state, frags, others, ports.trans hports⟩, jobs.trans hjobs, fun hc hs => ?_⟩
  rw [faults, hcorrected hc hs]
  exact recordFault_source d { source := 0x0A01, job := some (d.ctx c).job, step := d.useStep c } (by simp)

section
variable {d : Dev} {c : Nat} (hopen : (d.ctx c).state = .opened) (hbucket : (d.ctx c).bucket ≠ verdictBucket)
include hopen hbucket

/-- A residue check that failed in a Basin fails the use. -/
theorem basinUpset_useFailed (hsevere : ∀ r : FaultRec, r.source = 0x0401 → r.cleared = false → d.effective r = 3) (check element : Nat) :
    d.UseFailed (d.basinUpset c check element) c stBasinFault 0x0401 :=
  raiseFault_useFailed _ _ _ (by decide) (by decide) hsevere hopen hbucket

/-- So does a node whose check fails, or one that reads a block with an uncorrectable error. -/
theorem basinReads_useFailed {src w off : Nat} {ks : List Kid} {u : Option Upset} {staging : EccResult}
    (hsevere : ∀ r : FaultRec, r.source = src → r.cleared = false → d.effective r = 3)
    (h : src = 0x0A02 ∧ staging = .uncorrectable ∧ d.stagedKid c off ks = true ∨
      src = 0x0401 ∧ (staging = .uncorrectable → d.stagedKid c off ks = false) ∧ (d.nodeValue c w off ks u).check ≠ 0) :
    d.UseFailed (d.basinReads c w off ks u staging) c stBasinFault src := by
  obtain ⟨rfl, rfl, hstaged⟩ | ⟨rfl, hread, hcheck⟩ := h
  · rw [basinReads_uncorrectable w u hstaged]
    exact raiseFault_useFailed _ _ _ (by decide) (by decide) hsevere hopen hbucket
  · obtain ⟨e, he, -, hreads⟩ := basinReads_computes w u hread
    have rest := rest_of_read he
    have severe : ∀ r : FaultRec, r.source = 0x0401 → r.cleared = false → e.effective r = 3 := by
      intro r hr hc
      obtain rfl | rfl := he
      · exact hsevere r hr hc
      · rw [Dev.stagingCorrected, effective_recordFault d (by simp [FaultRec.cls, hr]) (by simp [FaultRec.cls, hr])]
        exact hsevere r hr hc
    have ctx := rest_ctx rest
    rw [hreads, basinNode_upset e c w off ks u (by rwa [nodeValue_of_rest rest])]
    obtain ⟨state, status, record, others⟩ := basinUpset_useFailed (by rwa [ctx]) (by rwa [ctx]) severe
      (e.nodeValue c w off ks u).check ((u.map Upset.element).getD 0)
    exact ⟨state, status, record, fun k hk => (others k hk).trans (ctx k)⟩

end

/-! ### The tile of a Basin (R59, R326; log entry 60) -/

/-- The output of a use's tile, with its events. -/
def Dev.tileOut (d : Dev) (c : Nat) (fs : List (W32 × W32)) (u : Option Upset) : Res :=
  tileSum (d.job (d.ctx c).job).ovf (u.map (fun y => (y.op, y.hit))) fs

theorem basinTile_upset (d : Dev) (c : Nat) (fs : List (W32 × W32)) (u : Option Upset) (h : (d.tileOut c fs u).ev.check ≠ 0) :
    d.basinTile c fs u = d.basinUpset c (d.tileOut c fs u).ev.check ((u.map Upset.element).getD 0) := if_pos h

theorem rest_basinTile (d : Dev) (c : Nat) (fs : List (W32 × W32)) (u : Option Upset) (h : (d.tileOut c fs u).ev.check = 0) :
    (d.basinTile c fs u).rest = { d.rest with tiles := tset d.tiles (d.ctx c).basin (d.tileOut c fs u).v } := by
  have sums : d.basinTile c fs u =
      ({ d with tiles := tset d.tiles (d.ctx c).basin (d.tileOut c fs u).v } : Dev).count (ctrIdx 6 (d.ctx c).basin 1) fs.length :=
    if_neg (not_not.mpr h)
  rw [sums, rest_count]
  rfl

theorem inRound_tileOut {d d' : Dev} (h : d.InRound d') (c : Nat) (fs : List (W32 × W32)) (u : Option Upset) :
    d'.tileOut c fs u = d.tileOut c fs u := by
  rw [Dev.tileOut, Dev.tileOut, inRound_ctx h, inRound_ovf h]

/-! ### The slot (R213) -/

theorem opened_of_mayCompute {d : Dev} {c w off : Nat} (h : d.mayCompute c w off = true) : (d.ctx c).state = .opened := by
  unfold Dev.mayCompute at h
  simp only [Bool.and_eq_true] at h
  obtain ⟨⟨⟨⟨hopen, -⟩, -⟩, -⟩, -⟩ := h
  exact eq_of_beq hopen

/-- A BASIN slot serves context `c`: it is that of the slot's bucket and channel, and its use has work for the slot. -/
structure Dev.BasinServes (d : Dev) (j i c : Nat) : Prop where
  bucket : ∃ b, (d.job j).bucket (slBucket (scSlot (d.job j).sched i)) = some b ∧ bkChannel b = slChannel (scSlot (d.job j).sched i) ∧ c = bkCtx b
  busy : d.basinIdle c (tget 0 (d.job j).acted i) = false

section
variable {d d' : Dev} {j i c : Nat} {f : Bytes} (u : Option Upset) (staging : EccResult)

theorem basinSlot_node {w off : Nat} {ks : List Kid} (hserves : d.BasinServes j i c)
    (hslot : d.slotIn j i 3 (d.ctx c).round = some (f, d')) (hkids : d.kidsOf c w off = some ks) (hmay : d.mayCompute c w off = true) :
    Dev.basinSlot j i (.node w off) u staging d = d'.basinReads c w off ks u staging := by
  obtain ⟨⟨b, hb, hch, rfl⟩, hbusy⟩ := hserves
  simp [Dev.basinSlot, hb, hch, hbusy, hslot, hkids, hmay]

/-- Its node joins the use, and of the jobs the round alone is new. -/
theorem basinSlot_joins {w off : Nat} {ks : List Kid} (hserves : d.BasinServes j i c)
    (hslot : d.slotIn j i 3 (d.ctx c).round = some (f, d')) (hkids : d.kidsOf c w off = some ks) (hmay : d.mayCompute c w off = true)
    (hcheck : (d.nodeValue c w off ks u).check = 0) (hread : staging = .uncorrectable → d.stagedKid c off ks = false) :
    d.NodeJoined (Dev.basinSlot j i (.node w off) u staging d) c w off ks (d.nodeValue c w off ks u) ∧
      (Dev.basinSlot j i (.node w off) u staging d).jobs = d'.jobs ∧
      (staging = .corrected → d.stagedKid c off ks = true →
        ∃ r ∈ (Dev.basinSlot j i (.node w off) u staging d).faults.ring, recSource r.bytes = 0x0A01) := by
  have round := slotIn_inRound hslot
  have value := inRound_nodeValue round c w off ks u
  have staged := inRound_stagedKid round c off ks
  have ctx := inRound_ctx round
  rw [← value] at hcheck
  rw [← staged] at hread
  obtain ⟨⟨nodes, state, frags, others, ports⟩, jobs, corrected⟩ := basinReads_joins hcheck hread
  rw [basinSlot_node u staging hserves hslot hkids hmay]
  simp only [value, staged, ctx] at nodes state frags others corrected
  exact ⟨⟨nodes, state, frags, others, ports.trans (inRound_ports round)⟩, jobs, corrected⟩

theorem basinSlot_tile {fs : List (W32 × W32)} (hserves : d.BasinServes j i c)
    (hslot : d.slotIn j i 3 (d.ctx c).round = some (f, d')) (hopen : (d.ctx c).state = .opened) (hup : d.unitDown (d.ctx c).basin = false) :
    Dev.basinSlot j i (.tile fs) u staging d = d'.basinTile c fs u := by
  obtain ⟨⟨b, hb, hch, rfl⟩, hbusy⟩ := hserves
  simp [Dev.basinSlot, hb, hch, hbusy, hslot, hopen, hup]

/-- Its tile's output is the sum of its products. -/
theorem rest_basinSlot_tile {fs : List (W32 × W32)} (hserves : d.BasinServes j i c)
    (hslot : d.slotIn j i 3 (d.ctx c).round = some (f, d')) (hopen : (d.ctx c).state = .opened) (hup : d.unitDown (d.ctx c).basin = false)
    (hcheck : (d.tileOut c fs u).ev.check = 0) :
    (Dev.basinSlot j i (.tile fs) u staging d).rest =
      { d'.rest with tiles := tset d.tiles (d.ctx c).basin (d.tileOut c fs u).v } := by
  have round := slotIn_inRound hslot
  have out := inRound_tileOut round c fs u
  rw [basinSlot_tile u staging hserves hslot hopen hup, rest_basinTile d' c fs u (by rwa [out]), out, inRound_ctx round, inRound_tiles round]

/-- What fails the use: a block that cannot be read, or a check of the node or of the tile. -/
theorem basinSlot_useFailed {src : Nat} {work : BasinWork} (hserves : d.BasinServes j i c)
    (hslot : d.slotIn j i 3 (d.ctx c).round = some (f, d')) (hbucket : (d.ctx c).bucket ≠ verdictBucket)
    (hfail : (∃ w off ks, work = .node w off ∧ d.mayCompute c w off = true ∧ d.kidsOf c w off = some ks ∧
        (src = 0x0A02 ∧ staging = .uncorrectable ∧ d.stagedKid c off ks = true ∨
          src = 0x0401 ∧ (staging = .uncorrectable → d.stagedKid c off ks = false) ∧ (d.nodeValue c w off ks u).check ≠ 0)) ∨
      (∃ fs, work = .tile fs ∧ src = 0x0401 ∧ (d.ctx c).state = .opened ∧ d.unitDown (d.ctx c).basin = false ∧
        (d.tileOut c fs u).ev.check ≠ 0))
    (hsevere : ∀ r : FaultRec, r.source = src → r.cleared = false → d.effective r = 3) :
    d.UseFailed (Dev.basinSlot j i work u staging d) c stBasinFault src := by
  have round := slotIn_inRound hslot
  have ctx := inRound_ctx round
  have severe : ∀ r : FaultRec, r.source = src → r.cleared = false → d'.effective r = 3 := fun r hr hc =>
    (inRound_effective round r).trans (hsevere r hr hc)
  have failed : d'.UseFailed (Dev.basinSlot j i work u staging d) c stBasinFault src := by
    obtain ⟨w, off, ks, rfl, hmay, hkids, hcause⟩ | ⟨fs, rfl, rfl, hopen, hup, hcheck⟩ := hfail
    · rw [basinSlot_node u staging hserves hslot hkids hmay]
      refine basinReads_useFailed (by rw [ctx]; exact opened_of_mayCompute hmay) (by rwa [ctx]) severe ?_
      rwa [inRound_stagedKid round, inRound_nodeValue round]
    · rw [← inRound_tileOut round] at hcheck
      rw [basinSlot_tile u staging hserves hslot hopen hup, basinTile_upset d' c fs u hcheck]
      exact basinUpset_useFailed (by rwa [ctx]) (by rwa [ctx]) severe _ _
  obtain ⟨state, status, record, others⟩ := failed
  exact ⟨state, status, record, fun k hk => (others k hk).trans (ctx k)⟩

/-- Out of its round, or where what it computes cannot be computed yet, the slot does nothing. -/
theorem basinSlot_waits {work : BasinWork} (hserves : d.BasinServes j i c)
    (hwait : d.slotIn j i 3 (d.ctx c).round = none ∨
      (∃ w off, work = .node w off ∧ (d.kidsOf c w off = none ∨ d.mayCompute c w off = false)) ∨
      (∃ fs, work = .tile fs) ∧ ((d.ctx c).state ≠ .opened ∨ d.unitDown (d.ctx c).basin = true)) :
    Dev.basinSlot j i work u staging d = d := by
  obtain ⟨⟨b, hb, hch, rfl⟩, hbusy⟩ := hserves
  cases hslot : d.slotIn j i 3 (d.ctx (bkCtx b)).round with
  | none => simp [Dev.basinSlot, hb, hch, hbusy, hslot]
  | some fd =>
    obtain hnone | ⟨w, off, rfl, hno⟩ | ⟨⟨fs, rfl⟩, hno⟩ := hwait
    · simp [hslot] at hnone
    · cases hkids : d.kidsOf (bkCtx b) w off with
      | none => simp [Dev.basinSlot, hb, hch, hbusy, hslot, hkids]
      | some ks =>
        have hmay : d.mayCompute (bkCtx b) w off = false := by simpa [hkids] using hno
        simp [Dev.basinSlot, hb, hch, hbusy, hslot, hkids, hmay]
    · obtain hclosed | hdown := hno
      · simp [Dev.basinSlot, hb, hch, hbusy, hslot, hclosed]
      · simp [Dev.basinSlot, hb, hch, hbusy, hslot, hdown]

/-- A due slot that serves no context only counts its round. -/
theorem basinSlot_passes {work : BasinWork} {e : Bytes} (hdue : SlotDue d j i 3 e)
    (hidle : ∀ b, (d.job j).bucket (slBucket e) = some b → bkChannel b = slChannel e →
      d.basinIdle (bkCtx b) (tget 0 (d.job j).acted i) = true) :
    Dev.basinSlot j i work u staging d = d.begun j i := by
  have taken := takeSlot_due hdue
  obtain rfl := hdue.1
  unfold Dev.basinSlot
  simp only [taken]
  cases hb : (d.job j).bucket (slBucket (scSlot (d.job j).sched i)) with
  | none => rfl
  | some b => exact if_pos (or_iff_not_imp_left.mpr fun hch => hidle b hb (not_not.mp hch))

end

/-! ### The statement -/

/-- What the statement says of a slot and its bucket, on the device at the command's time. -/
theorem basinServes_devAt {s : State} {now j i c : Nat} {e b : Bytes} (he : e = scSlot (s.dev.job j).sched i)
    (hb : (s.dev.job j).bucket (slBucket e) = some b) (hch : bkChannel b = slChannel e) (hc : c = bkCtx b)
    (hbusy : (s.devAt now).basinIdle c (tget 0 (s.dev.job j).acted i) = false) : (s.devAt now).BasinServes j i c := by
  subst he
  refine ⟨⟨b, ?_, ?_, hc⟩, ?_⟩ <;> rw [job_devAt] <;> assumption

theorem basinSlot_dev (j i now : Nat) (work : BasinWork) (u : Option Upset) (staging : EccResult) (s : State) :
    ∃ t, exec (.basinSlot j i work u staging now) s = .next t ∧ t.dev = (Dev.basinSlot j i work u staging (s.devAt now)).noteReady :=
  ⟨_, rfl, event_dev _ _ _⟩

/-- Settles O27, by what the slot computes and how that ends. The tile clauses rest on log entry 60. -/
theorem basinSlotsComputeNodes : Obligations.BasinSlotsComputeNodes := by
  refine ⟨fun j i w off now c staging u e f b ks d s he hb hch hc hbusy hslot hmay hkids hcheck hread => ?_,
    fun j i now c staging u e b work s he hb hch hc hbusy hwait => ?_,
    fun j i now c staging u e f b fs d s he hb hch hc hbusy hslot hopen hup hcheck => ?_,
    fun j i now c src staging u work e f b d s he hb hch hc hbusy hslot hbucket hfail hsevere => ?_,
    fun j i now staging u work e s hdue hidle => ?_⟩
  · have serves := basinServes_devAt he hb hch hc hbusy
    rw [← ctx_devAt s now] at hslot
    obtain ⟨⟨nodes, state, frags, others, ports⟩, jobs, corrected⟩ := basinSlot_joins u staging serves hslot hkids hmay hcheck hread
    obtain ⟨t, hexec, ht⟩ := basinSlot_dev j i now (.node w off) u staging s
    simp only [ctx_devAt] at nodes frags others
    refine ⟨t, { frag := off, node := w, vals := _, enc := _ }, hexec, ?_, rfl, rfl, rfl, rfl, rfl, ?_, ?_, ?_, ?_, ?_, fun k hk => ?_, ?_⟩
    · rw [ht, noteReady_ctx, nodes]
    · rw [ht, noteReady_ctx, state, opened_of_mayCompute hmay]
    · rw [ht, noteReady_ctx, frags, List.map_map]
      exact List.map_congr_left fun g _ => header_takenIf _ g
    · rw [ht, noteReady_ctx, frags]
      exact taken_of_combined
    · rw [ht, noteReady_faults]
      exact corrected
    · rw [ht, noteReady_jobs, jobs]
    · rw [ht, noteReady_ctx, others k hk]
    · rw [ht, noteReady_ports, ports, to_ports]
  · have serves := basinServes_devAt he hb hch hc hbusy
    rw [← ctx_devAt s now] at hwait
    obtain ⟨t, hexec, ht⟩ := basinSlot_dev j i now work u staging s
    exact ⟨t, hexec, by rw [ht, rest_noteReady, basinSlot_waits u staging serves hwait]⟩
  · have serves := basinServes_devAt he hb hch hc hbusy
    rw [← ctx_devAt s now] at hslot hopen hup
    rw [← ctx_devAt s now, ← job_devAt s now] at hcheck ⊢
    obtain ⟨t, hexec, ht⟩ := basinSlot_dev j i now (.tile fs) u staging s
    refine ⟨t, hexec, ?_⟩
    rw [ht, rest_noteReady, rest_basinSlot_tile u staging serves hslot hopen hup hcheck, to_tiles]
    rfl
  · have serves := basinServes_devAt he hb hch hc hbusy
    rw [← ctx_devAt s now] at hslot hbucket hfail
    rw [← job_devAt s now] at hfail
    obtain ⟨state, status, record, others⟩ := basinSlot_useFailed u staging serves hslot hbucket hfail hsevere
    obtain ⟨t, hexec, ht⟩ := basinSlot_dev j i now work u staging s
    refine ⟨t, hexec, ?_, ?_, ?_, fun k hk => ?_⟩
    · rw [ht, noteReady_ctx, state]
    · rw [ht, noteReady_ctx, status]
    · rwa [ht, noteReady_faults]
    · rw [ht, noteReady_ctx, others k hk, ctx_devAt]
  · obtain ⟨t, hexec, ht⟩ := basinSlot_dev j i now work u staging s
    rw [← job_devAt s now] at hidle
    exact ⟨t, hexec, by rw [ht, rest_noteReady, basinSlot_passes u staging hdue hidle]⟩

end Sys2Proof.Machine
end

section
/-! PROOFS. Headers and lane symbols read back (R100, R151, R228, R232). -/

namespace Sys2Proof.Machine

/-! ### Fields of a header (R7) -/

/-- The field at the front of a header holds the low bytes of what was put there. -/
theorem fld_leBytes_append (n v : Nat) (r : Bytes) : fld (leBytes n v ++ r) 0 n = v % 256 ^ n := by
  have front : slice (leBytes n v ++ r) 0 n = leBytes n v := by simp [slice]
  rw [fld, front, leVal_leBytes]

/-- A field behind the front one is a field of the rest. -/
theorem fld_append_behind {m v o : Nat} (h : m ≤ o) (r : Bytes) (n : Nat) : fld (leBytes m v ++ r) o n = fld r (o - m) n := by
  have behind : slice (leBytes m v ++ r) o n = slice r (o - m) n := by simp [slice, List.drop_append, List.drop_of_length_le, h]
  rw [fld, fld, behind]

/-- The layout of R100, field by field. -/
theorem mkContribution_eq (kind job channel flags gen micro seq node step op elem wire bucket tree hash count frag fcount : Nat) :
    mkContribution kind job channel flags gen micro seq node step op elem wire bucket tree hash count frag fcount =
      leBytes 1 kind ++ (leBytes 1 job ++ (leBytes 1 channel ++ (leBytes 1 flags ++ (leBytes 2 gen ++ (leBytes 2 micro ++ (leBytes 4 seq ++
        (leBytes 4 node ++ (leBytes 6 step ++ (leBytes 1 op ++ (leBytes 1 elem ++ (leBytes 1 wire ++ (leBytes 1 0 ++ (leBytes 2 bucket ++
        (leBytes 4 tree ++ (leBytes 4 hash ++ (leBytes 4 count ++ (leBytes 4 frag ++ (leBytes 2 fcount ++ leBytes 2 0)))))))))))))))))) := by
  delta mkContribution
  simp only [List.append_assoc]

/-- Every field of a contribution header comes back from its 48 bytes (R100). -/
theorem fields_mkContribution {kind job channel flags gen micro seq node step op elem wire bucket tree hash count frag fcount : Nat} {h : Bytes}
    (hkind : kind < 2 ^ 8) (hjob : job < 2 ^ 8) (hchannel : channel < 64) (hgen : gen < 2 ^ 16)
    (hmicro : micro < 2 ^ 16) (hseq : seq < 2 ^ 32) (hnode : node < 2 ^ 32) (hstep : step < 2 ^ 48) (hop : op < 2 ^ 8) (helem : elem < 2 ^ 8)
    (hwire : wire < 2 ^ 8) (hbucket : bucket < 2 ^ 16) (htree : tree < 2 ^ 32) (hhash : hash < 2 ^ 32) (hcount : count < 2 ^ 32)
    (hfrag : frag < 2 ^ 32) (hfcount : fcount < 2 ^ 16)
    (hh : h = mkContribution kind job channel flags gen micro seq node step op elem wire bucket tree hash count frag fcount) :
    h.length = 48 ∧ chKind h = kind ∧ chJob h = job ∧ chChannel h = channel ∧ chReplay h = bit flags 0 ∧ chGen h = gen ∧ chMicro h = micro ∧
      chSeq h = seq ∧ chNode h = node ∧ chStep h = step ∧ chOp h = op ∧ chElem h = elem ∧ chWire h = wire ∧ chBucket h = bucket ∧
      chTree h = tree ∧ chHash h = hash ∧ chCount h = count ∧ chFrag h = frag ∧ chFragCount h = fcount := by
  rw [mkContribution_eq] at hh
  subst hh
  simp [chKind, chJob, chChannel, chReplay, chGen, chMicro, chSeq, chNode, chStep, chOp, chElem, chWire, chBucket, chTree, chHash, chCount,
    chFrag, chFragCount, u8, bits, bit, fld_append_behind, fld_leBytes_append]
  omega

/-- The fields of an Outflow header that the device reads come back from its 80 bytes (R151). -/
theorem fields_mkOutflow {kind job channel flags gen seq tensor step format off count : Nat} {scale gscale : Int} {prov h : Bytes}
    (hkind : kind < 2 ^ 8) (hjob : job < 2 ^ 8) (hchannel : channel < 64) (hgen : gen < 2 ^ 16) (hseq : seq < 2 ^ 32) (htensor : tensor < 2 ^ 20)
    (hstep : step < 2 ^ 48) (hformat : format < 2 ^ 8) (hoff : off < 2 ^ 64) (hcount : count < 2 ^ 16) (hprov : prov.length = 32)
    (hh : h = mkOutflow kind job channel flags gen scale seq tensor step format gscale off count prov) :
    h.length = 80 ∧ ohKind h = kind ∧ ohJob h = job ∧ ohChannel h = channel ∧ ohGen h = gen ∧ ohSeq h = seq ∧ ohTensor h = tensor ∧
      ohStep h = step ∧ ohFormat h = format ∧ ohOff h = off ∧ ohCount h = count := by
  subst hh
  simp [mkOutflow, hprov, ohKind, ohJob, ohChannel, ohGen, ohSeq, ohTensor, ohStep, ohFormat, ohOff, ohCount, u8, bits, fld_append_behind,
    fld_leBytes_append]
  omega

/-! ### Lanes (R228, R232) -/

/-- The receiver adds its last value, which the precoder took away, modulo 4 (R228; log entry 33). -/
theorem decodePam_precode (y : Nat) (xs : List Nat) (h : ∀ x ∈ xs, x < 4) : decodePam y (precode y xs) = xs := by
  induction xs generalizing y with
  | nil => rfl
  | cons x xs ih =>
    obtain ⟨hx, hxs⟩ := List.forall_mem_cons.mp h
    have value : ((x + 4 - y % 4) % 4 + y) % 4 = x := by omega
    simp only [precode, decodePam, value, ih _ hxs]

/-- A symbol of a codeword stands in its place on the lane that carries it (R232). -/
theorem laneSymbols_carries (cs : List (List Nat)) {c k : Nat} (hc : c < 8) (hk : k < 544) :
    (laneSymbols cs ((c + k) % 8)).getD k 0 = (cs.getD c []).getD k 0 := by
  have word : ((c + k) % 8 + 7 * k) % 8 = c := by omega
  have place : (List.range 544)[k]? = some k := List.getElem?_range hk
  rw [laneSymbols, List.getD_eq_getElem?_getD, List.getElem?_map, place, Option.map_some, Option.getD_some, word]

/-- Settles O60: the two headers field by field, the precoder by induction, and the lane of a symbol by arithmetic. -/
theorem headersAndLanesReadBack : Obligations.HeadersAndLanesReadBack :=
  ⟨fun _ _ _ _ _ _ _ _ _ _ _ _ _ _ _ _ _ _ _ hkind hjob hchannel _ => fields_mkContribution hkind hjob hchannel,
    fun _ _ _ _ _ _ _ _ _ _ _ _ _ _ _ => fields_mkOutflow, decodePam_precode, fun cs _ _ => laneSymbols_carries cs⟩

end Sys2Proof.Machine
end

section
/-! PROOFS. Fragments and notices of another generation (R98). -/

namespace Sys2Proof.Machine

/-! ### The counters of a job (R437) -/

theorem ctr_count_other (d : Dev) {i k : Nat} (h : k ≠ i) (n : Nat) : (d.count i n).ctr k = d.ctr k := by
  by_cases hn : n = 0
  · simp [Dev.count, hn]
  · rw [ctr_count d i k n hn, if_neg h]

/-- A job's counter and its total count together. -/
theorem ctr_countJob (d : Dev) (j num : Nat) {k n : Nat} (hn : n ≠ 0) (hk : k = ctrIdx 1 (j % 256) num ∨ k = ctrIdx 0 0 num) :
    (d.countJob j num n).ctr k = (d.ctr k + n) % 2 ^ 64 := by
  have apart : ctrIdx 1 (j % 256) num ≠ ctrIdx 0 0 num := by simp only [ctrIdx]; omega
  obtain rfl | rfl := hk
  · rw [Dev.countJob, ctr_count_other _ apart, ctr_count _ _ _ _ hn, if_pos rfl]
  · rw [Dev.countJob, ctr_count _ _ _ _ hn, if_pos rfl, ctr_count_other _ apart.symm]

theorem ctr_countJob_other (d : Dev) (j num n : Nat) {k : Nat} (hjob : k ≠ ctrIdx 1 (j % 256) num) (hdev : k ≠ ctrIdx 0 0 num) :
    (d.countJob j num n).ctr k = d.ctr k := by
  rw [Dev.countJob, ctr_count_other _ hdev, ctr_count_other _ hjob]

/-! ### The serial rule over generations (R95, R98) -/

/-- A generation before the context's is counted as stale, one after it as future. -/
theorem genDrop_of_dist {gen ctx n : Nat}
    (h : (1 ≤ ((gen : Int) - ctx) % 2 ^ 16 ∧ ((gen : Int) - ctx) % 2 ^ 16 < 2 ^ 15 ∧ n = 5) ∨ (2 ^ 15 ≤ ((gen : Int) - ctx) % 2 ^ 16 ∧ n = 4)) :
    genDrop gen ctx = some n := by
  have hne : gen ≠ ctx := by omega
  obtain ⟨hlow, hhigh, rfl⟩ | ⟨hbefore, rfl⟩ := h
  · have after : serialAfter 16 gen ctx = true := by
      simp only [serialAfter, Bool.and_eq_true, decide_eq_true_eq]
      omega
    simp [genDrop, hne, after]
  · have before : serialAfter 16 gen ctx = false := by
      simp only [serialAfter, Bool.and_eq_false_iff, decide_eq_false_iff_not]
      omega
    simp [genDrop, hne, before]

/-! ### The drop -/

section
variable {port now c n : Nat} {h p : Bytes} {s : State} (hjob : (s.dev.job (chJob h)).state ≠ .empty) (hop : chOp h = 1 ∨ chOp h = 2)
  (hctx : (s.devAt now).ctxFor h = some c) (hx : (s.dev.ctx c).abortable = true) (hgen : genDrop (chGen h) (s.dev.ctx c).generation = some n)
include hjob hop hctx hx hgen

theorem noticeRx_generation (hkind : chKind h = 7) :
    Dev.noticeRx port h p (s.devAt now) = (s.devAt now).countJob (chJob h) n 1 := by
  simp [Dev.noticeRx, hkind, job_devAt, hjob, hop, hctx, Dev.ctxNotice, ctx_devAt, abortable_not_ended hx, hgen]

theorem fragmentRx_generation {r : Bytes} (hkind : chKind h = 1 ∨ chKind h = 2) :
    Dev.fragmentRx port r h p (s.devAt now) = ((s.devAt now).fragSeen h).countJob (chJob h) n 1 :=
  fragmentRx_counted ⟨hjob, hctx, hkind, hop⟩ (.inr ⟨hx, .inl hgen⟩)

end

theorem uncounted_fields {a b : Dev} (h : a.uncounted = b.uncounted) : a.rest = b.rest ∧ a.faults = b.faults :=
  ⟨(congrArg Dev.rest h :), (congrArg Dev.faults h :)⟩

/-- An event that leaves a device as it was, but for a count of one in a job's counter. -/
theorem counted_of_event {now j n : Nat} {s : State} {f : Dev → Dev} {d : Dev} (hf : f (s.devAt now) = d.countJob j n 1) (hj : j < 256)
    (hd : d.uncounted = (s.devAt now).uncounted)
    (hjob : d.ctr (ctrIdx 1 j n) = (s.devAt now).ctr (ctrIdx 1 j n)) (hdev : d.ctr (ctrIdx 0 0 n) = (s.devAt now).ctr (ctrIdx 0 0 n)) :
    (s.event now f).dev.rest = (s.devAt now).rest ∧ (s.event now f).dev.faults = s.dev.faults ∧
      (s.event now f).dev.ctr (ctrIdx 1 j n) = ((s.devAt now).ctr (ctrIdx 1 j n) + 1) % 2 ^ 64 ∧
      (s.event now f).dev.ctr (ctrIdx 0 0 n) = ((s.devAt now).ctr (ctrIdx 0 0 n) + 1) % 2 ^ 64 := by
  have hmod : j % 256 = j := Nat.mod_eq_of_lt hj
  have counted := uncounted_fields ((uncounted_countJob d j n 1).trans hd)
  rw [event_dev, hf, rest_noteReady, noteReady_faults, noteReady_ctr, noteReady_ctr, ← hjob, ← hdev]
  exact ⟨counted.1, counted.2.trans (to_faults _ _), ctr_countJob d j n one_ne_zero (.inl (by rw [hmod])),
    ctr_countJob d j n one_ne_zero (.inr rfl)⟩

theorem chJob_lt (h : Bytes) : chJob h < 256 :=
  calc chJob h < 256 ^ (slice h 1 1).length := leVal_lt _
    _ ≤ 256 ^ 1 := Nat.pow_le_pow_right (by decide) (List.length_take_le _ _)

/-- Settles O57: both commands count the drop by `genDrop`; a replayed fragment is counted in another counter first. -/
theorem generationsMustMatch : Obligations.GenerationsMustMatch := by
  intro port now c n r h p cmd s hcmd hjob hop hctx hx hn
  have hgen := genDrop_of_dist hn
  obtain ⟨rfl, hkind⟩ | ⟨rfl, hkind⟩ := hcmd
  · have other : n ≠ 9 := by omega
    exact ⟨_, rfl, counted_of_event (fragmentRx_generation hjob hop hctx hx hgen hkind) (chJob_lt h) (uncounted_countJob _ _ _ _)
      (ctr_countJob_other _ _ _ _ (by simp only [ctrIdx]; omega) (by simp only [ctrIdx]; omega))
      (ctr_countJob_other _ _ _ _ (by simp only [ctrIdx]; omega) (by simp only [ctrIdx]; omega))⟩
  · exact ⟨_, rfl, counted_of_event (noticeRx_generation hjob hop hctx hx hgen hkind) (chJob_lt h) rfl rfl rfl⟩

end Sys2Proof.Machine
end

section
/-! PROOFS. A use opens, hangs, and is armed again (R92, R98, R112, R114, R377, R379). -/

namespace Sys2Proof.Machine

/-! ### Opening (R92, R114, R377) -/

theorem quiet_modJob {a b : Dev} (h : a.quiet = b.quiet) (j : Nat) (f : Job → Job) : (a.modJob j f).quiet = (b.modJob j f).quiet :=
  (congrArg (fun x : Dev => x.modJob j f) h :)

/-- A context whose use opens at a time: what it holds in spill of the use is marked. -/
def Ctx.openedAt (now : Nat) (x : Ctx) : Ctx :=
  { x with state := .opened, openTick := now, spilled := x.frags.any (fun f => f.spilled && chSeq f.header == x.sequence) }

/-- A job whose Verdict use has opened at a device of the result list (R377). -/
def Job.contributed (x : Job) : Job := { x with rcPhase := max x.rcPhase 2 }

/-- A device on which a use has opened; nothing is traced yet. -/
def Dev.useOpened (d : Dev) (c : Nat) : Dev :=
  if (d.ctx c).bucket = verdictBucket ∧ (d.job (d.ctx c).job).onList = true
    then (d.modCtx c (Ctx.openedAt d.time)).modJob (d.ctx c).job Job.contributed
    else d.modCtx c (Ctx.openedAt d.time)

theorem ctxs_useOpened (d : Dev) (c : Nat) : (d.useOpened c).ctxs = (d.modCtx c (Ctx.openedAt d.time)).ctxs := by
  unfold Dev.useOpened
  split <;> rfl

theorem ports_useOpened (d : Dev) (c : Nat) : (d.useOpened c).ports = d.ports := by
  unfold Dev.useOpened
  split <;> rfl

theorem faults_useOpened (d : Dev) (c : Nat) : (d.useOpened c).faults = d.faults := by
  unfold Dev.useOpened
  split <;> rfl

theorem job_useOpened (d : Dev) (c j : Nat) : (d.useOpened c).job j =
    if j = (d.ctx c).job ∧ (d.ctx c).bucket = verdictBucket ∧ (d.job j).onList = true then (d.job j).contributed else d.job j := by
  unfold Dev.useOpened
  by_cases hj : j = (d.ctx c).job
  · subst hj
    simp only [true_and]
    split
    · rw [job_modJob_same]
      rfl
    · rfl
  · simp only [hj, false_and, if_false]
    split
    · rw [job_modJob_other _ hj]
      rfl
    · rfl

/-- A use that may open on a Basin in service opens, and its state change is traced. -/
theorem quiet_openCtx {d : Dev} {c : Nat} (hmay : d.mayOpen c = true) (hup : d.unitDown (d.ctx c).basin = false) :
    (d.openCtx c).quiet = (d.useOpened c).quiet := by
  have traced : ((d.modCtx c (Ctx.openedAt d.time)).siltCtx c .armed).quiet = (d.modCtx c (Ctx.openedAt d.time)).quiet := quiet_siltCtx _ _ _
  have job : ((d.modCtx c (Ctx.openedAt d.time)).siltCtx c .armed).job (d.ctx c).job = d.job (d.ctx c).job :=
    rest_job (rest_of_quiet traced) _
  have shape : d.openCtx c =
      if (d.ctx c).bucket = verdictBucket ∧ (((d.modCtx c (Ctx.openedAt d.time)).siltCtx c .armed).job (d.ctx c).job).onList = true
        then ((d.modCtx c (Ctx.openedAt d.time)).siltCtx c .armed).modJob (d.ctx c).job Job.contributed
        else (d.modCtx c (Ctx.openedAt d.time)).siltCtx c .armed := by
    unfold Dev.openCtx
    rw [hmay, hup]
    rfl
  rw [shape, job, Dev.useOpened]
  split
  · exact quiet_modJob traced _ _
  · exact traced

theorem openCtx_down {d : Dev} {c : Nat} (hmay : d.mayOpen c = true) (hdown : d.unitDown (d.ctx c).basin = true) :
    d.openCtx c = d.abortCtx c stBasinFault (d.ownNode c) none := by
  simp [Dev.openCtx, hmay, hdown]

theorem openCtx_waits {d : Dev} {c : Nat} (hmay : d.mayOpen c = false) : d.openCtx c = d := by simp [Dev.openCtx, hmay]

/-! ### The hang time (R112, R379) -/

section
variable {d : Dev} {c : Nat}

theorem hangCtx_late (hopen : (d.ctx c).state = .opened ∨ (d.ctx c).state = .draining) (hjob : (d.job (d.ctx c).job).state ≠ .halted)
    (hlate : (d.ctx c).openTick + (d.job (d.ctx c).job).hangTicks < d.time) :
    d.hangCtx c = d.abortCtx c stHangTimeout (d.ownNode c) none := by
  simp [Dev.hangCtx, hopen, hjob, hlate]

theorem hangCtx_waits (h : (d.job (d.ctx c).job).state = .halted ∨ ((d.ctx c).state ≠ .opened ∧ (d.ctx c).state ≠ .draining) ∨
    d.time ≤ (d.ctx c).openTick + (d.job (d.ctx c).job).hangTicks) : d.hangCtx c = d := by
  refine if_neg fun hlate => ?_
  simp only [Bool.and_eq_true, Bool.or_eq_true, beq_iff_eq, bne_iff_ne, decide_eq_true_eq] at hlate
  obtain ⟨⟨hopen, hjob⟩, htime⟩ := hlate
  obtain hhalted | ⟨hopened, hdraining⟩ | hearly := h
  · exact hjob hhalted
  · exact hopen.elim hopened hdraining
  · exact not_lt.mpr hearly htime

/-! ### The end of a context reset (R92, R98; log entry 59) -/

/-- A context that is ARMED again after its reset, under the next generation. -/
def Ctx.rearmed (x : Ctx) : Ctx :=
  { x with state := .armed, status := 0, spilled := false, generation := (x.generation + 1) % 2 ^ 16, forwarded := [] }

theorem rest_resetDone (h : (d.ctx c).state = .resetting) :
    (d.resetDone c).rest = ((d.modJob (d.ctx c).job (fun x => { x with moved := [] })).modCtx c Ctx.rearmed).rest := by
  unfold Dev.resetDone
  rw [h]
  exact rest_siltCtx _ _ _

theorem resetDone_other (h : (d.ctx c).state ≠ .resetting) : d.resetDone c = d := by simp [Dev.resetDone, h]

end

/-! ### The statement -/

/-- A command that leaves the device as it was leaves its rest. -/
theorem rest_event_idle {s : State} {now : Nat} {f : Dev → Dev} (h : f (s.devAt now) = s.devAt now) :
    (s.event now f).dev.rest = (s.devAt now).rest := by rw [event_dev, rest_noteReady, h]

/-- An event that aborts a gradient bucket's use leaves its context `Aborted`. -/
theorem aborted_of_event {s : State} {now c status node : Nat} {f : Dev → Dev}
    (h : f (s.devAt now) = (s.devAt now).abortCtx c status node none) (hbucket : (s.dev.ctx c).bucket ≠ verdictBucket)
    (hstatus : status < 65536) : Aborted s (s.event now f) c status :=
  aborted_of_abortCtx (to_ctxs _ _) (to_jobs _ _) hbucket hstatus (by rw [event_dev, h])

theorem ctxOpen_opens (c now : Nat) (s : State) (hmay : (s.devAt now).mayOpen c = true)
    (hup : (s.devAt now).unitDown (s.dev.ctx c).basin = false) :
    ∃ t, exec (.ctxOpen c now) s = .next t ∧ (t.dev.ctx c).state = .opened ∧ (t.dev.ctx c).openTick = (s.devAt now).time ∧
      (t.dev.ctx c).sequence = (s.dev.ctx c).sequence ∧ (t.dev.ctx c).frags = (s.dev.ctx c).frags ∧
      (∀ i, i ≠ c → t.dev.ctx i = s.dev.ctx i) ∧ t.dev.ports = s.dev.ports ∧ t.dev.faults = s.dev.faults ∧
      (∀ j, t.dev.job j = if j = (s.dev.ctx c).job ∧ (s.dev.ctx c).bucket = verdictBucket ∧ (s.dev.job j).onList = true
        then { s.dev.job j with rcPhase := max (s.dev.job j).rcPhase 2 } else s.dev.job j) := by
  have quiet := quiet_openCtx hmay (by rwa [ctx_devAt])
  have rest := rest_of_quiet quiet
  have ctx : ∀ i, ((s.devAt now).openCtx c).ctx i = ((s.devAt now).modCtx c (Ctx.openedAt (s.devAt now).time)).ctx i := fun i =>
    (rest_ctx rest i).trans (ctx_congr (ctxs_useOpened _ _) i)
  have same : ((s.devAt now).openCtx c).ctx c = (s.dev.ctx c).openedAt (s.devAt now).time := by rw [ctx, ctx_modCtx_same, ctx_devAt]
  refine ⟨_, rfl, ?_⟩
  rw [event_dev]
  simp only [noteReady_ctx, noteReady_ports, noteReady_faults, noteReady_job, same, rest_job rest, job_useOpened, ctx_devAt, job_devAt]
  exact ⟨rfl, rfl, rfl, rfl, fun i hi => by rw [ctx, ctx_modCtx_other _ hi, ctx_devAt],
    (rest_fields rest).1.trans ((ports_useOpened _ _).trans (to_ports _ _)),
    (quiet_faults quiet).trans ((faults_useOpened _ _).trans (to_faults _ _)), fun _ => rfl⟩

theorem ctxResetComplete_arms (c now : Nat) (s : State) (h : (s.dev.ctx c).state = .resetting) :
    ∃ t, exec (.ctxResetComplete c now) s = .next t ∧ (t.dev.ctx c).state = .armed ∧ (t.dev.ctx c).status = 0 ∧
      (t.dev.ctx c).generation = ((s.dev.ctx c).generation + 1) % 2 ^ 16 ∧ (t.dev.ctx c).sequence = (s.dev.ctx c).sequence ∧
      (∀ i, i ≠ c → t.dev.ctx i = s.dev.ctx i) ∧ t.dev.ports = s.dev.ports ∧
      (∀ j, t.dev.job j = if j = (s.dev.ctx c).job then { s.dev.job j with moved := [] } else s.dev.job j) := by
  have rest := rest_resetDone (d := s.devAt now) (c := c) (by rwa [ctx_devAt])
  have same : ((s.devAt now).resetDone c).ctx c = (s.dev.ctx c).rearmed := by
    rw [rest_ctx rest, ctx_modCtx_same, ctx_congr (ctxs_modJob _ _ _), ctx_devAt]
  refine ⟨_, rfl, ?_⟩
  rw [event_dev]
  simp only [noteReady_ctx, noteReady_ports, noteReady_job, same, rest_job rest]
  refine ⟨rfl, rfl, rfl, rfl, fun i hi => ?_, (rest_fields rest).1.trans (to_ports _ _), fun j => ?_⟩
  · rw [rest_ctx rest, ctx_modCtx_other _ hi, ctx_congr (ctxs_modJob _ _ _), ctx_devAt]
  · rw [job_congr (jobs_modCtx _ _ _), ctx_devAt]
    by_cases hj : j = (s.dev.ctx c).job
    · rw [if_pos hj, ← hj, job_modJob_same, job_devAt]
    · rw [if_neg hj, job_modJob_other _ hj, job_devAt]

/-- Settles O22: the branches of the opening, of the hang time-out and of the end of a reset. -/
theorem usesOpenHangAndRearm : Obligations.UsesOpenHangAndRearm := by
  refine ⟨⟨ctxOpen_opens, fun c now s hmay hdown hbucket => ⟨_, rfl, ?_⟩, fun c now s hmay => ⟨_, rfl, rest_event_idle (openCtx_waits hmay)⟩⟩,
    fun c now s hopen hjob hlate hbucket => ⟨_, rfl, ?_⟩, fun c now s hwait => ⟨_, rfl, rest_event_idle (hangCtx_waits ?_)⟩,
    ctxResetComplete_arms, fun c now s h => ⟨_, rfl, rest_event_idle (resetDone_other (by rwa [ctx_devAt]))⟩⟩
  · exact aborted_of_event (openCtx_down hmay (by rwa [ctx_devAt])) hbucket (by decide)
  · exact aborted_of_event (hangCtx_late (by rwa [ctx_devAt]) (by rwa [ctx_devAt, job_devAt]) (by rwa [ctx_devAt, job_devAt])) hbucket (by decide)
  · simpa only [ctx_devAt, job_devAt] using hwait

end Sys2Proof.Machine
end

section
/-! SUPPORT. Without a disturbance no residue check fails: the arithmetic of file 02 and of the update programs (R322 to R326). -/

namespace Sys2Proof.Machine

/-! ### The adder and the multiply-add (R53 to R58) -/

theorem check_checked_zero (r : Res) : (r.checked 0).ev.check = r.ev.check := rfl

@[simp] theorem check_or {a b : Ev} : (a.or b).check = 0 ↔ a.check = 0 ∧ b.check = 0 := by
  unfold Ev.or
  constructor
  · intro h
    dsimp only at h
    split at h
    · next ha => exact ⟨ha, h⟩
    · next ha => exact absurd h ha
  · rintro ⟨ha, hb⟩
    simp [ha, hb]

theorem check_overflowTo (m : Ovf) (s : Bool) : (overflowTo m s).ev.check = 0 := by cases m <;> rfl

theorem check_encodeTo (m : Ovf) (sg : Bool) (before : List Check) (e3 : Int) (q2 : Nat) : (encodeTo m sg none before e3 q2).ev.check = 0 := by
  unfold encodeTo
  dsimp only
  split
  · exact check_overflowTo m sg
  · rfl

theorem check_finish (m : Ovf) (sg : Bool) (e : Int) (s : Nat) (before : List Check) : (finish m sg e s none before).ev.check = 0 :=
  check_encodeTo _ _ _ _ _

theorem check_finishSum (m : Ovf) (sg : Bool) (e : Int) (s : Nat) (before : List Check) : (finishSum m sg e s none before).ev.check = 0 := by
  unfold finishSum
  split
  · rfl
  · exact check_finish m sg e s before

theorem check_addSpecial {a b : W32} {r : Res} (h : addSpecial a b = some r) : r.ev.check = 0 := by
  unfold addSpecial at h
  repeat' split at h
  all_goals cases h
  all_goals rfl

theorem check_addR (m : Ovf) (a b : W32) : (addR m a b).ev.check = 0 := by
  unfold addR
  split
  · next h => exact check_addSpecial h
  · split <;> exact check_finishSum _ _ _ _ _

theorem check_subR (m : Ovf) (a b : W32) : (subR m a b).ev.check = 0 := check_addR m a (neg b)

theorem check_fmaCore (m : Ovf) (a b c : W32) : (fmaCore m a b c).ev.check = 0 := check_finishSum _ _ _ _ _

theorem check_fmaR (m : Ovf) (a b c : W32) : (fmaR m a b c).ev.check = 0 := by
  unfold fmaR
  dsimp only
  split_ifs
  iterate 9 rfl
  exact check_fmaCore m a b c

theorem check_mulR (m : Ovf) (a b : W32) : (mulR m a b).ev.check = 0 := check_fmaR m a b _

/-! ### Conversions (R48, R49, R64 to R66) -/

theorem check_convOverflow (m : Ovf) (f : Fmt) (s : Bool) : (convOverflow m f s).ev.check = 0 := by cases m <;> rfl

theorem check_roundFin (o : Ovf) (f : Fmt) (rd : Rnd) (s : Bool) (m : Nat) (ex : Int) : (roundFin o f rd s m ex).ev.check = 0 := by
  unfold roundFin
  extract_lets
  split_ifs
  iterate 3 rfl
  · exact check_convOverflow o f s
  · rfl

theorem check_narrow (o : Ovf) (f : Fmt) (rd : Rnd) (x : W32) : (narrow o f rd x).ev.check = 0 := by
  unfold narrow narrowVal
  split
  · dsimp only
    split <;> rfl
  · split <;> rfl
  · exact check_roundFin _ _ _ _ _ _

theorem check_b32Elem (o : Ovf) (s : Nat) (rd : Rnd) (x : W32) : (b32Elem o s rd x).ev.check = 0 := by
  unfold b32Elem
  split
  · rfl
  · split
    · exact check_roundFin _ _ _ _ _ _
    · exact check_convOverflow _ _ _
    · rfl

theorem check_b32Decode (o : Ovf) (s e : Nat) : (b32Decode o s e).ev.check = 0 := by
  unfold b32Decode
  split
  · rfl
  · split
    · rfl
    · rfl
    · exact check_roundFin _ _ _ _ _ _

theorem check_narrowScalars (o : Ovf) (f : Fmt) (rd : Nat → Rnd) (l : List W32) : ∀ ev ∈ (narrowScalars o f rd l).evs, ev.check = 0 := by
  intro ev hev
  simp only [narrowScalars, List.map_map, List.mem_map, Function.comp_apply] at hev
  obtain ⟨e, -, rfl⟩ := hev
  exact check_narrow _ _ _ _

theorem check_narrowBlock (o : Ovf) (rd : Nat → Rnd) (i : Nat) (l : List W32) : ∀ ev ∈ (narrowBlock o rd i l).evs, ev.check = 0 := by
  intro ev hev
  obtain ⟨z, hz, rfl⟩ := List.mem_map.mp (List.mem_of_mem_take hev)
  obtain ⟨hx, hy⟩ := List.of_mem_zip hz
  obtain ⟨e, -, hx⟩ := List.mem_map.mp hx
  obtain ⟨w, -, hy⟩ := List.mem_map.mp hy
  exact check_or.mpr ⟨hx ▸ check_b32Elem _ _ _ _, hy ▸ check_b32Decode _ _ _⟩

theorem check_narrowBlocks (o : Ovf) (rd : Nat → Rnd) (l : List W32) : ∀ ev ∈ (narrowBlocks o rd l).evs, ev.check = 0 := by
  intro ev hev
  obtain ⟨b, hb, hev⟩ := List.mem_flatMap.mp hev
  obtain ⟨e, -, rfl⟩ := List.mem_map.mp hb
  exact check_narrowBlock _ _ _ _ ev hev

/-! ### The functions of R135 to R141 -/

theorem check_inner {r : Res} {n : Nat} (hr : r.ev.check = 0) : (r.inner n).ev.check = n := by
  unfold Res.inner
  split
  · next h => exact hr.trans h.symm
  · rfl

@[simp] theorem check_val (v : W32) : (val v).ev.check = 0 := rfl
@[simp] theorem check_neg (r : Res) : r.neg.ev.check = r.ev.check := rfl

@[simp] theorem check_fm (n : Nat) (a b c : Res) : (fm none n a b c).ev.check = (a.ev.or (b.ev.or c.ev)).check :=
  check_inner (check_fmaR _ _ _ _)

@[simp] theorem check_ml (n : Nat) (a b : Res) : (ml none n a b).ev.check = (a.ev.or b.ev).check := check_inner (check_mulR _ _ _)

@[simp] theorem check_ad (n : Nat) (a b : Res) : (ad none n a b).ev.check = (a.ev.or b.ev).check := check_inner (check_addR _ _ _)

theorem check_after {r y : Res} (hr : r.ev.check = 0) (hy : y.ev.check = 0) : (r.after y).ev.check = 0 := by
  rw [Res.after, hy, check_checked_zero, hr]

theorem check_lastStep (o : Ovf) {y : Res} (n : Int) (s : Bool) (hy : y.ev.check = 0) : (lastStep o none y n s).ev.check = 0 :=
  check_after (check_finish _ _ _ _ _) hy

theorem check_rcpR (o : Ovf) (x : W32) : (rcpR o x).ev.check = 0 := by
  unfold rcpR
  split_ifs
  iterate 3 rfl
  exact check_lastStep _ _ _ (by simp)

theorem check_rsqrtCore (x : W32) : (rsqrtCore none x).1.ev.check = 0 ∧ (rsqrtCore none x).2.2.ev.check = 0 := by
  have g : (rsqrtCore none x).1.ev.check = 0 := by
    unfold rsqrtCore
    dsimp only
    split
    · simp
    · rfl
  refine ⟨g, ?_⟩
  simp only [rsqrtCore] at g ⊢
  simp [g]

theorem check_rsqrtR (o : Ovf) (x : W32) : (rsqrtR o x).ev.check = 0 := by
  unfold rsqrtR
  split_ifs
  iterate 4 rfl
  exact check_lastStep _ _ _ (check_rsqrtCore x).2

theorem check_sqrtR (o : Ovf) (x : W32) : (sqrtR o x).ev.check = 0 := by
  have core := check_rsqrtCore x
  unfold sqrtR
  generalize rsqrtCore none x = r at core
  split
  · rfl
  split
  · rfl
  split
  · rfl
  split
  · rfl
  · exact check_lastStep _ _ _ (by simp [core])

theorem check_exp2R (o : Ovf) (x : W32) : (exp2R o x).ev.check = 0 := by
  unfold exp2R
  split
  · rfl
  split
  · rfl
  split
  · rfl
  split
  · exact check_overflowTo o false
  split
  · rfl
  · exact check_lastStep _ _ _ (by simp)

theorem check_log2R (o : Ovf) (x : W32) : (log2R o x).ev.check = 0 := by
  have start (b : Bool) : (if b then ml none 0 (val (normF x)) (val fHalf) else val (normF x)).ev.check = 0 := by
    cases b <;> simp
  unfold log2R
  split
  · rfl
  split
  · rfl
  split
  · rfl
  split
  · rfl
  extract_lets big g e j r q s z
  have hg : g.ev.check = 0 := start big
  clear_value g e j
  have hs : s.ev.check = 0 := by simp [s, q, r, hg]
  have hz : z.ev.check = 0 := check_after (check_addR _ _ _) hs
  exact hz

theorem check_qadd (o : Ovf) (w u : W32) (q : Int) : (qadd o w u q).ev.check = 0 := by
  have plain := check_addR o w u
  unfold qadd
  split
  · exact plain
  extract_lets
  split
  · exact plain
  split
  · rfl
  split
  extract_lets
  split
  · exact check_overflowTo _ _
  · rfl

/-! ### Update programs (R126 to R131) -/

theorem check_cvtR (i : LaneIn) (imm : Nat) (a : W32) : (cvtR i imm a).ev.check = 0 := check_narrow _ _ _ _

theorem check_valueOp {i : LaneIn} {op imm : Nat} {a b c : W32} {r : Res} (h : valueOp i op imm a b c = some r) : r.ev.check = 0 := by
  unfold valueOp at h
  split at h
  all_goals cases h
  · exact check_addR _ _ _
  · exact check_subR _ _ _
  · exact check_mulR _ _ _
  · exact check_fmaR _ _ _ _
  · exact check_fmaR _ _ _ _
  iterate 5 rfl
  · split <;> rfl
  · exact check_rcpR _ _
  · exact check_sqrtR _ _
  · exact check_rsqrtR _ _
  · exact check_exp2R _ _
  · exact check_log2R _ _
  · exact check_cvtR _ _ _

/-- An instruction without a disturbance keeps the checks of its lane at 0. -/
theorem check_run {i : LaneIn} {l : Lane} (w n : Nat) (hi : i.hit = none) (hl : l.ev.check = 0) : (l.run i w n).ev.check = 0 := by
  unfold Lane.run
  split
  · exact hl
  simp only [hi, Option.bind_none]
  split
  · next r hr => exact check_or.mpr ⟨hl, check_valueOp hr⟩
  split
  · unfold Lane.setPred
    split <;> exact hl
  split
  · unfold Lane.load
    split <;> exact hl
  · exact hl
  · exact check_or.mpr ⟨hl, check_qadd _ _ _ _⟩
  · exact check_or.mpr ⟨hl, check_qadd _ _ _ _⟩
  · exact hl

theorem check_runProgram {i : LaneIn} (prog : Bytes) (hi : i.hit = none) : (runProgram i prog).ev.check = 0 := by
  unfold runProgram
  generalize hl : List.range (pgCount prog) = ns
  have start : ({} : Lane).ev.check = 0 := rfl
  generalize ({} : Lane) = l at start
  clear hl
  induction ns generalizing l with
  | nil => exact start
  | cons n ns ih => exact ih _ (check_run _ _ hi start)

/-! ### The sum of squares, the fold and the Outflow (R79, R124, R125, R153) -/

theorem check_pairUp (o : Ovf) (n : Nat) (l : List Res) (hl : ∀ r ∈ l, r.ev.check = 0) : ∀ r ∈ pairUp o none n l, r.ev.check = 0 := by
  fun_induction pairUp o none n l with
  | case1 n a b r z ih =>
    intro y hy
    rcases List.mem_cons.mp hy with rfl | hy
    · exact check_or.mpr ⟨hl a (by simp), check_or.mpr ⟨hl b (by simp), check_addR _ _ _⟩⟩
    · exact ih (fun s hs => hl s (by simp [hs])) y hy
  | case2 => exact hl

theorem check_headD {l : List Res} (hl : ∀ r ∈ l, r.ev.check = 0) : (l.headD (val 0#32)).ev.check = 0 := by
  cases l with
  | nil => rfl
  | cons r l => exact hl r (by simp)

theorem check_treeFold (o : Ovf) (k n : Nat) (l : List Res) (hl : ∀ r ∈ l, r.ev.check = 0) : (treeFold o none k n l).ev.check = 0 := by
  induction k generalizing n l with
  | zero => exact check_headD hl
  | succ k ih =>
    rw [treeFold]
    split
    · exact check_headD hl
    · exact ih _ _ (check_pairUp _ _ _ hl)

theorem check_laneRow (o : Ovf) (e : Nat) (as : List Res) (gs : List W32) (hl : ∀ r ∈ as, r.ev.check = 0) :
    ∀ r ∈ laneRow o none e as gs, r.ev.check = 0 := by
  fun_induction laneRow o none e as gs with
  | case1 e a as g gs z ih =>
    intro y hy
    rcases List.mem_cons.mp hy with rfl | hy
    · exact check_or.mpr ⟨hl a (by simp), check_fmaR _ _ _ _⟩
    · exact ih (fun s hs => hl s (by simp [hs])) y hy
  | case2 => exact hl

theorem check_sumSqR (o : Ovf) (l : List W32) : (sumSqR o l none).ev.check = 0 := by
  refine check_treeFold _ _ _ _ ?_
  generalize (rows 256 (l.length + 1) l).zipIdx = rs
  have start : ∀ r ∈ List.replicate 256 (val 0#32), r.ev.check = 0 := fun r hr => (List.mem_replicate.mp hr).2 ▸ rfl
  generalize List.replicate 256 (val 0#32) = as at start
  induction rs generalizing as with
  | nil => exact start
  | cons r rs ih => exact ih _ (check_laneRow _ _ _ _ start)

theorem check_foldElem (o : Ovf) (bf16 : Bool) (m : Nat) (rd : Rnd) (old root : W32) : (foldElem o bf16 m rd old root).ev.check = 0 := by
  unfold foldElem
  split
  · split
    · exact check_narrow _ _ _ _
    · rfl
  have sum := check_addR o old root
  dsimp only
  split
  · next h => exact absurd sum h
  split
  · exact check_or.mpr ⟨check_narrow _ _ _ _, sum⟩
  · exact sum

theorem check_outList (x : Job) (t fmt : Nat) (scale : Int) (e0 : Nat) (w : List W32) (i0 : Nat) :
    ∀ ev ∈ (x.outList t fmt scale e0 w none i0).evs, ev.check = 0 := by
  unfold Job.outList
  split
  · simp
  · exact check_narrowScalars _ _ _ _
  · exact check_narrowScalars _ _ _ _
  · intro ev hev
    obtain ⟨z, hz, rfl⟩ := List.mem_map.mp hev
    obtain ⟨hm, hn⟩ := List.of_mem_zip hz
    refine check_or.mpr ⟨?_, check_narrowScalars _ _ _ _ _ hn⟩
    split at hm
    · obtain ⟨v, -, hv⟩ := List.mem_map.mp hm
      exact hv ▸ rfl
    · obtain ⟨v, -, hv⟩ := List.mem_map.mp hm
      exact hv ▸ check_mulR _ _ _
  · exact check_narrowBlocks _ _ _
  · exact check_narrowBlocks _ _ _
  · simp

/-- Of a list of checks that all passed, the first that failed is none. -/
theorem firstCheck_zero {l : List Nat} (h : ∀ n ∈ l, n = 0) : l.foldl firstCheck 0 = 0 := by
  induction l with
  | nil => rfl
  | cons n l ih =>
    rw [List.foldl_cons, h n (by simp)]
    exact ih (fun m hm => h m (by simp [hm]))


end Sys2Proof.Machine
end

section
/-! SUPPORT. What the work of a job's step leaves unchanged: statistics, comparisons, held fragments, remainders and inflow (R84, R88, R147,
R154, R353). -/

namespace Sys2Proof.Machine

/-! ### Commands that act on the memories -/

/-- The machine on which a command at a time acts. -/
def State.machAt (s : State) (now : Nat) : Mach := { s.machOf with dev := s.devAt now }

/-- A command that does nothing to its machine leaves the device's rest and the memories as they are. -/
theorem act_idle {s : State} {now : Nat} {f : Mach → Mach} (h : f (s.machAt now) = s.machAt now) :
    (s.act now f).dev.rest = (s.devAt now).rest ∧ (s.act now f).flash = s.flash ∧ (s.dev.power.cold = false → (s.act now f).depths = s.depths) := by
  have dev : (s.act now f).dev = (f (s.machAt now)).dev.noteReady := act_dev s now f
  have flash : (s.act now f).flash = (f (s.machAt now)).flash := act_flash s now f
  have depths : (s.act now f).depths = if (f (s.machAt now)).dev.power.cold then [] else (f (s.machAt now)).depths := act_depths s now f
  rw [h] at dev flash depths
  refine ⟨by rw [dev, rest_noteReady]; rfl, flash, fun hcold => ?_⟩
  rw [depths]
  refine if_neg ?_
  rw [show (s.machAt now).dev.power = s.dev.power from to_power _ _, hcold]
  simp

/-! ### Bytes of the Depths -/

/-- A byte keeps its value when another one is written, whatever the memory's form. -/
theorem mread_mwrite_elsewhere (d : Byte) (m : Table Byte) {a b : Nat} (v : Byte) (h : b ≠ a) : mread d (mwrite d m a v) b = mread d m b := by
  induction m with
  | nil =>
    unfold mwrite
    split <;> simp [mread, tget, h]
  | cons e r ih =>
    obtain ⟨k, w⟩ := e
    unfold mread at ih ⊢
    simp only [mwrite]
    split
    · split <;> simp [tget, h]
    split
    · next hk =>
      subst hk
      split <;> simp [tget, h]
    · simp [tget, ih]

theorem mread_mwriteBytes_elsewhere (d : Byte) (m : Table Byte) (a b : Nat) (bs : Bytes) (h : b < a ∨ a + bs.length ≤ b) :
    mread d (mwriteBytes d m a bs) b = mread d m b := by
  induction bs generalizing m a with
  | nil => rfl
  | cons x xs ih =>
    rw [List.length_cons] at h
    rw [mwriteBytes, ih _ _ (by omega), mread_mwrite_elsewhere d m x (by omega)]

/-- A machine in whose Depths only bytes of certain addresses have changed. -/
def Mach.DepthsWithin (p : Nat → Prop) (k k' : Mach) : Prop := ∀ a, ¬ p a → mread depthsDefault k'.depths a = mread depthsDefault k.depths a

theorem depthsWithin_trans {p : Nat → Prop} {k k' k'' : Mach} (h : k.DepthsWithin p k') (h' : k'.DepthsWithin p k'') : k.DepthsWithin p k'' :=
  fun a ha => (h' a ha).trans (h a ha)

theorem depthsWithin_of_eq {p : Nat → Prop} {k k' : Mach} (h : k'.depths = k.depths) : k.DepthsWithin p k' := fun _ _ => by rw [h]

theorem depthsWithin_put {p : Nat → Prop} (k : Mach) (a : Nat) (b : Bytes) (h : ∀ i, a ≤ i → i < a + b.length → p i) :
    k.DepthsWithin p (k.put a b) := by
  intro i hi
  refine mread_mwriteBytes_elsewhere _ _ _ _ _ ?_
  by_contra hc
  exact hi (h i (by omega) (by omega))

/-! ### Work of one job -/

/-- A device without its jobs and what keeps books of their fragments: the pool, the audit store, the probes, and what reports touch. -/
def Dev.frame (d : Dev) : Dev := { d.quiet with jobs := [], pool := {}, audit := {}, probes := [] }

/-- A job without what the work of its step accumulates. -/
def Job.kept (x : Job) : Job :=
  { x with
    chunkStats := [], foldOverflow := [], tnum := [], snum := [], firstNonfinite := [], rems := [], inflow := [], nodeDigests := [],
    compared := false, diverged := false, divergences := 0, norefs := 0, least := none, vecWords := [], vseq := none, vres := none,
    recipes := [], outHeld := [], outItem := 0, outCounted := [] }

/-- A device after work of job `j`: beside what the work accumulates, the job has changed by `g`, and nothing else has. -/
structure Dev.Worked (j : Nat) (g : Job → Job) (d e : Dev) : Prop where
  frame : e.frame = d.frame
  job : (e.job j).kept = g (d.job j).kept
  others : ∀ k, k ≠ j → e.job k = d.job k

theorem worked_refl (j : Nat) (d : Dev) : d.Worked j id d := ⟨rfl, rfl, fun _ _ => rfl⟩

theorem worked_comp {j : Nat} {g h : Job → Job} {d e f : Dev} (hd : d.Worked j g e) (he : e.Worked j h f) : d.Worked j (h ∘ g) f :=
  ⟨he.frame.trans hd.frame, by rw [he.job, hd.job, Function.comp_apply], fun k hk => (he.others k hk).trans (hd.others k hk)⟩

/-- Work after a change of the job, and a change of the job after work. -/
theorem worked_then {j : Nat} {g : Job → Job} {d e f : Dev} (hd : d.Worked j g e) (he : e.Worked j id f) : d.Worked j g f :=
  worked_comp (g := g) (h := id) hd he

theorem worked_after {j : Nat} {g : Job → Job} {d e f : Dev} (hd : d.Worked j id e) (he : e.Worked j g f) : d.Worked j g f :=
  worked_comp (g := id) (h := g) hd he

/-- A change of the books and reports alone. -/
theorem worked_of_books {j : Nat} {d e : Dev} (hframe : e.frame = d.frame) (hjobs : e.jobs = d.jobs) : d.Worked j id e :=
  ⟨hframe, by rw [job_congr hjobs, id], fun k _ => job_congr hjobs k⟩

theorem worked_of_quiet {j : Nat} {d e : Dev} (h : e.quiet = d.quiet) : d.Worked j id e :=
  worked_of_books (congrArg (fun x : Dev => ({ x with jobs := [], pool := {}, audit := {}, probes := [] } : Dev)) h :) (congrArg Dev.jobs h :)

theorem worked_of_unpooled {j : Nat} {d e : Dev} (h : e.unpooled = d.unpooled) : d.Worked j id e :=
  worked_of_books (congrArg Dev.frame h :) (congrArg Dev.jobs h :)

theorem worked_of_unaudited {j : Nat} {d e : Dev} (h : e.unaudited = d.unaudited) : d.Worked j id e :=
  worked_of_books (congrArg Dev.frame h :) (congrArg Dev.jobs h :)

/-- A change of the job itself. -/
theorem worked_modJob (d : Dev) (j : Nat) {f g : Job → Job} (h : (f (d.job j)).kept = g (d.job j).kept) : d.Worked j g (d.modJob j f) :=
  ⟨rfl, by rw [job_modJob_same, h], fun _ hk => job_modJob_other d hk f⟩

theorem worked_foldl {α : Type} {j : Nat} (f : Dev → α → Dev) (h : ∀ (d : Dev) (a : α), d.Worked j id (f d a)) (l : List α) (d : Dev) :
    d.Worked j id (l.foldl f d) := by
  induction l generalizing d with
  | nil => exact worked_refl j d
  | cons a l ih => exact worked_then (h d a) (ih (f d a))

section
variable {j : Nat} {g : Job → Job} {d e : Dev} (h : d.Worked j g e)
include h

theorem worked_ctxs : e.ctxs = d.ctxs := (congrArg Dev.ctxs h.frame :)
theorem worked_ctx (c : Nat) : e.ctx c = d.ctx c := ctx_congr (worked_ctxs h) c
theorem worked_ports : e.ports = d.ports := (congrArg Dev.ports h.frame :)
theorem worked_power : e.power = d.power := (congrArg Dev.power h.frame :)

end

/-! ### Comparisons and digests (R334, R348, R353) -/

@[simp] theorem kept_compare (x : Job) (s : Site) (same : Bool) (outs : Nat × Nat) (p r : Bytes) : (x.compare s same outs p r).kept = x.kept := by
  unfold Job.compare
  split <;> rfl

@[simp] theorem kept_addNumerics (x : Job) (t : Nat) (l : Table Nat) : (x.addNumerics t l).kept = x.kept := rfl

section
variable (d : Dev) (j : Nat)

theorem worked_compareDigest (s : Site) (first : Bool) (p : Bytes) (r : Option Bytes) : d.Worked j id (d.compareDigest j s first p r) := by
  unfold Dev.compareDigest
  split
  · exact worked_refl j d
  split
  · exact worked_modJob d j rfl
  · exact worked_modJob d j (kept_compare _ _ _ _ _ _)

theorem worked_compareWeight (c : Nat) (skip : Bool) : d.Worked j id (d.compareWeight j c skip) := by
  unfold Dev.compareWeight
  dsimp only
  split
  · exact worked_refl j d
  split
  · exact worked_refl j d
  · exact worked_modJob d j (kept_compare _ _ _ _ _ _)

theorem worked_compareVerdict (r : VerdictRes) : d.Worked j id (d.compareVerdict j r) := by
  unfold Dev.compareVerdict
  dsimp only
  split
  · exact worked_refl j d
  split
  · exact worked_modJob d j rfl
  · exact worked_modJob d j (kept_compare _ _ _ _ _ _)

theorem worked_nodeDigests (c : Nat) : d.Worked (d.ctx c).job id (d.nodeDigests c) := by
  unfold Dev.nodeDigests
  dsimp only
  split
  · exact worked_refl _ d
  · exact worked_after (worked_modJob d _ rfl) (worked_foldl _ (fun e r => worked_compareDigest e _ _ _ _ _) _ _)

/-! ### Held fragments (R154, R313) -/

theorem worked_poolFree (p : Holding → Bool) : d.Worked j id (d.poolFree p) := worked_of_books rfl rfl

theorem worked_sample (q inst v : Nat) : d.Worked j id (d.sample q inst v) := worked_of_books rfl rfl

theorem worked_holdOut (holder channel : Nat) (ports : List Nat) (header payload route : Bytes) :
    d.Worked j id (d.holdOut j holder channel ports header payload route) := by
  unfold Dev.holdOut
  split
  · exact worked_refl j d
  refine worked_after (worked_then ?_ (worked_of_quiet (quiet_countDev _ _ _))) (worked_modJob _ j rfl)
  split
  · exact worked_refl j d
  · exact worked_of_unpooled (unpooled_poolTake _ _ _ _ _)

theorem worked_holdResult (replay : Bool) : d.Worked j id (d.holdResult j replay) := by
  unfold Dev.holdResult
  dsimp only
  split
  · exact worked_foldl _ (fun e f => worked_holdOut e j _ _ _ _ _ _) _ _
  · exact worked_refl j d

/-! ### The Verdict (R88, R147, R378) -/

theorem worked_decideRems : d.Worked j id (d.decideRems j) := worked_modJob d j rfl

theorem worked_completeVerdict : d.Worked j (fun x => { x with rcPhase := max x.rcPhase 3 }) (d.completeVerdict j) := by
  unfold Dev.completeVerdict
  refine worked_then (worked_then (worked_then ?_ (worked_decideRems _ j)) (worked_compareVerdict _ j _)) (worked_foldl _ (fun e c => ?_) _ _)
  · exact worked_modJob d j rfl
  · split
    · exact worked_compareWeight e j c true
    · exact worked_refl j e

end

theorem worked_verdictSeen (d : Dev) (c : Nat) : d.Worked (d.ctx c).job id (d.verdictCommit c none) := by
  unfold Dev.verdictCommit
  dsimp only
  split
  · exact worked_modJob d _ rfl
  · exact worked_refl _ d

/-- The words of the root's values join the job's vector, and its commit point is recorded. -/
def Job.rootSite (x : Job) (v : List W32) : Job := { (x.takeWords 0 v) with rootCommitted := true }

theorem kept_rootSite (x : Job) (v : List W32) : (x.rootSite v).kept = { x.kept with rootCommitted := true } := rfl

theorem verdictCommit_root (d : Dev) (c : Nat) (v : List W32) : d.verdictCommit c (some v) =
    (((d.verdictCommit c none).modJob (d.ctx c).job (·.rootSite v)).holdResult (d.ctx c).job false).completeVerdict (d.ctx c).job := rfl

/-- What a job records at the commit point of the Verdict's root (R147, R378). -/
def Job.rootDone (x : Job) : Job := { x with rootCommitted := true, rcPhase := max x.rcPhase 3 }

/-- At the root site the Verdict's commit point is recorded, and the Verdict completes. -/
theorem worked_verdictRoot (d : Dev) (c : Nat) (v : List W32) : d.Worked (d.ctx c).job Job.rootDone (d.verdictCommit c (some v)) := by
  rw [verdictCommit_root]
  have committed : d.Worked (d.ctx c).job (fun x => { x with rootCommitted := true })
      ((d.verdictCommit c none).modJob (d.ctx c).job (·.rootSite v)) :=
    worked_after (worked_verdictSeen d c) (worked_modJob _ _ (kept_rootSite _ v))
  exact worked_comp (worked_then committed (worked_holdResult _ _ false)) (worked_completeVerdict _ _)

end Sys2Proof.Machine
end

section
/-! PROOFS. A use drains and passes its commit point (R84, R92, R93, R95, R123, R147, R379). -/

namespace Sys2Proof.Machine

/-! ### A use is entered in the books (R92, R93, R95) -/

@[simp] theorem kept_addSite (x : Job) (t : Nat) (hosts : Bool) (u : Ctx) : (x.addSite t hosts u).kept = x.kept := by
  unfold Job.addSite
  split <;> rfl

@[simp] theorem kept_commitRems (x : Job) (u : Ctx) (t : Nat) : (x.commitRems u t).kept = x.kept := by
  unfold Job.commitRems
  generalize u.remW = vs
  induction vs generalizing x with
  | nil => rfl
  | cons v vs ih => exact (ih _).trans rfl

/-- The channel's counter stands behind a use. -/
def Job.passedUse (u : Ctx) (x : Job) : Job := { x with chSeq := tset x.chSeq u.channel ((u.sequence + 1) % 2 ^ 32) }

/-- The device once a use that is done has been entered in its job's books. -/
def Dev.booked (d : Dev) (c : Nat) : Dev :=
  let x := d.ctx c
  let j := d.job x.job
  let b := d.bucketOf c
  let hosts := decide (x.bucket ≠ verdictBucket) && decide (j.hosted x.bucket ≠ [])
  ((((d.nodeDigests c).auditUse c false).sample 1 c x.skew).modJob x.job (fun y =>
    { ((y.addSite (bkTensor b) hosts x).commitRems x (bkTensor b)) with chSeq := tset y.chSeq x.channel ((x.sequence + 1) % 2 ^ 32) })).poolFree
    (fun h => h.holder == ctxHolder c && x.frags.any (fun f =>
      chSeq f.header == x.sequence && !f.taken && (j.passPort x.bucket (chNode f.header)).isNone && fragItem f.header == h.item))

theorem worked_booked (d : Dev) (c : Nat) : d.Worked (d.ctx c).job (Job.passedUse (d.ctx c)) (d.booked c) := by
  unfold Dev.booked
  refine worked_then (worked_after (worked_then (worked_then (worked_nodeDigests d c) (worked_of_unaudited (unaudited_auditUse _ _ _)))
    (worked_sample _ _ _ _ _)) (worked_modJob _ _ ?_)) (worked_poolFree _ _ _)
  have kept : ∀ x y : Job, x.kept = y.kept →
      ({ x with chSeq := tset y.chSeq (d.ctx c).channel (((d.ctx c).sequence + 1) % 2 ^ 32) } : Job).kept = y.kept.passedUse (d.ctx c) :=
    fun x y h => (congrArg (fun z : Job => ({ z with chSeq := tset y.chSeq (d.ctx c).channel (((d.ctx c).sequence + 1) % 2 ^ 32) } : Job)) h :)
  exact kept _ _ (by simp)

/-! ### A use is done (R92) -/

/-- A context apart from the fragments that it holds. -/
def Ctx.bare (x : Ctx) : Ctx := { x with frags := [] }

/-- What follows when a context's use has passed its commit point, beside a change `g` of its job. -/
structure Dev.Committed (c : Nat) (g : Job → Job) (d e : Dev) : Prop where
  ctx : (e.ctx c).bare = ((d.ctx c).advance ((d.job (d.ctx c).job).stride (d.ctx c).channel) (d.job (d.ctx c).job).accum (fun _ => true)).bare
  ctxs : ∀ i, i ≠ c → (e.ctx i).bare = (d.ctx i).bare
  job : (e.job (d.ctx c).job).kept = (g (d.job (d.ctx c).job).kept).passedUse (d.ctx c)
  others : ∀ k, k ≠ (d.ctx c).job → e.job k = d.job k
  ports : e.ports = d.ports
  power : e.power = d.power

theorem nextUse_unheld {d : Dev} {c : Nat} (h : (d.ctx c).heldAborts = []) : d.nextUse c = d := by
  unfold Dev.nextUse
  extract_lets x
  have none : x.heldAborts.find? (fun a => a.seq == x.sequence) = none := by rw [show x.heldAborts = [] from h]; rfl
  rw [none]

theorem finishUse_eq (d : Dev) (c : Nat) : d.finishUse c =
    (((d.booked c).modCtx c (fun y => y.advance ((d.job (d.ctx c).job).stride (d.ctx c).channel) (d.job (d.ctx c).job).accum
      (fun f => !f.taken && ((d.job (d.ctx c).job).passPort (d.ctx c).bucket (chNode f.header)).isSome))).siltCtx c .draining).nextUse c := rfl

/-- Its context moves on to the bucket's next use. -/
theorem finishUse_commits {d d' : Dev} {c : Nat} {g : Job → Job} (h : d.Worked (d.ctx c).job g d') (hheld : (d.ctx c).heldAborts = [])
    (hg : ∀ x : Job, (g x).stride = x.stride ∧ (g x).accum = x.accum) : d.Committed c g (d'.finishUse c) := by
  have ctx' := worked_ctx h c
  have booked := worked_booked d' c
  rw [ctx'] at booked
  have stride : (d'.job (d.ctx c).job).stride = (d.job (d.ctx c).job).stride := (congrArg Job.stride h.job :).trans (hg _).1
  have accum : (d'.job (d.ctx c).job).accum = (d.job (d.ctx c).job).accum := (congrArg Job.accum h.job :).trans (hg _).2
  rw [finishUse_eq, ctx', stride, accum]
  generalize hk : (fun f : Frag => !f.taken && ((d'.job (d.ctx c).job).passPort (d.ctx c).bucket (chNode f.header)).isSome) = keep
  generalize he : (d'.booked c).modCtx c
    (fun y => y.advance ((d.job (d.ctx c).job).stride (d.ctx c).channel) (d.job (d.ctx c).job).accum keep) = e
  have same : e.ctx c = (d.ctx c).advance ((d.job (d.ctx c).job).stride (d.ctx c).channel) (d.job (d.ctx c).job).accum keep := by
    rw [← he, ctx_modCtx_same, worked_ctx booked, ctx']
  have silt := rest_of_quiet (quiet_siltCtx e c .draining)
  have siltCtx := rest_ctx silt
  rw [nextUse_unheld (by rw [siltCtx, same]; exact hheld)]
  obtain ⟨hports, -, hjobs, -⟩ := rest_fields silt
  refine ⟨?_, fun i hi => ?_, ?_, fun k hk => ?_, ?_, ?_⟩
  · rw [siltCtx, same]
    rfl
  · rw [siltCtx, ← he, ctx_modCtx_other _ hi, worked_ctx booked, worked_ctx h]
  · rw [job_congr hjobs, ← he]
    exact booked.job.trans (by rw [h.job])
  · rw [job_congr hjobs, ← he]
    exact (booked.others k hk).trans (h.others k hk)
  · rw [hports, ← he]
    exact (worked_ports booked).trans (worked_ports h)
  · rw [rest_power silt, ← he]
    exact (worked_power booked).trans (worked_power h)

/-! ### The fold (R84, R123 to R125) -/

/-- Whether an address lies in the accumulator of a chunk that is owned here and that a bucket shares. -/
def Job.accHolds (x : Job) (b : Bytes) (a : Nat) : Prop :=
  ∃ c ∈ x.owned, 0 < x.shared b c ∧ x.elemAt c 5 0 ≤ a ∧ a < x.elemAt c 5 (x.chunkElems c)

/-- A machine after work of job `j` that has changed the Depths at certain addresses only. -/
structure Mach.Worked (j : Nat) (p : Nat → Prop) (k k' : Mach) : Prop where
  dev : k.dev.Worked j id k'.dev
  flash : k'.flash = k.flash
  depths : k.DepthsWithin p k'

theorem machWorked_refl (j : Nat) (p : Nat → Prop) (k : Mach) : k.Worked j p k := ⟨worked_refl _ _, rfl, fun _ _ => rfl⟩

theorem machWorked_trans {j : Nat} {p : Nat → Prop} {k k' k'' : Mach} (h : k.Worked j p k') (h' : k'.Worked j p k'') : k.Worked j p k'' :=
  ⟨worked_then h.dev h'.dev, h'.flash.trans h.flash, depthsWithin_trans h.depths h'.depths⟩

theorem machWorked_mod {j : Nat} {p : Nat → Prop} (k : Mach) {f : Dev → Dev} (h : k.dev.Worked j id (f k.dev)) : k.Worked j p (k.mod f) :=
  ⟨h, rfl, fun _ _ => rfl⟩

theorem machWorked_put {j : Nat} {p : Nat → Prop} (k : Mach) (a : Nat) (b : Bytes) (h : ∀ i, a ≤ i → i < a + b.length → p i) :
    k.Worked j p (k.put a b) := ⟨worked_refl _ _, rfl, depthsWithin_put k a b h⟩

/-- The statistics of a chunk enter the job, and no byte changes. -/
theorem chunkDone_worked (k : Mach) (j c : Nat) (p : Nat → Prop) : k.Worked j p (k.chunkDone j c) := by
  unfold Mach.chunkDone
  dsimp only
  rw [if_neg (not_not.mpr (check_sumSqR _ _))]
  exact machWorked_mod k (worked_after (worked_modJob _ _ rfl) (worked_compareDigest _ _ _ _ _ _))

theorem check_foldList (k : Mach) (x : Job) (c step m e0 n : Nat) (roots : List W32) :
    ∀ z ∈ k.foldList x c step m e0 n roots, z.ev.check = 0 := by
  intro z hz
  obtain ⟨q, -, rfl⟩ := List.mem_map.mp hz
  exact check_foldElem _ _ _ _ _ _

theorem length_foldList (k : Mach) (x : Job) (c step m e0 n : Nat) (roots : List W32) :
    ((k.foldList x c step m e0 n roots).flatMap (fun z => leBytes (x.accWidth c) z.v)).length = n * x.accWidth c := by
  simp [Mach.foldList, List.length_flatMap, Function.comp_def]

/-- What a bucket shares of a chunk ends within it. -/
theorem shared_within {x : Job} {b : Bytes} {c : Nat} (h : 0 < x.shared b c) :
    max (bkFirst b) (x.chunkFirst c) - x.chunkFirst c + x.shared b c ≤ x.chunkElems c := by
  unfold Job.shared at h ⊢
  split at h
  · next hb =>
    rw [if_pos hb]
    omega
  · omega

/-- Undisturbed, the fold of a chunk changes the job's books, and bytes of the chunk's accumulator. -/
theorem foldChunk_worked {k : Mach} {x : Job} {j c : Nat} {b : Bytes} (m : Nat) (roots : List W32) (hx : k.dev.job j = x) (hc : c ∈ x.owned)
    (hb : 0 < x.shared b c) : k.Worked j (x.accHolds b) (k.foldChunk j c b m none roots) := by
  unfold Mach.foldChunk
  extract_lets x' e0 out bad k1 k2 k3
  obtain rfl : x' = x := hx
  have sound : bad = 0 := firstCheck_zero (by
    intro n hn
    obtain ⟨z, hz, rfl⟩ := List.mem_map.mp hn
    exact check_foldList _ _ _ _ _ _ _ _ z hz)
  have stored : k.Worked j (x'.accHolds b) k1 := machWorked_put k _ _ (fun i hi hi' => by
    rw [length_foldList] at hi'
    have within : e0 - x'.chunkFirst c + x'.shared b c ≤ x'.chunkElems c := shared_within hb
    refine ⟨c, hc, hb, ?_, ?_⟩
    · unfold Job.elemAt at hi ⊢
      omega
    · have scaled := Nat.mul_le_mul_left (x'.accWidth c) within
      have width : x'.width c 5 = x'.accWidth c := rfl
      simp only [Job.elemAt, width] at hi hi' ⊢
      rw [Nat.mul_add, Nat.mul_comm (x'.accWidth c) (x'.shared b c)] at scaled
      omega)
  have counted : k.Worked j (x'.accHolds b) k2 := machWorked_trans stored (machWorked_mod k1 (worked_modJob _ _ rfl))
  have k3_eq : k3 = k2 := if_pos sound
  rw [k3_eq]
  split
  · exact machWorked_trans counted (chunkDone_worked k2 j c _)
  · exact counted

theorem foldUse_worked {k : Mach} {x : Job} {j : Nat} {b : Bytes} (m : Nat) {inflow : Table (List W32)} (hx : (k.dev.job j).kept = x.kept)
    (hin : ∀ e ∈ inflow, e.1 ∈ x.owned ∧ 0 < x.shared b e.1) : k.Worked j (x.accHolds b) (k.foldUse j b m none inflow) := by
  unfold Mach.foldUse
  induction inflow generalizing k with
  | nil => exact machWorked_refl _ _ _
  | cons e l ih =>
    have holds : (k.dev.job j).accHolds b = x.accHolds b := (congrArg (fun y : Job => y.accHolds b) hx :)
    have owned : (k.dev.job j).owned = x.owned := (congrArg Job.owned hx :)
    have shared : (k.dev.job j).shared b = x.shared b := (congrArg (fun y : Job => y.shared b) hx :)
    obtain ⟨hc, hb⟩ := hin e (by simp)
    have first := foldChunk_worked (k := k) m e.2 rfl (owned ▸ hc) (by rwa [shared])
    rw [holds] at first
    exact machWorked_trans first (ih (first.dev.job.trans hx) (fun q hq => hin q (by simp [hq])))

/-- The chunks of a use's inflow are owned here, and the bucket shares them. -/
theorem inflowAll_here {x : Job} {b : Bytes} {ch seq : Nat} {roots : List W32} {l : Table (List W32)} (h : x.inflowAll b ch seq roots = some l) :
    ∀ e ∈ l, e.1 ∈ x.owned ∧ 0 < x.shared b e.1 := by
  intro e he
  unfold Job.inflowAll at h
  dsimp only at h
  split at h
  · obtain rfl := Option.some.inj h
    obtain ⟨q, hq, rfl⟩ := List.mem_map.mp he
    obtain ⟨c, hc, rfl⟩ := List.mem_map.mp hq
    obtain ⟨howned, hshared⟩ := List.mem_filter.mp hc
    exact ⟨howned, of_decide_eq_true hshared⟩
  · cases h

/-! ### An owner's leaf (R25) -/

/-- The leaf enters the Verdict's context as fragments, and nothing else changes. -/
theorem enterVerdict_enters (k : Mach) (j : Nat) :
    k.enterVerdict j = k ∨ ∃ b fs, k.enterVerdict j = k.mod (·.modCtx (bkCtx b) (fun x => { x with frags := x.frags ++ fs })) := by
  unfold Mach.enterVerdict
  dsimp only
  split
  · split
    · exact .inl rfl
    · exact .inr ⟨_, _, rfl⟩
  · exact .inl rfl

theorem enterVerdict_memories (k : Mach) (j : Nat) : (k.enterVerdict j).flash = k.flash ∧ (k.enterVerdict j).depths = k.depths := by
  obtain h | ⟨b, fs, h⟩ := enterVerdict_enters k j
  · rw [h]
    exact ⟨rfl, rfl⟩
  · rw [h]
    exact ⟨rfl, rfl⟩

theorem committed_enterVerdict {c j : Nat} {g : Job → Job} {d : Dev} {k : Mach} (h : d.Committed c g k.dev) :
    d.Committed c g (k.enterVerdict j).dev := by
  obtain ⟨ctx, ctxs, job, others, ports, power⟩ := h
  obtain he | ⟨b, fs, he⟩ := enterVerdict_enters k j
  · rw [he]
    exact ⟨ctx, ctxs, job, others, ports, power⟩
  · have bare : ∀ i, ((k.enterVerdict j).dev.ctx i).bare = (k.dev.ctx i).bare := fun i => by
      rw [he]
      by_cases hi : i = bkCtx b
      · subst hi
        exact (congrArg Ctx.bare (ctx_modCtx_same _ _ _)).trans rfl
      · exact congrArg Ctx.bare (ctx_modCtx_other _ hi _)
    refine ⟨(bare c).trans ctx, fun i hi => (bare i).trans (ctxs i hi), ?_, ?_, ?_, ?_⟩ <;> rw [he] <;> assumption

/-! ### The commit point (R93, R379) -/

/-- The inflow of a use is free again. -/
def Job.dropInflow (u : Ctx) (x : Job) : Job := { x with inflow := x.inflow.filter (fun v => !(v.channel == u.channel && v.seq == u.sequence)) }

/-- The machine once a use's inflow has been folded. -/
def Mach.foldedUse (k : Mach) (c : Nat) (l : Table (List W32)) : Mach :=
  (k.foldUse (k.dev.ctx c).job (k.dev.bucketOf c) (k.dev.ctx c).microBatch none l).mod (·.modJob (k.dev.ctx c).job (·.dropInflow (k.dev.ctx c)))

section
variable {k : Mach} {c : Nat} (hdraining : (k.dev.ctx c).state = .draining)
include hdraining

/-- A use of a gradient bucket whose root is here folds its inflow. -/
theorem commitUse_folds {v : List W32} {l : Table (List W32)} (hheld : (k.dev.ctx c).heldAborts = [])
    (hroot : (k.dev.job (k.dev.ctx c).job).rootHere (k.dev.bucketOf c) = true) (hgoes : (k.dev.job (k.dev.ctx c).job).stopped = false)
    (hvals : k.dev.rootVals c = some v) (hbucket : (k.dev.ctx c).bucket ≠ verdictBucket)
    (hinflow : (k.dev.job (k.dev.ctx c).job).inflowAll (k.dev.bucketOf c) (k.dev.ctx c).channel (k.dev.ctx c).sequence v = some l) :
    k.dev.Committed c id (k.commitUse c none).dev ∧ (k.commitUse c none).flash = k.flash ∧
      k.DepthsWithin ((k.dev.job (k.dev.ctx c).job).accHolds (k.dev.bucketOf c)) (k.commitUse c none) := by
  have folded := foldUse_worked (k := k) (j := (k.dev.ctx c).job) (k.dev.ctx c).microBatch rfl (inflowAll_here hinflow)
  have emptied : k.dev.Worked (k.dev.ctx c).job id (k.foldedUse c l).dev := worked_after folded.dev (worked_modJob _ _ rfl)
  have eq : k.commitUse c none = ((k.foldedUse c l).mod (·.finishUse c)).enterVerdict (k.dev.ctx c).job := by
    unfold Mach.commitUse
    dsimp only
    rw [if_neg (by simp [hdraining]), if_pos hroot, hvals]
    dsimp only
    rw [if_neg (by simp [hgoes]), if_neg hbucket, hinflow]
    rfl
  obtain ⟨flash, depths⟩ := enterVerdict_memories ((k.foldedUse c l).mod (·.finishUse c)) (k.dev.ctx c).job
  rw [eq]
  exact ⟨committed_enterVerdict (finishUse_commits emptied hheld fun _ => ⟨rfl, rfl⟩), flash.trans folded.flash,
    depthsWithin_trans folded.depths (depthsWithin_of_eq depths)⟩

/-- The Verdict's use at its root site. -/
theorem commitUse_verdictRoot {v : List W32} (hheld : (k.dev.ctx c).heldAborts = [])
    (hroot : (k.dev.job (k.dev.ctx c).job).rootHere (k.dev.bucketOf c) = true) (hgoes : (k.dev.job (k.dev.ctx c).job).stopped = false)
    (hvals : k.dev.rootVals c = some v) (hbucket : (k.dev.ctx c).bucket = verdictBucket) :
    k.dev.Committed c Job.rootDone (k.commitUse c none).dev ∧ (k.commitUse c none).flash = k.flash := by
  have eq : k.commitUse c none = k.mod (fun d => (d.verdictCommit c (some v)).finishUse c) := by
    simp only [Mach.commitUse, hdraining, hroot, hgoes, hvals, hbucket]
    rfl
  rw [eq]
  exact ⟨finishUse_commits (worked_verdictRoot k.dev c v) hheld fun _ => ⟨rfl, rfl⟩, rfl⟩

/-- A use whose outputs the next hop has accepted. -/
theorem commitUse_sent (hheld : (k.dev.ctx c).heldAborts = [])
    (hroot : (k.dev.job (k.dev.ctx c).job).rootHere (k.dev.bucketOf c) = false) (hsent : k.dev.outputsSent c = true) :
    k.dev.Committed c id (k.commitUse c none).dev ∧ (k.commitUse c none).flash = k.flash := by
  have eq : k.commitUse c none =
      k.mod (fun d => (if (k.dev.ctx c).bucket = verdictBucket then d.verdictCommit c none else d).finishUse c) := by
    simp only [Mach.commitUse, hdraining, hroot, hsent]
    rfl
  rw [eq]
  refine ⟨finishUse_commits (d := k.dev) (g := id) ?_ hheld fun _ => ⟨rfl, rfl⟩, rfl⟩
  split
  · exact worked_verdictSeen k.dev c
  · exact worked_refl _ _

end

/-- What the commit point of a use asks for (R93, R123, R379). -/
def Dev.commits (d : Dev) (c : Nat) : Prop :=
  (d.job (d.ctx c).job).rootHere (d.bucketOf c) = false ∧ d.outputsSent c = true ∨
    (d.job (d.ctx c).job).rootHere (d.bucketOf c) = true ∧ (d.job (d.ctx c).job).stopped = false ∧
      ∃ v, d.rootVals c = some v ∧ ((d.ctx c).bucket = verdictBucket ∨
        ((d.job (d.ctx c).job).inflowAll (d.bucketOf c) (d.ctx c).channel (d.ctx c).sequence v).isSome = true)

/-- The change of the job beside its channel's counter. -/
def Dev.commitRecord (d : Dev) (c : Nat) : Job → Job :=
  if (d.ctx c).bucket = verdictBucket ∧ (d.job (d.ctx c).job).rootHere (d.bucketOf c) = true then Job.rootDone else id

theorem commitUse_commits {k : Mach} {c : Nat} (hdraining : (k.dev.ctx c).state = .draining) (h : k.dev.commits c)
    (hheld : (k.dev.ctx c).heldAborts = []) :
    k.dev.Committed c (k.dev.commitRecord c) (k.commitUse c none).dev ∧ (k.commitUse c none).flash = k.flash := by
  unfold Dev.commitRecord
  obtain ⟨hroot, hsent⟩ | ⟨hroot, hgoes, v, hvals, hv⟩ := h
  · rw [if_neg (by simp [hroot])]
    exact commitUse_sent hdraining hheld hroot hsent
  · by_cases hb : (k.dev.ctx c).bucket = verdictBucket
    · rw [if_pos ⟨hb, hroot⟩]
      exact commitUse_verdictRoot hdraining hheld hroot hgoes hvals hb
    · rw [if_neg (by simp [hb])]
      obtain ⟨l, hl⟩ := Option.isSome_iff_exists.mp (hv.resolve_left hb)
      obtain ⟨committed, flash, -⟩ := commitUse_folds hdraining hheld hroot hgoes hvals hb hl
      exact ⟨committed, flash⟩

/-- Before that, and in another state, nothing happens. -/
theorem commitUse_waits {k : Mach} {c : Nat} (h : (k.dev.ctx c).state ≠ .draining ∨
    (k.dev.job (k.dev.ctx c).job).rootHere (k.dev.bucketOf c) = false ∧ k.dev.outputsSent c = false ∨
    (k.dev.job (k.dev.ctx c).job).rootHere (k.dev.bucketOf c) = true ∧ ((k.dev.job (k.dev.ctx c).job).stopped = true ∨
      k.dev.rootVals c = none ∨ (k.dev.ctx c).bucket ≠ verdictBucket ∧ ∃ v, k.dev.rootVals c = some v ∧
        (k.dev.job (k.dev.ctx c).job).inflowAll (k.dev.bucketOf c) (k.dev.ctx c).channel (k.dev.ctx c).sequence v = none)) :
    k.commitUse c none = k := by
  by_cases hs : (k.dev.ctx c).state = .draining
  · obtain hno | ⟨hroot, hsent⟩ | ⟨hroot, hstop | hvals | ⟨hb, v, hvals, hl⟩⟩ := h
    · exact absurd hs hno
    · simp [Mach.commitUse, hroot, hsent]
    · cases hvals : k.dev.rootVals c <;> simp [Mach.commitUse, hroot, hstop, hvals]
    · simp [Mach.commitUse, hroot, hvals]
    · simp [Mach.commitUse, hroot, hvals, hb, hl]
  · simp [Mach.commitUse, hs]

/-! ### Draining (R92) -/

theorem drainCtx_drains {d : Dev} {c : Nat} (hopen : (d.ctx c).state = .opened) (hdone : d.computed c = true) :
    d.drainCtx c = (d.modCtx c (fun x => { x with state := .draining })).siltCtx c .opened := by
  simp [Dev.drainCtx, hopen, hdone]

theorem drainCtx_waits {d : Dev} {c : Nat} (h : (d.ctx c).state ≠ .opened ∨ d.computed c = false) : d.drainCtx c = d := by
  unfold Dev.drainCtx
  refine if_neg fun hc => ?_
  obtain ⟨hopen, hdone⟩ := Bool.and_eq_true_iff.mp hc
  obtain h | h := h
  · exact h (eq_of_beq hopen)
  · simp [h] at hdone

/-! ### The statement -/

/-- Settles O23, by what the commit point asks for and what follows from it. -/
theorem usesDrainAndCommit : Obligations.UsesDrainAndCommit := by
  refine ⟨fun c now s hopen hdone => ⟨_, rfl, ?_⟩, fun c now s h => ⟨_, rfl, ?_⟩, fun c now s hdraining hready hheld => ⟨_, rfl, ?_⟩,
    fun c now s h => ⟨_, rfl, ?_⟩⟩
  · rw [event_dev, rest_noteReady, drainCtx_drains (by rwa [ctx_devAt]) hdone]
    exact rest_of_quiet (quiet_siltCtx _ _ _)
  · exact rest_event_idle (drainCtx_waits (by rwa [ctx_devAt]))
  · have ctx : (s.machAt now).dev.ctx c = s.dev.ctx c := ctx_devAt s now c
    have job : ∀ j, (s.machAt now).dev.job j = s.dev.job j := job_devAt s now
    have ready : (s.machAt now).dev.commits c := by
      rw [Dev.commits, ctx, job]
      exact hready
    obtain ⟨⟨hctx, hctxs, hjob, hothers, hports, -⟩, hflash⟩ :=
      commitUse_commits (k := s.machAt now) (by rw [ctx]; exact hdraining) ready (by rw [ctx]; exact hheld)
    rw [ctx, job] at hctx
    rw [ctx, job] at hjob
    rw [ctx] at hothers
    have record : ∀ x : Job, ((s.machAt now).dev.commitRecord c x).chSeq = x.chSeq ∧ ((s.machAt now).dev.commitRecord c x).state = x.state := by
      intro x
      unfold Dev.commitRecord
      split <;> exact ⟨rfl, rfl⟩
    rw [act_dev, act_flash]
    simp only [noteReady_ctx, noteReady_job, noteReady_ports]
    refine ⟨(congrArg Ctx.state hctx :), (congrArg Ctx.sequence hctx :), (congrArg Ctx.generation hctx :), (congrArg Ctx.nodes hctx :), ?_, ?_,
      fun hb hroot => ?_, fun i hi => ?_, fun j hj => ?_, ?_, hflash⟩
    · refine Eq.trans (congrArg (fun x : Job => tget 0 x.chSeq (s.dev.ctx c).channel) hjob :) ?_
      exact tget_tset_same _ _ _ _
    · exact (congrArg Job.state hjob).trans (record _).2
    · have verdictRoot : (s.machAt now).dev.commitRecord c = Job.rootDone := if_pos ⟨by rwa [ctx], by rwa [ctx, job]⟩
      rw [verdictRoot] at hjob
      exact ⟨(congrArg Job.rootCommitted hjob :), (le_max_right _ _).trans_eq (congrArg Job.rcPhase hjob :).symm⟩
    · exact (hctxs i hi).trans (congrArg Ctx.bare (ctx_devAt s now i))
    · exact (hothers j hj).trans (job j)
    · exact hports.trans (to_ports _ _)
  · have ctx : (s.machAt now).dev.ctx c = s.dev.ctx c := ctx_devAt s now c
    have job : ∀ j, (s.machAt now).dev.job j = s.dev.job j := job_devAt s now
    refine act_idle (commitUse_waits ?_)
    rw [ctx, job]
    exact h

end Sys2Proof.Machine
end

section
/-! PROOFS. TARN slots: the fold, the Update and the Outflow of a chunk (R14, R25, R84, R123 to R131, R154, R213, R340, R379). -/

namespace Sys2Proof.Machine

theorem depthsWithin_mod {p : Nat → Prop} (k : Mach) (f : Dev → Dev) : k.DepthsWithin p (k.mod f) := fun _ _ => rfl

/-! ### What a chunk's Update writes (R121, R126 to R131) -/

/-- Whether an address lies in a chunk's frame, from its header to the end of its accumulator. -/
def Job.frameHolds (x : Job) (c a : Nat) : Prop := x.frameAt c ≤ a ∧ a < x.elemAt c 5 (x.chunkElems c)

theorem le_page (n : Nat) : n ≤ page n := by
  unfold page ceilDiv
  omega

theorem arrayOff_acc (x : Job) (c : Nat) :
    x.arrayOff c 5 = 4096 + (page (4 * x.chunkElems c) * (1 + (x.declared c).length) + page (2 * x.chunkElems c)) := rfl

/-- Every array but the accumulator ends before the accumulator does, were its elements as wide as four bytes. -/
theorem arrayOff_le {x : Job} {c a : Nat} (h : a ≠ 5) :
    x.arrayOff c a + x.width c a * x.chunkElems c ≤ x.arrayOff c 5 + 2 * x.chunkElems c := by
  have wide := le_page (4 * x.chunkElems c)
  have narrow := le_page (2 * x.chunkElems c)
  rw [arrayOff_acc]
  unfold Job.arrayOff Job.width
  dsimp only
  have arrays : ∀ m, m ≤ (x.declared c).length →
      page (4 * x.chunkElems c) * (1 + m) ≤ page (4 * x.chunkElems c) * (1 + (x.declared c).length) := fun m hm =>
    Nat.mul_le_mul_left _ (by omega)
  by_cases h0 : a = 0
  · subst h0
    have := arrays 0 (Nat.zero_le _)
    simp only [if_true, show (0 : Nat) ≠ 4 by decide, show (0 : Nat) ≠ 5 by decide, if_false]
    omega
  by_cases h4 : a = 4
  · subst h4
    simp only [if_true, show (4 : Nat) ≠ 0 by decide, if_false]
    omega
  · have := arrays _ (List.length_filter_le (fun i => decide (i < a)) (x.declared c))
    simp only [h0, h4, h, if_false]
    omega

theorem two_le_accWidth (x : Job) (c : Nat) : 2 ≤ x.accWidth c := by
  unfold Job.accWidth
  split <;> omega

/-- Each element of each array lies in the frame. -/
theorem elem_within {x : Job} {c a i : Nat} (hi : i < x.chunkElems c) :
    x.frameAt c ≤ x.elemAt c a i ∧ x.elemAt c a i + x.width c a ≤ x.elemAt c 5 (x.chunkElems c) := by
  have last : x.width c a * (i + 1) ≤ x.width c a * x.chunkElems c := Nat.mul_le_mul_left _ hi
  rw [Nat.mul_add, Nat.mul_one] at last
  unfold Job.elemAt
  refine ⟨by omega, ?_⟩
  by_cases ha : a = 5
  · subst ha
    omega
  · have before := arrayOff_le (x := x) (c := c) ha
    have acc : 2 * x.chunkElems c ≤ x.width c 5 * x.chunkElems c := Nat.mul_le_mul_right _ (two_le_accWidth x c)
    omega

theorem putElem_worked {x : Job} {c i : Nat} (k : Mach) (j a v : Nat) (hi : i < x.chunkElems c) :
    k.Worked j (x.frameHolds c) (k.putElem x c a i v) := by
  obtain ⟨first, last⟩ := elem_within (x := x) (c := c) (a := a) hi
  refine machWorked_put k _ _ (fun n hn hn' => ?_)
  rw [length_leBytes] at hn'
  exact ⟨by omega, by omega⟩

theorem storeLane_worked {x : Job} {c i : Nat} (k : Mach) (j : Nat) (l : Lane) (hi : i < x.chunkElems c) :
    k.Worked j (x.frameHolds c) (k.storeLane x c i l) := by
  unfold Mach.storeLane
  generalize l.st = st
  induction st generalizing k with
  | nil => exact machWorked_refl _ _ _
  | cons s st ih => exact machWorked_trans (putElem_worked k j _ _ hi) (ih _)

/-- Undisturbed, every element's program ends with its checks at 0, and stores into the frame. -/
theorem runChunk_worked (k : Mach) (x : Job) (j c : Nat) (consts : List W32) :
    k.Worked j (x.frameHolds c) (k.runChunk x c consts none).1 ∧ ∀ ev ∈ (k.runChunk x c consts none).2, ev.check = 0 := by
  unfold Mach.runChunk
  dsimp only
  have inside : ∀ i ∈ List.range (x.chunkElems c), i < x.chunkElems c := fun i hi => List.mem_range.mp hi
  generalize List.range (x.chunkElems c) = is at inside
  have start : k.Worked j (x.frameHolds c) (k, ([] : List Ev)).1 ∧ ∀ ev ∈ (k, ([] : List Ev)).2, ev.check = 0 :=
    ⟨machWorked_refl _ _ _, by simp⟩
  generalize (k, ([] : List Ev)) = a at start
  induction is generalizing a with
  | nil => exact start
  | cons i is ih =>
    obtain ⟨worked, checks⟩ := start
    refine ih (fun q hq => inside q (by simp [hq])) _ ⟨?_, ?_⟩
    · dsimp only
      rw [if_pos (check_runProgram _ rfl)]
      exact machWorked_trans worked (storeLane_worked _ j _ (inside i (by simp)))
    · intro ev hev
      rcases List.mem_append.mp hev with hev | hev
      · exact checks ev hev
      · rw [List.mem_singleton.mp hev]
        exact check_runProgram _ rfl

theorem header_within (x : Job) (c i : Nat) (h : x.frameAt c ≤ i) (h' : i < x.frameAt c + 4096) : x.frameHolds c i := by
  refine ⟨h, ?_⟩
  rw [Job.elemAt, arrayOff_acc]
  omega

/-- Undisturbed, the statistics of the weights enter the frame's header. -/
theorem stampFrame_worked (k : Mach) (x : Job) (j c : Nat) :
    k.Worked j (x.frameHolds c) (k.stampFrame x c none).1 ∧ (k.stampFrame x c none).2 = 0 := by
  unfold Mach.stampFrame
  dsimp only
  refine ⟨?_, check_sumSqR _ _⟩
  rw [if_pos (check_sumSqR _ _)]
  refine machWorked_trans (machWorked_put _ _ _ fun i hi hi' => ?_) (machWorked_put _ _ _ fun i hi hi' => ?_)
  all_goals
    rw [length_leBytes] at hi'
    exact header_within x c i (by omega) (by omega)

/-! ### The Update of a chunk (R25, R126 to R131, R340) -/

/-- The digests that the step's end records of a chunk. -/
def Job.withProv (c : Nat) (v : Bytes × Bytes) (x : Job) : Job := { x with stepProv := tset x.stepProv c v }

theorem stampProv_worked (k : Mach) (j c : Nat) (skip : Bool) (consts : List W32) :
    ∃ v, k.dev.Worked j (Job.withProv c v) (k.stampProv j c skip consts).dev ∧ (k.stampProv j c skip consts).depths = k.depths ∧
      (k.stampProv j c skip consts).flash = k.flash := ⟨_, worked_modJob _ _ rfl, rfl, rfl⟩

/-- The Update of a chunk, undisturbed: no check fails, its digests are new, and the Depths change in the frame only; for a skipped tensor
they do not. -/
theorem updateChunk_worked (k : Mach) (j c : Nat) (r : VerdictRes) :
    (k.updateChunk j c r none).2 = 0 ∧ ∃ v, k.dev.Worked j (Job.withProv c v) (k.updateChunk j c r none).1.dev ∧
      k.DepthsWithin ((k.dev.job j).frameHolds c) (k.updateChunk j c r none).1 ∧
      (((k.dev.job j).skipped (owTensor ((k.dev.job j).chunk c))).getD false = true → (k.updateChunk j c r none).1.depths = k.depths) := by
  unfold Mach.updateChunk
  extract_lets x t skip consts z st k2
  by_cases hs : skip = true
  · obtain ⟨v, worked, depths, -⟩ := stampProv_worked k j c true consts
    rw [if_pos hs]
    exact ⟨rfl, v, worked, depthsWithin_of_eq depths, fun _ => depths⟩
  · obtain ⟨ran, checks⟩ := runChunk_worked k x j c consts
    obtain ⟨stamped, sound⟩ : z.1.Worked j (x.frameHolds c) st.1 ∧ st.2 = 0 := stampFrame_worked z.1 x j c
    have counted : k.Worked j (x.frameHolds c) k2 :=
      machWorked_trans (machWorked_trans ran stamped) (machWorked_mod st.1 (worked_modJob _ _ (kept_addNumerics _ _ _)))
    obtain ⟨v, worked, depths, -⟩ := stampProv_worked k2 j c false consts
    rw [if_neg hs]
    refine ⟨?_, v, worked_then (worked_after counted.dev worked) (worked_compareWeight _ j c false),
      depthsWithin_trans counted.depths (depthsWithin_trans (depthsWithin_of_eq depths) (depthsWithin_mod _ _)), fun h => absurd h hs⟩
    have programs : (z.2.map Ev.check).foldl firstCheck 0 = 0 := firstCheck_zero (by
      intro n hn
      obtain ⟨ev, hev, rfl⟩ := List.mem_map.mp hn
      exact checks ev hev)
    dsimp only
    rw [programs, sound]
    rfl

/-! ### The end of the owner's Update (R378, R379) -/

/-- A device apart from what the answers to waiting halts touch. -/
def Dev.unanswered (d : Dev) : Dev := { d.rest with keeper := {}, dump := none, freeCtr := 0 }

theorem unanswered_answerHalt (d : Dev) (w : Nat × Nat × Nat) : (d.answerHalt w).unanswered = d.unanswered := by
  have replied : ∀ (e : Dev) (n msg tag : Nat) (b : Bytes), (e.gmpReply n msg tag b).unanswered = e.unanswered := fun e n msg tag b =>
    (congrArg (fun x : Dev => ({ x with keeper := {}, dump := none, freeCtr := 0 } : Dev)) (rest_gmpReply e n msg tag b) :)
  unfold Dev.answerHalt
  split
  · exact replied _ _ _ _ _
  · exact replied _ _ _ _ _

theorem unanswered_haltDone (d : Dev) : d.haltDone.unanswered = d.unanswered := by
  rw [haltDone_eq]
  exact foldl_keeps Dev.unanswered _ unanswered_answerHalt _ _

/-- What the end of the Update leaves of the device: everything but the sequencer of a job that is HALTED, and the halts that waited. -/
theorem updateEnd_keeps (d : Dev) (j : Nat) : (d.updateEnd j).ctxs = d.ctxs ∧ (d.updateEnd j).ports = d.ports ∧
    (d.updateEnd j).power = d.power ∧ (∀ k, k ≠ j → (d.updateEnd j).job k = d.job k) ∧
      { (d.updateEnd j).job j with stopped := false, runSection := none } = { d.job j with stopped := false, runSection := none } := by
  unfold Dev.updateEnd
  split
  · have same := unanswered_haltDone (d.modJob j (fun x => { x with stopped := true, runSection := none }))
    have jobs := job_congr (jobs_haltDone (d.modJob j (fun x => { x with stopped := true, runSection := none })))
    refine ⟨(congrArg Dev.ctxs same :), (congrArg Dev.ports same :), (congrArg Dev.power same :), fun k hk => ?_, ?_⟩
    · rw [jobs, job_modJob_other _ hk]
    · rw [jobs, job_modJob_same]
  · exact ⟨rfl, rfl, rfl, fun _ _ => rfl, rfl⟩

/-- What a job records of an updated chunk. -/
def Job.withUpdated (c : Nat) (x : Job) : Job :=
  { x with updated := x.updated ++ [c], rcPhase := if x.rcPhase = 3 ∧ x.owned.all (x.updated ++ [c]).contains then 4 else x.rcPhase }

theorem worked_markUpdated (d : Dev) (j c : Nat) : d.Worked j (Job.withUpdated c) (d.markUpdated j c) := worked_modJob d j rfl

/-- A chunk's Update has ended: what has changed of the device and of its Depths. -/
structure Mach.Updated (j c : Nat) (k k' : Mach) : Prop where
  updated : (k'.dev.job j).updated = (k.dev.job j).updated ++ [c]
  prov : thas (k'.dev.job j).stepProv c = true
  phase : (k'.dev.job j).rcPhase = if (k.dev.job j).owned.all ((k.dev.job j).updated ++ [c]).contains then 4 else 3
  ctxs : k'.dev.ctxs = k.dev.ctxs
  ports : k'.dev.ports = k.dev.ports
  power : k'.dev.power = k.dev.power
  others : ∀ i, i ≠ j → k'.dev.job i = k.dev.job i
  skipped : ((k.dev.job j).skipped (owTensor ((k.dev.job j).chunk c))).getD false = true → k'.depths = k.depths
  depths : k.DepthsWithin ((k.dev.job j).frameHolds c) k'

theorem thas_tset {α : Type} (t : Table α) (i : Nat) (v : α) : thas (tset t i v) i = true := by
  induction t with
  | nil => simp [tset, thas]
  | cons e r ih =>
    obtain ⟨k, w⟩ := e
    unfold thas at ih ⊢
    simp only [tset]
    split
    · simp
    split
    · simp
    · simp [ih]

/-- The Update of a job has begun, and a Tarn's instructions are counted. -/
def Dev.updateBegun (d : Dev) (j t n : Nat) : Dev := (d.modJob j (fun y => { y with updateStarted := true })).count (ctrIdx 7 t 0) n

theorem worked_updateBegun (d : Dev) (j t n : Nat) : d.Worked j (fun y => { y with updateStarted := true }) (d.updateBegun j t n) :=
  worked_then (worked_modJob d j rfl) (worked_of_quiet (quiet_count _ _ _))

section
variable {k : Mach} {j c : Nat} {r : VerdictRes} (hres : (k.dev.job j).vres = some r) (hphase : (k.dev.job j).rcPhase = 3)
  (hnew : (k.dev.job j).updated.contains c = false)
include hres hphase hnew

theorem tarnUpdate_eq : ∃ t n, k.tarnUpdate j c none =
    ((k.mod (·.updateBegun j t n)).updateChunk j c r none).1.mod (fun d => (d.markUpdated j c).updateEnd j) := by
  unfold Mach.tarnUpdate
  dsimp only
  rw [hres]
  dsimp only
  rw [if_neg (by rw [hphase, hnew]; simp)]
  exact ⟨_, _, if_neg (not_not.mpr (updateChunk_worked _ j c r).1)⟩

/-- After the Verdict the Update of a chunk that has had none runs whole. -/
theorem tarnUpdate_updates : k.Updated j c (k.tarnUpdate j c none) := by
  obtain ⟨t, n, heq⟩ := tarnUpdate_eq hres hphase hnew
  have begun := worked_updateBegun k.dev j t n
  have job : (k.mod (·.updateBegun j t n)).dev.job j = { k.dev.job j with updateStarted := true } :=
    (rest_job (rest_count _ _ _) j).trans (job_modJob_same _ _ _)
  obtain ⟨-, v, worked, depths, skipped⟩ := updateChunk_worked (k.mod (·.updateBegun j t n)) j c r
  rw [job] at depths skipped
  rw [heq]
  generalize (k.mod (·.updateBegun j t n)).updateChunk j c r none = z at worked depths skipped
  have marked := worked_comp (worked_comp begun worked) (worked_markUpdated z.1.dev j c)
  obtain ⟨ctxs, ports, power, others, ended⟩ := updateEnd_keeps (z.1.dev.markUpdated j c) j
  have done := (congrArg Job.kept ended).trans (congrArg (fun x : Job => { x with stopped := false, runSection := none }) marked.job :)
  refine ⟨(congrArg Job.updated done :), ?_, ?_, ctxs.trans (worked_ctxs marked), ports.trans (worked_ports marked),
    power.trans (worked_power marked), fun i hi => (others i hi).trans (marked.others i hi), skipped, depths⟩
  · exact (congrArg (fun x : Job => thas x.stepProv c) done :).trans (thas_tset _ _ _)
  · refine Eq.trans (b := if (k.dev.job j).rcPhase = 3 ∧ (k.dev.job j).owned.all ((k.dev.job j).updated ++ [c]).contains then 4
      else (k.dev.job j).rcPhase) (congrArg Job.rcPhase done :) ?_
    simp only [hphase, true_and]

end

/-! ### The Outflow of a chunk (R14, R154) -/

theorem check_outFrag (x : Job) (j c : Nat) (prov : Bytes) (w : List W32) (i : Nat) : ∀ ev ∈ (x.outFrag j c prov w none i).2.evs, ev.check = 0 :=
  check_outList _ _ _ _ _ _ _

/-- A job one more chunk of whose has its Outflow formed. -/
def Job.withFormed (c : Nat) (x : Job) : Job := { x with outFormed := x.outFormed ++ [c] }

/-- Undisturbed, a chunk's fragments are formed, and no byte changes. -/
theorem formOutflow_forms (k : Mach) (j c : Nat) : (k.formOutflow j c none).2 = 0 ∧ (k.formOutflow j c none).1.depths = k.depths ∧
    k.dev.Worked j (Job.withFormed c) (k.formOutflow j c none).1.dev := by
  unfold Mach.formOutflow
  extract_lets x en e w pv fs s bad
  have sound : bad = 0 := firstCheck_zero (by
    intro n hn
    obtain ⟨f, hf, hn⟩ := List.mem_flatMap.mp hn
    obtain ⟨ev, hev, rfl⟩ := List.mem_map.mp hn
    obtain ⟨i, -, rfl⟩ := List.mem_map.mp hf
    exact check_outFrag _ _ _ _ _ _ ev hev)
  rw [if_neg (not_not.mpr sound)]
  refine ⟨rfl, rfl, ?_⟩
  have held : k.dev.Worked j id _ :=
    worked_foldl (fun d f => d.holdOut j (tarnHolder (owStack en)) (tnChannel e) (x.fanPorts (tnChannel e) 0) f.1.1 f.1.2)
    (fun d f => worked_holdOut d j _ _ _ _ _ _) fs k.dev
  have formed := worked_after held (worked_modJob _ j (f := Job.withFormed c) (g := Job.withFormed c) rfl)
  dsimp only [Mach.mod]
  split
  · exact formed
  · exact worked_then (worked_then formed (worked_modJob _ j rfl)) (worked_compareDigest _ _ _ _ _ _)

/-- In its turn, and once its tensor's Update has ended here, a chunk's Outflow is formed. -/
theorem tarnOutflow_eq {k : Mach} {j c : Nat} (hlive : (k.dev.job j).live = true) (hres : (k.dev.job j).vres.isSome = true)
    (hnew : (k.dev.job j).outFormed.contains c = false) (hturn : (k.dev.job j).outTurn c = true)
    (hupdated : ∀ i ∈ (k.dev.job j).chunksOfTensor (owTensor ((k.dev.job j).chunk c)),
      i ∈ (k.dev.job j).owned → i ∈ (k.dev.job j).updated) :
    k.tarnOutflow j c none = (k.formOutflow j c none).1 := by
  have mine : (((k.dev.job j).chunksOfTensor (owTensor ((k.dev.job j).chunk c))).filter (k.dev.job j).owned.contains).all
      (k.dev.job j).updated.contains = true := by
    rw [List.all_eq_true]
    intro i hi
    obtain ⟨htensor, howned⟩ := List.mem_filter.mp hi
    exact List.contains_iff_mem.mpr (hupdated i htensor (List.contains_iff_mem.mp howned))
  unfold Mach.tarnOutflow
  dsimp only
  rw [hlive, mine, hnew, hturn, Option.isNone_eq_false_iff.mpr hres, if_neg (by decide), if_neg (not_not.mpr (formOutflow_forms k j c).1)]

/-! ### The fold's slot -/

/-- Undisturbed, a fold is the commit point of its use: no fold of a chunk is unsound. -/
theorem tarnFold_eq {k : Mach} {c : Nat} (chunk : Nat) {g : Job → Job} (h : k.dev.Committed c g (k.commitUse c none).dev)
    (hg : ∀ x : Job, (g x).unsound = x.unsound) : k.tarnFold (k.dev.ctx c).job c chunk none = k.commitUse c none := by
  have same : ((k.commitUse c none).dev.job (k.dev.ctx c).job).unsound = (k.dev.job (k.dev.ctx c).job).unsound :=
    (congrArg Job.unsound h.job :).trans (hg _)
  unfold Mach.tarnFold
  dsimp only [Option.map_none]
  rw [same, List.drop_length]
  rfl

/-! ### A slot in its round (R213, R215) -/

/-- The job of a slot alone changes in a round. -/
theorem slotIn_others {d d' : Dev} {j i kind m : Nat} {e : Bytes} (h : d.slotIn j i kind m = some (e, d')) {k : Nat} (hk : k ≠ j) :
    d'.job k = d.job k := by
  unfold Dev.slotIn at h
  split at h
  · split at h
    · cases h
      rfl
    · cases h
  · rw [takeSlot_begins h, Dev.begun, job_modJob_other _ hk]

section
variable {d d' : Dev} (h : d.InRound d')
include h

theorem inRound_power : d'.power = d.power := by rw [h.frame]

theorem inRound_bucketOf (c : Nat) : d'.bucketOf c = d.bucketOf c := by
  rw [Dev.bucketOf, Dev.bucketOf, inRound_ctx h]
  exact (congrArg (fun x : Job => (x.bucket (d.ctx c).bucket).getD (leBytes 32 0)) (h.job _) :)

theorem inRound_kid (c w off : Nat) : d'.kid c w off = d.kid c w off := by
  have job := h.job (d.ctx c).job
  have ovf : (d'.job (d.ctx c).job).ovf = (d.job (d.ctx c).job).ovf := (congrArg Job.ovf job :)
  have wire : (d'.job (d.ctx c).job).wireOf = (d.job (d.ctx c).job).wireOf := (congrArg Job.wireOf job :)
  have lysros : (d'.job (d.ctx c).job).lysrosOn = (d.job (d.ctx c).job).lysrosOn := (congrArg Job.lysrosOn job :)
  unfold Dev.kid
  dsimp only
  rw [inRound_ctx h, inRound_bucketOf h, ovf, wire, lysros]

/-- The values of a root are the same in a round of a slot. -/
theorem inRound_rootVals (c : Nat) : d'.rootVals c = d.rootVals c := by
  have root : (d'.job (d.ctx c).job).root = (d.job (d.ctx c).job).root := (congrArg Job.root (h.job _) :)
  unfold Dev.rootVals
  dsimp only
  simp only [inRound_kid h, inRound_ctx h, inRound_bucketOf h, root]

end

/-- A TARN slot serves its chunk: the chunk is owned here, on the slot's stack, which is in service. -/
structure Dev.TarnServes (d : Dev) (j i : Nat) : Prop where
  up : d.slotDown (scSlot (d.job j).sched i) = false
  owned : (d.job j).owned.contains (slChunk (scSlot (d.job j).sched i)) = true
  stack : owStack ((d.job j).chunk (slChunk (scSlot (d.job j).sched i))) = resUnit (slResource (scSlot (d.job j).sched i))

section
variable {k : Mach} {d : Dev} {j i : Nat} {f : Bytes}

theorem tarnSlot_fold {c : Nat} (hserves : k.dev.TarnServes j i) (hctx : k.dev.foldCtx j (scSlot (k.dev.job j).sched i) = some c)
    (hlive : (k.dev.job j).live = true) (hslot : k.dev.slotIn j i 4 (k.dev.ctx c).round = some (f, d)) :
    k.tarnSlot j i .fold none = ({ k with dev := d } : Mach).tarnFold j c (slChunk (scSlot (k.dev.job j).sched i)) none := by
  simp [Mach.tarnSlot, hserves.up, hserves.owned, hserves.stack, hctx, hlive, hslot, Mach.inSlot, -List.contains_eq_mem]

theorem tarnSlot_update (hserves : k.dev.TarnServes j i) (hnew : (k.dev.job j).updated.contains (slChunk (scSlot (k.dev.job j).sched i)) = false)
    (hslot : k.dev.slotIn j i 4 0 = some (f, d)) :
    k.tarnSlot j i .update none = ({ k with dev := d } : Mach).tarnUpdate j (slChunk (scSlot (k.dev.job j).sched i)) none := by
  simp [Mach.tarnSlot, hserves.up, hserves.owned, hserves.stack, hnew, hslot, Mach.inSlot, -List.contains_eq_mem]

theorem tarnSlot_outflow (hserves : k.dev.TarnServes j i)
    (hnew : (k.dev.job j).outFormed.contains (slChunk (scSlot (k.dev.job j).sched i)) = false)
    (hslot : k.dev.slotIn j i 4 0 = some (f, d)) :
    k.tarnSlot j i .outflow none = ({ k with dev := d } : Mach).tarnOutflow j (slChunk (scSlot (k.dev.job j).sched i)) none := by
  simp [Mach.tarnSlot, hserves.up, hserves.owned, hserves.stack, hnew, hslot, Mach.inSlot, -List.contains_eq_mem]

/-- What lets a slot pass idle. -/
def Dev.tarnIdle (d : Dev) (j : Nat) (e : Bytes) (work : TarnWork) : Prop :=
  (d.job j).owned.contains (slChunk e) = false ∨ owStack ((d.job j).chunk (slChunk e)) ≠ resUnit (slResource e) ∨ d.slotDown e = true ∨
    work = .fold ∧ d.foldCtx j e = none ∨ work = .update ∧ (d.job j).vres.isSome = true ∧ (d.job j).updated.contains (slChunk e) = true ∨
      work = .outflow ∧ (d.job j).outFormed.contains (slChunk e) = true

/-- A due slot with nothing to do only counts its round. -/
theorem tarnSlot_passes {e : Bytes} {work : TarnWork} (u : Option Upset) (hdue : SlotDue k.dev j i 4 e) (hidle : k.dev.tarnIdle j e work) :
    k.tarnSlot j i work u = { k with dev := k.dev.begun j i } := by
  have taken := takeSlot_due hdue
  obtain rfl := hdue.1
  have idle : k.inSlot (k.dev.takeSlot j i 4) id = { k with dev := k.dev.begun j i } := by rw [taken]; rfl
  unfold Mach.tarnSlot
  dsimp only
  rw [idle]
  split
  · rfl
  next hserves =>
    obtain howned | hstack | hdown | ⟨rfl, hctx⟩ | ⟨rfl, hres, hupdated⟩ | ⟨rfl, hformed⟩ := hidle
    · exact absurd (by rw [howned]; simp) hserves
    · exact absurd (by simp [hstack]) hserves
    · exact absurd (by simp [hdown]) hserves
    · simp only [hctx]
    · simp only [hres, hupdated, Bool.and_self, if_true]
    · simp only [hformed, if_true]

end

theorem stopped_of_live {x : Job} (h : x.live = true) : x.stopped = false := by
  unfold Job.live at h
  simpa using (Bool.and_eq_true_iff.mp h).2

/-- A context that a fold takes is DRAINING. -/
theorem draining_of_foldCtx {d : Dev} {j c : Nat} {e : Bytes} (h : d.foldCtx j e = some c) : (d.ctx c).state = .draining := by
  obtain ⟨b, hb, rfl⟩ := Option.map_eq_some_iff.mp h
  have found := List.find?_some hb
  simp only [Bool.and_eq_true, beq_iff_eq] at found
  exact found.1.1.2

/-! ### The statement -/

/-- What the statement says of a slot, on the machine on which the command acts. -/
theorem tarnServes_machAt {s : State} {now j i : Nat} {e : Bytes} (he : e = scSlot (s.dev.job j).sched i) (hup : (s.devAt now).slotDown e = false)
    (howned : (s.dev.job j).owned.contains (slChunk e) = true) (hstack : owStack ((s.dev.job j).chunk (slChunk e)) = resUnit (slResource e)) :
    (s.machAt now).dev.TarnServes j i ∧ e = scSlot ((s.machAt now).dev.job j).sched i := by
  have job : (s.machAt now).dev.job j = s.dev.job j := job_devAt s now j
  subst he
  exact ⟨⟨by rwa [job], by rwa [job], by rwa [job]⟩, by rw [job]⟩

/-- The Depths after a command that leaves a device with power as it is. -/
theorem depths_act {s : State} {now : Nat} {f : Mach → Mach} (hpower : (f (s.machAt now)).dev.power = s.dev.power)
    (hcold : s.dev.power.cold = false) : (s.act now f).depths = (f (s.machAt now)).depths := by
  have depths : (s.act now f).depths = if (f (s.machAt now)).dev.power.cold then [] else (f (s.machAt now)).depths := act_depths s now f
  rw [depths, hpower, hcold]
  rfl

/-- A slot that passes idle leaves the rest of the device and the Depths. -/
theorem tarnSlot_idle {s : State} {now j i : Nat} {e : Bytes} {work : TarnWork} (u : Option Upset) (hdue : SlotDue (s.devAt now) j i 4 e)
    (hidle : (s.devAt now).tarnIdle j e work) : ∃ t, exec (.tarnSlot j i work u now) s = .next t ∧
      (s.dev.power.cold = false → t.depths = s.depths) ∧ t.dev.rest = ((s.devAt now).begun j i).rest := by
  have passes := tarnSlot_passes (k := s.machAt now) u hdue hidle
  refine ⟨_, rfl, fun hcold => ?_, ?_⟩
  · rw [depths_act (by rw [passes]; exact to_power _ _) hcold, passes]
    rfl
  · have dev : (s.act now (Mach.tarnSlot j i work u)).dev = ((s.machAt now).tarnSlot j i work u).dev.noteReady := act_dev _ _ _
    rw [dev, passes, rest_noteReady]
    rfl

section
variable {s : State} {now j i : Nat} {f : Bytes} {d : Dev}

theorem inRound_devAt {m : Nat} (h : (s.devAt now).slotIn j i 4 m = some (f, d)) :
    (∀ c, d.ctx c = s.dev.ctx c) ∧ d.ctxs = s.dev.ctxs ∧ d.ports = s.dev.ports ∧ d.power = s.dev.power ∧
      (d.job j).unslotted = (s.dev.job j).unslotted ∧ ∀ k, k ≠ j → d.job k = s.dev.job k := by
  have round := slotIn_inRound h
  exact ⟨fun c => (inRound_ctx round c).trans (ctx_devAt s now c), (inRound_ctxs round).trans (to_ctxs _ _),
    (inRound_ports round).trans (to_ports _ _), (inRound_power round).trans (to_power _ _),
    (round.job j).trans (congrArg Job.unslotted (job_devAt s now j)), fun k hk => (slotIn_others h hk).trans (job_devAt s now k)⟩

/-- The fold of a slot is the commit point of its use, on the machine in the slot's round. -/
theorem tarnSlot_commits {c : Nat} {e : Bytes} {vs : List W32} (hserves : (s.machAt now).dev.TarnServes (s.dev.ctx c).job i)
    (he : e = scSlot ((s.machAt now).dev.job (s.dev.ctx c).job).sched i) (hlive : (s.dev.job (s.dev.ctx c).job).live = true)
    (hctx : (s.devAt now).foldCtx (s.dev.ctx c).job e = some c) (hbucket : (s.dev.ctx c).bucket ≠ verdictBucket)
    (hslot : (s.devAt now).slotIn (s.dev.ctx c).job i 4 (s.dev.ctx c).round = some (f, d))
    (hroot : (s.dev.job (s.dev.ctx c).job).rootHere ((s.devAt now).bucketOf c) = true) (hvals : (s.devAt now).rootVals c = some vs)
    (hheld : (s.dev.ctx c).heldAborts = []) (hinflow : ((s.dev.job (s.dev.ctx c).job).inflowAll ((s.devAt now).bucketOf c)
      (s.dev.ctx c).channel (s.dev.ctx c).sequence vs).isSome = true) :
    d.Committed c id ((s.machAt now).tarnSlot (s.dev.ctx c).job i .fold none).dev ∧
      (s.machAt now).DepthsWithin ((s.dev.job (s.dev.ctx c).job).accHolds ((s.devAt now).bucketOf c))
        ((s.machAt now).tarnSlot (s.dev.ctx c).job i .fold none) := by
  have round := slotIn_inRound hslot
  obtain ⟨ctx, -, -, -, job, -⟩ := inRound_devAt hslot
  have bucket := inRound_bucketOf round c
  have live : (d.job (s.dev.ctx c).job).live = (s.dev.job (s.dev.ctx c).job).live := (congrArg Job.live job :)
  have rootHere : (d.job (s.dev.ctx c).job).rootHere = (s.dev.job (s.dev.ctx c).job).rootHere := (congrArg Job.rootHere job :)
  have inflowAll : (d.job (s.dev.ctx c).job).inflowAll = (s.dev.job (s.dev.ctx c).job).inflowAll := (congrArg Job.inflowAll job :)
  have accHolds : (d.job (s.dev.ctx c).job).accHolds = (s.dev.job (s.dev.ctx c).job).accHolds := (congrArg Job.accHolds job :)
  obtain ⟨l, hl⟩ := Option.isSome_iff_exists.mp hinflow
  obtain ⟨committed, -, depths⟩ := commitUse_folds (k := { s.machAt now with dev := d }) (c := c) (v := vs) (l := l)
    (by rw [ctx, ← ctx_devAt s now]; exact draining_of_foldCtx hctx) (by rw [ctx]; exact hheld) (by rw [ctx, bucket, rootHere]; exact hroot)
    (by rw [ctx]; exact stopped_of_live (live.trans hlive)) ((inRound_rootVals round c).trans hvals) (by rw [ctx]; exact hbucket)
    (by rw [ctx, bucket, inflowAll]; exact hl)
  have fold := tarnFold_eq (slChunk e) committed fun _ => rfl
  have machJob : (s.machAt now).dev.job (s.dev.ctx c).job = s.dev.job (s.dev.ctx c).job := job_devAt _ _ _
  have machCtx : (s.machAt now).dev.ctx c = s.dev.ctx c := ctx_devAt _ _ _
  rw [ctx, bucket, accHolds] at depths
  have slot := tarnSlot_fold (k := s.machAt now) (d := d) (f := f) (c := c) hserves (by rw [← he]; exact hctx) (by rw [machJob]; exact hlive)
    (by rw [machCtx]; exact hslot)
  rw [← he] at slot
  rw [ctx] at fold
  rw [slot, fold]
  exact ⟨committed, depths⟩

theorem tarnSlot_updates {r : VerdictRes} {e : Bytes} (hserves : (s.machAt now).dev.TarnServes j i)
    (he : e = scSlot ((s.machAt now).dev.job j).sched i) (hslot : (s.devAt now).slotIn j i 4 0 = some (f, d))
    (hres : (s.dev.job j).vres = some r) (hphase : (s.dev.job j).rcPhase = 3) (hnew : (s.dev.job j).updated.contains (slChunk e) = false) :
    Mach.Updated j (slChunk e) { s.machAt now with dev := d } ((s.machAt now).tarnSlot j i .update none) := by
  obtain ⟨-, -, -, -, job, -⟩ := inRound_devAt hslot
  have machJob : (s.machAt now).dev.job j = s.dev.job j := job_devAt _ _ _
  have updated : (d.job j).updated = (s.dev.job j).updated := (congrArg Job.updated job :)
  rw [tarnSlot_update (k := s.machAt now) (d := d) hserves (by rwa [← he, machJob]) hslot, ← he]
  exact tarnUpdate_updates (k := { s.machAt now with dev := d }) ((congrArg Job.vres job :).trans hres) ((congrArg Job.rcPhase job :).trans hphase)
    (by rwa [updated])

theorem tarnSlot_forms {e : Bytes} (hserves : (s.machAt now).dev.TarnServes j i)
    (he : e = scSlot ((s.machAt now).dev.job j).sched i) (hslot : (s.devAt now).slotIn j i 4 0 = some (f, d))
    (hlive : (s.dev.job j).live = true) (hres : (s.dev.job j).vres.isSome = true) (hnew : (s.dev.job j).outFormed.contains (slChunk e) = false)
    (hturn : (s.dev.job j).outTurn (slChunk e) = true)
    (hupdated : ∀ k ∈ (s.dev.job j).chunksOfTensor (owTensor ((s.dev.job j).chunk (slChunk e))),
      k ∈ (s.dev.job j).owned → k ∈ (s.dev.job j).updated) :
    d.Worked j (Job.withFormed (slChunk e)) ((s.machAt now).tarnSlot j i .outflow none).dev ∧
      ((s.machAt now).tarnSlot j i .outflow none).depths = s.depths := by
  obtain ⟨-, -, -, -, job, -⟩ := inRound_devAt hslot
  have machJob : (s.machAt now).dev.job j = s.dev.job j := job_devAt _ _ _
  have formed : (d.job j).outFormed = (s.dev.job j).outFormed := (congrArg Job.outFormed job :)
  have chunks : (d.job j).chunksOfTensor = (s.dev.job j).chunksOfTensor := (congrArg Job.chunksOfTensor job :)
  have chunk : (d.job j).chunk = (s.dev.job j).chunk := (congrArg Job.chunk job :)
  have owned : (d.job j).owned = (s.dev.job j).owned := (congrArg Job.owned job :)
  have updated : (d.job j).updated = (s.dev.job j).updated := (congrArg Job.updated job :)
  rw [tarnSlot_outflow (k := s.machAt now) (d := d) hserves (by rwa [← he, machJob]) hslot, ← he,
    tarnOutflow_eq (k := { s.machAt now with dev := d }) ((congrArg Job.live job :).trans hlive)
      ((congrArg (fun x : Job => x.vres.isSome) job :).trans hres) (by rwa [formed])
      ((congrArg (fun x : Job => x.outTurn (slChunk e)) job :).trans hturn) (by rwa [chunks, chunk, owned, updated])]
  obtain ⟨-, depths, worked⟩ := formOutflow_forms { s.machAt now with dev := d } j (slChunk e)
  exact ⟨worked, depths⟩

end

/-- Settles O29, by the machine of each kind of work in the slot's round. -/
theorem tarnSlotsFoldUpdateAndSend : Obligations.TarnSlotsFoldUpdateAndSend := by
  refine ⟨⟨fun j i now c e f vs d s he hup howned hstack hlive hctx hjob hbucket hslot hroot hvals hheld hinflow => ⟨_, rfl, ?_⟩,
      fun j i now e u s hdue hctx => ?_⟩,
    fun j i now e f r d s he hslot hup howned hstack hres hphase hnew hcold => ⟨_, rfl, ?_⟩,
    fun j i now e f d s he hslot hup howned hstack hlive hres hnew hturn hupdated hcold => ⟨_, rfl, ?_⟩,
    fun j i now e u work s hdue hidle => ?_⟩
  · subst hjob
    obtain ⟨serves, he'⟩ := tarnServes_machAt he hup howned hstack
    obtain ⟨⟨hctx', -, hjob', hothers, hports, hpower⟩, depths⟩ :=
      tarnSlot_commits serves he' hlive hctx hbucket hslot hroot hvals hheld hinflow
    obtain ⟨ctx, -, ports, power, job, others⟩ := inRound_devAt hslot
    rw [ctx] at hctx' hjob' hothers
    have stride : (d.job (s.dev.ctx c).job).stride = (s.dev.job (s.dev.ctx c).job).stride := (congrArg Job.stride job :)
    have dev : (s.act now (Mach.tarnSlot (s.dev.ctx c).job i .fold none)).dev =
      ((s.machAt now).tarnSlot (s.dev.ctx c).job i .fold none).dev.noteReady := act_dev _ _ _
    rw [stride] at hctx'
    simp only [dev, noteReady_ctx, noteReady_job, noteReady_ports, State.depthsByte]
    refine ⟨(congrArg Ctx.state hctx' :), (congrArg Ctx.sequence hctx' :), ?_, fun k hk => (hothers k hk).trans (others k hk),
      hports.trans ports, fun hcold a ha => ?_⟩
    · refine Eq.trans (congrArg (fun x : Job => tget 0 x.chSeq (s.dev.ctx c).channel) hjob' :) ?_
      exact tget_tset_same _ _ _ _
    · rw [depths_act (hpower.trans power) hcold]
      refine depths a ?_
      rintro ⟨k, howned, hshared, hlo, hhi⟩
      have := ha k howned hshared
      omega
  · exact tarnSlot_idle u hdue (.inr (.inr (.inr (.inl ⟨rfl, hctx⟩))))
  · obtain ⟨serves, he'⟩ := tarnServes_machAt he hup howned hstack
    obtain ⟨updated, prov, phase, ctxs, ports, power, others, skipped, depths⟩ := tarnSlot_updates serves he' hslot hres hphase hnew
    obtain ⟨-, ctxs', ports', power', job, others'⟩ := inRound_devAt hslot
    have dev : (s.act now (Mach.tarnSlot j i .update none)).dev = ((s.machAt now).tarnSlot j i .update none).dev.noteReady := act_dev _ _ _
    have memory := depths_act (f := Mach.tarnSlot j i .update none) (power.trans power') hcold
    have jobUpdated : (d.job j).updated = (s.dev.job j).updated := (congrArg Job.updated job :)
    have jobOwned : (d.job j).owned = (s.dev.job j).owned := (congrArg Job.owned job :)
    have jobSkipped : (d.job j).skipped = (s.dev.job j).skipped := (congrArg Job.skipped job :)
    have jobChunk : (d.job j).chunk = (s.dev.job j).chunk := (congrArg Job.chunk job :)
    have jobFrame : (d.job j).frameHolds = (s.dev.job j).frameHolds := (congrArg Job.frameHolds job :)
    rw [jobUpdated] at updated
    rw [jobOwned, jobUpdated] at phase
    rw [jobSkipped, jobChunk] at skipped
    rw [jobFrame] at depths
    simp only [dev, noteReady_job, noteReady_ctxs, noteReady_ports, State.depthsByte, memory]
    refine ⟨updated, prov, phase, ctxs.trans ctxs', ports.trans ports', fun k hk => (others k hk).trans (others' k hk), skipped, fun a ha => ?_⟩
    refine depths a ?_
    rintro ⟨hlo, hhi⟩
    omega
  · obtain ⟨serves, he'⟩ := tarnServes_machAt he hup howned hstack
    obtain ⟨worked, depths⟩ := tarnSlot_forms serves he' hslot hlive hres hnew hturn hupdated
    obtain ⟨-, ctxs', ports', power', job, others'⟩ := inRound_devAt hslot
    have dev : (s.act now (Mach.tarnSlot j i .outflow none)).dev = ((s.machAt now).tarnSlot j i .outflow none).dev.noteReady := act_dev _ _ _
    have formed : (d.job j).outFormed = (s.dev.job j).outFormed := (congrArg Job.outFormed job :)
    have state : (d.job j).state = (s.dev.job j).state := (congrArg Job.state job :)
    rw [depths_act (f := Mach.tarnSlot j i .outflow none) ((worked_power worked).trans power') hcold]
    simp only [dev, noteReady_job, noteReady_ctxs, noteReady_ports]
    refine ⟨depths, (worked_ctxs worked).trans ctxs', ?_, (congrArg Job.state worked.job :).trans state, (worked_ports worked).trans ports',
      fun k hk => (worked.others k hk).trans (others' k hk)⟩
    rw [← formed]
    exact (congrArg Job.outFormed worked.job :)
  · refine tarnSlot_idle u hdue ?_
    rw [Dev.tarnIdle, job_devAt]
    obtain h | h | h | h | h := hidle
    · exact .inl h
    · exact .inr (.inl h)
    · exact .inr (.inr (.inl h))
    · exact .inr (.inr (.inr (.inr (.inl h))))
    · exact .inr (.inr (.inr (.inr (.inr h))))

end Sys2Proof.Machine
end

section
/-! PROOFS. TX slots send what waits, RNG slots compute a block (R67 to R72, R83, R96, R213, R262, R263, R304, R309). -/

namespace Sys2Proof.Machine

/-! ### What has been sent -/

/-- Everything that one device has sent has been sent by another one, too. -/
def Dev.SentBy (d e : Dev) : Prop := ∀ x ∈ d.sent, x ∈ e.sent

theorem sentBy_of_eq {d e : Dev} (h : e.sent = d.sent) : d.SentBy e := fun _ hx => h ▸ hx

theorem sentBy_trans {d e f : Dev} (h : d.SentBy e) (h' : e.SentBy f) : d.SentBy f := fun x hx => h' x (h x hx)

theorem sentBy_foldl {α : Type} (f : Dev → α → Dev) (h : ∀ (d : Dev) (a : α), d.SentBy (f d a)) (l : List α) (d : Dev) :
    d.SentBy (l.foldl f d) := by
  induction l generalizing d with
  | nil => exact fun _ hx => hx
  | cons a l ih => exact sentBy_trans (h d a) (ih (f d a))

theorem sent_count (d : Dev) (i n : Nat) : (d.count i n).sent = d.sent := by rw [count_eq]

theorem sent_modPort (d : Dev) (p : Nat) (f : Port → Port) : (d.modPort p f).sent = d.sent := rfl

theorem sentBy_send (d : Dev) (x : Sent) : d.SentBy (d.send x) := by
  unfold Dev.send
  split
  · exact fun _ hy => hy
  · exact fun y hy => List.mem_append_left _ hy

theorem sent_portBytes (d : Dev) (a p : Nat) (tx : Bool) (n : Nat) : (d.portBytes a p tx n).sent = d.sent := by
  have tapped : ∀ e : Dev, (e.tap a p tx n).sent = e.sent := fun e => by
    unfold Dev.tap
    split <;> rfl
  rw [Dev.portBytes, tapped, Dev.countPort, sent_count]

theorem sentBy_drainCopies (d : Dev) (p : Nat) : d.SentBy (d.drainCopies p) := by
  unfold Dev.drainCopies
  split
  · refine sentBy_trans (sentBy_foldl _ (fun e f => ?_) _ d) (sentBy_of_eq rfl)
    exact sentBy_trans (sentBy_send e _) (sentBy_of_eq ((sent_count _ _ _).trans (sent_portBytes _ _ _ _ _)))
  · exact fun _ hx => hx

theorem sentBy_putCopy (d : Dev) (p q : Nat) (f : Bytes) : d.SentBy (d.putCopy p q f) := by
  unfold Dev.putCopy
  dsimp only
  split
  · exact sentBy_of_eq (sent_count _ _ _)
  · exact fun x hx => sentBy_drainCopies _ _ x ((sent_count _ _ _).symm ▸ hx)

theorem sentBy_copyFor (d : Dev) (i : Nat) (e : Bytes) (x : Bool) (p : Nat) (r : Option Bytes) (b : Bytes) : d.SentBy (d.copyFor i e x p r b) := by
  unfold Dev.copyFor
  dsimp only
  split
  · exact sentBy_of_eq rfl
  · exact fun x hx => sentBy_putCopy _ _ _ _ x hx

theorem sentBy_mirror (d : Dev) (x : Bool) (p : Nat) (r : Option Bytes) (b : Bytes) : d.SentBy (d.mirror x p r b) := by
  refine sentBy_foldl _ (fun e s => ?_) _ d
  split
  · exact sentBy_copyFor _ _ _ _ _ _ _
  · exact fun _ hx => hx

theorem sentBy_feedTo (d : Dev) (p : Nat) : d.SentBy (d.feedTo p) := by
  unfold Dev.feedTo
  dsimp only
  split
  · exact fun _ hx => hx
  · intro x hx
    rw [sent_modPort, Dev.wrote, sent_modPort]
    refine sentBy_foldl _ (fun e f => ?_) _ d x hx
    exact sentBy_of_eq (sent_count _ _ _)

/-- A packet that starts on a port that is not dark has been sent, beside what had been sent before. -/
theorem mem_sendPacket {d : Dev} {p : Nat} (hlit : d.darkPort p = false) (vc : Nat) (b : Bytes) (use : Option (Nat × Nat × Nat)) :
    Sent.packet p vc b false ∈ (d.sendPacket p vc b use).sent := by
  unfold Dev.sendPacket
  refine sentBy_mirror _ _ _ _ _ _ (sentBy_feedTo _ _ _ ?_)
  have sent : (d.send (.packet p vc b false)).sent = d.sent ++ [.packet p vc b false] := by
    unfold Dev.send
    rw [if_neg (by simp [Sent.fibre, hlit])]
  exact sent ▸ List.mem_append_right _ (List.mem_singleton.mpr rfl)

theorem sentBy_sendPacket (d : Dev) (p vc : Nat) (b : Bytes) (use : Option (Nat × Nat × Nat)) : d.SentBy (d.sendPacket p vc b use) :=
  fun x hx => sentBy_mirror _ _ _ _ _ x (sentBy_feedTo _ p x (sentBy_send d _ x hx))

@[simp] theorem inward_feedTo (d : Dev) (p : Nat) : (d.feedTo p).inward = d.inward := by
  unfold Dev.feedTo
  dsimp only
  split
  · rfl
  · rw [inward_modPort, Dev.wrote, inward_modPort]
    exact inward_foldl _ (fun e f => by simp [Dev.enqueue, Dev.relink]) _ _

@[simp] theorem inward_sendPacket (d : Dev) (p vc : Nat) (b : Bytes) (use : Option (Nat × Nat × Nat)) :
    (d.sendPacket p vc b use).inward = d.inward := by
  simp [Dev.sendPacket]

theorem unaudited_digestOut (d : Dev) (port : Nat) (sent : Bool) (h payload : Bytes) : (d.digestOut port sent h payload).unaudited = d.unaudited := by
  unfold Dev.digestOut
  split
  · rfl
  dsimp only
  split
  · rfl
  · exact (congrArg (fun x : Dev => ({ x with audit := {} } : Dev)) (unaudited_countJob d (ohJob h) 0x00C 1) :)

/-! ### What a TX slot keeps (R83, R96) -/

/-- What every step of a TX slot on port `p` keeps: what has been sent stays sent, contexts their states, and node values, fragments and held
Outflow the marks of what has left. -/
structure Dev.TxKeeps (j p : Nat) (d e : Dev) : Prop where
  sent : d.SentBy e
  state : ∀ c, (e.ctx c).state = (d.ctx c).state ∧ (e.ctx c).sequence = (d.ctx c).sequence
  nodes : ∀ c, ∀ v ∈ (e.ctx c).nodes, ∃ w ∈ (d.ctx c).nodes, w.node = v.node ∧ w.frag = v.frag ∧ (w.sent = true → v.sent = true)
  frags : ∀ c, ∀ g ∈ (e.ctx c).frags, ∃ f ∈ (d.ctx c).frags, f.header = g.header ∧ (f.taken = true → g.taken = true)
  held : ∀ g ∈ (e.job j).outHeld, ∃ f ∈ (d.job j).outHeld, f.item = g.item ∧ (f.ports.contains p = false → g.ports.contains p = false)
  others : ∀ k, k ≠ j → e.job k = d.job k
  faults : e.faults = d.faults

theorem txKeeps_trans {j p : Nat} {d e f : Dev} (h : d.TxKeeps j p e) (h' : e.TxKeeps j p f) : d.TxKeeps j p f := by
  refine ⟨sentBy_trans h.sent h'.sent, fun c => ⟨(h'.state c).1.trans (h.state c).1, (h'.state c).2.trans (h.state c).2⟩, fun c v hv => ?_,
    fun c g hg => ?_, fun g hg => ?_, fun k hk => (h'.others k hk).trans (h.others k hk), h'.faults.trans h.faults⟩
  · obtain ⟨w, hw, node, frag, sent⟩ := h'.nodes c v hv
    obtain ⟨w', hw', node', frag', sent'⟩ := h.nodes c w hw
    exact ⟨w', hw', node'.trans node, frag'.trans frag, sent ∘ sent'⟩
  · obtain ⟨f, hf, header, taken⟩ := h'.frags c g hg
    obtain ⟨f', hf', header', taken'⟩ := h.frags c f hf
    exact ⟨f', hf', header'.trans header, taken ∘ taken'⟩
  · obtain ⟨f, hf, item, ports⟩ := h'.held g hg
    obtain ⟨f', hf', item', ports'⟩ := h.held f hf
    exact ⟨f', hf', item'.trans item, ports ∘ ports'⟩

/-- A change that touches neither contexts nor jobs. -/
theorem txKeeps_of_same {j p : Nat} {d e : Dev} (hsent : d.SentBy e) (hctxs : e.ctxs = d.ctxs) (hjobs : e.jobs = d.jobs)
    (hfaults : e.faults = d.faults) : d.TxKeeps j p e := by
  have ctx := ctx_congr hctxs
  have job := job_congr hjobs
  refine ⟨hsent, fun c => by rw [ctx]; exact ⟨rfl, rfl⟩, fun c v hv => ?_, fun c g hg => ?_, fun g hg => ?_, fun k _ => job k, hfaults⟩
  · exact ⟨v, ctx c ▸ hv, rfl, rfl, id⟩
  · exact ⟨g, ctx c ▸ hg, rfl, id⟩
  · exact ⟨g, job j ▸ hg, rfl, id⟩

theorem txKeeps_refl (j p : Nat) (d : Dev) : d.TxKeeps j p d := txKeeps_of_same (sentBy_of_eq rfl) rfl rfl rfl

theorem txKeeps_sendPacket (d : Dev) (j p q vc : Nat) (b : Bytes) (use : Option (Nat × Nat × Nat)) : d.TxKeeps j p (d.sendPacket q vc b use) := by
  obtain ⟨ctxs, jobs, faults⟩ := inward_fields (inward_sendPacket d q vc b use)
  exact txKeeps_of_same (sentBy_sendPacket _ _ _ _ _) ctxs jobs faults

/-- A change of one context that keeps its state and its marks. -/
theorem txKeeps_modCtx (d : Dev) (j p c : Nat) {f : Ctx → Ctx}
    (hstate : (f (d.ctx c)).state = (d.ctx c).state ∧ (f (d.ctx c)).sequence = (d.ctx c).sequence)
    (hnodes : ∀ v ∈ (f (d.ctx c)).nodes, ∃ w ∈ (d.ctx c).nodes, w.node = v.node ∧ w.frag = v.frag ∧ (w.sent = true → v.sent = true))
    (hfrags : ∀ g ∈ (f (d.ctx c)).frags, ∃ q ∈ (d.ctx c).frags, q.header = g.header ∧ (q.taken = true → g.taken = true)) :
    d.TxKeeps j p (d.modCtx c f) := by
  refine ⟨sentBy_of_eq rfl, fun k => ?_, fun k => ?_, fun k => ?_, fun g hg => ⟨g, hg, rfl, id⟩, fun _ _ => rfl, rfl⟩
  all_goals by_cases hk : k = c
  · subst hk
    rwa [ctx_modCtx_same]
  · rw [ctx_modCtx_other _ hk]
    exact ⟨rfl, rfl⟩
  · subst hk
    rwa [ctx_modCtx_same]
  · rw [ctx_modCtx_other _ hk]
    exact fun v hv => ⟨v, hv, rfl, rfl, id⟩
  · subst hk
    rwa [ctx_modCtx_same]
  · rw [ctx_modCtx_other _ hk]
    exact fun g hg => ⟨g, hg, rfl, id⟩

/-- A change of the slot's job that keeps the marks of its held Outflow. -/
theorem txKeeps_modJob (d : Dev) (j p : Nat) {f : Job → Job}
    (hheld : ∀ g ∈ (f (d.job j)).outHeld, ∃ q ∈ (d.job j).outHeld,
      q.item = g.item ∧ (q.ports.contains p = false → g.ports.contains p = false)) :
    d.TxKeeps j p (d.modJob j f) := by
  refine ⟨sentBy_of_eq rfl, fun k => ⟨rfl, rfl⟩, fun k v hv => ⟨v, hv, rfl, rfl, id⟩, fun k g hg => ⟨g, hg, rfl, id⟩, ?_,
    fun k hk => job_modJob_other d hk f, rfl⟩
  rwa [job_modJob_same]

theorem txKeeps_digestFrag (d : Dev) (j p c q : Nat) (b : Bool) (h x : Bytes) : d.TxKeeps j p (d.digestFrag c q b h x) := by
  obtain hd | ⟨e, g, he, hd⟩ := digestFrag_cases d c q b h x
  · rw [hd]
    exact txKeeps_refl j p d
  · obtain ⟨ctxs, jobs, -, faults⟩ := unaudited_fields he
    have sent : e.sent = d.sent := (congrArg Dev.sent he :)
    rw [hd]
    refine txKeeps_trans (e := e) (txKeeps_of_same (sentBy_of_eq sent) ctxs jobs faults) (txKeeps_modCtx e j p c ⟨rfl, rfl⟩ ?_ ?_)
    · exact fun v hv => ⟨v, hv, rfl, rfl, id⟩
    · exact fun g hg => ⟨g, hg, rfl, id⟩

theorem txKeeps_digestOut (d : Dev) (j p q : Nat) (b : Bool) (h x : Bytes) : d.TxKeeps j p (d.digestOut q b h x) := by
  have same := unaudited_digestOut d q b h x
  obtain ⟨ctxs, jobs, -, faults⟩ := unaudited_fields same
  have sent : (d.digestOut q b h x).sent = d.sent := (congrArg Dev.sent same :)
  exact txKeeps_of_same (sentBy_of_eq sent) ctxs jobs faults

theorem txKeeps_of_unpooled {j p : Nat} {d e f : Dev} (h : e.unpooled = f.unpooled) (hf : d.TxKeeps j p f) : d.TxKeeps j p e := by
  obtain ⟨ctxs, jobs, -, faults, -⟩ := unpooled_fields h
  have sent : e.sent = f.sent := (congrArg Dev.sent h :)
  exact txKeeps_trans hf (txKeeps_of_same (sentBy_of_eq sent) ctxs jobs faults)

/-! ### An item leaves (R262, R263, R332) -/

/-- The mark of a node's value that has left. -/
def NodeVal.left (w off : Nat) (v : NodeVal) : NodeVal := if v.node = w ∧ v.frag = off then { v with sent := true } else v

theorem left_keys (w off : Nat) (v : NodeVal) :
    (v.left w off).node = v.node ∧ (v.left w off).frag = v.frag ∧ (v.sent = true → (v.left w off).sent = true) := by
  unfold NodeVal.left
  split
  · exact ⟨rfl, rfl, fun _ => rfl⟩
  · exact ⟨rfl, rfl, id⟩

theorem txKeeps_left (d : Dev) (j p c w off : Nat) : d.TxKeeps j p (d.modCtx c (fun x => { x with nodes := x.nodes.map (NodeVal.left w off) })) := by
  refine txKeeps_modCtx d j p c ⟨rfl, rfl⟩ (fun v hv => ?_) (fun g hg => ⟨g, hg, rfl, id⟩)
  obtain ⟨u, hu, rfl⟩ := List.mem_map.mp hv
  obtain ⟨node, frag, sent⟩ := left_keys w off u
  exact ⟨u, hu, node.symm, frag.symm, sent⟩

theorem txKeeps_releaseFrags (d : Dev) (j p c : Nat) (q : Frag → Bool) : d.TxKeeps j p (d.releaseFrags c q) := by
  refine txKeeps_of_unpooled (unpooled_releaseFrags d c q)
    (txKeeps_modCtx d j p c ⟨rfl, rfl⟩ (fun v hv => ⟨v, hv, rfl, rfl, id⟩) fun g hg => ?_)
  obtain ⟨f, hf, rfl⟩ := List.mem_map.mp hg
  refine ⟨f, hf, (header_takenIf q f).symm, fun h => ?_⟩
  unfold Frag.takenIf
  split
  · rfl
  · exact h

/-- A held fragment once one of its item has left by a port. -/
def OutHeld.afterLeft (g : OutHeld) (p : Nat) (f : OutHeld) : OutHeld := if g.item = f.item then { g with ports := f.ports.filter (· != p) } else g

theorem afterLeft_item (g : OutHeld) (p : Nat) (f : OutHeld) : (g.afterLeft p f).item = g.item := by
  unfold OutHeld.afterLeft
  split <;> rfl

theorem afterLeft_ports {g f : OutHeld} {p : Nat} (h : g.item = f.item ∨ g.ports.contains p = false) :
    (g.afterLeft p f).ports.contains p = false := by
  unfold OutHeld.afterLeft
  split
  · simp
  · next hne => exact h.resolve_left hne

/-- A held fragment that leaves by a port: the device's blocks apart, the job's held fragments are without it or without that port. -/
theorem outLeft_cases (d : Dev) (j p : Nat) (f : OutHeld) :
    (d.outLeft j p f).unpooled = (d.modJob j (fun x => { x with outHeld := x.outHeld.filter (fun g => g.item != f.item) })).unpooled ∨
      (d.outLeft j p f) = d.modJob j (fun x => { x with outHeld := x.outHeld.map (fun g => g.afterLeft p f) }) := by
  unfold Dev.outLeft
  dsimp only
  split
  · refine .inl ?_
    have freed : ((d.poolFreeItem f.holder f.item).countDev 0x101 (f.header.length + f.payload.length)).unpooled = d.unpooled := by simp
    exact (congrArg (fun x : Dev => x.modJob j (fun x => { x with outHeld := x.outHeld.filter (fun g => g.item != f.item) })) freed :)
  · exact .inr rfl

theorem txKeeps_outLeft (d : Dev) (j p : Nat) (f : OutHeld) : d.TxKeeps j p (d.outLeft j p f) ∧
    ∀ g ∈ ((d.outLeft j p f).job j).outHeld, g.item = f.item → g.ports.contains p = false := by
  obtain h | h := outLeft_cases d j p f
  · have job := job_congr (unpooled_fields h).2.1 j
    rw [job_modJob_same] at job
    refine ⟨txKeeps_of_unpooled h (txKeeps_modJob d j p fun g hg => ⟨g, (List.mem_filter.mp hg).1, rfl, id⟩), fun g hg hitem => ?_⟩
    rw [job] at hg
    exact absurd hitem (bne_iff_ne.mp (List.mem_filter.mp hg).2)
  · rw [h]
    refine ⟨txKeeps_modJob d j p fun g hg => ?_, fun g hg hitem => ?_⟩
    · obtain ⟨q, hq, rfl⟩ := List.mem_map.mp hg
      exact ⟨q, hq, (afterLeft_item q p f).symm, fun hp => afterLeft_ports (.inr hp)⟩
    · rw [job_modJob_same] at hg
      obtain ⟨q, hq, rfl⟩ := List.mem_map.mp hg
      exact afterLeft_ports (.inl ((afterLeft_item q p f).symm.trans hitem))

/-- What marks an item that has left by port `p`. -/
structure Dev.TxGone (j p : Nat) (u : TxItem) (d : Dev) : Prop where
  node : ∀ c w off, u = .node c w off → ∀ v ∈ (d.ctx c).nodes, v.node = w → v.frag = off → v.sent = true
  pass : ∀ c f, u = .pass c f → ∀ g ∈ (d.ctx c).frags, g.header = f.header → g.taken = true
  out : ∀ f, u = .out f → ∀ g ∈ (d.job j).outHeld, g.item = f.item → g.ports.contains p = false

/-- What has left stays so. -/
theorem txGone_of_txKeeps {j p : Nat} {u : TxItem} {d e : Dev} (h : d.TxKeeps j p e) (hd : d.TxGone j p u) : e.TxGone j p u := by
  refine ⟨fun c w off hu v hv hw hoff => ?_, fun c f hu g hg hheader => ?_, fun f hu g hg hitem => ?_⟩
  · obtain ⟨v', hv', node, frag, sent⟩ := h.nodes c v hv
    exact sent (hd.node c w off hu v' hv' (node.trans hw) (frag.trans hoff))
  · obtain ⟨f', hf', header, taken⟩ := h.frags c g hg
    exact taken (hd.pass c f hu f' hf' (header.trans hheader))
  · obtain ⟨f', hf', item, ports⟩ := h.held g hg
    exact ports (hd.out f hu f' hf' (item.trans hitem))

theorem txSend_node (d : Dev) (j p c w off : Nat) : d.txSend j p (.node c w off) =
    ((d.sendPacket p (d.packetOf j (.node c w off)).1 (d.packetOf j (.node c w off)).2 (d.itemUse j (.node c w off))).digestFrag c p true
      ((d.txContent (.node c w off)).take 48) ((d.txContent (.node c w off)).drop 48)).modCtx c
        (fun x => { x with nodes := x.nodes.map (NodeVal.left w off) }) := rfl

theorem txSend_pass (d : Dev) (j p c : Nat) (f : Frag) : d.txSend j p (.pass c f) =
    ((d.sendPacket p (d.packetOf j (.pass c f)).1 (d.packetOf j (.pass c f)).2 (d.itemUse j (.pass c f))).digestFrag c p true
      f.header f.payload).releaseFrags c (fun g => g.header == f.header) := rfl

theorem txSend_out (d : Dev) (j p : Nat) (f : OutHeld) : d.txSend j p (.out f) =
    ((d.sendPacket p (d.packetOf j (.out f)).1 (d.packetOf j (.out f)).2).digestOut p true f.header f.payload).outLeft j p f := rfl

/-- An item's packet starts on the port, and the marks follow. -/
theorem txSend_sends (d : Dev) (j p : Nat) (u : TxItem) :
    ∃ use, (d.sendPacket p (d.packetOf j u).1 (d.packetOf j u).2 use).TxKeeps j p (d.txSend j p u) := by
  cases u with
  | node c w off =>
    rw [txSend_node]
    exact ⟨_, txKeeps_trans (txKeeps_digestFrag _ _ _ _ _ _ _ _) (txKeeps_left _ _ _ _ _ _)⟩
  | pass c f =>
    rw [txSend_pass]
    exact ⟨_, txKeeps_trans (txKeeps_digestFrag _ _ _ _ _ _ _ _) (txKeeps_releaseFrags _ _ _ _ _)⟩
  | out f =>
    rw [txSend_out]
    exact ⟨_, txKeeps_trans (txKeeps_digestOut _ _ _ _ _ _ _) (txKeeps_outLeft _ _ _ _).1⟩

theorem txKeeps_txSend (d : Dev) (j p : Nat) (u : TxItem) : d.TxKeeps j p (d.txSend j p u) := by
  obtain ⟨use, sends⟩ := txSend_sends d j p u
  exact txKeeps_trans (txKeeps_sendPacket _ _ _ _ _ _ _) sends

theorem txSend_sent {d : Dev} {p : Nat} (hlit : d.darkPort p = false) (j : Nat) (u : TxItem) :
    Sent.packet p (d.packetOf j u).1 (d.packetOf j u).2 false ∈ (d.txSend j p u).sent := by
  obtain ⟨use, sends⟩ := txSend_sends d j p u
  exact sends.sent _ (mem_sendPacket hlit _ _ _)

/-- The item that has been sent is marked. -/
theorem txSend_gone (d : Dev) (j p : Nat) (u : TxItem) : (d.txSend j p u).TxGone j p u := by
  cases u with
  | node c w off =>
    rw [txSend_node]
    generalize Dev.digestFrag _ _ _ _ _ _ = e
    refine ⟨fun c' w' off' hu v hv hw hoff => ?_, nofun, nofun⟩
    cases hu
    rw [ctx_modCtx_same] at hv
    obtain ⟨v', -, rfl⟩ := List.mem_map.mp hv
    obtain ⟨node, frag, -⟩ := left_keys w off v'
    have here : v'.node = w ∧ v'.frag = off := ⟨node.symm.trans hw, frag.symm.trans hoff⟩
    rw [NodeVal.left, if_pos here]
  | pass c f =>
    rw [txSend_pass]
    generalize Dev.digestFrag _ _ _ _ _ _ = e
    refine ⟨nofun, fun c' f' hu g hg hheader => ?_, nofun⟩
    cases hu
    have ctx := ctx_congr (unpooled_fields (unpooled_releaseFrags e c (fun g => g.header == f.header))).1 c
    rw [ctx, ctx_modCtx_same] at hg
    obtain ⟨g', -, rfl⟩ := List.mem_map.mp hg
    rw [header_takenIf] at hheader
    exact taken_takenIf (beq_iff_eq.mpr hheader)
  | out f =>
    rw [txSend_out]
    refine ⟨nofun, nofun, fun f' hu => ?_⟩
    cases hu
    exact (txKeeps_outLeft _ _ _ _).2

/-! ### The slot (R213, R309) -/

/-- What the round of a slot has moved. -/
def Job.withMoved (i n : Nat) (x : Job) : Job := { x with moved := tset x.moved i n }

theorem txMany_cons (d : Dev) (j i p room : Nat) (u : TxItem) (r : List TxItem) : Dev.txMany j i p room (u :: r) d =
    if room < tget 0 (d.job j).moved i + flitsOf (d.txContent u).length ∨ d.txMay j u = false then d
    else Dev.txMany j i p room r ((d.txSend j p u).modJob j (Job.withMoved i (tget 0 (d.job j).moved i + flitsOf (d.txContent u).length))) := rfl

theorem txKeeps_sendMoved (d : Dev) (j p i n : Nat) (u : TxItem) : (d.txSend j p u).TxKeeps j p ((d.txSend j p u).modJob j (Job.withMoved i n)) :=
  txKeeps_modJob _ j p fun g hg => ⟨g, hg, rfl, id⟩

theorem txKeeps_txMany (j i p room : Nat) (l : List TxItem) (d : Dev) : d.TxKeeps j p (Dev.txMany j i p room l d) := by
  induction l generalizing d with
  | nil => exact txKeeps_refl j p d
  | cons u r ih =>
    rw [txMany_cons]
    split
    · exact txKeeps_refl j p d
    · exact txKeeps_trans (txKeeps_trans (txKeeps_txSend d j p u) (txKeeps_sendMoved d j p i _ u)) (ih _)

/-- The first item goes, where there is room for it and it may. -/
theorem txMany_sends {d : Dev} {j i p room : Nat} {u : TxItem} (r : List TxItem)
    (hroom : tget 0 (d.job j).moved i + flitsOf (d.txContent u).length ≤ room) (hmay : d.txMay j u = true) :
    (d.txSend j p u).TxKeeps j p (Dev.txMany j i p room (u :: r) d) := by
  rw [txMany_cons, if_neg (by rw [hmay]; simp; omega)]
  exact txKeeps_trans (txKeeps_sendMoved d j p i _ u) (txKeeps_txMany _ _ _ _ _ _)

theorem slotNow_cases {d d' : Dev} {j i kind : Nat} {e : Bytes} (h : d.slotNow j i kind = some (e, d')) :
    d.takeSlot j i kind = some (e, d') ∨ d.slotIn j i kind 0 = some (e, d') := by
  unfold Dev.slotNow at h
  obtain h | ⟨-, h⟩ := Option.or_eq_some_iff.mp h
  · exact .inl h
  · split at h
    · cases h
    · exact .inr h

theorem slotNow_inRound {d d' : Dev} {j i kind : Nat} {e : Bytes} (h : d.slotNow j i kind = some (e, d')) :
    d.InRound d' ∧ ∀ k, k ≠ j → d'.job k = d.job k := by
  obtain h | h := slotNow_cases h
  · rw [takeSlot_begins h]
    exact ⟨inRound_begun d j i, fun k hk => job_modJob_other d hk _⟩
  · exact ⟨slotIn_inRound h, fun k hk => slotIn_others h hk⟩

theorem slotNow_due {d : Dev} {j i kind : Nat} {e : Bytes} (h : SlotDue d j i kind e) : d.slotNow j i kind = some (e, d.begun j i) := by
  unfold Dev.slotNow
  rw [takeSlot_due h]
  rfl

section
variable {d d' : Dev} {j i p : Nat} {e : Bytes}

/-- On a fabric port that is UP, a slot moves the items that are not stale, once it has dropped those that are. -/
theorem txSlot_moves (hslot : d.slotNow j i 2 = some (e, d')) (hclass : resClass (slResource e) = 1) (hup : d'.up (resUnit (slResource e)) = true)
    (hfabric : d'.fabric (resUnit (slResource e)) = true) {l : List TxItem} (hitems : d'.txItems j e = l) (hstale : ∀ x ∈ l, d'.staleItem x = false) :
    Dev.txSlot j i d = Dev.txMany j i (resUnit (slResource e)) (slRoom e) l d' := by
  have fresh : l.filter (fun t => !d'.staleItem t) = l := List.filter_eq_self.mpr fun x hx => by rw [hstale x hx]; rfl
  have stale : l.filter d'.staleItem = [] := List.filter_eq_nil_iff.mpr fun x hx => by rw [hstale x hx]; simp
  unfold Dev.txSlot
  rw [hslot]
  dsimp only
  rw [if_pos ⟨hclass, hup, hfabric⟩, hitems, fresh, stale]
  rfl

/-- What keeps a slot from sending in its round. -/
def Dev.txWaits (d : Dev) (j i : Nat) (e : Bytes) : Prop :=
  d.txItems j e = [] ∨ resClass (slResource e) ≠ 1 ∨ d.up (resUnit (slResource e)) = false ∨ d.fabric (resUnit (slResource e)) = false ∨
    ∃ u r, d.txItems j e = u :: r ∧ (∀ x ∈ u :: r, d.staleItem x = false) ∧
      (slRoom e < tget 0 (d.job j).moved i + flitsOf (d.txContent u).length ∨ d.txMay j u = false)

theorem txSlot_waits (hslot : d.slotNow j i 2 = some (e, d')) (h : d'.txWaits j i e) : Dev.txSlot j i d = d' := by
  by_cases hacts : resClass (slResource e) = 1 ∧ d'.up (resUnit (slResource e)) = true ∧ d'.fabric (resUnit (slResource e)) = true
  · obtain ⟨hclass, hup, hfabric⟩ := hacts
    obtain hnone | hclass' | hdown | hmode | ⟨u, r, hitems, hstale, hno⟩ := h
    · rw [txSlot_moves hslot hclass hup hfabric hnone (by simp)]
      rfl
    · exact absurd hclass hclass'
    · simp [hup] at hdown
    · simp [hfabric] at hmode
    · rw [txSlot_moves hslot hclass hup hfabric hitems hstale, txMany_cons, if_pos hno]
  · unfold Dev.txSlot
    rw [hslot]
    exact if_neg hacts

theorem txSlot_undue (hslot : d.slotNow j i 2 = none) : Dev.txSlot j i d = d := by
  unfold Dev.txSlot
  rw [hslot]

end

/-! ### RNG slots (R67 to R72, R213) -/

theorem rngSlot_due {d : Dev} {j i : Nat} {e : Bytes} (use node m t el : Nat) (h : SlotDue d j i 7 e) : Dev.rngSlot j i use node m t el d =
    if use < 4 then { d.begun j i with gens := tset (d.begun j i).gens (resUnit (slResource e)) ((d.job j).rngBlock use node m t el) }
    else d.begun j i := by
  unfold Dev.rngSlot
  rw [takeSlot_due h]
  dsimp only
  by_cases hu : use < 4
  · rw [if_pos hu, if_neg (by omega)]
  · rw [if_neg hu, if_pos (by omega)]

/-! ### The statement -/

theorem inRound_up {d d' : Dev} (h : d.InRound d') (p : Nat) : d'.up p = d.up p := by rw [h.frame]; rfl
theorem inRound_fabric {d d' : Dev} (h : d.InRound d') (p : Nat) : d'.fabric p = d.fabric p := by rw [h.frame]; rfl
theorem inRound_darkPort {d d' : Dev} (h : d.InRound d') (p : Nat) : d'.darkPort p = d.darkPort p := by rw [h.frame]; rfl
theorem inRound_faults {d d' : Dev} (h : d.InRound d') : d'.faults = d.faults := by rw [h.frame]

theorem gens_begun_devAt (s : State) (now j i : Nat) : ((s.devAt now).begun j i).gens = s.dev.gens := by
  have same : (s.dev.to now).gens = s.dev.gens := by rw [to_eq]
  exact same

theorem up_devAt (s : State) (now p : Nat) : (s.devAt now).up p = s.dev.up p := by rw [Dev.up, Dev.up, Dev.port, Dev.port, to_ports]
theorem darkPort_devAt (s : State) (now p : Nat) : (s.devAt now).darkPort p = s.dev.darkPort p := by
  rw [Dev.darkPort, Dev.darkPort, to_power]

/-- Settles O28, by the first item that a TX slot sends and what the others leave of its marks. -/
theorem txAndRngSlotsAct : Obligations.TxAndRngSlotsAct := by
  refine ⟨⟨fun j i now p e u r d s hslot hp hclass hup hfabric hlit hitems hstale hroom hmay => ⟨_, rfl, ?_⟩,
    fun j i now p e d s hslot hp h => ⟨_, rfl, ?_⟩, fun j i now s hslot => ⟨_, rfl, ?_⟩, fun j i now e s hdue => slotNow_due hdue⟩,
    fun j i use node mb t el now e s hdue => ⟨_, rfl, ?_⟩⟩
  · subst hp
    obtain ⟨round, others⟩ := slotNow_inRound hslot
    have lit : d.darkPort (resUnit (slResource e)) = false := (inRound_darkPort round _).trans ((darkPort_devAt s now _).trans hlit)
    have keeps := txKeeps_trans (txKeeps_txSend d j (resUnit (slResource e)) u) (txMany_sends r hroom hmay)
    have gone := txGone_of_txKeeps (txMany_sends r hroom hmay) (txSend_gone d j (resUnit (slResource e)) u)
    have sent := (txMany_sends r hroom hmay).sent _ (txSend_sent lit j u)
    rw [event_dev, txSlot_moves hslot hclass ((inRound_up round _).trans ((up_devAt s now _).trans hup)) ((inRound_fabric round _).trans hfabric)
      hitems hstale]
    simp only [noteReady_sent, noteReady_ctx, noteReady_job, noteReady_faults]
    refine ⟨sent, gone.node, gone.pass, gone.out, fun c => ?_, fun k hk => ?_, ?_⟩
    · rw [(keeps.state c).1, (keeps.state c).2, inRound_ctx round, ctx_devAt]
      exact ⟨rfl, rfl⟩
    · rw [keeps.others k hk, others k hk, job_devAt]
    · rw [keeps.faults, inRound_faults round, to_faults]
  · subst hp
    obtain ⟨round, -⟩ := slotNow_inRound hslot
    rw [event_dev, txSlot_waits hslot, rest_noteReady]
    rwa [Dev.txWaits, inRound_up round, inRound_fabric round, up_devAt]
  · exact rest_event_idle (txSlot_undue hslot)
  · rw [event_dev, rest_noteReady, rngSlot_due use node mb t el hdue, job_devAt]
    split
    · rw [gens_begun_devAt]
      rfl
    · rfl

end Sys2Proof.Machine
end

section
/-! PROOFS. Units return or retire (R114, R370): the statement fails on a table that lists one context twice. -/

namespace Sys2Proof.Machine

/-- A device on which spare 48 is free, and whose table of contexts lists context 0 twice: on Basin 1, and behind that on Basin 47. No command
makes such a table, but the statement is about every state. -/
def listedTwice : State :=
  { pending := [], flash := [], depths := [],
    dev := { ctxs := [(0, { state := .armed, basin := 1 }), (0, { state := .armed, basin := 47 })], units := [(48, { state := .standby })] } }

theorem listedTwice_mild : (listedTwice.devAt 0).mild 0x0402 := by
  intro r hr
  have unacked : (tget {} (listedTwice.devAt 0).faults.classes r.cls).unacked = false := rfl
  have configured : (listedTwice.devAt 0).configured 0x0402 ≤ 3 := by decide +kernel
  unfold Dev.effective
  rw [unacked, hr]
  split
  · omega
  · exact configured

/-- The entry that is shadowed names Basin 47, so context 0, which is on Basin 1, moves to the spare. -/
theorem listedTwice_moves : ((Dev.bist false 47 false (listedTwice.devAt 0)).noteReady.ctx 0).basin = 48 := by decide +kernel

/-- Refutes O47 by its clause on a failed Basin's contexts: the spare's contexts are found entry by entry, and so context 0 of a table that
lists it twice leaves Basin 1 when Basin 47 fails. -/
theorem not_unitsResetReturnOrRetire : ¬ Obligations.UnitsResetReturnOrRetire := by
  rintro ⟨⟨-, -, spare, -⟩, -⟩
  obtain ⟨t, hexec, -, -, -, -, basins⟩ :=
    spare 47 48 47 0 listedTwice (by decide) rfl (by decide) rfl (by decide) (by decide +kernel) listedTwice_mild
  obtain rfl : listedTwice.event 0 (Dev.bist false 47 false) = t := Host.Outcome.next.inj hexec
  have stays := basins 0 (by decide)
  rw [event_dev, listedTwice_moves] at stays
  exact absurd stays (by decide)

end Sys2Proof.Machine
end

section
/-! PROOFS. Queue pairs and checkpoints (R159 to R162, R362): the statement fails on a device that a fatal fault holds. -/

namespace Sys2Proof.Machine

/-- A queue pair on port 0, whose window begins at address 0. -/
def heldQp : Qp := { Qp.none with port := 0 }

/-- The open pull checkpoint of job 1 on queue pair 0, over a stream of one byte. -/
def heldCkpt : Ckpt := { job := 1, pull := true, qp := 0, step := 0, length := 1, stream := [0x5A#8], manifest := [] }

/-- A device with that checkpoint open and its port UP, held after a device-fatal fault: it serves only GMP (R362). -/
def heldReading : State :=
  { pending := [], flash := [], depths := [],
    dev := { keeper := { qps := [(0, heldQp)], ckpts := [(1, heldCkpt)] }, ports := [(0, { state := .up })], faults := { held := true } } }

/-- A device that is held leaves a READ unanswered, whatever its window holds. -/
theorem readRx_held {d : Dev} {n : Nat} {q : Qp} (hq : d.qp n = some q) (hheld : d.faults.held = true) (psn va length : Nat) :
    d.readRx n psn va length = d := by
  unfold Dev.readRx
  rw [hq]
  exact if_pos (by rw [hheld, Bool.or_true])

/-- Refutes O18 by its clause on a READ within an open checkpoint's window: it leaves out the hold of R362, under which no packet comes to
wait at the queue pair's port. -/
theorem not_checkpointsOpenServeAndClose : ¬ Obligations.CheckpointsOpenServeAndClose := by
  rintro ⟨-, served, -⟩
  obtain ⟨t, ws, hexec, waiting, packets, -⟩ :=
    served 0 0 0 1 0 heldReading heldQp 1 heldCkpt [0x5A#8] rfl (by decide) rfl rfl (by decide)
  obtain rfl : heldReading.event 0 (Dev.readRx 0 0 0 1) = t := Host.Outcome.next.inj hexec
  rw [event_dev, readRx_held rfl rfl] at waiting
  have unanswered : ws = [] := waiting.symm
  rw [unanswered] at packets
  exact absurd packets (by decide)

end Sys2Proof.Machine
end

section
/-! PROOFS. Outflow and Verdict results are taken (R147, R150 to R154, R280), and a missing Verdict is reported once (R149). -/

namespace Sys2Proof.Machine

/-! ### A counter of a job, and the staging pool (R437, R439) -/

section
variable {d : Dev} {k : Nat}

theorem ctr_countPool_below (q i n : Nat) (hk : k < ctrIdx 5 0 0) : (d.countPool q i n).ctr k = d.ctr k := by
  refine ctr_count_other d (fun h => ?_) n
  simp only [ctrIdx] at h hk
  omega

theorem ctr_oneBlock {d' : Dev} {a : Asker} {holder more q : Nat} {b : Nat × Nat} (h : d.oneBlock a holder more q = some (b, d'))
    (hk : k < ctrIdx 5 0 0) : d'.ctr k = d.ctr k := by
  rw [oneBlock_eq] at h
  obtain ⟨r, -, hr⟩ := Option.map_eq_some_iff.mp h
  rw [← (Prod.mk.inj hr).2, ctr_countPool_below _ _ _ hk, ctr_countPool_below _ _ _ hk]
  rfl

/-- A request of the staging pool counts in the pools' counters only. -/
theorem ctr_poolTake (a : Asker) (holder item b : Nat) (hk : k < ctrIdx 5 0 0) : (d.poolTake a holder item b).2.ctr k = d.ctr k := by
  unfold Dev.poolTake
  dsimp only
  split
  · split
    · next h => exact (ctr_oneBlock h hk :)
    · exact ctr_countPool_below _ _ _ hk
  · split
    · next h =>
      split
      · next h' => exact ((ctr_oneBlock h' hk).trans (ctr_oneBlock h hk) :)
      · exact ctr_countPool_below _ _ _ hk
    · exact ctr_countPool_below _ _ _ hk
  · rfl

end

/-! ### A fragment is held (R154, R313) -/

/-- The device once a holder that needs blocks has asked for them. -/
def Dev.blocked (d : Dev) (j holder item n : Nat) : Dev :=
  if holder < tarnHolder 0 then d else (d.poolTake (.reservation j) holder item n).2

theorem unpooled_blocked (d : Dev) (j holder item n : Nat) : (d.blocked j holder item n).unpooled = d.unpooled := by
  unfold Dev.blocked
  split
  · rfl
  · exact unpooled_poolTake _ _ _ _ _

theorem ctr_blocked (d : Dev) (j holder item n : Nat) {k : Nat} (hk : k < ctrIdx 5 0 0) : (d.blocked j holder item n).ctr k = d.ctr k := by
  unfold Dev.blocked
  split
  · rfl
  · exact ctr_poolTake _ _ _ _ hk

/-- What a held fragment brings, and the ports that it waits for. -/
def OutHeld.brings (f : OutHeld) : Bytes × Bytes × Bytes × List Nat := (f.header, f.payload, f.route, f.ports)

/-- A job with one more fragment held. -/
def Job.holding (x : Job) (f : OutHeld) : Job := { x with outItem := x.outItem + 1, outHeld := x.outHeld ++ [f] }

section
variable (d : Dev) (j holder channel : Nat) {ports : List Nat} (header payload route : Bytes)

theorem holdOut_nowhere : d.holdOut j holder channel [] header payload route = d := rfl

theorem holdOut_holds (hports : ports ≠ []) : ∃ item n f, f.brings = (header, payload, route, ports) ∧
    d.holdOut j holder channel ports header payload route = ((d.blocked j holder item n).countDev 0x100 n).modJob j (·.holding f) :=
  ⟨j * 2 ^ 64 + (d.job j).outItem, header.length + payload.length, _, rfl, if_neg hports⟩

/-- What a fragment costs the pool and the device's counter of bytes touches no counter of a job. -/
theorem ctr_holdOut {k : Nat} (hlow : ctrIdx 0 0 0x100 < k) (hhigh : k < ctrIdx 5 0 0) :
    (d.holdOut j holder channel ports header payload route).ctr k = d.ctr k := by
  by_cases hports : ports = []
  · rw [hports, holdOut_nowhere]
  · obtain ⟨item, n, f, -, hold⟩ := holdOut_holds d j holder channel header payload route hports
    rw [hold]
    exact (ctr_count_other _ hlow.ne' n).trans (ctr_blocked d j holder item n hhigh)

end

/-- A job apart from the fragments that it holds. -/
def Job.unheld (x : Job) : Job := { x with outHeld := [], outItem := 0 }

/-- A device once job `j` holds new fragments: nothing else of the job has changed, and beside it books and reports only. -/
structure Dev.FragHeld (j : Nat) (new : List (Bytes × Bytes × Bytes × List Nat)) (d e : Dev) : Prop where
  worked : d.Worked j id e
  job : (e.job j).unheld = (d.job j).unheld
  held : (e.job j).outHeld.map OutHeld.brings = (d.job j).outHeld.map OutHeld.brings ++ new

theorem fragHeld_holdOut (d : Dev) (j holder channel : Nat) (ports : List Nat) (header payload route : Bytes) :
    d.FragHeld j (if ports = [] then [] else [(header, payload, route, ports)]) (d.holdOut j holder channel ports header payload route) := by
  have held : ((d.holdOut j holder channel ports header payload route).job j).unheld = (d.job j).unheld ∧
      ((d.holdOut j holder channel ports header payload route).job j).outHeld.map OutHeld.brings =
        (d.job j).outHeld.map OutHeld.brings ++ if ports = [] then [] else [(header, payload, route, ports)] := by
    by_cases hports : ports = []
    · rw [if_pos hports, hports, holdOut_nowhere]
      exact ⟨rfl, (List.append_nil _).symm⟩
    · obtain ⟨item, n, f, brings, hold⟩ := holdOut_holds d j holder channel header payload route hports
      have same : ((d.blocked j holder item n).countDev 0x100 n).job j = d.job j :=
        job_congr (unpooled_fields ((unpooled_countDev _ _ _).trans (unpooled_blocked d j holder item n))).2.1 j
      rw [if_neg hports, hold, job_modJob_same, same, ← brings]
      exact ⟨rfl, List.map_append⟩
  exact ⟨worked_holdOut d j holder channel ports header payload route, held.1, held.2⟩

/-- Digesting a fragment as received leaves every job as it is (R332). -/
theorem fragHeld_digested {j : Nat} {new : List (Bytes × Bytes × Bytes × List Nat)} {d d' e : Dev} (h : d'.unaudited = d.unaudited)
    (he : d'.FragHeld j new e) : d.FragHeld j new e := by
  have job := job_congr (unaudited_fields h).2.1 j
  exact ⟨worked_after (worked_of_unaudited h) he.worked, by rw [he.job, job], by rw [he.held, job]⟩

/-- The ports that a received fragment is passed on to (R280). -/
def Job.passedTo (x : Job) (port fan : Nat) (h : Bytes) : List Nat := (x.fanPorts (ohChannel h) fan).filter (· != port)

/-- What the job holds of a received fragment. -/
def Job.newHeld (x : Job) (port fan : Nat) (r h p : Bytes) : List (Bytes × Bytes × Bytes × List Nat) :=
  if x.passedTo port fan h = [] then [] else [(h, p, r, x.passedTo port fan h)]

theorem fragHeld_forwardOut (d : Dev) (port fan : Nat) (r h p : Bytes) :
    d.FragHeld (ohJob h) ((d.job (ohJob h)).newHeld port fan r h p) (d.forwardOut port fan r h p) := fragHeld_holdOut _ _ _ _ _ _ _ _

theorem fragHeld_digestOut (d : Dev) (port fan : Nat) (r h p : Bytes) :
    d.FragHeld (ohJob h) ((d.job (ohJob h)).newHeld port fan r h p) ((d.digestOut port false h p).forwardOut port fan r h p) := by
  have same := unaudited_digestOut d port false h p
  have held := fragHeld_forwardOut (d.digestOut port false h p) port fan r h p
  rw [job_congr (unaudited_fields same).2.1] at held
  exact fragHeld_digested same held

/-! ### The Verdict completes (R147, R353) -/

/-- A job apart from what the Verdict's decisions and comparisons change. -/
def Job.judged (x : Job) : Job :=
  { x with rems := [], recipes := [], compared := false, diverged := false, divergences := 0, norefs := 0, least := none }

@[simp] theorem judged_compare (x : Job) (s : Site) (same : Bool) (outs : Nat × Nat) (p r : Bytes) :
    (x.compare s same outs p r).judged = x.judged := by
  unfold Job.compare
  split <;> rfl

section
variable (d : Dev) (j : Nat)

theorem judged_modJob {f : Job → Job} (h : (f (d.job j)).judged = (d.job j).judged) : ((d.modJob j f).job j).judged = (d.job j).judged := by
  rw [job_modJob_same, h]

theorem judged_compareWeight (c : Nat) (skip : Bool) : ((d.compareWeight j c skip).job j).judged = (d.job j).judged := by
  unfold Dev.compareWeight
  dsimp only
  split
  · rfl
  split
  · rfl
  · exact judged_modJob d j (judged_compare _ _ _ _ _ _)

theorem judged_compareVerdict (r : VerdictRes) : ((d.compareVerdict j r).job j).judged = (d.job j).judged := by
  unfold Dev.compareVerdict
  dsimp only
  split
  · rfl
  split
  · exact judged_modJob d j rfl
  · exact judged_modJob d j (judged_compare _ _ _ _ _ _)

theorem judged_compareWeights (q : Dev → Nat → Prop) [∀ e c, Decidable (q e c)] (l : List Nat) :
    ((l.foldl (fun e c => if q e c then e.compareWeight j c true else e) d).job j).judged = (d.job j).judged := by
  induction l generalizing d with
  | nil => rfl
  | cons c l ih =>
    rw [List.foldl_cons, ih]
    split
    · exact judged_compareWeight d j c true
    · rfl

/-- The results of the vector join the job, and phase VERDICT is reached. -/
theorem judged_completeVerdict : ((d.completeVerdict j).job j).judged =
    { (d.job j).judged with vres := some ((d.job j).results (d.job j).vector), rcPhase := max (d.job j).rcPhase 3 } := by
  unfold Dev.completeVerdict
  dsimp only
  rw [judged_compareWeights, judged_compareVerdict, Dev.decideRems, job_modJob_same, job_modJob_same]
  rfl

/-- What a device that holds the whole vector makes of its job. -/
theorem fields_completeVerdict : ((d.completeVerdict j).job j).vecWords = (d.job j).vecWords ∧
    ((d.completeVerdict j).job j).vecWhole = (d.job j).vecWhole ∧ ((d.completeVerdict j).job j).outHeld = (d.job j).outHeld ∧
    ((d.completeVerdict j).job j).vres.isSome = true ∧ ((d.completeVerdict j).job j).rcPhase = max (d.job j).rcPhase 3 := by
  have done := judged_completeVerdict d j
  generalize (d.job j).results (d.job j).vector = r at done
  generalize (d.completeVerdict j).job j = y at done ⊢
  exact ⟨(congrArg Job.vecWords done :), (congrArg Job.vecWhole done :), (congrArg Job.outHeld done :),
    (congrArg (fun x : Job => x.vres.isSome) done :), (congrArg Job.rcPhase done :)⟩

end

/-! ### A result fragment is taken (R150) -/

/-- A job once the words of a result fragment have joined its vector. -/
def Job.given (x : Job) (h p : Bytes) : Job := x.takeWords (ohOff h) (decodeWire x.ovf 0 (ohCount h) p)

section
variable (d : Dev) (h p : Bytes)

theorem takeResult_eq : d.takeResult h p =
    if (((d.job (ohJob h)).given h p).vecWhole && (d.job (ohJob h)).vres.isNone) = true
      then (d.modJob (ohJob h) (·.given h p)).completeVerdict (ohJob h) else d.modJob (ohJob h) (·.given h p) := by
  unfold Dev.takeResult
  simp only [job_modJob_same]
  rfl

theorem worked_given : d.Worked (ohJob h) id (d.modJob (ohJob h) (·.given h p)) := worked_modJob d _ rfl

theorem worked_takeResult : ∃ g, d.Worked (ohJob h) g (d.takeResult h p) := by
  rw [takeResult_eq]
  split
  · exact ⟨_, worked_after (worked_given d h p) (worked_completeVerdict _ _)⟩
  · exact ⟨_, worked_given d h p⟩

theorem outHeld_takeResult : ((d.takeResult h p).job (ohJob h)).outHeld = (d.job (ohJob h)).outHeld := by
  rw [takeResult_eq]
  split
  · obtain ⟨-, -, held, -, -⟩ := fields_completeVerdict (d.modJob (ohJob h) (·.given h p)) (ohJob h)
    rw [held, job_modJob_same]
    rfl
  · rw [job_modJob_same]
    rfl

/-- What a taken fragment makes of a job that had no results: its words join the vector, and the last missing one completes the Verdict. -/
structure Job.Taken (h p : Bytes) (x y : Job) : Prop where
  words : y.vecWords = (x.given h p).vecWords
  whole : y.vecWhole = true → y.vres.isSome = true ∧ 3 ≤ y.rcPhase
  short : y.vecWhole = false → y.vres = none ∧ y.rcPhase = x.rcPhase

variable {d h p}

theorem takeResult_taken (hnone : (d.job (ohJob h)).vres = none) :
    Job.Taken h p (d.job (ohJob h)) ((d.takeResult h p).job (ohJob h)) := by
  rw [takeResult_eq, hnone, Option.isNone_none, Bool.and_true]
  cases hwhole : ((d.job (ohJob h)).given h p).vecWhole with
  | false =>
    rw [if_neg Bool.false_ne_true, job_modJob_same]
    exact ⟨rfl, fun whole => absurd (hwhole.symm.trans whole) Bool.false_ne_true, fun _ => ⟨hnone, rfl⟩⟩
  | true =>
    obtain ⟨words, whole, -, vres, phase⟩ := fields_completeVerdict (d.modJob (ohJob h) (·.given h p)) (ohJob h)
    rw [job_modJob_same] at words whole phase
    rw [if_pos rfl]
    refine ⟨words, fun _ => ⟨vres, (le_max_right _ 3).trans_eq phase.symm⟩, fun short => ?_⟩
    exact absurd (short.symm.trans (whole.trans hwhole)) Bool.false_ne_true

/-- A job that differs in the fragments that it holds takes a result fragment alike. -/
theorem taken_of_unheld {x x' y : Job} (hx : x'.unheld = x.unheld) (hy : Job.Taken h p x' y) : Job.Taken h p x y :=
  ⟨hy.words.trans (congrArg (fun z : Job => (z.given h p).vecWords) hx :), hy.whole, fun short =>
    ⟨(hy.short short).1, (hy.short short).2.trans (congrArg Job.rcPhase hx :)⟩⟩

end

/-! ### The two commands (R150, R154) -/

section
variable {d : Dev} {port : Nat} {r h p : Bytes}

theorem outflowRx_noJob (hjob : (d.job (ohJob h)).state = .empty) : d.outflowRx port r h p = d.countJob (ohJob h) 0x001 1 := by
  simp [Dev.outflowRx, hjob]

theorem resultRx_noJob (hjob : (d.job (ohJob h)).state = .empty) : d.resultRx port r h p = d.countJob (ohJob h) 0x001 1 := by
  simp [Dev.resultRx, hjob]

section
variable (hjob : (d.job (ohJob h)).state ≠ .empty)
include hjob

theorem outflowRx_otherKind (hkind : ohKind h = 0x12) : d.outflowRx port r h p = d := by
  simp [Dev.outflowRx, hjob, hkind]

theorem resultRx_otherKind (hkind : ohKind h ≠ 0x12) : d.resultRx port r h p = d := by
  simp [Dev.resultRx, hjob, hkind]

theorem outflowRx_malformed (hkind : ohKind h ≠ 0x12) (hform : (outFormOk 0x11 h p && (d.job (ohJob h)).hasFan (ohChannel h) 0) = false) :
    d.outflowRx port r h p = d.countJob (ohJob h) 0x00A 1 := by
  simp [Dev.outflowRx, hjob, hkind, hform]

theorem resultRx_malformed (hkind : ohKind h = 0x12)
    (hform : (outFormOk 0x12 h p && (d.job (ohJob h)).hasFan (ohChannel h) 1 && (d.job (ohJob h)).resultFits h) = false) :
    d.resultRx port r h p = d.countJob (ohJob h) 0x00A 1 := by
  simp [Dev.resultRx, hjob, hkind, hform]

end

theorem ohKind_of_outFormOk {kind : Nat} (hform : outFormOk kind h p = true) : ohKind h = kind := by
  simp only [outFormOk, Bool.and_eq_true, beq_iff_eq] at hform
  tauto

/-- What an Outflow fragment that passes the checks finds. -/
structure Dev.WeightPasses (d : Dev) (h p : Bytes) : Prop where
  job : (d.job (ohJob h)).state ≠ .empty
  form : outFormOk 0x11 h p = true
  fan : (d.job (ohJob h)).hasFan (ohChannel h) 0 = true

/-- What a result fragment that passes the checks finds. -/
structure Dev.ResultPasses (d : Dev) (h p : Bytes) : Prop where
  job : (d.job (ohJob h)).state ≠ .empty
  form : outFormOk 0x12 h p = true
  fan : (d.job (ohJob h)).hasFan (ohChannel h) 1 = true
  fits : (d.job (ohJob h)).resultFits h = true

theorem outflowRx_passes (hpass : d.WeightPasses h p) :
    d.outflowRx port r h p = (d.digestOut port false h p).forwardOut port 0 r h p := by
  obtain ⟨hjob, hform, hfan⟩ := hpass
  simp [Dev.outflowRx, hjob, ohKind_of_outFormOk hform, hform, hfan]

section
variable (hpass : d.ResultPasses h p)
include hpass

theorem resultRx_offList (hlist : (d.job (ohJob h)).onList = false) :
    d.resultRx port r h p = (d.digestOut port false h p).forwardOut port 1 r h p := by
  obtain ⟨hjob, hform, hfan, hfits⟩ := hpass
  simp [Dev.resultRx, hjob, ohKind_of_outFormOk hform, hform, hfan, hfits, hlist]

theorem resultRx_onList (hlist : (d.job (ohJob h)).onList = true) : d.resultRx port r h p =
    match (d.job (ohJob h)).resultFate h with
    | .take => ((d.digestOut port false h p).forwardOut port 1 r h p).takeResult h p
    | .stale => (d.forwardOut port 1 r h p).countJob (ohJob h) 0x004 1
    | .dup => (d.forwardOut port 1 r h p).countJob (ohJob h) 0x006 1
    | .drop => d.forwardOut port 1 r h p := by
  obtain ⟨hjob, hform, hfan, hfits⟩ := hpass
  cases hfate : (d.job (ohJob h)).resultFate h <;>
    simp [Dev.resultRx, hjob, ohKind_of_outFormOk hform, hform, hfan, hfits, hlist, hfate]

/-- A result fragment that passes is held, and what the device itself then does with it touches no fragment that is held. -/
theorem resultRx_holds : ∃ e g, d.FragHeld (ohJob h) ((d.job (ohJob h)).newHeld port 1 r h p) e ∧
    e.Worked (ohJob h) g (d.resultRx port r h p) ∧ ((d.resultRx port r h p).job (ohJob h)).outHeld = (e.job (ohJob h)).outHeld := by
  have digested := fragHeld_digestOut d port 1 r h p
  have undigested := fragHeld_forwardOut d port 1 r h p
  cases hlist : (d.job (ohJob h)).onList with
  | false =>
    rw [resultRx_offList hpass hlist]
    exact ⟨_, id, digested, worked_refl _ _, rfl⟩
  | true =>
    rw [resultRx_onList hpass hlist]
    cases (d.job (ohJob h)).resultFate h with
    | take =>
      obtain ⟨g, worked⟩ := worked_takeResult ((d.digestOut port false h p).forwardOut port 1 r h p) h p
      exact ⟨_, g, digested, worked, outHeld_takeResult _ h p⟩
    | stale => exact ⟨_, id, undigested, worked_of_quiet (quiet_countJob _ _ _ _), by rw [job_countJob]⟩
    | dup => exact ⟨_, id, undigested, worked_of_quiet (quiet_countJob _ _ _ _), by rw [job_countJob]⟩
    | drop => exact ⟨_, id, undigested, worked_refl _ _, rfl⟩

/-- A result fragment that the device takes. -/
theorem resultRx_takes (hlist : (d.job (ohJob h)).onList = true) (hfate : (d.job (ohJob h)).resultFate h = .take)
    (hvres : (d.job (ohJob h)).vres = none) : Job.Taken h p (d.job (ohJob h)) ((d.resultRx port r h p).job (ohJob h)) := by
  have held := (fragHeld_digestOut d port 1 r h p).job
  rw [resultRx_onList hpass hlist, hfate]
  exact taken_of_unheld held (takeResult_taken ((congrArg Job.vres held :).trans hvres))

/-- A result fragment that the device does not take leaves the job as it was but for what it holds, and is counted where R150 says so. -/
theorem resultRx_leaves {n : Nat} (hfate : (d.job (ohJob h)).onList = false ∧ n = 0 ∨ (d.job (ohJob h)).onList = true ∧
      ((d.job (ohJob h)).resultFate h = .stale ∧ n = 4 ∨ (d.job (ohJob h)).resultFate h = .dup ∧ n = 6 ∨
        (d.job (ohJob h)).resultFate h = .drop ∧ n = 0)) :
    ((d.resultRx port r h p).job (ohJob h)).unheld = (d.job (ohJob h)).unheld ∧
      (n ≠ 0 → (d.resultRx port r h p).ctr (ctrIdx 1 (ohJob h % 256) n) = (d.countJob (ohJob h) n 1).ctr (ctrIdx 1 (ohJob h % 256) n)) := by
  have undigested := (fragHeld_forwardOut d port 1 r h p).job
  have counted : n < 0x100 → ((d.forwardOut port 1 r h p).countJob (ohJob h) n 1).ctr (ctrIdx 1 (ohJob h % 256) n) =
      (d.countJob (ohJob h) n 1).ctr (ctrIdx 1 (ohJob h % 256) n) := fun hn => by
    have hlow : ctrIdx 0 0 0x100 < ctrIdx 1 (ohJob h % 256) n := by simp only [ctrIdx]; omega
    have hhigh : ctrIdx 1 (ohJob h % 256) n < ctrIdx 5 0 0 := by simp only [ctrIdx]; omega
    rw [ctr_countJob _ _ _ one_ne_zero (.inl rfl), ctr_countJob _ _ _ one_ne_zero (.inl rfl), Dev.forwardOut,
      ctr_holdOut _ _ _ _ _ _ _ hlow hhigh]
  obtain ⟨hlist, rfl⟩ | ⟨hlist, hfate⟩ := hfate
  · rw [resultRx_offList hpass hlist]
    exact ⟨(fragHeld_digestOut d port 1 r h p).job, fun hn => absurd rfl hn⟩
  rw [resultRx_onList hpass hlist]
  obtain ⟨hfate, rfl⟩ | ⟨hfate, rfl⟩ | ⟨hfate, rfl⟩ := hfate <;> rw [hfate]
  · exact ⟨by rw [job_countJob, undigested], fun _ => counted (by decide)⟩
  · exact ⟨by rw [job_countJob, undigested], fun _ => counted (by decide)⟩
  · exact ⟨undigested, fun hn => absurd rfl hn⟩

end
end

/-! ### A missing Verdict (R149) -/

/-- What makes the Verdict of job `j` late: its device is one of the result list, in phase CONTRIBUTED without the whole vector, and the hang
time after the opening of the Verdict's use has passed. -/
structure Dev.LacksVerdict (d : Dev) (j : Nat) (b : Bytes) : Prop where
  bucket : (d.job j).bucket verdictBucket = some b
  list : (d.job j).onList = true
  results : (d.job j).vres = none
  goes : (d.job j).state ≠ .halted
  phase : (d.job j).rcPhase = 2
  fresh : (d.job j).verdictRaised = false
  late : (d.ctx (bkCtx b)).openTick + (d.job j).hangTicks < d.time

theorem verdictLate_raises {d : Dev} {j : Nat} {b : Bytes} (h : d.LacksVerdict j b) : d.verdictLate j =
    (d.modJob j (fun y => { y with verdictRaised := true })).recordFault { source := 0x0E03, job := some j, step := (d.job j).rcStep } := by
  obtain ⟨hbucket, hlist, hresults, hgoes, hphase, hfresh, hlate⟩ := h
  simp [Dev.verdictLate, hbucket, hlist, hresults, hgoes, hphase, hfresh, hlate]

theorem verdictLate_rests {d : Dev} {j : Nat} (h : ∀ b, ¬ d.LacksVerdict j b) : d.verdictLate j = d := by
  unfold Dev.verdictLate
  dsimp only
  split
  · rfl
  next b hbucket =>
  refine if_neg fun all => h b ?_
  simp only [Bool.and_eq_true, Option.isNone_iff_eq_none, bne_iff_ne, beq_iff_eq, Bool.not_eq_true', decide_eq_true_eq] at all
  obtain ⟨⟨⟨⟨⟨hlist, hresults⟩, hgoes⟩, hphase⟩, hfresh⟩, hlate⟩ := all
  exact ⟨hbucket, hlist, hresults, hgoes, hphase, hfresh, hlate⟩

/-! ### The statement -/

/-- A command that counts a drop does nothing else. -/
theorem dropped_of_event {s : State} {now j n : Nat} {f : Dev → Dev} (h : f (s.devAt now) = (s.devAt now).countJob j n 1) :
    (s.event now f).dev.rest = (s.devAt now).rest ∧ (s.event now f).dev.ctrs = ((s.devAt now).countJob j n 1).ctrs := by
  rw [event_dev, rest_noteReady, noteReady_ctrs, h]
  exact ⟨rest_countJob _ _ _ _, rfl⟩

/-- What a command leaves alone that holds a received fragment, and what is held then. -/
theorem held_of_event {s : State} {now port fan : Nat} {r h p : Bytes} {f : Dev → Dev} {e : Dev} {g : Job → Job}
    (hheld : (s.devAt now).FragHeld (ohJob h) (((s.devAt now).job (ohJob h)).newHeld port fan r h p) e)
    (hafter : e.Worked (ohJob h) g (f (s.devAt now))) (hkept : ((f (s.devAt now)).job (ohJob h)).outHeld = (e.job (ohJob h)).outHeld) :
    (s.event now f).dev.ctxs = s.dev.ctxs ∧ (s.event now f).dev.ports = s.dev.ports ∧ (s.event now f).dev.faults = s.dev.faults ∧
      (s.dev.power.cold = false → (s.event now f).depths = s.depths) ∧ (∀ i, i ≠ ohJob h → (s.event now f).dev.job i = s.dev.job i) ∧
      ∀ ps, ps = (s.dev.job (ohJob h)).passedTo port fan h → ((s.event now f).dev.job (ohJob h)).outHeld.map OutHeld.brings =
        (s.dev.job (ohJob h)).outHeld.map OutHeld.brings ++ if ps = [] then [] else [(h, p, r, ps)] := by
  have worked := worked_after hheld.worked hafter
  have faults : (f (s.devAt now)).faults = (s.devAt now).faults := (congrArg Dev.faults worked.frame :)
  rw [event_dev, event_depths, noteReady_ctxs, noteReady_ports, noteReady_faults, worked_ctxs worked, worked_ports worked, faults,
    worked_power worked]
  refine ⟨to_ctxs _ _, to_ports _ _, to_faults _ _, fun warm => ?_, fun i hi => ?_, fun ps hps => ?_⟩
  · rw [to_power, warm, if_neg Bool.false_ne_true]
  · rw [noteReady_job, worked.others i hi, job_devAt]
  · rw [noteReady_job, hkept, hheld.held, job_devAt, hps, Job.newHeld]

/-- Settles O24: a fragment by the check that it meets or by the device's fate of it, a missing Verdict by what makes it late. -/
theorem resultsAndWeightsAreTakenOrMissed : Obligations.ResultsAndWeightsAreTakenOrMissed := by
  refine ⟨⟨fun port now n r h p c s hdrop hcmd => ?_, fun port now fan r h p c s hjob hcmd hfan => ?_,
    fun port now r h p s hjob hform hfits hfan hlist hfate hvres => ⟨_, rfl, ?_⟩,
    fun port now n r h p s hjob hform hfits hfan hfate => ⟨_, rfl, ?_⟩, fun port now r h p c s hjob hcmd => ?_⟩,
    fun j now b s hbucket hlist hvres hgoes hphase hfresh hlate => ⟨_, rfl, ?_⟩, fun j now s hnot => ⟨_, rfl, ?_⟩⟩
  · rw [← job_devAt s now] at hdrop
    obtain ⟨hjob, rfl⟩ | ⟨hjob, rfl, ⟨hkind, rfl, hform⟩ | ⟨hkind, rfl, hform⟩⟩ := hdrop
    · obtain rfl | rfl := hcmd
      · exact ⟨_, rfl, dropped_of_event (outflowRx_noJob hjob)⟩
      · exact ⟨_, rfl, dropped_of_event (resultRx_noJob hjob)⟩
    · exact ⟨_, rfl, dropped_of_event (outflowRx_malformed hjob hkind hform)⟩
    · exact ⟨_, rfl, dropped_of_event (resultRx_malformed hjob hkind hform)⟩
  · rw [← job_devAt s now] at hjob hfan hcmd
    obtain ⟨rfl, rfl, hform⟩ | ⟨rfl, rfl, hform, hfits⟩ := hcmd
    · have passes := outflowRx_passes (port := port) (r := r) ⟨hjob, hform, hfan⟩
      exact ⟨_, rfl, held_of_event (passes ▸ fragHeld_digestOut (s.devAt now) port 0 r h p) (worked_refl _ _) rfl⟩
    · obtain ⟨e, g, hheld, hafter, hkept⟩ := resultRx_holds (port := port) (r := r) ⟨hjob, hform, hfan, hfits⟩
      exact ⟨_, rfl, held_of_event hheld hafter hkept⟩
  · rw [← job_devAt s now] at hjob hfits hfan hlist hfate hvres ⊢
    obtain ⟨words, whole, short⟩ := resultRx_takes (port := port) (r := r) ⟨hjob, hform, hfan, hfits⟩ hlist hfate hvres
    rw [event_dev, noteReady_job]
    exact ⟨words, whole, short⟩
  · rw [← job_devAt s now] at hjob hfits hfan hfate ⊢
    obtain ⟨kept, counted⟩ := resultRx_leaves (port := port) (r := r) ⟨hjob, hform, hfan, hfits⟩ hfate
    rw [event_dev, noteReady_job, noteReady_ctr]
    exact ⟨(congrArg Job.vecWords kept :), (congrArg Job.vres kept :), (congrArg Job.rcPhase kept :), counted⟩
  · rw [← job_devAt s now] at hjob
    obtain ⟨hkind, rfl⟩ | ⟨hkind, rfl⟩ := hcmd
    · exact ⟨_, rfl, rest_event_idle (outflowRx_otherKind hjob hkind)⟩
    · exact ⟨_, rfl, rest_event_idle (resultRx_otherKind hjob hkind)⟩
  · rw [← job_devAt s now] at hbucket hlist hvres hgoes hphase hfresh hlate
    rw [← ctx_devAt s now] at hlate
    rw [event_dev, rest_noteReady, noteReady_faults, verdictLate_raises ⟨hbucket, hlist, hvres, hgoes, hphase, hfresh, hlate⟩]
    exact ⟨rest_recordFault _ _, recordFault_source _ _ (show 0x0E03 < 65536 by decide)⟩
  · have rests : (s.devAt now).verdictLate j = s.devAt now := by
      refine verdictLate_rests fun b lacks => ?_
      obtain ⟨bucket, list, results, goes, phase, fresh, late⟩ := lacks
      rw [job_devAt] at bucket list results goes phase fresh late
      rw [ctx_devAt] at late
      obtain raised | off | whole | halted | other | none | ⟨b', hb', early⟩ := hnot
      · exact absurd raised (by rw [fresh]; decide)
      · exact absurd off (by rw [list]; decide)
      · exact absurd whole (by rw [results]; decide)
      · exact goes halted
      · exact other phase
      · exact absurd none (by rw [bucket]; exact Option.some_ne_none b)
      · obtain rfl : b = b' := Option.some.inj (bucket.symm.trans hb')
        omega
    refine ⟨rest_event_idle rests, ?_⟩
    rw [event_dev, noteReady_faults, rests, to_faults]

end Sys2Proof.Machine
end

section
/-! PROOFS. The GTC advances by one in all but one of 65,536 cycles (R195). -/

namespace Sys2Proof.Machine

/-- What the servo adds to a core cycle, in units of 2⁻¹⁶ tick. -/
def Clock.nudge (c : Clock) : Int := if c.state = .locked then clampInt (-1) 1 c.slew else 0

/-- The nudge is one unit at most, and never more than is left of the slew. -/
theorem nudge_bounds (c : Clock) : -1 ≤ c.nudge ∧ c.nudge ≤ 1 ∧ (0 ≤ c.slew → 0 ≤ c.nudge ∧ c.nudge ≤ c.slew) ∧
    (c.slew ≤ 0 → c.nudge ≤ 0 ∧ c.slew ≤ c.nudge) := by
  unfold Clock.nudge clampInt
  split <;> omega

/-- One core cycle: a tick, with what the fraction carries. -/
theorem run_one {c : Clock} (hrun : c.frozen = false) :
    c.run 1 = { c with gtc := c.gtc + BitVec.ofInt 64 (1 + (c.frac + c.nudge) / 65536), frac := ((c.frac + c.nudge) % 65536).toNat,
                       slew := c.slew - c.nudge } := by
  have whole : ((((c.gtc.toNat + 1) * 65536 + c.frac : Nat) : Int) + c.nudge) / 65536 =
      (c.gtc.toNat : Int) + (1 + (c.frac + c.nudge) / 65536) := by omega
  have part : ((((c.gtc.toNat + 1) * 65536 + c.frac : Nat) : Int) + c.nudge) % 65536 = (c.frac + c.nudge) % 65536 := by omega
  have shape : c.run 1 = { c with
      gtc := BitVec.ofInt 64 (((((c.gtc.toNat + 1) * 65536 + c.frac : Nat) : Int) + c.nudge) / 65536),
      frac := (((((c.gtc.toNat + 1) * 65536 + c.frac : Nat) : Int) + c.nudge) % 65536).toNat, slew := c.slew - c.nudge } := by
    rw [Clock.run, if_neg (by simp [hrun])]
    rfl
  rw [shape, whole, part, BitVec.ofInt_add, BitVec.ofInt_natCast, BitVec.ofNat_toNat, BitVec.setWidth_eq]

section
variable {c : Clock} (hrun : c.frozen = false)
include hrun

theorem run_one_frozen : (c.run 1).frozen = false := by rw [run_one hrun]; exact hrun

theorem run_one_frac : (c.run 1).frac < 65536 := by
  rw [run_one hrun]
  dsimp only
  omega

/-- The integer advances by one where the fraction does not carry. -/
theorem run_one_gtc_succ (hlow : 0 ≤ c.frac + c.nudge) (hhigh : c.frac + c.nudge < 65536) : (c.run 1).gtc = c.gtc + 1 := by
  have carry : (c.frac + c.nudge) / 65536 = 0 := by omega
  rw [run_one hrun, carry]
  rfl

/-- It advances by 0, 1 or 2. -/
theorem run_one_gtc (hfrac : c.frac < 65536) : (c.run 1).gtc = c.gtc ∨ (c.run 1).gtc = c.gtc + 1 ∨ (c.run 1).gtc = c.gtc + 2 := by
  obtain ⟨low, high, -⟩ := nudge_bounds c
  have carry : (c.frac + c.nudge) / 65536 = -1 ∨ (c.frac + c.nudge) / 65536 = 0 ∨ (c.frac + c.nudge) / 65536 = 1 := by omega
  rw [run_one hrun]
  obtain h | h | h := carry <;> simp [h]

end

/-- `m` cycles after an advance by other than one the fraction has gone at most `m` units from where it carried, and the slew still has the
same direction. -/
structure Clock.Since (c : Clock) (m : Nat) : Prop where
  runs : c.frozen = false
  frac : c.frac < 65536
  dir : 0 ≤ c.slew ∧ c.frac ≤ m ∨ c.slew ≤ 0 ∧ 65535 ≤ c.frac + m

/-- A cycle that advances the integer by other than one carries the fraction. -/
theorem since_of_carry {c : Clock} (hrun : c.frozen = false) (hfrac : c.frac < 65536) (hgtc : (c.run 1).gtc ≠ c.gtc + 1) : (c.run 1).Since 0 := by
  refine ⟨run_one_frozen hrun, run_one_frac hrun, ?_⟩
  obtain ⟨low, high, up, down⟩ := nudge_bounds c
  have carried : c.frac + c.nudge < 0 ∨ 65536 ≤ c.frac + c.nudge := by
    by_contra h
    exact hgtc (run_one_gtc_succ hrun (by omega) (by omega))
  rw [run_one hrun]
  dsimp only
  omega

/-- The cycles after it advance the integer by one. -/
theorem since_run {c : Clock} {m : Nat} (h : c.Since m) (hm : m < 65535) : (c.run 1).Since (m + 1) ∧ (c.run 1).gtc = c.gtc + 1 := by
  obtain ⟨hrun, hfrac, hdir⟩ := h
  obtain ⟨low, high, up, down⟩ := nudge_bounds c
  refine ⟨⟨run_one_frozen hrun, run_one_frac hrun, ?_⟩, run_one_gtc_succ hrun (by omega) (by omega)⟩
  rw [run_one hrun]
  dsimp only
  omega

theorem since_iterate {c : Clock} (h : c.Since 0) {m : Nat} (hm : m ≤ 65535) : ((fun c : Clock => c.run 1)^[m] c).Since m := by
  induction m with
  | zero => exact h
  | succ m ih =>
    rw [Function.iterate_succ_apply']
    exact (since_run (ih (by omega)) (by omega)).1

theorem iterate_runs {c : Clock} (hrun : c.frozen = false) (hfrac : c.frac < 65536) (n : Nat) :
    ((fun c : Clock => c.run 1)^[n] c).frozen = false ∧ ((fun c : Clock => c.run 1)^[n] c).frac < 65536 := by
  induction n with
  | zero => exact ⟨hrun, hfrac⟩
  | succ n ih =>
    rw [Function.iterate_succ_apply']
    exact ⟨run_one_frozen ih.1, run_one_frac ih.1⟩

/-- Settles O59: after a carry the fraction has 65,536 units to go to the next one, and it goes one unit a cycle at most. -/
theorem theGtcAdvancesByOne : Obligations.TheGtcAdvancesByOne := by
  refine ⟨fun c hrun hfrac => ⟨run_one_gtc hrun hfrac, run_one_frac hrun, run_one_frozen hrun⟩, fun c i j hrun hfrac hij hj hgtc => ?_⟩
  obtain ⟨hruni, hfraci⟩ := iterate_runs hrun hfrac i
  rw [Function.iterate_succ_apply'] at hgtc
  have carried := since_of_carry hruni hfraci hgtc
  obtain ⟨m, rfl⟩ : ∃ m, j = m + (i + 1) := ⟨j - (i + 1), by omega⟩
  have after : ((fun c : Clock => c.run 1)^[m + (i + 1)] c).Since m := by
    rw [Function.iterate_add_apply, Function.iterate_succ_apply']
    exact since_iterate carried (by omega)
  rw [Function.iterate_succ_apply']
  exact (since_run after (by omega)).2

end Sys2Proof.Machine
end

section
/-! SUPPORT. Messages, traces, counters, copies, records and packets of the device's own leave the Gauge's seal log alone (R469). -/

namespace Sys2Proof.Machine

/-- The Gauge's seal log (R469). -/
def Dev.sealLog (d : Dev) : List Bytes := d.gauge.log

/-! ### Messages, counters and copies -/

@[simp] theorem sealLog_ite (c : Prop) [Decidable c] (a b : Dev) : (if c then a else b).sealLog = if c then a.sealLog else b.sealLog :=
  apply_ite Dev.sealLog _ _ _

theorem sealLog_foldl {α : Type} (f : Dev → α → Dev) (h : ∀ d a, (f d a).sealLog = d.sealLog) (l : List α) (d : Dev) :
    (l.foldl f d).sealLog = d.sealLog := foldl_keeps Dev.sealLog f h l d

@[simp] theorem sealLog_modSilt (d : Dev) (f : Silt → Silt) : (d.modSilt f).sealLog = d.sealLog := rfl
@[simp] theorem sealLog_modFaults (d : Dev) (f : Faults → Faults) : (d.modFaults f).sealLog = d.sealLog := rfl
@[simp] theorem sealLog_modSession (d : Dev) (n : Nat) (f : Session → Session) : (d.modSession n f).sealLog = d.sealLog := rfl
@[simp] theorem sealLog_modPort (d : Dev) (p : Nat) (f : Port → Port) : (d.modPort p f).sealLog = d.sealLog := rfl
@[simp] theorem sealLog_modCtx (d : Dev) (c : Nat) (f : Ctx → Ctx) : (d.modCtx c f).sealLog = d.sealLog := rfl
@[simp] theorem sealLog_modJob (d : Dev) (j : Nat) (f : Job → Job) : (d.modJob j f).sealLog = d.sealLog := rfl
@[simp] theorem sealLog_send (d : Dev) (x : Sent) : (d.send x).sealLog = d.sealLog := by unfold Dev.send; split <;> rfl
@[simp] theorem sealLog_count (d : Dev) (i n : Nat) : (d.count i n).sealLog = d.sealLog := by rw [count_eq]; rfl
@[simp] theorem sealLog_countDev (d : Dev) (i n : Nat) : (d.countDev i n).sealLog = d.sealLog := sealLog_count _ _ _
@[simp] theorem sealLog_countPort (d : Dev) (p i n : Nat) : (d.countPort p i n).sealLog = d.sealLog := sealLog_count _ _ _
@[simp] theorem sealLog_countDie (d : Dev) (p i n : Nat) : (d.countDie p i n).sealLog = d.sealLog := sealLog_count _ _ _

/-- The tap counts bytes, beside the log. -/
@[simp] theorem sealLog_tap (d : Dev) (a p : Nat) (tx : Bool) (n : Nat) : (d.tap a p tx n).sealLog = d.sealLog := by
  unfold Dev.tap
  split <;> rfl
@[simp] theorem sealLog_portBytes (d : Dev) (a p : Nat) (tx : Bool) (n : Nat) : (d.portBytes a p tx n).sealLog = d.sealLog := by
  simp [Dev.portBytes]
@[simp] theorem sealLog_gmpBytes (d : Dev) (p : Nat) (tx : Bool) (n : Nat) : (d.gmpBytes p tx n).sealLog = d.sealLog := by
  unfold Dev.gmpBytes
  split <;> simp
@[simp] theorem sealLog_drainCopies (d : Dev) (p : Nat) : (d.drainCopies p).sealLog = d.sealLog := by
  unfold Dev.drainCopies
  split
  · have copies := sealLog_foldl (fun (d : Dev) f =>
      ((d.send (.copy p (f ++ fcsOf f))).portBytes 256 p true (f.length + 4)).countDev 0x103 (64 * frameCells f)) (fun _ _ => by simp)
      ((List.range 4).flatMap (d.copies p)) d
    exact copies
  · rfl
@[simp] theorem sealLog_putCopy (d : Dev) (p q : Nat) (f : Bytes) : (d.putCopy p q f).sealLog = d.sealLog := by
  unfold Dev.putCopy
  dsimp only
  split
  · simp
  · rw [sealLog_drainCopies, sealLog_countDev]; rfl
@[simp] theorem sealLog_copyFor (d : Dev) (i : Nat) (e : Bytes) (x : Bool) (p : Nat) (r : Option Bytes) (b : Bytes) :
    (d.copyFor i e x p r b).sealLog = d.sealLog := by
  unfold Dev.copyFor
  dsimp only
  split
  · rfl
  · rw [sealLog_putCopy]; rfl
@[simp] theorem sealLog_mirror (d : Dev) (x : Bool) (p : Nat) (r : Option Bytes) (b : Bytes) : (d.mirror x p r b).sealLog = d.sealLog :=
  sealLog_foldl _ (fun _ _ => by split <;> simp) _ _
@[simp] theorem sealLog_gmpCross (d : Dev) (p : Nat) (x : Bool) (a u n : Nat) (b : Bytes) : (d.gmpCross p x a u n b).sealLog = d.sealLog := by
  unfold Dev.gmpCross
  dsimp only
  split <;> simp
@[simp] theorem sealLog_gmpIn (d : Dev) (m : GmpMsg) (c : Nat) : (d.gmpIn m c).sealLog = d.sealLog := sealLog_gmpCross _ _ _ _ _ _ _
@[simp] theorem sealLog_gmpSend (d : Dev) (s : Session) (fl msg tag : Nat) (b : Bytes) : (d.gmpSend s fl msg tag b).sealLog = d.sealLog := by
  simp [Dev.gmpSend]
@[simp] theorem sealLog_gmpNotify (d : Dev) (s : Session) (msg : Nat) (b : Bytes) : (d.gmpNotify s msg b).sealLog = d.sealLog := by
  simp [Dev.gmpNotify]
@[simp] theorem sealLog_gmpReply (d : Dev) (n msg tag : Nat) (b : Bytes) : (d.gmpReply n msg tag b).sealLog = d.sealLog := by
  unfold Dev.gmpReply
  split <;> simp
@[simp] theorem sealLog_taken (d : Dev) (m : GmpMsg) (c : Nat) : (d.taken m c).sealLog = d.sealLog := by simp [Dev.taken, Dev.accepted]
@[simp] theorem sealLog_to (d : Dev) (n : Nat) : (d.to n).sealLog = d.sealLog := by rw [to_eq]; rfl
@[simp] theorem sealLog_noteReady (d : Dev) : d.noteReady.sealLog = d.sealLog := by rw [noteReady_eq]; rfl

/-! ### Silt -/

@[simp] theorem sealLog_siltLost (d : Dev) : d.siltLost.sealLog = d.sealLog := by unfold Dev.siltLost; dsimp only; split <;> simp
@[simp] theorem sealLog_siltDiscard (d : Dev) (m : Bool) : (d.siltDiscard m).sealLog = d.sealLog := by simp [Dev.siltDiscard]
@[simp] theorem sealLog_siltOver (d : Dev) (two : Bool) (b : Bytes) : (d.siltOver two b).sealLog = d.sealLog := by simp [Dev.siltOver]
@[simp] theorem sealLog_siltRun (d : Dev) (two : Bool) (b : Bytes) : (d.siltRun two b).sealLog = d.sealLog := by simp [Dev.siltRun]
@[simp] theorem sealLog_siltPost (d : Dev) (m two : Bool) (b : Bytes) : (d.siltPost m two b).sealLog = d.sealLog := by simp [Dev.siltPost]
@[simp] theorem sealLog_siltPut (d : Dev) (m : SiltMsg) (x : Bool) : (d.siltPut m x).sealLog = d.sealLog := by simp [Dev.siltPut]
@[simp] theorem sealLog_pulse (d : Dev) (p : Nat) : (d.pulse p).sealLog = d.sealLog := by simp [Dev.pulse]
@[simp] theorem sealLog_siltTrigger (d : Dev) (n : Nat) : (d.siltTrigger n).sealLog = d.sealLog := by
  unfold Dev.siltTrigger
  split
  · split <;> simp
  · dsimp only
    rw [sealLog_foldl _ (fun _ _ => sealLog_pulse _ _)]
    simp
@[simp] theorem sealLog_siltWrite (d : Dev) (m : SiltMsg) (n : Nat) : (d.siltWrite m n).sealLog = d.sealLog := by simp [Dev.siltWrite]

/-! ### Fault records -/

@[simp] theorem sealLog_updAlert (d : Dev) : d.updAlert.sealLog = d.sealLog := by simp [Dev.updAlert]
@[simp] theorem sealLog_unitFault (d : Dev) (r : FaultRec) (e : Nat) : (d.unitFault r e).sealLog = d.sealLog := by
  unfold Dev.unitFault
  split
  · split <;> rfl
  · rfl
@[simp] theorem sealLog_writeRecord (d : Dev) (r : FaultRec) : (d.writeRecord r).sealLog = d.sealLog := by
  simp only [Dev.writeRecord, sealLog_ite, sealLog_siltTrigger, sealLog_siltWrite, ite_self]
  refine (sealLog_foldl _ (fun d s => ?_) _ _).trans (by simp)
  split <;> simp
@[simp] theorem sealLog_recordFault (d : Dev) (r : FaultRec) : (d.recordFault r).sealLog = d.sealLog := by simp [Dev.recordFault]

/-! ### Packets of the device's own (R109, R236, R247, R302) -/

@[simp] theorem sealLog_sendTraining (d : Dev) (p r k : Nat) : (d.sendTraining p r k).sealLog = d.sealLog := by simp [Dev.sendTraining]
@[simp] theorem sealLog_exitTraining (d : Dev) (p : Nat) : (d.exitTraining p).sealLog = d.sealLog :=
  sealLog_foldl _ (fun _ _ => sealLog_sendTraining _ _ _ _) _ _
@[simp] theorem sealLog_wake (d : Dev) (p : Nat) : (d.wake p).sealLog = d.sealLog := by simp [Dev.wake, Dev.endSleep]
@[simp] theorem sealLog_putVc6 (d : Dev) (f : OwnFrame) : (d.putVc6 f).sealLog = d.sealLog := by
  simp [Dev.putVc6, Dev.enqueue, Dev.relink, Dev.wrote]

theorem sealLog_admitOwn (fs : List OwnFrame) (used : Nat) (held : List Nat) (d : Dev) : (admitOwn fs used held d).1.sealLog = d.sealLog := by
  induction fs generalizing used held d with
  | nil => rfl
  | cons f r ih =>
    unfold admitOwn
    split
    · rfl
    · split
      · rw [ih, sealLog_modPort]
      · split
        · rw [ih, sealLog_putVc6]
        · exact ih _ _ _

@[simp] theorem sealLog_moveOwn (d : Dev) : d.moveOwn.sealLog = d.sealLog := by
  unfold Dev.moveOwn
  split
  · rfl
  · have admitted := sealLog_admitOwn d.own d.rdmaCells [] { d with own := [] }
    exact admitted
@[simp] theorem sealLog_sendVc6 (d : Dev) (p cls job : Nat) (content : Bytes) : (d.sendVc6 p cls job content).sealLog = d.sealLog := by
  have moved := sealLog_moveOwn { d.wake p with own := (d.wake p).own ++
    [{ port := p, bytes := routeFor cls job 0 6 content ++ content, flits := packetFlits (routeFor cls job 0 6 content ++ content) false }] }
  exact moved.trans (sealLog_wake d p)

end Sys2Proof.Machine
end

section
/-! SUPPORT. The causes of R219 are marked in jobs and change nothing else; the rules of time change the clock, the launches and the marks
of the jobs, and the cadence of the ports (R190 to R200, R206, R219). -/

namespace Sys2Proof.Machine

/-! ### Marks (R219) -/

/-- A job without the causes of R219. -/
def Job.unmarked (x : Job) : Job := { x with causes := 0 }

/-- `e` is `d` with causes marked in some of its jobs. -/
structure Dev.Marked (d e : Dev) : Prop where
  quiet : e.quiet = { d.quiet with jobs := e.jobs }
  keeper : e.keeper = d.keeper
  log : e.sealLog = d.sealLog
  job : ∀ j, (e.job j).unmarked = (d.job j).unmarked

theorem marked_refl (d : Dev) : d.Marked d := ⟨rfl, rfl, rfl, fun _ => rfl⟩

theorem marked_trans {d e t : Dev} (h : d.Marked e) (h' : e.Marked t) : d.Marked t where
  quiet := h'.quiet.trans (congrArg (fun x : Dev => { x with jobs := t.jobs }) h.quiet)
  keeper := h'.keeper.trans h.keeper
  log := h'.log.trans h.log
  job j := (h'.job j).trans (h.job j)

theorem marked_foldl {α : Type} (f : Dev → α → Dev) (h : ∀ (d : Dev) a, d.Marked (f d a)) (l : List α) (d : Dev) : d.Marked (l.foldl f d) := by
  induction l generalizing d with
  | nil => exact marked_refl d
  | cons a l ih => exact marked_trans (h d a) (ih _)

theorem marked_siltWrite (d : Dev) (m : SiltMsg) (n : Nat) : d.Marked (d.siltWrite m n) :=
  ⟨(quiet_siltWrite d m n).trans (congrArg (fun l => { d.quiet with jobs := l }) (rest_fields (rest_siltWrite d m n)).2.2.1.symm),
    keeper_siltWrite _ _ _, sealLog_siltWrite _ _ _, fun j => congrArg Job.unmarked (rest_job (rest_siltWrite d m n) j)⟩

theorem marked_modJob (d : Dev) (j : Nat) {f : Job → Job} (hf : ∀ x, (f x).unmarked = x.unmarked) : d.Marked (d.modJob j f) := by
  refine ⟨rfl, rfl, rfl, fun i => ?_⟩
  by_cases hi : i = j
  · rw [hi, job_modJob_same, hf]
  · rw [job_modJob_other _ hi]

theorem marked_markJob (d : Dev) (j cause : Nat) : d.Marked (d.markJob j cause) := by
  unfold Dev.markJob
  dsimp only
  split
  · exact marked_trans (marked_modJob d j (fun _ => by rfl)) (marked_siltWrite _ _ _)
  · exact marked_refl d

theorem marked_markSteps (d : Dev) (cause : Nat) : d.Marked (d.markSteps cause) := marked_foldl _ (fun d j => marked_markJob d j cause) _ d

section
variable {d e : Dev} (h : d.Marked e)
include h

theorem marked_rest : e.rest = { d.rest with jobs := e.jobs } := rest_of_quiet (b := { d with jobs := e.jobs }) h.quiet
theorem marked_faults : e.faults = d.faults := (congrArg Dev.faults h.quiet :)
theorem marked_clock : e.clock = d.clock := (congrArg Dev.clock h.quiet :)
theorem marked_ctxs : e.ctxs = d.ctxs := (congrArg Dev.ctxs h.quiet :)
theorem marked_ports : e.ports = d.ports := (congrArg Dev.ports h.quiet :)
theorem marked_power : e.power = d.power := (congrArg Dev.power h.quiet :)
theorem marked_dies : e.dies = d.dies := (congrArg Dev.dies h.quiet :)

end

/-- A job that is not EMPTY is listed among the loaded ones. -/
theorem mem_loaded {d : Dev} {j : Nat} (h : (d.job j).state ≠ .empty) : j ∈ d.loaded := by
  have listed : (j, d.job j) ∈ d.jobs := mem_of_tget_ne (fun hd => h (congrArg Job.state hd))
  exact List.mem_map.mpr ⟨_, List.mem_filter.mpr ⟨listed, by simp [h]⟩, rfl⟩

/-! ### What the rules of time touch -/

/-- A job without what time touches of it: its launch and the causes of R219. -/
def Job.untimed (x : Job) : Job := { x with launch := none, causes := 0 }

/-- `e` is `d` after rules of time: the clock, launches that are gone, marks, the cadence of ports and reports differ, and nothing else. -/
structure Dev.Timed (d e : Dev) : Prop where
  rest : e.rest = { d.rest with clock := e.clock, jobs := e.jobs, ports := e.ports }
  ports : ∀ q, { e.port q with reqDue := 0 } = { d.port q with reqDue := 0 }
  job : ∀ j, (e.job j).untimed = (d.job j).untimed
  launch : ∀ j, (e.job j).launch = (d.job j).launch ∨ (e.job j).launch = none
  sessions : d.sameSessions e
  log : e.sealLog = d.sealLog
  unacked : ∀ k, (tget {} d.faults.classes k).unacked = true → (tget {} e.faults.classes k).unacked = true

theorem timed_refl (d : Dev) : d.Timed d := ⟨rfl, fun _ => rfl, fun _ => rfl, fun _ => .inl rfl, sameSessions_refl d, rfl, fun _ => id⟩

theorem timed_trans {d e t : Dev} (h : d.Timed e) (h' : e.Timed t) : d.Timed t where
  rest := h'.rest.trans (congrArg (fun x : Dev => { x with clock := t.clock, jobs := t.jobs, ports := t.ports }) h.rest)
  ports q := (h'.ports q).trans (h.ports q)
  job j := (h'.job j).trans (h.job j)
  launch j := (h'.launch j).elim (fun hj => hj ▸ h.launch j) .inr
  sessions := sameSessions_trans h.sessions h'.sessions
  log := h'.log.trans h.log
  unacked k hk := h'.unacked k (h.unacked k hk)

theorem timed_foldl {α : Type} (f : Dev → α → Dev) (h : ∀ (d : Dev) a, d.Timed (f d a)) (l : List α) (d : Dev) : d.Timed (l.foldl f d) := by
  induction l generalizing d with
  | nil => exact timed_refl d
  | cons a l ih => exact timed_trans (h d a) (ih _)

theorem timed_of_marked {d e : Dev} (h : d.Marked e) : d.Timed e where
  rest := (marked_rest h).trans (by rw [marked_clock h, marked_ports h]; rfl)
  ports q := by rw [Dev.port, marked_ports h]; rfl
  job j := congrArg (fun x : Job => { x with launch := none }) (h.job j)
  launch j := .inl (congrArg Job.launch (h.job j) :)
  sessions := sameSessions_of_keeper h.keeper
  log := h.log
  unacked k hk := by rwa [marked_faults h]

theorem timed_modClock (d : Dev) (f : Clock → Clock) : d.Timed (d.modClock f) :=
  ⟨rfl, fun _ => rfl, fun _ => rfl, fun _ => .inl rfl, sameSessions_of_keeper rfl, rfl, fun _ => id⟩

theorem timed_modPort (d : Dev) (p now : Nat) : d.Timed (d.modPort p (fun x => { x with reqDue := now })) := by
  refine ⟨rfl, fun q => ?_, fun _ => rfl, fun _ => .inl rfl, sameSessions_of_keeper rfl, rfl, fun _ => id⟩
  by_cases hq : q = p
  · rw [hq, port_modPort_same]
  · rw [port_modPort_other _ hq]

/-- A record leaves every class unacknowledged that was so (R365). -/
theorem unacked_recordFault (d : Dev) (r : FaultRec) {k : Nat} (hk : (tget {} d.faults.classes k).unacked = true) :
    (tget {} (d.recordFault r).faults.classes k).unacked = true := by
  have once : ∀ (x : Dev) (q : FaultRec), (tget {} x.faults.classes k).unacked = true →
      (tget {} (x.writeRecord q).faults.classes k).unacked = true := by
    intro x q hx
    rw [(writeRecord_faults x q).2.2.1, Dev.afterRecord]
    dsimp only [Faults.put]
    split
    · exact hx
    · dsimp only
      rw [tget_tmod]
      split
      · rfl
      · exact hx
  unfold Dev.recordFault
  split
  · exact once _ { source := 0x0C03 } (once d r hk)
  · exact once d r hk

theorem timed_recordFault (d : Dev) (r : FaultRec) : d.Timed (d.recordFault r) where
  rest := (rest_recordFault d r).trans (by
    rw [rest_clock (rest_recordFault d r), (rest_fields (rest_recordFault d r)).2.2.1, (rest_fields (rest_recordFault d r)).1]; rfl)
  ports q := by rw [rest_port (rest_recordFault d r)]
  job j := by rw [rest_job (rest_recordFault d r)]
  launch j := .inl (by rw [rest_job (rest_recordFault d r)])
  sessions := sameSessions_recordFault d r
  log := sealLog_recordFault d r
  unacked _ := unacked_recordFault d r

/-- A launch is gone. -/
theorem timed_unlaunch (d : Dev) (j : Nat) : d.Timed (d.modJob j (fun x => { x with launch := none })) := by
  have jobs : ∀ i, (d.modJob j (fun x => { x with launch := none })).job i = if i = j then { d.job i with launch := none } else d.job i := by
    intro i
    split
    · next hi => rw [hi, job_modJob_same]
    · next hi => rw [job_modJob_other _ hi]
  refine ⟨rfl, fun _ => rfl, fun i => ?_, fun i => ?_, sameSessions_of_keeper rfl, rfl, fun _ => id⟩
  · rw [jobs]
    split <;> rfl
  · rw [jobs]
    split
    · exact .inr rfl
    · exact .inl rfl

theorem timed_withhold (d : Dev) (j : Nat) : d.Timed (d.withhold j) := by
  unfold Dev.withhold
  split
  · exact timed_refl d
  · exact timed_trans (timed_trans (timed_unlaunch d j) (timed_of_marked (marked_siltWrite _ _ _))) (timed_recordFault _ _)

/-! ### Withheld launches (R206) -/

/-- One armed launch is withheld. -/
def Dev.withholdIfArmed (d : Dev) (j : Nat) : Dev :=
  match (d.job j).launch with
  | some l => if l.stage == .armed then d.withhold j else d
  | none => d

theorem withholdArmed_eq (d : Dev) : d.withholdArmed = if d.launchGrade then d else d.loaded.foldl Dev.withholdIfArmed d := rfl

theorem withholdIfArmed_cases (d : Dev) (j : Nat) : d.withholdIfArmed j = d ∨ d.withholdIfArmed j = d.withhold j := by
  unfold Dev.withholdIfArmed
  split
  · split
    · exact .inr rfl
    · exact .inl rfl
  · exact .inl rfl

theorem timed_withholdIfArmed (d : Dev) (j : Nat) : d.Timed (d.withholdIfArmed j) := by
  obtain h | h := withholdIfArmed_cases d j <;> rw [h]
  · exact timed_refl d
  · exact timed_withhold d j

theorem timed_withholdArmed (d : Dev) : d.Timed d.withholdArmed := by
  rw [withholdArmed_eq]
  split
  · exact timed_refl d
  · exact timed_foldl _ timed_withholdIfArmed _ _

/-- A withheld launch is recorded (R206). -/
theorem rest_withhold {d : Dev} {j : Nat} {l : Launch} (h : (d.job j).launch = some l) :
    (d.withhold j).rest = (d.modJob j (fun x => { x with launch := none })).rest := by
  rw [Dev.withhold, h]
  simp

theorem withhold_recorded {d : Dev} {j : Nat} {l : Launch} (h : (d.job j).launch = some l) :
    ∃ e ∈ (d.withhold j).faults.ring, recSource e.bytes = 0x0706 := by
  rw [Dev.withhold, h]
  exact recordFault_source _ { source := 0x0706, job := some j, step := l.step } (show 0x0706 < 65536 by decide)

/-- No launch of a job is armed. -/
def Job.NoArmed (x : Job) : Prop := ∀ l, x.launch = some l → l.stage ≠ .armed

theorem noArmed_of_timed {d e : Dev} (h : d.Timed e) {j : Nat} (hj : (d.job j).NoArmed) : (e.job j).NoArmed := by
  intro l hl
  obtain same | gone := h.launch j
  · exact hj l (same ▸ hl)
  · rw [gone] at hl
    cases hl

theorem noArmed_withholdIfArmed (d : Dev) (j : Nat) : ((d.withholdIfArmed j).job j).NoArmed := by
  intro l
  unfold Dev.withholdIfArmed
  split
  · next l' hl' =>
    split
    · rw [rest_job (rest_withhold hl'), job_modJob_same]
      exact fun hl => absurd hl (by simp)
    · next harmed =>
      intro hl
      obtain rfl : l' = l := Option.some.inj (hl'.symm.trans hl)
      simpa using harmed
  · next hnone =>
    rw [hnone]
    exact fun hl => absurd hl (by simp)

theorem noArmed_foldl {j : Nat} (l : List Nat) (d : Dev) (h : (d.job j).NoArmed ∨ j ∈ l) : ((l.foldl Dev.withholdIfArmed d).job j).NoArmed := by
  induction l generalizing d with
  | nil => exact h.resolve_right List.not_mem_nil
  | cons i l ih =>
    refine ih _ ?_
    obtain hd | hl := h
    · exact .inl (noArmed_of_timed (timed_withholdIfArmed d i) hd)
    · obtain rfl | hl := List.mem_cons.mp hl
      · exact .inl (noArmed_withholdIfArmed d j)
      · exact .inr hl

/-- Where time is launch-grade no more, no launch of a loaded job stays armed. -/
theorem noArmed_withholdArmed {d : Dev} (hgrade : d.launchGrade = false) {j : Nat} (hj : (d.job j).state ≠ .empty) :
    (d.withholdArmed.job j).NoArmed := by
  rw [withholdArmed_eq, hgrade]
  exact noArmed_foldl _ d (.inr (mem_loaded hj))

/-! ### What these leave as it was -/

@[simp] theorem clock_markSteps (d : Dev) (n : Nat) : (d.markSteps n).clock = d.clock := marked_clock (marked_markSteps d n)
@[simp] theorem ports_markSteps (d : Dev) (n : Nat) : (d.markSteps n).ports = d.ports := marked_ports (marked_markSteps d n)
@[simp] theorem clock_recordFault (d : Dev) (r : FaultRec) : (d.recordFault r).clock = d.clock := rest_clock (rest_recordFault d r)
@[simp] theorem ports_recordFault (d : Dev) (r : FaultRec) : (d.recordFault r).ports = d.ports := (rest_fields (rest_recordFault d r)).1
@[simp] theorem clock_siltWrite (d : Dev) (m : SiltMsg) (n : Nat) : (d.siltWrite m n).clock = d.clock := rest_clock (rest_siltWrite d m n)
@[simp] theorem ports_siltWrite (d : Dev) (m : SiltMsg) (n : Nat) : (d.siltWrite m n).ports = d.ports := (rest_fields (rest_siltWrite d m n)).1

/-- A withheld launch leaves the clock and the ports as they were. -/
theorem withhold_keeps (d : Dev) (j : Nat) : (d.withhold j).clock = d.clock ∧ (d.withhold j).ports = d.ports := by
  unfold Dev.withhold
  split
  · exact ⟨rfl, rfl⟩
  · simp [Dev.siltLaunch, Dev.modJob]

theorem withholdArmed_keeps (d : Dev) : d.withholdArmed.clock = d.clock ∧ d.withholdArmed.ports = d.ports := by
  have one : ∀ (e : Dev) (j : Nat), ((e.withholdIfArmed j).clock, (e.withholdIfArmed j).ports) = (e.clock, e.ports) := by
    intro e j
    obtain h | h := withholdIfArmed_cases e j <;> rw [h]
    rw [(withhold_keeps e j).1, (withhold_keeps e j).2]
  rw [withholdArmed_eq]
  split
  · exact ⟨rfl, rfl⟩
  · exact Prod.mk.inj (foldl_keeps (fun e : Dev => (e.clock, e.ports)) _ one _ d)

end Sys2Proof.Machine
end

section
/-! SUPPORT. What the states of the GTC and the election of the Spring make of the clock (R190 to R200). -/

namespace Sys2Proof.Machine

/-! ### The GTC enters a state (R200) -/

/-- The clock as the GTC enters a state, but for the source of the core PLL. -/
def Clock.entered (st : GtcState) (cause : Nat) (c : Clock) : Clock :=
  { c with state := st,
           cause := if st = GtcState.invalid ∨ st = GtcState.acquiring then cause else c.cause,
           goodRun := 0, badRun := 0, fast := false, slew := if st = GtcState.locked then c.slew else 0,
           setPending := decide (st = GtcState.acquiring ∧ (c.state = GtcState.invalid ∨ c.state = GtcState.holdover)),
           holdTick := if st = GtcState.holdover then c.time else c.holdTick }

/-- The device whose clock has entered a state; nothing is reported yet. -/
def Dev.stateEntered (d : Dev) (st : GtcState) (cause : Nat) : Dev := (d.modClock (Clock.entered st cause)).steer

/-- The report of a state that is entered (R359). -/
def Dev.stateRecord (d : Dev) (st : GtcState) (cause : Nat) : Dev :=
  match st with
  | .invalid => d.recordFault { source := 0x0701, status := cause }
  | .holdover => d.recordFault { source := 0x0702 }
  | _ => d

/-- The device with the marks and the trace of a change from `was`. -/
def Dev.stateTraced (d : Dev) (was : GtcState) : Dev := (if was == .locked then d.markSteps 6 else d).siltGtc was

theorem enterGtc_eq (d : Dev) (st : GtcState) (cause : Nat) : d.enterGtc st cause =
    if d.clock.state = st then d.stateEntered st cause
    else (((d.stateEntered st cause).stateTraced d.clock.state).stateRecord st cause).withholdArmed := rfl

theorem clock_stateTraced (d : Dev) (was : GtcState) : (d.stateTraced was).clock = d.clock := by
  unfold Dev.stateTraced Dev.siltGtc
  split <;> simp

theorem clock_stateRecord (d : Dev) (st : GtcState) (cause : Nat) : (d.stateRecord st cause).clock = d.clock := by
  cases st <;> simp [Dev.stateRecord]

/-- A state that is entered shows in the clock alone, whatever is reported of it. -/
theorem clock_enterGtc (d : Dev) (st : GtcState) (cause : Nat) : (d.enterGtc st cause).clock = (d.stateEntered st cause).clock := by
  rw [enterGtc_eq]
  split
  · rfl
  · rw [(withholdArmed_keeps _).1, clock_stateRecord, clock_stateTraced]

theorem ports_enterGtc (d : Dev) (st : GtcState) (cause : Nat) : (d.enterGtc st cause).ports = d.ports := by
  have traced : ∀ (e : Dev) (was : GtcState), (e.stateTraced was).ports = e.ports := by
    intro e was
    unfold Dev.stateTraced Dev.siltGtc
    split <;> simp
  have recorded : ∀ e : Dev, (e.stateRecord st cause).ports = e.ports := by
    intro e
    cases st <;> simp [Dev.stateRecord]
  rw [enterGtc_eq]
  split
  · rfl
  · rw [(withholdArmed_keeps _).2, recorded, traced]
    rfl

theorem timed_steer (d : Dev) : d.Timed d.steer := timed_modClock d _

theorem timed_stateEntered (d : Dev) (st : GtcState) (cause : Nat) : d.Timed (d.stateEntered st cause) :=
  timed_trans (timed_modClock d _) (timed_steer _)

theorem timed_stateTraced (d : Dev) (was : GtcState) : d.Timed (d.stateTraced was) := by
  refine timed_of_marked (marked_trans ?_ (marked_siltWrite _ _ _))
  split
  · exact marked_markSteps d 6
  · exact marked_refl d

theorem timed_stateRecord (d : Dev) (st : GtcState) (cause : Nat) : d.Timed (d.stateRecord st cause) := by
  cases st with
  | invalid => exact timed_recordFault _ _
  | acquiring => exact timed_refl d
  | locked => exact timed_refl d
  | holdover => exact timed_recordFault _ _

theorem timed_enterGtc (d : Dev) (st : GtcState) (cause : Nat) : d.Timed (d.enterGtc st cause) := by
  rw [enterGtc_eq]
  split
  · exact timed_stateEntered d st cause
  · exact timed_trans (timed_stateEntered d st cause)
      (timed_trans (timed_stateTraced _ _) (timed_trans (timed_stateRecord _ _ _) (timed_withholdArmed _)))

@[simp] theorem state_enterGtc (d : Dev) (st : GtcState) (cause : Nat) : (d.enterGtc st cause).clock.state = st := by rw [clock_enterGtc]; rfl

theorem cause_enterGtc (d : Dev) (st : GtcState) (cause : Nat) :
    (d.enterGtc st cause).clock.cause = if st = GtcState.invalid ∨ st = GtcState.acquiring then cause else d.clock.cause := by
  rw [clock_enterGtc]; rfl

/-- INVALID that is entered from another state is recorded: class TIME is unacknowledged (R359, R365). -/
theorem unacked_enterGtc_invalid {d : Dev} (h : d.clock.state ≠ .invalid) (cause : Nat) :
    (tget {} (d.enterGtc .invalid cause).faults.classes 7).unacked = true := by
  have recorded : ∀ e : Dev, (tget {} (e.stateRecord .invalid cause).faults.classes 7).unacked = true := by
    intro e
    have raised := recordFault_unacked e { source := 0x0701, status := cause } rfl
    rw [show ({ source := 0x0701, status := cause } : FaultRec).cls = 7 by simp [FaultRec.cls]] at raised
    exact raised
  rw [enterGtc_eq, if_neg h]
  exact (timed_withholdArmed _).unacked 7 (recorded _)

/-! ### What the election leaves of the clock -/

/-- A clock without what the states of the GTC and the election set: it counts as before, with the same offers and the same reference. -/
def Clock.beat (c : Clock) : Clock :=
  { c with state := .invalid, spring := false, depth := 0, rackDepth := 0, upstream := 0, cause := 0, source := .refclk, adoptedKey := 0,
           keyTick := 0, respTick := 0, holdTick := 0, goodRun := 0, badRun := 0, fast := false, slew := 0, setPending := false }

/-- A clock whose GTC runs: it counts from 0 where it had none (R194). -/
def Clock.started (c : Clock) : Clock := { c with gtc := if c.hasGtc then c.gtc else 0, hasGtc := true, frozen := false }

@[simp] theorem beat_enterGtc (d : Dev) (st : GtcState) (cause : Nat) : (d.enterGtc st cause).clock.beat = d.clock.beat := by
  rw [clock_enterGtc]; rfl

/-! ### The Spring locks (R194, R200) -/

/-- Whether a Spring leaves INVALID. -/
def Clock.locks (c : Clock) : Prop := c.spring = true ∧ c.pllLocked = true ∧ c.refOk = true ∧ c.state = .invalid

theorem springLocks_locks {d : Dev} (h : d.clock.locks) : d.springLocks = (d.modClock Clock.started).enterGtc .locked 0 := by
  obtain ⟨hspring, hpll, href, hstate⟩ := h
  rw [Dev.springLocks, if_pos (by simp [hspring, hpll, href, hstate])]
  rfl

theorem springLocks_stays {d : Dev} (h : ¬ d.clock.locks) : d.springLocks = d := by
  rw [Dev.springLocks, if_neg]
  intro hc
  simp only [Bool.and_eq_true, beq_iff_eq] at hc
  exact h ⟨hc.1.1.1, hc.1.1.2, hc.1.2, hc.2⟩

theorem timed_springLocks (d : Dev) : d.Timed d.springLocks := by
  by_cases h : d.clock.locks
  · rw [springLocks_locks h]
    exact timed_trans (timed_modClock d _) (timed_enterGtc _ _ _)
  · rw [springLocks_stays h]
    exact timed_refl d

/-- What a clock's beat is after rules of time: as before, or that of the clock with its GTC started. -/
def Clock.Goes (c c' : Clock) : Prop := c'.beat = c.beat ∨ c'.beat = c.started.beat

theorem goes_springLocks (d : Dev) : d.clock.Goes d.springLocks.clock := by
  by_cases h : d.clock.locks
  · rw [springLocks_locks h]
    exact .inr (beat_enterGtc _ _ _)
  · rw [springLocks_stays h]
    exact .inl rfl

theorem started_of_beat {a b : Clock} (h : a.beat = b.beat) : a.started.beat = b.started.beat := congrArg Clock.started h

theorem goes_trans {a b c : Clock} (h : a.Goes b) (h' : b.Goes c) : a.Goes c := by
  have twice : ∀ x : Clock, x.started.started = x.started := fun _ => rfl
  obtain hb | hb := h <;> obtain hc | hc := h'
  · exact .inl (hc.trans hb)
  · exact .inr (hc.trans (started_of_beat hb))
  · exact .inr (hc.trans hb)
  · exact .inr (hc.trans ((started_of_beat hb).trans (by rw [twice])))

theorem goes_of_beat {a b : Clock} (h : b.beat = a.beat) : a.Goes b := .inl h

/-- What clocks of one beat agree in. -/
theorem beat_fields {c c' : Clock} (h : c'.beat = c.beat) :
    c'.gtc = c.gtc ∧ c'.frozen = c.frozen ∧ c'.hasGtc = c.hasGtc ∧ c'.offers = c.offers ∧ c'.stepped = c.stepped :=
  ⟨(congrArg Clock.gtc h :), (congrArg Clock.frozen h :), (congrArg Clock.hasGtc h :), (congrArg Clock.offers h :), (congrArg Clock.stepped h :)⟩

/-- What rules of time leave of the clock. -/
theorem goes_fields {c c' : Clock} (h : c.Goes c') :
    c'.offers = c.offers ∧ c'.time = c.time ∧ c'.frac = c.frac ∧ c'.pllLocked = c.pllLocked ∧ c'.refOk = c.refOk ∧
      (c.hasGtc = true → c'.gtc = c.gtc ∧ c'.hasGtc = true) ∧ (c.frozen = false → c'.frozen = false) := by
  obtain hb | hb := h
  · have gtc : c'.gtc = c.gtc := (congrArg Clock.gtc hb :)
    have has : c'.hasGtc = c.hasGtc := (congrArg Clock.hasGtc hb :)
    have frozen : c'.frozen = c.frozen := (congrArg Clock.frozen hb :)
    exact ⟨(congrArg Clock.offers hb :), (congrArg Clock.time hb :), (congrArg Clock.frac hb :), (congrArg Clock.pllLocked hb :),
      (congrArg Clock.refOk hb :), fun h => ⟨gtc, has.trans h⟩, fun h => frozen.trans h⟩
  · have gtc : c'.gtc = if c.hasGtc then c.gtc else 0 := (congrArg Clock.gtc hb :)
    exact ⟨(congrArg Clock.offers hb :), (congrArg Clock.time hb :), (congrArg Clock.frac hb :), (congrArg Clock.pllLocked hb :),
      (congrArg Clock.refOk hb :), fun h => ⟨by rw [gtc, if_pos h], (congrArg Clock.hasGtc hb :)⟩, fun _ => (congrArg Clock.frozen hb :)⟩

/-! ### The election (R193, R194) -/

/-- The device whose upstream is too deep (R193). -/
def Dev.tooDeep (d : Dev) (cause : Nat) : Dev :=
  (d.modClock (fun c => { c with depth := 0xF, rackDepth := 3, upstream := 0x7F })).enterGtc .invalid cause

/-- The device below an upstream. -/
def Dev.below (d : Dev) (p : Nat) (o : Offer) : Dev :=
  d.modClock (fun c => { c with depth := o.depth + 1, rackDepth := if d.rackRoot then 0 else o.rackDepth + 1, upstream := p })

/-- The device after a change of its upstream while its time ran. -/
def Dev.switched (d : Dev) (p : Nat) (old : Clock) : Dev :=
  if (old.state == .locked || old.state == .acquiring) && old.upstream ≠ p then
    if d.clock.adoptedKey ≤ old.adoptedKey then
      d.modClock (fun c => { c with fast := c.state == .locked, goodRun := 0, badRun := 0, respTick := c.time })
    else d.enterGtc .holdover 0
  else d

/-- The device that begins to acquire time at its upstream. -/
def Dev.acquired (d : Dev) (p : Nat) : Dev :=
  if (d.clock.state == .invalid || d.clock.state == .holdover) && (d.port p).hasBringup && d.clock.pllLocked && d.clock.refOk then
    ((d.enterGtc .acquiring 0).modClock (fun c => { c with respTick := c.time })).modPort p (fun x => { x with reqDue := d.time })
  else d

theorem follow_eq (d : Dev) (p : Nat) (o : Offer) (old : Clock) : d.follow p o old =
    if 9 < o.depth + 1 then d.tooDeep 4
    else if 2 < (if d.rackRoot then 0 else o.rackDepth + 1) then d.tooDeep 5
    else ((d.below p o).switched p old).steer.acquired p := rfl

/-- `e` is `d` after rules of time that let its clock go on as it did. -/
def Dev.Keeps (d e : Dev) : Prop := d.Timed e ∧ e.clock.beat = d.clock.beat

theorem keeps_trans {d e t : Dev} (h : d.Keeps e) (h' : e.Keeps t) : d.Keeps t := ⟨timed_trans h.1 h'.1, h'.2.trans h.2⟩

theorem keeps_modClock (d : Dev) {f : Clock → Clock} (h : (f d.clock).beat = d.clock.beat) : d.Keeps (d.modClock f) := ⟨timed_modClock d f, h⟩

theorem keeps_steer (d : Dev) : d.Keeps d.steer := ⟨timed_steer d, rfl⟩

theorem keeps_enterGtc (d : Dev) (st : GtcState) (cause : Nat) : d.Keeps (d.enterGtc st cause) := ⟨timed_enterGtc d st cause, beat_enterGtc d st cause⟩

theorem keeps_ite {d a b : Dev} {p : Prop} [Decidable p] (ha : d.Keeps a) (hb : d.Keeps b) : d.Keeps (if p then a else b) := by
  split
  · exact ha
  · exact hb

theorem keeps_tooDeep (d : Dev) (cause : Nat) : d.Keeps (d.tooDeep cause) := keeps_trans (keeps_modClock d rfl) (keeps_enterGtc _ _ _)

theorem keeps_switched (d : Dev) (p : Nat) (old : Clock) : d.Keeps (d.switched p old) :=
  keeps_ite (keeps_ite (keeps_modClock d rfl) (keeps_enterGtc d _ _)) ⟨timed_refl d, rfl⟩

theorem keeps_acquired (d : Dev) (p : Nat) : d.Keeps (d.acquired p) :=
  keeps_ite (keeps_trans (keeps_enterGtc d _ _) (keeps_trans (keeps_modClock _ rfl) ⟨timed_modPort _ _ _, rfl⟩)) ⟨timed_refl d, rfl⟩

/-- A device that follows an upstream lets its clock go on. -/
theorem keeps_follow (d : Dev) (p : Nat) (o : Offer) (old : Clock) : d.Keeps (d.follow p o old) := by
  have beneath : d.Keeps (d.below p o) := keeps_modClock d rfl
  rw [follow_eq]
  exact keeps_ite (keeps_tooDeep d 4) (keeps_ite (keeps_tooDeep d 5)
    (keeps_trans beneath (keeps_trans (keeps_switched _ p old) (keeps_trans (keeps_steer _) (keeps_acquired _ p)))))

/-- The device with the election's key adopted. -/
def Dev.adopting (d : Dev) (key : Nat) : Dev :=
  d.modClock (fun c => { c with adoptedKey := key, keyTick := if key = d.clock.adoptedKey then c.keyTick else c.time })

/-- The key that the election adopts. -/
def Dev.bestKey (d : Dev) : Nat := (d.offersNow.map (fun e => e.2.key)).foldl min d.ownKey

/-- The device as the Spring, before it locks. -/
def Dev.asSpring (d : Dev) : Dev :=
  let e := d.modClock (fun c => { c with spring := true, depth := 0, rackDepth := 0, upstream := 0x7F })
  (if e.clock.state == .acquiring then e.enterGtc .holdover 0 else e).steer

/-- The device without a key that is offered. -/
def Dev.alone (d : Dev) : Dev :=
  let e := d.modClock (fun c => { c with depth := 0xF, rackDepth := if d.rackRoot then 0 else 3, upstream := 0x7F })
  if e.clock.state == .locked || e.clock.state == .acquiring then e.enterGtc .holdover 0 else e

theorem elect_eq (d : Dev) : d.elect =
    if d.bestKey ≠ noKey ∧ d.bestKey = d.ownKey then (d.adopting d.bestKey).asSpring.springLocks
    else
      match bestOffer d.bestKey d.offersNow with
      | some (p, o) => ((d.adopting d.bestKey).modClock (fun c => { c with spring := false })).follow p o d.clock
      | none => ((d.adopting d.bestKey).modClock (fun c => { c with spring := false })).alone := rfl

theorem keeps_asSpring (d : Dev) : d.Keeps d.asSpring := by
  have sprung : d.Keeps (d.modClock (fun c => { c with spring := true, depth := 0, rackDepth := 0, upstream := 0x7F })) := keeps_modClock d rfl
  exact keeps_trans (keeps_trans sprung (keeps_ite (keeps_enterGtc _ _ _) ⟨timed_refl _, rfl⟩)) (keeps_steer _)

theorem keeps_alone (d : Dev) : d.Keeps d.alone := by
  have left : d.Keeps (d.modClock (fun c => { c with depth := 0xF, rackDepth := if d.rackRoot then 0 else 3, upstream := 0x7F })) :=
    keeps_modClock d rfl
  exact keeps_trans left (keeps_ite (keeps_enterGtc _ _ _) ⟨timed_refl _, rfl⟩)

/-- A device that is not elected the Spring lets its clock go on. -/
theorem keeps_elect {d : Dev} (h : ¬ (d.bestKey ≠ noKey ∧ d.bestKey = d.ownKey)) : d.Keeps d.elect := by
  have before : d.Keeps ((d.adopting d.bestKey).modClock (fun c => { c with spring := false })) :=
    keeps_trans (keeps_modClock d rfl) (keeps_modClock _ rfl)
  rw [elect_eq, if_neg h]
  split
  · exact keeps_trans before (keeps_follow _ _ _ _)
  · exact keeps_trans before (keeps_alone _)

/-- The election is a rule of time, and the clock goes on by it. -/
theorem elect_goes (d : Dev) : d.Timed d.elect ∧ d.clock.Goes d.elect.clock := by
  by_cases h : d.bestKey ≠ noKey ∧ d.bestKey = d.ownKey
  · rw [elect_eq, if_pos h]
    obtain ⟨timed, beat⟩ := keeps_asSpring (d.adopting d.bestKey)
    exact ⟨timed_trans (timed_trans (timed_modClock d _) timed) (timed_springLocks _), goes_trans (goes_of_beat beat) (goes_springLocks _)⟩
  · obtain ⟨timed, beat⟩ := keeps_elect h
    exact ⟨timed, goes_of_beat beat⟩

end Sys2Proof.Machine
end

section
/-! PROOFS. The GTC is lost in order, and returns (R194, R200, R207). -/

namespace Sys2Proof.Machine

/-! ### The clock at the time of an event -/

theorem event_devAt (s : State) (now : Nat) (f : Dev → Dev) : (s.event now f).dev = (f (s.devAt now)).noteReady := event_dev s now f

/-- A clock without what passes in every cycle. -/
def Clock.unpassed (c : Clock) : Clock := { c with time := 0, gtc := 0, frac := 0, slew := 0, cycles := 0, cycles1 := 0 }

theorem unpassed_devAt (s : State) (now : Nat) : (s.devAt now).clock.unpassed = s.dev.clock.unpassed := by
  have ran : ∀ (c : Clock) (n : Nat), (c.run n).unpassed = c.unpassed := by
    intro c n
    unfold Clock.run
    split <;> rfl
  have counted : ∀ (d : Dev) (die i n : Nat), (d.countDie die i n).clock = d.clock := fun d die i n => rest_clock (rest_countDie d die i n)
  unfold State.devAt Dev.to
  split
  · rfl
  · rw [Dev.pass, counted, counted]
    exact ran _ _

section
variable (s : State) (now : Nat)

@[simp] theorem clockState_devAt : (s.devAt now).clock.state = s.dev.clock.state := (congrArg Clock.state (unpassed_devAt s now) :)
@[simp] theorem clockUpstream_devAt : (s.devAt now).clock.upstream = s.dev.clock.upstream := (congrArg Clock.upstream (unpassed_devAt s now) :)
@[simp] theorem clockRespTick_devAt : (s.devAt now).clock.respTick = s.dev.clock.respTick := (congrArg Clock.respTick (unpassed_devAt s now) :)
@[simp] theorem clockHoldTick_devAt : (s.devAt now).clock.holdTick = s.dev.clock.holdTick := (congrArg Clock.holdTick (unpassed_devAt s now) :)
@[simp] theorem clockKeyTick_devAt : (s.devAt now).clock.keyTick = s.dev.clock.keyTick := (congrArg Clock.keyTick (unpassed_devAt s now) :)
@[simp] theorem clockKey_devAt : (s.devAt now).clock.adoptedKey = s.dev.clock.adoptedKey := (congrArg Clock.adoptedKey (unpassed_devAt s now) :)
@[simp] theorem clockSpring_devAt : (s.devAt now).clock.spring = s.dev.clock.spring := (congrArg Clock.spring (unpassed_devAt s now) :)
@[simp] theorem clockOffers_devAt : (s.devAt now).clock.offers = s.dev.clock.offers := (congrArg Clock.offers (unpassed_devAt s now) :)
@[simp] theorem clockPll_devAt : (s.devAt now).clock.pllLocked = s.dev.clock.pllLocked := (congrArg Clock.pllLocked (unpassed_devAt s now) :)
@[simp] theorem clockRef_devAt : (s.devAt now).clock.refOk = s.dev.clock.refOk := (congrArg Clock.refOk (unpassed_devAt s now) :)
@[simp] theorem clockHasGtc_devAt : (s.devAt now).clock.hasGtc = s.dev.clock.hasGtc := (congrArg Clock.hasGtc (unpassed_devAt s now) :)
@[simp] theorem clockFrozen_devAt : (s.devAt now).clock.frozen = s.dev.clock.frozen := (congrArg Clock.frozen (unpassed_devAt s now) :)

end

/-! ### Losses (R194, R200) -/

section
variable {d e : Dev}

theorem timed_state (h : d.Timed e) (j : Nat) : (e.job j).state = (d.job j).state := (congrArg Job.state (h.job j) :)
theorem timed_ctxs (h : d.Timed e) : e.ctxs = d.ctxs := (congrArg Dev.ctxs h.rest :)
theorem timed_image (h : d.Timed e) : e.image = d.image := (congrArg Dev.image h.rest :)
theorem timed_power (h : d.Timed e) : e.power = d.power := (congrArg Dev.power h.rest :)
theorem timed_up (h : d.Timed e) : e.keeper.up = d.keeper.up := (congrArg (fun x : Dev => x.keeper.up) h.rest :)

theorem ownKey_congr (hi : e.image = d.image) (hk : e.keeper.devId = d.keeper.devId) : e.ownKey = d.ownKey := by
  have image : ∀ sec, e.img sec = d.img sec := fun sec => by rw [Dev.img, Dev.img, hi]
  rw [Dev.ownKey, Dev.ownKey, Dev.springPriority, Dev.springPriority, image, hk]

theorem timed_ownKey (h : d.Timed e) : e.ownKey = d.ownKey :=
  ownKey_congr (timed_image h) (congrArg (fun x : Dev => x.keeper.devId) h.rest :)

end

theorem offersNow_nil {d : Dev} (h : d.clock.offers = []) : d.offersNow = [] := by
  have none : ∀ p, d.candidate p = none := by
    intro p
    unfold Dev.candidate
    rw [h]
    rfl
  unfold Dev.offersNow
  exact List.filterMap_eq_nil_iff.mpr fun p _ => by rw [none]; rfl

theorem bestKey_unoffered {d : Dev} (h : d.clock.offers = []) : d.bestKey = d.ownKey := by rw [Dev.bestKey, offersNow_nil h]; rfl

/-- Without an offer and without a key of its own a device is alone. -/
theorem elect_alone {d : Dev} (h : d.clock.offers = []) (hkey : d.ownKey = noKey) :
    d.elect = ((d.adopting noKey).modClock (fun c => { c with spring := false })).alone := by
  have key : d.bestKey = noKey := (bestKey_unoffered h).trans hkey
  rw [elect_eq, if_neg (fun hk => hk.1 key), key, offersNow_nil h]
  rfl

/-- Without an offer a device with a key is the Spring. -/
theorem elect_spring {d : Dev} (h : d.bestKey ≠ noKey ∧ d.bestKey = d.ownKey) : d.elect = (d.adopting d.ownKey).asSpring.springLocks := by
  rw [elect_eq, if_pos h, h.2]

/-- HOLDOVER that is entered from another state is launch-grade at first: no launch is withheld, and its record stays the newest. -/
theorem enterGtc_holdover {d : Dev} (h : d.clock.state ≠ .holdover) : ∃ e ∈ (d.enterGtc .holdover 0).faults.ring, recSource e.bytes = 0x0702 := by
  have recorded : ∀ x : Dev, (x.stateRecord .holdover 0).faults = (x.recordFault { source := 0x0702 }).faults := fun _ => rfl
  have grade : (((d.stateEntered .holdover 0).stateTraced d.clock.state).stateRecord .holdover 0).launchGrade = true := by
    rw [Dev.launchGrade, Dev.time, clock_stateRecord, clock_stateTraced]
    simp [Dev.stateEntered, Dev.steer, Dev.modClock, Clock.entered]
  rw [enterGtc_eq, if_neg h, withholdArmed_eq, grade, if_pos rfl, recorded]
  exact recordFault_source _ { source := 0x0702 } (show 0x0702 < 65536 by decide)

/-- The device that hears no key any more. -/
def Dev.unkeyed (d : Dev) : Dev := d.modClock (fun c => { c with depth := 0xF, rackDepth := if d.rackRoot then 0 else 3, upstream := 0x7F })

theorem alone_locked {d : Dev} (h : d.clock.state = .locked) : d.alone = d.unkeyed.enterGtc .holdover 0 := by
  have running : (d.unkeyed.clock.state == .locked || d.unkeyed.clock.state == .acquiring) = true := by
    rw [show d.unkeyed.clock.state = .locked from h]; rfl
  exact if_pos running

/-- The device that a port offers nothing. -/
def Dev.unoffered (d : Dev) (p : Nat) : Dev := d.modClock (fun c => { c with offers := tdel c.offers p })

/-- A LOCKED device, without a key of its own, whose only offers are its upstream's goes to HOLDOVER as they end. -/
theorem respTimeout_alone {d : Dev} (hstate : d.clock.state = .locked) (hup : d.clock.upstream < 96)
    (htime : d.clock.respTick + 2 * Sys2Proof.Machine.syncPeriod ≤ d.time) (hoffers : ∀ o ∈ d.clock.offers, o.1 = d.clock.upstream)
    (hkey : d.ownKey = noKey) :
    ∃ x : Dev, d.respTimeout = x.unkeyed.enterGtc .holdover 0 ∧ x.clock.state = .locked ∧ x.clock.offers = [] ∧ x.clock.gtc = d.clock.gtc ∧
      x.ports = d.ports ∧ x.ctxs = d.ctxs := by
  have gone : (d.unoffered d.clock.upstream).clock.offers = [] := List.filter_eq_nil_iff.mpr fun o ho => by simp [hoffers o ho]
  have dropped : d.respTimeout = (d.unoffered d.clock.upstream).elect := if_pos (by simp [hstate, hup, htime])
  have locked : (d.unoffered d.clock.upstream).clock.state = .locked := hstate
  have gtc : (d.unoffered d.clock.upstream).clock.gtc = d.clock.gtc := rfl
  have stays : (d.unoffered d.clock.upstream).ports = d.ports ∧ (d.unoffered d.clock.upstream).ctxs = d.ctxs := ⟨rfl, rfl⟩
  rw [dropped, elect_alone gone ((ownKey_congr rfl rfl).trans hkey)]
  generalize d.unoffered d.clock.upstream = x at gone locked gtc stays
  exact ⟨(x.adopting noKey).modClock (fun c => { c with spring := false }), alone_locked locked, locked, gone, gtc, stays.1, stays.2⟩

/-- The keys that a device has not heard for 4 sync periods are withdrawn (R194). -/
def Dev.unheard (d : Dev) : Dev :=
  (if d.clock.state == .locked || d.clock.state == .acquiring then d.enterGtc .holdover 0 else d).modClock
    (fun c => { c with offers := c.offers.filter (fun e => e.2.key ≠ c.adoptedKey) })

theorem loseSpring_eq {d : Dev} (hspring : d.clock.spring = false) (hkey : d.clock.adoptedKey ≠ noKey)
    (htime : d.clock.keyTick + 4 * Sys2Proof.Machine.syncPeriod ≤ d.time) : d.loseSpring = d.unheard.elect :=
  if_pos (by simp [hspring, hkey, htime])

theorem unheard_keeps (d : Dev) : d.Timed d.unheard ∧ d.unheard.clock.gtc = d.clock.gtc ∧ d.unheard.clock.hasGtc = d.clock.hasGtc ∧
    ∀ o ∈ d.unheard.clock.offers, o.2.key ≠ d.clock.adoptedKey := by
  have entered : d.Keeps (if d.clock.state == .locked || d.clock.state == .acquiring then d.enterGtc .holdover 0 else d) :=
    keeps_ite (keeps_enterGtc d _ _) ⟨timed_refl d, rfl⟩
  have key : (if d.clock.state == .locked || d.clock.state == .acquiring then d.enterGtc .holdover 0 else d).clock.adoptedKey =
      d.clock.adoptedKey := by
    split
    · rw [clock_enterGtc]; rfl
    · rfl
  obtain ⟨timed, beat⟩ := entered
  obtain ⟨gtc, _, has, _⟩ := beat_fields beat
  refine ⟨timed_trans timed (timed_modClock _ _), gtc, has, fun o ho => ?_⟩
  have kept := of_decide_eq_true (List.mem_filter.mp ho).2
  rwa [key] at kept

theorem holdoverEnds_invalid {d : Dev} (hstate : d.clock.state = .holdover) (hspring : d.clock.spring = false)
    (htime : d.clock.holdTick + secTicks ≤ d.time) : d.holdoverEnds = d.enterGtc .invalid 2 := by
  have ended : d.holdoverEnds = (d.enterGtc .invalid 2).springLocks := if_pos (by simp [hstate, htime])
  rw [ended]
  refine springLocks_stays fun h => ?_
  have spring : (d.enterGtc .invalid 2).clock.spring = d.clock.spring := by rw [clock_enterGtc]; rfl
  simp [Clock.locks, spring, hspring] at h

/-- A Spring whose PLL is locked to REFCLK leaves HOLDOVER by INVALID for LOCKED (log entry 44). -/
theorem holdoverEnds_locks {d : Dev} (hstate : d.clock.state = .holdover) (hspring : d.clock.spring = true) (hpll : d.clock.pllLocked = true)
    (href : d.clock.refOk = true) (htime : d.clock.holdTick + secTicks ≤ d.time) :
    d.holdoverEnds = ((d.enterGtc .invalid 2).modClock Clock.started).enterGtc .locked 0 := by
  have ended : d.holdoverEnds = (d.enterGtc .invalid 2).springLocks := if_pos (by simp [hstate, htime])
  rw [ended]
  refine springLocks_locks ?_
  rw [clock_enterGtc]
  exact ⟨hspring, hpll, href, rfl⟩

/-! ### The reference stops and returns (R207) -/

/-- The device whose reference stands still. -/
def Dev.refGone (d : Dev) : Dev :=
  d.modClock (fun c => { c with freezeTime := if c.frozen then c.freezeTime else c.time, frozen := true, refOk := false })

theorem refStop_eq (d : Dev) : d.refStop = (d.refGone.enterGtc .invalid 3).markSteps 6 := rfl

theorem timed_refStop (d : Dev) : d.Timed d.refStop :=
  timed_trans (timed_trans (timed_modClock d _) (timed_enterGtc _ _ _)) (timed_of_marked (marked_markSteps _ _))

/-- INVALID that is entered from another state leaves no launch of a loaded job armed. -/
theorem noArmed_enterGtc {d : Dev} (h : d.clock.state ≠ .invalid) (cause : Nat) {j : Nat} (hj : (d.job j).state ≠ .empty) :
    ((d.enterGtc .invalid cause).job j).NoArmed := by
  have before : d.Timed (((d.stateEntered .invalid cause).stateTraced d.clock.state).stateRecord .invalid cause) :=
    timed_trans (timed_stateEntered d _ _) (timed_trans (timed_stateTraced _ _) (timed_stateRecord _ _ _))
  have grade : (((d.stateEntered .invalid cause).stateTraced d.clock.state).stateRecord .invalid cause).launchGrade = false := by
    rw [Dev.launchGrade, clock_stateRecord, clock_stateTraced]
    rfl
  rw [enterGtc_eq, if_neg h]
  exact noArmed_withholdArmed grade (fun he => hj ((timed_state before j).symm.trans he))

/-- The reference of the GTC is back. -/
def Dev.refBack (d : Dev) : Dev := d.modClock (fun c => { c with refOk := true })

theorem refReturn_eq {d : Dev} (h : d.clock.refOk = false) (frac : Nat) :
    d.refReturn frac = if d.clock.spring then ((d.refBack.stepGtc d.tick (frac % 65536)).springLocks).elect else d.refBack.elect := by
  rw [Dev.refReturn, if_neg (by simp [h])]
  rfl

theorem timed_stepGtc (d : Dev) (value frac : Nat) : d.Timed (d.stepGtc value frac) :=
  timed_trans (timed_trans (timed_modClock d _) (timed_of_marked (marked_siltWrite _ _ _))) (timed_recordFault _ _)

theorem clock_stepGtc (d : Dev) (value frac : Nat) : (d.stepGtc value frac).clock =
    { d.clock with gtc := BitVec.ofNat 64 value, frac := frac, hasGtc := true, frozen := false, stepped := true, slew := 0, setPending := false } := by
  rw [Dev.stepGtc, clock_recordFault, Dev.siltStep, clock_siltWrite]
  rfl

theorem unacked_stepGtc (d : Dev) (value frac : Nat) : (tget {} (d.stepGtc value frac).faults.classes 7).unacked = true := by
  have raised : ∀ x : Dev, (tget {} (x.recordFault { source := 0x0703 }).faults.classes 7).unacked = true := by
    intro x
    have h := recordFault_unacked x { source := 0x0703 } rfl
    rwa [show ({ source := 0x0703 } : FaultRec).cls = 7 by simp [FaultRec.cls]] at h
  exact raised _

theorem timed_refReturn {d : Dev} (h : d.clock.refOk = false) (frac : Nat) : d.Timed (d.refReturn frac) := by
  rw [refReturn_eq h]
  split
  · exact timed_trans (timed_modClock d _) (timed_trans (timed_stepGtc _ _ _) (timed_trans (timed_springLocks _) (elect_goes _).1))
  · exact timed_trans (timed_modClock d _) (elect_goes _).1

/-- A device that the core PLL's lock lets run. -/
def Dev.pllOn (d : Dev) : Dev := d.modClock (fun c => { c with pllLocked := true, frozen := c.frozen && (c.hasGtc || !c.refOk) })

theorem pllLock_eq (d : Dev) : d.pllLock = d.pllOn.springLocks.elect := rfl

theorem timed_pllLock (d : Dev) : d.Timed d.pllLock := by
  have on : d.Timed d.pllOn := timed_modClock d _
  rw [pllLock_eq]
  exact timed_trans on (timed_trans (timed_springLocks _) (elect_goes _).1)

theorem goes_pllLock (d : Dev) : d.pllOn.clock.Goes d.pllLock.clock := goes_trans (goes_springLocks _) (elect_goes _).2

/-- The device that says it is the Spring. -/
def Dev.sprung (d : Dev) : Dev := d.modClock (fun c => { c with spring := true, depth := 0, rackDepth := 0, upstream := 0x7F })

theorem asSpring_eq {d : Dev} (h : d.clock.state ≠ .acquiring) : d.asSpring = d.sprung.steer := by
  have still : ¬ (d.sprung.clock.state == .acquiring) = true := fun hs => h (eq_of_beq hs)
  exact congrArg Dev.steer (if_neg still)

/-- A LOCKED device that is elected stays LOCKED. -/
theorem elected_locked {d : Dev} (h : d.clock.state = .locked) (key : Nat) :
    (d.adopting key).asSpring.springLocks = (d.adopting key).sprung.steer := by
  rw [asSpring_eq (show (d.adopting key).clock.state ≠ .acquiring by rw [show (d.adopting key).clock.state = .locked from h]; decide)]
  refine springLocks_stays fun hl => ?_
  have state : d.clock.state = .invalid := hl.2.2.2
  simp [h] at state

/-- An INVALID device that is elected locks. -/
theorem elected_invalid {d : Dev} (h : d.clock.state = .invalid) (hpll : d.clock.pllLocked = true) (href : d.clock.refOk = true) (key : Nat) :
    (d.adopting key).asSpring.springLocks = ((d.adopting key).sprung.steer.modClock Clock.started).enterGtc .locked 0 := by
  rw [asSpring_eq (show (d.adopting key).clock.state ≠ .acquiring by rw [show (d.adopting key).clock.state = .invalid from h]; decide)]
  exact springLocks_locks ⟨rfl, hpll, href, h⟩

/-- A clock that is the Spring's, LOCKED, and goes on as `b`. -/
def Clock.Leads (c : Clock) (key : Nat) (b : Clock) : Prop :=
  c.state = .locked ∧ c.spring = true ∧ c.adoptedKey = key ∧ c.depth = 0 ∧ c.beat = b.beat

/-- A device that adopts a key changes nothing else that its clock leads by. -/
theorem adopting_keeps (d : Dev) (key : Nat) : (d.adopting key).clock.adoptedKey = key ∧ (d.adopting key).clock.state = d.clock.state ∧
    (d.adopting key).clock.pllLocked = d.clock.pllLocked ∧ (d.adopting key).clock.refOk = d.clock.refOk ∧
    (d.adopting key).clock.beat = d.clock.beat := ⟨rfl, rfl, rfl, rfl, rfl⟩

theorem sprung_keeps (d : Dev) : d.sprung.clock.spring = true ∧ d.sprung.clock.depth = 0 ∧ d.sprung.clock.adoptedKey = d.clock.adoptedKey ∧
    d.sprung.clock.state = d.clock.state ∧ d.sprung.clock.pllLocked = d.clock.pllLocked ∧ d.sprung.clock.refOk = d.clock.refOk ∧
    d.sprung.clock.beat = d.clock.beat := ⟨rfl, rfl, rfl, rfl, rfl, rfl, rfl⟩

theorem steer_leads {d : Dev} {key : Nat} {b : Clock} (h : d.clock.Leads key b) : d.steer.clock.Leads key b := h

/-- A LOCKED device that is elected leads. -/
theorem locked_leads {d : Dev} (h : d.clock.state = .locked) (key : Nat) : (d.adopting key).asSpring.springLocks.clock.Leads key d.clock := by
  rw [elected_locked h]
  obtain ⟨adopted, state, _, _, beat⟩ := adopting_keeps d key
  generalize d.adopting key = x at adopted state beat
  obtain ⟨spring, depth, same, still, _, _, on⟩ := sprung_keeps x
  exact steer_leads ⟨still.trans (state.trans h), spring, same.trans adopted, depth, on.trans beat⟩

/-- An INVALID device that is elected leads from its first lock on. -/
theorem invalid_leads {d : Dev} (h : d.clock.state = .invalid) (hpll : d.clock.pllLocked = true) (href : d.clock.refOk = true) (key : Nat) :
    (d.adopting key).asSpring.springLocks.clock.Leads key d.clock.started := by
  rw [elected_invalid h hpll href]
  obtain ⟨adopted, _, _, _, beat⟩ := adopting_keeps d key
  generalize d.adopting key = x at adopted beat
  obtain ⟨spring, depth, same, _, _, _, on⟩ := sprung_keeps x
  generalize x.sprung = y at spring depth same on
  refine ⟨state_enterGtc _ _ _, ?_, ?_, ?_, (beat_enterGtc _ _ _).trans (started_of_beat (on.trans beat))⟩ <;> rw [clock_enterGtc]
  · exact spring
  · exact same.trans adopted
  · exact depth

/-- Where the Spring locks first or by its election, it has locked once. -/
theorem springs_lead {d : Dev} (hstate : d.clock.state = .invalid) (hpll : d.clock.pllLocked = true) (href : d.clock.refOk = true) (key : Nat) :
    (d.springLocks.adopting key).asSpring.springLocks.clock.Leads key d.clock.started := by
  by_cases hspring : d.clock.spring = true
  · rw [springLocks_locks ⟨hspring, hpll, href, hstate⟩]
    obtain ⟨state, spring, adopted, depth, beat⟩ := locked_leads (state_enterGtc (d.modClock Clock.started) .locked 0) key
    exact ⟨state, spring, adopted, depth, beat.trans (beat_enterGtc _ _ _)⟩
  · rw [springLocks_stays (fun h => hspring h.1)]
    exact invalid_leads hstate hpll href key

/-- What the lock of the core PLL makes of a device with a key, no offers and no time: it is the Spring, LOCKED. -/
theorem pllLock_leads {d : Dev} (hoffers : d.clock.offers = []) (hkey : d.ownKey < noKey) (href : d.clock.refOk = true)
    (hstate : d.clock.state = .invalid) : d.pllLock.clock.Leads d.ownKey d.pllOn.clock.started := by
  have offers : d.pllOn.springLocks.clock.offers = [] := (goes_fields (goes_springLocks d.pllOn)).1.trans hoffers
  have own : d.pllOn.springLocks.ownKey = d.ownKey := (timed_ownKey (timed_springLocks d.pllOn)).trans (ownKey_congr rfl rfl)
  have best := (bestKey_unoffered offers).trans own
  have named : d.pllOn.springLocks.bestKey ≠ noKey := fun h => Nat.ne_of_lt hkey (best.symm.trans h)
  rw [pllLock_eq, elect_spring ⟨named, best.trans own.symm⟩, own]
  exact springs_lead (d := d.pllOn) hstate rfl href _

/-- A clock that leads runs from its first value. -/
theorem leads_fields {c b : Clock} {key : Nat} (h : c.Leads key b.started) :
    c.frozen = false ∧ c.gtc = if b.hasGtc then b.gtc else 0 :=
  ⟨(congrArg Clock.frozen h.2.2.2.2 :), (congrArg Clock.gtc h.2.2.2.2 :)⟩

theorem pllLock_spring {d : Dev} (hoffers : d.clock.offers = []) (hkey : d.ownKey < noKey) (href : d.clock.refOk = true)
    (hstate : d.clock.state = .invalid) :
    d.pllLock.clock.state = .locked ∧ d.pllLock.clock.spring = true ∧ d.pllLock.clock.pllLocked = true ∧ d.pllLock.clock.adoptedKey = d.ownKey ∧
      d.pllLock.clock.frozen = false ∧ d.pllLock.clock.depth = 0 ∧ (d.clock.hasGtc = false → d.pllLock.clock.gtc = 0) ∧
      (d.clock.hasGtc = true → d.pllLock.clock.gtc = d.clock.gtc) := by
  have on : d.pllLock.clock.pllLocked = true := (goes_fields (goes_pllLock d)).2.2.2.1
  have leads := pllLock_leads hoffers hkey href hstate
  have gtc : d.pllLock.clock.gtc = if d.clock.hasGtc then d.clock.gtc else 0 := (leads_fields leads).2
  have thaws := (leads_fields leads).1
  generalize d.pllLock.clock = c at on leads gtc thaws
  obtain ⟨state, spring, key, depth, _⟩ := leads
  exact ⟨state, spring, on, key, thaws, depth, fun h => by rw [gtc, if_neg (by simp [h])], fun h => by rw [gtc, if_pos h]⟩

theorem pllLocked_pllLock (d : Dev) : d.pllLock.clock.pllLocked = true := (goes_fields (goes_pllLock d)).2.2.2.1

/-- The reference that has come back is so after the steps that follow. -/
theorem refOk_refReturn {d : Dev} (h : d.clock.refOk = false) (frac : Nat) : (d.refReturn frac).clock.refOk = true := by
  have stepped : (d.refBack.stepGtc d.tick (frac % 65536)).clock.refOk = true := by rw [clock_stepGtc]; rfl
  rw [refReturn_eq h]
  split
  · exact (goes_fields (goes_trans (goes_springLocks _) (elect_goes _).2)).2.2.2.2.1.trans stepped
  · exact (goes_fields (elect_goes d.refBack).2).2.2.2.2.1

/-- The Spring's GTC is stepped forward and runs. -/
theorem refReturn_spring {d : Dev} (h : d.clock.refOk = false) (hs : d.clock.spring = true) (frac : Nat) :
    (d.refReturn frac).clock.gtc = BitVec.ofNat 64 d.tick ∧ (d.refReturn frac).clock.frac = frac % 65536 ∧
      (d.refReturn frac).clock.frozen = false ∧ (tget {} (d.refReturn frac).faults.classes 7).unacked = true := by
  rw [refReturn_eq h, if_pos hs]
  generalize hx : d.refBack.stepGtc d.tick (frac % 65536) = x
  have clock : x.clock = { d.refBack.clock with gtc := BitVec.ofNat 64 d.tick, frac := frac % 65536, hasGtc := true, frozen := false,
                                                stepped := true, slew := 0, setPending := false } := by rw [← hx, clock_stepGtc]
  have raised : (tget {} x.faults.classes 7).unacked = true := by rw [← hx]; exact unacked_stepGtc _ _ _
  obtain ⟨_, _, hfrac, _, _, running, thawed⟩ := goes_fields (goes_trans (goes_springLocks x) (elect_goes _).2)
  refine ⟨(running (by rw [clock])).1.trans (by rw [clock]), hfrac.trans (by rw [clock]), thawed (by rw [clock]), ?_⟩
  exact (timed_trans (timed_springLocks x) (elect_goes _).1).unacked 7 raised

/-- Any other device's GTC keeps its value until its first exchange. -/
theorem refReturn_follows {d : Dev} (h : d.clock.refOk = false) (hs : d.clock.spring = false) (hkey : d.ownKey = noKey) (frac : Nat) :
    (d.refReturn frac).clock.gtc = d.clock.gtc ∧ (d.refReturn frac).clock.frozen = d.clock.frozen := by
  have own : d.refBack.ownKey = noKey := (ownKey_congr rfl rfl).trans hkey
  obtain ⟨_, beat⟩ := keeps_elect (d := d.refBack) (fun hb => hb.1 (hb.2.trans own))
  rw [refReturn_eq h, if_neg (by simp [hs])]
  obtain ⟨gtc, frozen, _⟩ := beat_fields beat
  exact ⟨gtc, frozen⟩

/-! ### The start at a reference that has come (R496) -/

theorem tget_listed {α : Type} (v : α) (f : Nat → α) {i : Nat} (l : List Nat) (hi : i ∈ l) : tget v (l.map (fun p => (p, f p))) i = f i := by
  induction l with
  | nil => cases hi
  | cons k l ih =>
    rw [List.map_cons, tget]
    split
    · next hik => rw [hik]
    · next hik => exact ih ((List.mem_cons.mp hi).resolve_left hik)

theorem port_startPorts (d : Dev) {p : Nat} (hp : p < 98) :
    (d.startPorts.port p).state = if d.keeper.imageState == .bad || d.mode p == 0 then .disabled else .txTune := by
  rw [Dev.port, Dev.startPorts]
  dsimp only
  rw [tget_listed]
  exact List.mem_range.mpr hp

theorem startPorts_keeps (d : Dev) : { d.startPorts with ports := [] } = { d with ports := [] } := by
  unfold Dev.startPorts
  dsimp only

/-- The capture probes that start change nothing else. -/
theorem startProbes_keeps (d : Dev) : { d.startProbes with probes := [] } = { d with probes := [] } := by
  have fold := foldl_keeps (fun d : Dev => { d with probes := [] }) (fun (e : Dev) i => e.setProbe i (nth (entries 16 (d.img 0x21)) i))
    (fun _ _ => by rfl) (List.range (entries 16 (d.img 0x21)).length) d
  exact fold

/-- The device whose reference has come, before its blocks start. -/
def Dev.refCome (d : Dev) : Dev := ((d.modPower (fun x => { x with refAbsent := false })).modClock (fun c => { c with refOk := true })).forceAlert false

theorem refResume_eq {d : Dev} (h : d.power.refAbsent = true) : d.refResume = d.refCome.startBlocks := if_pos h

theorem refCome_keeps (d : Dev) : d.refCome.power = { d.power with refAbsent := false } ∧ d.refCome.clock.refOk = true ∧ d.refCome.ctxs = d.ctxs ∧
    d.refCome.keeper.imageState = d.keeper.imageState ∧ ∀ p, d.refCome.mode p = d.mode p := by
  have come : d.refCome.rest = ((d.modPower (fun x => { x with refAbsent := false })).modClock (fun c => { c with refOk := true })).rest :=
    rest_forceAlert _ _
  have image : d.refCome.image = d.image := (congrArg Dev.image come :)
  refine ⟨(congrArg Dev.power come :), (congrArg (fun x : Dev => x.clock.refOk) come :), (congrArg Dev.ctxs come :),
    (congrArg (fun x : Dev => x.keeper.imageState) come :), fun p => ?_⟩
  rw [Dev.mode, Dev.mode, Dev.img, Dev.img, image]

theorem noteReady_up (d : Dev) : d.noteReady.keeper.up = d.keeper.up := by rw [noteReady_eq]

theorem startBlocks_eq (d : Dev) : d.startBlocks = ((d.modKeeper (fun k => { k with up := true })).startPorts.startProbes).elect := rfl

/-- The blocks that start: the Keeper is up, each port begins or is DISABLED, and the contexts stay. -/
theorem startBlocks_keeps (d : Dev) : d.startBlocks.power = d.power ∧ d.startBlocks.clock.refOk = d.clock.refOk ∧ d.startBlocks.keeper.up = true ∧
    d.startBlocks.ctxs = d.ctxs ∧
    ∀ p, p < 98 → (d.startBlocks.port p).state = if d.keeper.imageState == .bad || d.mode p == 0 then .disabled else .txTune := by
  rw [startBlocks_eq]
  generalize hu : d.modKeeper (fun k => { k with up := true }) = u
  have states : ∀ p, p < 98 → (u.startPorts.port p).state = if d.keeper.imageState == .bad || d.mode p == 0 then .disabled else .txTune := by
    intro p hp
    rw [port_startPorts u hp, ← hu]
    rfl
  have ported := startPorts_keeps u
  generalize u.startPorts = q at states ported
  have probed := startProbes_keeps q
  generalize q.startProbes = x at probed
  obtain ⟨timed, goes⟩ := elect_goes x
  have power : x.power = d.power := (congrArg Dev.power probed :).trans ((congrArg Dev.power ported :).trans (by rw [← hu]; rfl))
  have clock : x.clock = d.clock := (congrArg Dev.clock probed :).trans ((congrArg Dev.clock ported :).trans (by rw [← hu]; rfl))
  have up : x.keeper = u.keeper := (congrArg Dev.keeper probed :).trans (congrArg Dev.keeper ported :)
  have ctxs : x.ctxs = d.ctxs := (congrArg Dev.ctxs probed :).trans ((congrArg Dev.ctxs ported :).trans (by rw [← hu]; rfl))
  have ports : x.ports = q.ports := (congrArg Dev.ports probed :)
  refine ⟨(timed_power timed).trans power, (goes_fields goes).2.2.2.2.1.trans (congrArg Clock.refOk clock),
    (timed_up timed).trans (by rw [up, ← hu]; rfl), (timed_ctxs timed).trans ctxs, fun p hp => ?_⟩
  rw [(congrArg Port.state (timed.ports p) :), Dev.port, ports]
  exact states p hp

/-- Settles O32: each loss leads to its state of the GTC by `enterGtc`; the election and the Spring's lock let the clock go on or start it. -/
theorem timeIsLostAndReturns : Obligations.TimeIsLostAndReturns := by
  unfold Obligations.TimeIsLostAndReturns
  refine ⟨⟨?_, ?_, ?_, ?_, ?_⟩, ?_, ?_, ?_, ?_, ?_, ?_, ?_⟩
  · intro now s hstate hup htime hoffers hkey
    refine ⟨s.event now Dev.respTimeout, rfl, ?_⟩
    obtain ⟨x, hx, locked, gone, gtc, ports, ctxs⟩ := respTimeout_alone (d := s.devAt now) (by simpa using hstate) (by simpa using hup)
      (by simpa using htime) (by simpa using hoffers) hkey
    have recorded := enterGtc_holdover (d := x.unkeyed) (by rw [show x.unkeyed.clock.state = .locked from locked]; decide)
    rw [event_devAt, hx, noteReady_clock, noteReady_faults, noteReady_ports, noteReady_ctxs, ports_enterGtc, timed_ctxs (timed_enterGtc _ _ _)]
    refine ⟨state_enterGtc _ _ _, ?_, ?_, ?_, ?_, recorded, ports.trans (to_ports _ _), ctxs.trans (to_ctxs _ _)⟩ <;> rw [clock_enterGtc]
    · rfl
    · rfl
    · exact gone
    · exact gtc
  · intro now s hspring hkey htime
    refine ⟨s.event now Dev.loseSpring, rfl, ?_⟩
    obtain ⟨before, gtc, has, lost⟩ := unheard_keeps (s.devAt now)
    obtain ⟨timed, goes⟩ := elect_goes (s.devAt now).unheard
    obtain ⟨offers, _, _, _, _, running, _⟩ := goes_fields goes
    have both := timed_trans before timed
    rw [event_devAt, loseSpring_eq (d := s.devAt now) (by simpa using hspring) (by simpa using hkey) (by simpa using htime)]
    simp only [noteReady_clock, noteReady_port, noteReady_ctxs]
    refine ⟨fun o ho => ?_, fun hg => ?_, fun q => ?_, (timed_ctxs both).trans (to_ctxs _ _)⟩
    · rw [offers] at ho
      simpa using lost o ho
    · exact (running (has.trans ((clockHasGtc_devAt s now).trans hg))).1.trans gtc
    · rw [both.ports q, Dev.port, to_ports]
      rfl
  · intro now s hstate hspring htime
    refine ⟨s.event now Dev.holdoverEnds, rfl, ?_⟩
    rw [event_devAt, holdoverEnds_invalid (d := s.devAt now) (by simpa using hstate) (by simpa using hspring) (by simpa using htime),
      noteReady_clock, noteReady_faults, noteReady_ports, ports_enterGtc]
    refine ⟨state_enterGtc _ _ _, cause_enterGtc _ _ _, ?_, unacked_enterGtc_invalid (by simp [hstate]) 2, to_ports _ _⟩
    rw [clock_enterGtc]; rfl
  · rintro now c s (⟨rfl, h⟩ | ⟨rfl, h⟩ | ⟨rfl, h⟩)
    · refine ⟨s.event now Dev.respTimeout, rfl, rest_event_idle (if_neg ?_)⟩
      simp only [Bool.and_eq_true, Bool.or_eq_true, beq_iff_eq, decide_eq_true_eq, clockState_devAt, clockUpstream_devAt, clockRespTick_devAt]
      rintro ⟨⟨hstate, hup⟩, htime⟩
      obtain ht | hu | hl := h
      · omega
      · omega
      · exact hstate.elim hl.1 hl.2
    · refine ⟨s.event now Dev.loseSpring, rfl, rest_event_idle (if_neg ?_)⟩
      simp only [Bool.and_eq_true, Bool.not_eq_true', decide_eq_true_eq, clockSpring_devAt, clockKey_devAt, clockKeyTick_devAt]
      rintro ⟨⟨hspring, hkey⟩, htime⟩
      obtain ht | hs | hk := h
      · omega
      · simp [hspring] at hs
      · exact hkey hk
    · refine ⟨s.event now Dev.holdoverEnds, rfl, rest_event_idle (if_neg ?_)⟩
      simp only [Bool.and_eq_true, beq_iff_eq, decide_eq_true_eq, clockState_devAt, clockHoldTick_devAt]
      rintro ⟨hstate, htime⟩
      exact h.elim (fun ht => by omega) (fun hs => hs hstate)
  · intro now s hstate hspring hpll href htime
    refine ⟨s.event now Dev.holdoverEnds, rfl, ?_⟩
    have ctxs := timed_ctxs (timed_trans (timed_trans (timed_enterGtc (s.devAt now) .invalid 2) (timed_modClock _ Clock.started))
      (timed_enterGtc _ .locked 0))
    rw [event_devAt, holdoverEnds_locks (d := s.devAt now) (by simpa using hstate) (by simpa using hspring) (by simpa using hpll)
      (by simpa using href) (by simpa using htime), noteReady_clock, noteReady_ports, noteReady_ctxs, ports_enterGtc]
    refine ⟨state_enterGtc _ _ _, ?_, fun hg => ?_, (ports_enterGtc _ _ _).trans (to_ports _ _), ctxs.trans (to_ctxs _ _)⟩
    · rw [cause_enterGtc]
      exact cause_enterGtc (s.devAt now) .invalid 2
    · rw [clock_enterGtc]
      have gtc : ((s.devAt now).enterGtc .invalid 2).clock.started.gtc = (s.devAt now).clock.started.gtc := by rw [clock_enterGtc]; rfl
      exact gtc.trans (if_pos ((clockHasGtc_devAt s now).trans hg))
  · intro now s
    refine ⟨s.event now Dev.refStop, rfl, ?_⟩
    rw [event_devAt, noteReady_clock, noteReady_faults, noteReady_ports, noteReady_ctxs, timed_ctxs (timed_refStop _), refStop_eq, clock_markSteps,
      ports_markSteps, marked_faults (marked_markSteps _ _), ports_enterGtc]
    refine ⟨state_enterGtc _ _ _, cause_enterGtc _ _ _, ?_, ?_, ?_, to_ports _ _, to_ctxs _ _, fun hstate => ?_⟩
    · rw [clock_enterGtc]; rfl
    · rw [clock_enterGtc]; rfl
    · rw [clock_enterGtc]; rfl
    have was : (s.devAt now).refGone.clock.state ≠ .invalid := fun h => hstate ((clockState_devAt s now).symm.trans h)
    refine ⟨unacked_enterGtc_invalid was 3, fun j l hj hl => ?_⟩
    have loaded : ((s.devAt now).refGone.job j).state ≠ .empty := fun h => hj ((congrArg Job.state (job_devAt s now j)).symm.trans h)
    refine noArmed_of_timed (timed_of_marked (marked_markSteps _ 6)) (noArmed_enterGtc was 3 loaded) l ?_
    rwa [noteReady_job] at hl
  · intro frac now s href
    refine ⟨s.event now (Dev.refReturn frac), rfl, ?_⟩
    have stopped : (s.devAt now).clock.refOk = false := (clockRef_devAt s now).trans href
    have timed := timed_refReturn stopped frac
    simp only [event_devAt, noteReady_clock, noteReady_faults, noteReady_port, noteReady_ctxs]
    refine ⟨refOk_refReturn stopped frac, (timed_ctxs timed).trans (to_ctxs _ _),
      fun hspring => refReturn_spring stopped ((clockSpring_devAt s now).trans hspring) frac, fun hspring hkey => ?_, fun q => ?_⟩
    · obtain ⟨gtc, frozen⟩ := refReturn_follows stopped ((clockSpring_devAt s now).trans hspring) hkey frac
      exact ⟨gtc, frozen.trans (clockFrozen_devAt s now)⟩
    · rw [timed.ports q, Dev.port, to_ports]
      rfl
  · intro frac now s href
    exact ⟨s.event now (Dev.refReturn frac), rfl, rest_event_idle (if_pos (by simpa using href))⟩
  · intro now s
    refine ⟨s.event now Dev.pllLock, rfl, ?_⟩
    have timed := timed_pllLock (s.devAt now)
    simp only [event_devAt, noteReady_clock, noteReady_port, noteReady_ctxs]
    refine ⟨pllLocked_pllLock (s.devAt now), (timed_ctxs timed).trans (to_ctxs _ _), fun q => ?_⟩
    rw [timed.ports q, Dev.port, to_ports]
    rfl
  · intro now s hoffers hkey href hstate
    refine ⟨s.event now Dev.pllLock, rfl, ?_⟩
    have settled := pllLock_spring (d := s.devAt now) (by simpa using hoffers) hkey (by simpa using href) (by simpa using hstate)
    rw [clockHasGtc_devAt] at settled
    rw [event_devAt, noteReady_clock]
    exact settled
  · intro now s habsent
    refine ⟨s.event now Dev.refResume, rfl, ?_⟩
    have absent : (s.devAt now).power.refAbsent = true := by rw [to_power]; exact habsent
    obtain ⟨power, ref, up, ctxs, states⟩ := startBlocks_keeps (s.devAt now).refCome
    obtain ⟨hpower, hclock, hctxs, himage, hmode⟩ := refCome_keeps (s.devAt now)
    rw [event_devAt, refResume_eq absent]
    simp only [noteReady_power, noteReady_clock, noteReady_port, noteReady_ctxs]
    refine ⟨by rw [power, hpower], ref.trans hclock, (noteReady_up _).trans up, fun p hp => ?_, ctxs.trans (hctxs.trans (to_ctxs _ _))⟩
    rw [states p hp, himage, hmode, to_keeper]
    simp
  · intro now s habsent
    exact ⟨s.event now Dev.refResume, rfl, rest_event_idle (if_neg (by rw [to_power, habsent]; simp))⟩

end Sys2Proof.Machine
end

section
/-! PROOFS. Sync requests and responses, and the delay that they measure (R196 to R198). -/

namespace Sys2Proof.Machine

/-! ### Frames of the Keeper's own leave the state of the ports (R247, R302, R308) -/

/-- A port without what a packet of the device's own touches: its training, its sleep and its queues. -/
def Port.steady (x : Port) : Port :=
  { x with trainNext := 0, trainTime := none, txSleep := 0, wakeTick := 0, precoder := [], wrote := (0, 0), outQ := [], waiting := [] }

theorem steady_fields {x y : Port} (h : y.steady = x.steady) :
    y.state = x.state ∧ y.exchSeq = x.exchSeq ∧ y.sentT1 = x.sentT1 ∧ y.reqTick = x.reqTick :=
  ⟨(congrArg Port.state h :), (congrArg Port.exchSeq h :), (congrArg Port.sentT1 h :), (congrArg Port.reqTick h :)⟩

/-- A change of one port that a view of it does not see. -/
theorem port_modPort_view {α : Type} (view : Port → α) {d : Dev} {p : Nat} {f : Port → Port} (h : view (f (d.port p)) = view (d.port p)) (q : Nat) :
    view ((d.modPort p f).port q) = view (d.port q) := by
  by_cases hq : q = p
  · rw [hq, port_modPort_same, h]
  · rw [port_modPort_other _ hq]

theorem port_of_quiet {d e : Dev} (h : e.quiet = d.quiet) (q : Nat) : e.port q = d.port q := rest_port (rest_of_quiet h) q

theorem steady_sendTraining (d : Dev) (p r k q : Nat) : ((d.sendTraining p r k).port q).steady = (d.port q).steady := by
  have sent : ∀ x, (d.send x).port q = d.port q := fun x => port_of_quiet (quiet_send _ _) q
  rw [Dev.sendTraining, port_modPort_view Port.steady (by rfl), sent]

theorem steady_wake (d : Dev) (p q : Nat) : ((d.wake p).port q).steady = (d.port q).steady := by
  have counted : ∀ (e : Dev) (i n : Nat), (e.countPort p i n).port q = e.port q := fun e i n => port_of_quiet (quiet_countPort e p i n) q
  have trained : ((d.exitTraining p).port q).steady = (d.port q).steady :=
    foldl_keeps (fun e : Dev => (e.port q).steady) _ (fun e _ => steady_sendTraining e p 1 0 q) _ d
  have awake : ∀ x : Port, { x with txSleep := 0, wakeTick := 0, precoder := [], trainTime := none }.steady = x.steady := fun _ => rfl
  unfold Dev.wake Dev.endSleep
  split
  · rfl
  · rw [counted, port_modPort_view Port.steady (awake _)]
    split
    · rw [counted, trained]
    · split
      · rw [counted, trained]
      · exact trained

theorem steady_putVc6 (d : Dev) (f : OwnFrame) (q : Nat) : ((d.putVc6 f).port q).steady = (d.port q).steady := by
  have counted : ∀ (e : Dev) (i n : Nat), (e.countDev i n).port q = e.port q := fun e i n => port_of_quiet (quiet_countDev e i n) q
  have mirrored : ∀ (e : Dev) b p r x, (e.mirror b p r x).port q = e.port q := fun e b p r x => port_of_quiet (quiet_mirror e b p r x) q
  have sent : ∀ x, (d.send x).port q = d.port q := fun x => port_of_quiet (quiet_send _ _) q
  rw [Dev.putVc6, mirrored, Dev.wrote, port_modPort_view Port.steady (by rfl), Dev.enqueue, counted, Dev.relink,
    port_modPort_view Port.steady (by rfl), sent]

theorem steady_admitOwn (fs : List OwnFrame) (used : Nat) (held : List Nat) (d : Dev) (q : Nat) :
    ((admitOwn fs used held d).1.port q).steady = (d.port q).steady := by
  induction fs generalizing used held d with
  | nil => rfl
  | cons f r ih =>
    unfold admitOwn
    split
    · rfl
    · split
      · rw [ih, port_modPort_view Port.steady (by rfl)]
      · split
        · rw [ih, steady_putVc6]
        · exact ih _ _ _

theorem steady_moveOwn (d : Dev) (q : Nat) : (d.moveOwn.port q).steady = (d.port q).steady := by
  unfold Dev.moveOwn
  split
  · rfl
  · have admitted := steady_admitOwn d.own d.rdmaCells [] { d with own := [] } q
    exact admitted

theorem steady_sendVc6 (d : Dev) (p cls job : Nat) (content : Bytes) (q : Nat) :
    ((d.sendVc6 p cls job content).port q).steady = (d.port q).steady := (steady_moveOwn _ q).trans (steady_wake d p q)

/-! ### A frame of the Keeper's own is sent or waits (R308) -/

/-- What the Keeper's frames leave of the darkness of the ports. -/
theorem darkPort_of_inward {d e : Dev} (h : e.inward = d.inward) (p : Nat) : e.darkPort p = d.darkPort p := by
  have power : e.power = d.power := (congrArg Dev.power h :)
  rw [Dev.darkPort, Dev.darkPort, power]

theorem sent_putVc6 {d : Dev} (f : OwnFrame) : d.SentBy (d.putVc6 f) ∧ (d.darkPort f.port = false → Sent.packet f.port 6 f.bytes false ∈ (d.putVc6 f).sent) := by
  have queued : ∀ e : Dev, ((e.enqueue f.port 6 f.flits).wrote f.port f.flits.length).sent = e.sent :=
    fun e => sent_count (e.relink f.port 6 f.flits) _ _
  have mirrored := sentBy_mirror (((d.send (.packet f.port 6 f.bytes false)).enqueue f.port 6 f.flits).wrote f.port f.flits.length) true f.port
    (some (f.bytes.take 16)) f.bytes
  refine ⟨sentBy_trans (sentBy_send d _) (sentBy_trans (sentBy_of_eq (queued _)) mirrored), fun hlit => mirrored _ ?_⟩
  rw [queued, Dev.send, if_neg (by simp [Sent.fibre, hlit])]
  exact List.mem_append_right _ (List.mem_singleton.mpr rfl)

theorem sentBy_admitOwn (fs : List OwnFrame) (used : Nat) (held : List Nat) (d : Dev) : d.SentBy (admitOwn fs used held d).1 := by
  induction fs generalizing used held d with
  | nil => exact sentBy_of_eq rfl
  | cons f r ih =>
    unfold admitOwn
    split
    · exact sentBy_of_eq rfl
    · split
      · exact sentBy_trans (sentBy_of_eq (sent_modPort _ _ _)) (ih _ _ _)
      · split
        · exact sentBy_trans (sent_putVc6 f).1 (ih _ _ _)
        · exact ih _ _ _

/-- A frame of the Keeper's own that is not an RDMA command's is sent or waits. -/
theorem admitOwn_sends {f : OwnFrame} (hown : f.rdma = none) (fs : List OwnFrame) (used : Nat) (held : List Nat) (d : Dev) (hf : f ∈ fs)
    (hlit : d.darkPort f.port = false) :
    Sent.packet f.port 6 f.bytes false ∈ (admitOwn fs used held d).1.sent ∨ f ∈ (admitOwn fs used held d).2 := by
  induction fs generalizing used held d with
  | nil => cases hf
  | cons g r ih =>
    unfold admitOwn
    split
    · exact .inr hf
    · obtain rfl | hr := List.mem_cons.mp hf
      · rw [hown]
        dsimp only
        split
        · exact .inl (sentBy_admitOwn _ _ _ _ _ ((sent_putVc6 f).2 hlit))
        · exact .inr (List.mem_cons_self ..)
      · split
        · exact ih _ _ _ hr ((darkPort_of_inward (inward_modPort _ _ _) _).trans hlit)
        · split
          · exact ih _ _ _ hr ((darkPort_of_inward (inward_putVc6 _ _) _).trans hlit)
          · exact (ih _ _ _ hr hlit).imp_right (List.mem_cons_of_mem _)

theorem moveOwn_sends {d : Dev} {f : OwnFrame} (hown : f.rdma = none) (hf : f ∈ d.own) (hlit : d.darkPort f.port = false) :
    Sent.packet f.port 6 f.bytes false ∈ d.moveOwn.sent ∨ f ∈ d.moveOwn.own := by
  have lit : ({ d with own := [] } : Dev).darkPort f.port = false := hlit
  have sends := admitOwn_sends hown d.own d.rdmaCells [] { d with own := [] } hf lit
  rw [Dev.moveOwn, if_neg (List.ne_nil_of_mem hf)]
  exact sends

/-- A packet on VC6 of a port that is not dark is on its way, or waits with the Keeper's own frames. -/
theorem sendVc6_sends {d : Dev} {p : Nat} (hlit : d.darkPort p = false) (cls job : Nat) (content : Bytes) :
    Sent.packet p 6 (routeFor cls job 0 6 content ++ content) false ∈ (d.sendVc6 p cls job content).sent ∨
      ∃ w ∈ (d.sendVc6 p cls job content).own, w.port = p ∧ w.bytes = routeFor cls job 0 6 content ++ content := by
  have queued : ∃ (e : Dev) (f : OwnFrame), d.sendVc6 p cls job content = e.moveOwn ∧ f ∈ e.own ∧ e.darkPort p = (d.wake p).darkPort p ∧
      f.rdma = none ∧ f.port = p ∧ f.bytes = routeFor cls job 0 6 content ++ content :=
    ⟨_, _, rfl, List.mem_append_right _ (List.mem_singleton.mpr rfl), rfl, rfl, rfl, rfl⟩
  obtain ⟨e, f, sends, member, dark, hown, port, bytes⟩ := queued
  have lit : e.darkPort f.port = false := by rw [port, dark, darkPort_of_inward (inward_wake d p), hlit]
  rw [sends, ← bytes, ← port]
  exact (moveOwn_sends hown member lit).imp_right fun h => ⟨f, h, rfl, rfl⟩

/-! ### Received election fields (R193, R194) -/

/-- A port without what the election and the warnings of its delay touch. -/
def Port.untimed (x : Port) : Port := { x with reqDue := 0, peerUpstream := false, drift := false }

theorem untimed_fields {x y : Port} (h : y.untimed = x.untimed) : y.state = x.state ∧ y.sentT1 = x.sentT1 ∧ y.delay = x.delay ∧
    y.hasDelay = x.hasDelay ∧ y.outliers = x.outliers ∧ y.calibDone = x.calibDone ∧ y.bringupSum = x.bringupSum ∧
    y.bringupDelay = x.bringupDelay ∧ y.hasBringup = x.hasBringup :=
  ⟨(congrArg Port.state h :), (congrArg Port.sentT1 h :), (congrArg Port.delay h :), (congrArg Port.hasDelay h :), (congrArg Port.outliers h :),
    (congrArg Port.calibDone h :), (congrArg Port.bringupSum h :), (congrArg Port.bringupDelay h :), (congrArg Port.hasBringup h :)⟩

/-- A port whose request alone has become due is the same without what time sets. -/
theorem untimed_of_reqDue {x y : Port} (h : { x with reqDue := 0 } = { y with reqDue := 0 }) : x.untimed = y.untimed :=
  congrArg (fun x : Port => { x with peerUpstream := false, drift := false }) h

/-- The device with the fields of a received frame, before the election. -/
def Dev.offered (d : Dev) (p : Nat) (b : Bytes) : Dev :=
  d.modClock (fun c =>
    { c with offers := tset c.offers p { key := sfKey b, depth := sfDepth b, rackId := sfRack b, rackDepth := sfRackDepth b, tick := d.tick },
             keyTick := if sfKey b = c.adoptedKey then c.time else c.keyTick })

theorem takeOffer_eq (d : Dev) (p : Nat) (b : Bytes) : d.takeOffer p b =
    ((d.offered p b).modPort p (fun x =>
      { x with peerUpstream := decide (sfKey b = (d.offered p b).clock.adoptedKey ∧ sfDepth b = (d.offered p b).clock.depth + 1) })).elect := rfl

/-- What a received frame leaves of the device, and what its port offers by it. -/
structure Dev.Offered (p : Nat) (b : Bytes) (d e : Dev) : Prop where
  ports : ∀ q, (e.port q).untimed = (d.port q).untimed
  ctxs : e.ctxs = d.ctxs
  image : e.image = d.image
  power : e.power = d.power
  offer : ∃ o, (p, o) ∈ e.clock.offers ∧ o.key = sfKey b ∧ o.depth = sfDepth b

theorem mem_tset {α : Type} (t : Table α) (i : Nat) (v : α) : (i, v) ∈ tset t i v := by
  induction t with
  | nil => simp [tset]
  | cons e t ih =>
    unfold tset
    split
    · simp
    · split
      · simp_all
      · exact List.mem_cons_of_mem _ ih

theorem takeOffer_offered (d : Dev) (p : Nat) (b : Bytes) : d.Offered p b (d.takeOffer p b) := by
  have offers : ∃ o, (p, o) ∈ (d.offered p b).clock.offers ∧ o.key = sfKey b ∧ o.depth = sfDepth b := ⟨_, mem_tset _ p _, rfl, rfl⟩
  have stays : (d.offered p b).ports = d.ports ∧ (d.offered p b).ctxs = d.ctxs ∧ (d.offered p b).image = d.image ∧ (d.offered p b).power = d.power :=
    ⟨rfl, rfl, rfl, rfl⟩
  rw [takeOffer_eq]
  generalize d.offered p b = x at offers stays
  obtain ⟨ports, ctxs, image, power⟩ := stays
  generalize hy : Dev.modPort _ _ _ = y
  have marked : ∀ q, (y.port q).untimed = (x.port q).untimed := by
    rw [← hy]
    exact port_modPort_view Port.untimed rfl
  have same : y.ctxs = x.ctxs ∧ y.image = x.image ∧ y.power = x.power ∧ y.clock = x.clock := by rw [← hy]; exact ⟨rfl, rfl, rfl, rfl⟩
  obtain ⟨hctxs, himage, hpower, hclock⟩ := same
  obtain ⟨timed, goes⟩ := elect_goes y
  refine ⟨fun q => ?_, (timed_ctxs timed).trans (hctxs.trans ctxs), (timed_image timed).trans (himage.trans image),
    (timed_power timed).trans (hpower.trans power), ?_⟩
  · refine (untimed_of_reqDue (timed.ports q)).trans ((marked q).trans ?_)
    rw [Dev.port, ports]
    rfl
  · rw [(goes_fields goes).1, hclock]
    exact offers

/-! ### Requests (R196, R198) -/

theorem syncFrame_congr {d e : Dev} (hclock : e.clock = d.clock) (himage : e.image = d.image) (typ seq t1 t2 t3 : Nat) :
    e.syncFrame typ seq t1 t2 t3 = d.syncFrame typ seq t1 t2 t3 := by
  have rack : e.rackId = d.rackId := by rw [Dev.rackId, Dev.rackId, Dev.img, Dev.img, himage]
  rw [Dev.syncFrame, Dev.syncFrame, hclock, rack]

/-- What a packet on VC6 leaves of a device. -/
theorem sendVc6_keeps (d : Dev) (p cls job : Nat) (content : Bytes) : (d.sendVc6 p cls job content).clock = d.clock ∧
    (d.sendVc6 p cls job content).image = d.image ∧ (d.sendVc6 p cls job content).ctxs = d.ctxs ∧ (d.sendVc6 p cls job content).jobs = d.jobs ∧
    (d.sendVc6 p cls job content).faults = d.faults := by
  have inward := inward_sendVc6 d p cls job content
  exact ⟨(congrArg Dev.clock inward :), (congrArg Dev.image inward :), (congrArg Dev.ctxs inward :), (congrArg Dev.jobs inward :),
    (congrArg Dev.faults inward :)⟩

/-- A port that opens an exchange. -/
def Dev.opening (d : Dev) (p t1 : Nat) : Dev :=
  d.modPort p (fun x =>
    { x with exchSeq := ((d.port p).exchSeq + 1) % 2 ^ 16, sentT1 := some (((d.port p).exchSeq + 1) % 2 ^ 16, t1),
             reqDue := if d.fastSync p then d.time + fastPeriod else x.reqDue, reqTick := d.gtc })

theorem syncPeriod_eq {d : Dev} {p : Nat} (h : d.reqIsDue p = true) (frac : Nat) : d.syncPeriod p frac =
    (d.opening p (d.gtc * 65536 + frac % 65536)).sendVc6 p 3 0
      (d.syncFrame 1 (((d.port p).exchSeq + 1) % 2 ^ 16) (d.gtc * 65536 + frac % 65536) 0 0) := if_pos h

theorem port_opening (d : Dev) (p t1 : Nat) : ((d.opening p t1).port p).exchSeq = ((d.port p).exchSeq + 1) % 2 ^ 16 ∧
    ((d.opening p t1).port p).sentT1 = some (((d.port p).exchSeq + 1) % 2 ^ 16, t1) ∧ ((d.opening p t1).port p).reqTick = d.gtc := by
  rw [Dev.opening, port_modPort_same]
  exact ⟨rfl, rfl, rfl⟩

theorem opening_keeps (d : Dev) (p t1 : Nat) : (d.opening p t1).clock = d.clock ∧ (d.opening p t1).ctxs = d.ctxs ∧
    (d.opening p t1).jobs = d.jobs ∧ (d.opening p t1).faults = d.faults := ⟨rfl, rfl, rfl, rfl⟩

theorem state_opening (d : Dev) (p t1 q : Nat) : ((d.opening p t1).port q).state = (d.port q).state := port_modPort_view Port.state (by rfl) q

/-- A port whose peer has begun an exchange. -/
def Dev.peerHeard (d : Dev) (p gtc : Nat) : Dev := d.modPort p (fun x => { x with peerDone := gtc / Sys2Proof.Machine.syncPeriod })

theorem peerHeard_keeps (d : Dev) (p gtc : Nat) : (d.peerHeard p gtc).clock = d.clock ∧ (d.peerHeard p gtc).ctxs = d.ctxs ∧
    (d.peerHeard p gtc).power = d.power ∧ ∀ q, ((d.peerHeard p gtc).port q).state = (d.port q).state :=
  ⟨rfl, rfl, rfl, fun q => port_modPort_view Port.state (by rfl) q⟩

theorem syncReq_eq {d : Dev} {p : Nat} {b : Bytes} (hs : d.syncs p = true) (hb : sfBad b 1 = false) (t2 t3 : Nat) :
    d.syncReq p b t2 t3 = ((d.takeOffer p b).peerHeard p d.gtc).sendVc6 p 3 0 (((d.takeOffer p b).peerHeard p d.gtc).syncFrame 2 (sfSeq b) (sfStamp b 16) t2 t3) := by
  rw [Dev.syncReq, if_neg (by simp [hs]), if_neg (by simp [hb])]
  rfl

theorem port_devAt (s : State) (now q : Nat) : (s.devAt now).port q = s.dev.port q := by rw [Dev.port, Dev.port, to_ports]

/-- Settles O30: the frame of an exchange is sent or waits with the Keeper's own frames, and what is sent changes no port's state. -/
theorem syncFramesAreSentAndAnswered : Obligations.SyncFramesAreSentAndAnswered := by
  unfold Obligations.SyncFramesAreSentAndAnswered
  refine ⟨?_, ?_, ?_, ?_, ?_⟩
  · intro p now frac s hdue hlit
    refine ⟨s.event now (Dev.syncPeriod p frac), (s.devAt now).syncFrame 1 (((s.dev.port p).exchSeq + 1) % 2 ^ 16)
      ((s.devAt now).gtc * 65536 + frac % 65536) 0 0, rfl, ?_⟩
    have lit : ((s.devAt now).opening p ((s.devAt now).gtc * 65536 + frac % 65536)).darkPort p = false :=
      (darkPort_devAt s now p).trans hlit
    obtain ⟨seq, t1, tick⟩ := port_opening (s.devAt now) p ((s.devAt now).gtc * 65536 + frac % 65536)
    obtain ⟨clock, ctxs, jobs, faults⟩ := opening_keeps (s.devAt now) p ((s.devAt now).gtc * 65536 + frac % 65536)
    have states := state_opening (s.devAt now) p ((s.devAt now).gtc * 65536 + frac % 65536)
    rw [event_devAt, syncPeriod_eq hdue]
    rw [port_devAt] at seq t1 ⊢
    generalize Dev.opening _ p _ = e at *
    simp only [noteReady_port, noteReady_sent, noteReady_own, noteReady_clock, noteReady_ctxs, noteReady_jobs, noteReady_faults]
    generalize hf : (s.devAt now).syncFrame 1 _ _ 0 0 = f
    obtain ⟨hclock, _, hctxs, hjobs, hfaults⟩ := sendVc6_keeps e p 3 0 f
    obtain ⟨_, hseq, ht1, htick⟩ := steady_fields (steady_sendVc6 e p 3 0 f p)
    rw [hseq, ht1, htick, seq, t1, tick, hf]
    refine ⟨rfl, rfl, rfl, rfl, sendVc6_sends lit 3 0 f, hclock.trans clock, ?_, ?_, ?_, fun q => ?_⟩
    · rw [hctxs, ctxs, to_ctxs]
    · rw [hjobs, jobs, to_jobs]
    · rw [hfaults, faults, to_faults]
    · rw [(steady_fields (steady_sendVc6 e p 3 0 f q)).1, states, port_devAt]
  · intro p now frac s hdue
    exact ⟨s.event now (Dev.syncPeriod p frac), rfl, rest_event_idle (if_neg (by simp [hdue]))⟩
  · intro p now t2 t3 b s hs hlit hb
    refine ⟨s.event now (Dev.syncReq p b t2 t3), _, rfl, rfl, ?_⟩
    obtain ⟨ports, ctxs, _, power, offer⟩ := takeOffer_offered (s.devAt now) p b
    rw [event_devAt, syncReq_eq hs hb]
    generalize (s.devAt now).takeOffer p b = x at *
    obtain ⟨clocked, kept, powered, states⟩ := peerHeard_keeps x p (s.devAt now).gtc
    generalize x.peerHeard p (s.devAt now).gtc = e at *
    have lit : e.darkPort p = false := by
      rw [Dev.darkPort, powered, power]
      exact (darkPort_devAt s now p).trans hlit
    generalize hf : e.syncFrame 2 (sfSeq b) (sfStamp b 16) t2 t3 = f
    obtain ⟨hclock, himage, hctxs, _⟩ := sendVc6_keeps e p 3 0 f
    rw [syncFrame_congr (d := e) (by rw [noteReady_clock, hclock]) (by rw [noteReady_image, himage]), hf]
    simp only [noteReady_port, noteReady_sent, noteReady_own, noteReady_clock, noteReady_ctxs]
    refine ⟨sendVc6_sends lit 3 0 f, hclock ▸ clocked ▸ offer, ?_, fun q => ?_⟩
    · rw [hctxs, kept, ctxs, to_ctxs]
    · rw [(steady_fields (steady_sendVc6 e p 3 0 f q)).1, states, (untimed_fields (ports q)).1, port_devAt]
  · rintro p now t2 t3 b c s hs (⟨rfl, hb⟩ | ⟨rfl, hb⟩)
    · have counted : (s.devAt now).syncReq p b t2 t3 = (s.devAt now).countPort p 0x1B 1 := by
        rw [Dev.syncReq, if_neg (by simp [hs]), if_pos hb]
      refine ⟨s.event now (Dev.syncReq p b t2 t3), rfl, ?_⟩
      rw [event_devAt, counted, rest_noteReady, noteReady_ctrs]
      exact ⟨rest_countPort _ _ _ _, rfl⟩
    · have counted : (s.devAt now).syncResp p b t2 = (s.devAt now).countPort p 0x1B 1 := by
        rw [Dev.syncResp, if_neg (by simp [hs]), if_pos hb]
      refine ⟨s.event now (Dev.syncResp p b t2), rfl, ?_⟩
      rw [event_devAt, counted, rest_noteReady, noteReady_ctrs]
      exact ⟨rest_countPort _ _ _ _, rfl⟩
  · rintro p now n t2 t3 b c s hs (rfl | rfl | rfl)
    · exact ⟨s.event now (Dev.syncPeriod p n), rfl, rest_event_idle (if_neg (by simp [Dev.reqIsDue, hs]))⟩
    · exact ⟨s.event now (Dev.syncReq p b t2 t3), rfl, rest_event_idle (if_pos (by simp [hs]))⟩
    · exact ⟨s.event now (Dev.syncResp p b n), rfl, rest_event_idle (if_pos (by simp [hs]))⟩

/-! ### Responses (R197, R198) -/

/-- `e` is `d` but for its clock, its reports and what the election and the warnings of a delay touch of a port. -/
structure Dev.Paced (d e : Dev) : Prop where
  ports : ∀ q, (e.port q).untimed = (d.port q).untimed
  ctxs : e.ctxs = d.ctxs

theorem paced_trans {d e t : Dev} (h : d.Paced e) (h' : e.Paced t) : d.Paced t :=
  ⟨fun q => (h'.ports q).trans (h.ports q), h'.ctxs.trans h.ctxs⟩

theorem paced_of_timed {d e : Dev} (h : d.Timed e) : d.Paced e :=
  ⟨fun q => untimed_of_reqDue (h.ports q), timed_ctxs h⟩

theorem paced_of_rest {d e : Dev} (h : e.rest = d.rest) : d.Paced e := ⟨fun q => congrArg Port.untimed (rest_port h q), (rest_fields h).2.1⟩

theorem paced_modPort {d : Dev} {p : Nat} {f : Port → Port} (h : (f (d.port p)).untimed = (d.port p).untimed) : d.Paced (d.modPort p f) :=
  ⟨port_modPort_view Port.untimed h, rfl⟩

theorem paced_checkDrift (d : Dev) (p : Nat) : d.Paced (d.checkDrift p) := by
  unfold Dev.checkDrift
  dsimp only
  split
  · exact paced_trans (paced_modPort (by rfl)) (paced_of_rest (rest_recordFault _ _))
  · split
    · exact paced_trans (paced_modPort (by rfl)) (paced_of_rest (rest_recordFault _ _))
    · exact paced_of_rest rfl

/-- The device that knows the offset of an exchange. -/
def Dev.offBy (d : Dev) (o : Int) : Dev := d.modClock (fun c => { c with offset := offsetField o })

/-- The device whose servo slews by an offset. -/
def Dev.slewed (d : Dev) (o : Int) : Dev :=
  d.modClock (fun c =>
    { c with slew := -o, goodRun := if o.natAbs ≤ 16384 then c.goodRun + 1 else 0, badRun := if 524288 < o.natAbs then c.badRun + 1 else 0 })

/-- The state of the GTC after an exchange that slews (R200). -/
def Dev.settled (d : Dev) : Dev :=
  if d.clock.state == .acquiring && decide (16 ≤ d.clock.goodRun) then d.enterGtc .locked 0
  else if d.clock.state == .locked && decide (2 ≤ d.clock.badRun) then d.enterGtc .acquiring 6
  else if d.clock.fast && decide (16 ≤ d.clock.goodRun) then d.modClock (fun c => { c with fast := false })
  else d

theorem servo_eq (d : Dev) (b : Bytes) (del o : Int) : d.servo b del o =
    if (d.offBy o).clock.setPending then
      (d.offBy o).stepGtc (((sfStamp b 36 : Int) + del).toNat / 65536) (((sfStamp b 36 : Int) + del).toNat % 65536)
    else ((d.offBy o).slewed o).settled := rfl

theorem timed_settled (d : Dev) : d.Timed d.settled := by
  unfold Dev.settled
  split
  · exact timed_enterGtc _ _ _
  · split
    · exact timed_enterGtc _ _ _
    · split
      · exact timed_modClock _ _
      · exact timed_refl _

/-- The servo moves the clock, by its rate or by a step, and the GTC between its states. -/
theorem timed_servo (d : Dev) (b : Bytes) (del o : Int) : d.Timed (d.servo b del o) := by
  have off : d.Timed (d.offBy o) := timed_modClock d _
  rw [servo_eq]
  split
  · exact timed_trans off (timed_stepGtc _ _ _)
  · exact timed_trans off (timed_trans (timed_modClock _ _) (timed_settled _))

/-- A port that counts a bring-up exchange. -/
theorem calibrate_counts {d : Dev} {p : Nat} (h : (d.port p).calibDone + 1 < 64) (del o : Int) :
    ((d.calibrate p del o).port p).calibDone = (d.port p).calibDone + 1 ∧ ((d.calibrate p del o).port p).state = (d.port p).state ∧
      ((d.calibrate p del o).port p).sentT1 = (d.port p).sentT1 ∧
      ((d.calibrate p del o).port p).bringupSum = (if (d.port p).calibDone = 0 then 0 else (d.port p).bringupSum) + del ∧
      (d.calibrate p del o).ctxs = d.ctxs := by
  rw [Dev.calibrate]
  dsimp only
  rw [if_pos h, port_modPort_same]
  exact ⟨rfl, rfl, rfl, rfl, rfl⟩

/-- A port that enters a link state, and what that leaves. -/
theorem setLink_keeps (d : Dev) (p : Nat) (st : LinkState) :
    (d.setLink p st).port p = (d.port p).enter st d.time ∧ (d.setLink p st).ctxs = d.ctxs := by
  unfold Dev.setLink
  dsimp only
  split
  · exact ⟨port_modPort_same _ _ _, rfl⟩
  · rw [Dev.siltLink, rest_port (rest_siltWrite _ _ _), port_modPort_same]
    exact ⟨rfl, (rest_fields (rest_siltWrite _ _ _)).2.1⟩

/-- The port after its 64th bring-up exchange. -/
theorem calibrate_ends {d : Dev} {p : Nat} (h : 64 ≤ (d.port p).calibDone + 1) (del o : Int) :
    ((d.calibrate p del o).port p).state = .up ∧ ((d.calibrate p del o).port p).hasBringup = true ∧
      ((d.calibrate p del o).port p).bringupDelay = ((d.port p).bringupSum + del) / 64 ∧
      ((d.calibrate p del o).port p).delay = ((d.calibrate p del o).port p).bringupDelay ∧
      ((d.calibrate p del o).port p).sentT1 = none ∧ (d.calibrate p del o).ctxs = d.ctxs := by
  rw [Dev.calibrate]
  dsimp only
  rw [if_neg (by omega)]
  generalize hx : d.modPort p _ = x
  generalize hy : (if (d.port p).drift then x.recordFault _ else x) = y
  have measured : (x.port p).hasBringup = true ∧ (x.port p).bringupDelay = ((d.port p).bringupSum + del) / 64 ∧
      (x.port p).delay = (x.port p).bringupDelay := by
    have begun : ¬ (d.port p).calibDone = 0 := by omega
    rw [← hx, port_modPort_same]
    exact ⟨rfl, by rw [if_neg begun], rfl⟩
  have recorded : y.rest = x.rest := by
    rw [← hy]
    split
    · exact rest_recordFault _ _
    · rfl
  have entered : (y.setLink p .up).Paced (y.setLink p .up).elect := paced_of_timed (elect_goes _).1
  obtain ⟨link, ctxs⟩ := setLink_keeps y p .up
  obtain ⟨state, t1, delay, _, _, _, _, mean, has⟩ := untimed_fields (entered.ports p)
  obtain ⟨up, sum, tracked⟩ := measured
  have same : x.ctxs = d.ctxs := by rw [← hx]; rfl
  rw [state, t1, delay, mean, has, link, entered.ctxs, ctxs, rest_port recorded, (rest_fields recorded).2.1, same]
  exact ⟨rfl, up, sum, tracked, rfl, rfl⟩

/-- On an UP port the first delay, or one near the tracked one, is taken. -/
theorem track_near {d : Dev} {p : Nat} (b : Bytes) {del : Int} (o : Int)
    (h : (d.port p).hasDelay = true → (del - (d.port p).delay).natAbs ≤ 4 * 65536) :
    ((d.track p b del o).port p).delay = (if (d.port p).hasDelay then (d.port p).delay + (del - (d.port p).delay) / 16 else del) ∧
      ((d.track p b del o).port p).outliers = [] ∧ ((d.track p b del o).port p).sentT1 = (d.port p).sentT1 ∧
      (d.track p b del o).ctxs = d.ctxs := by
  rw [Dev.track]
  dsimp only
  rw [if_neg (by simpa using h)]
  generalize hx : d.modPort p _ = x
  have moved : (x.port p).delay = (if (d.port p).hasDelay then (d.port p).delay + (del - (d.port p).delay) / 16 else del) ∧
      (x.port p).outliers = [] ∧ (x.port p).sentT1 = (d.port p).sentT1 := by
    rw [← hx, port_modPort_same]
    exact ⟨rfl, rfl, rfl⟩
  have same : x.ctxs = d.ctxs := by rw [← hx]; rfl
  generalize hy : (x.sample 8 p _).checkDrift p = y
  have checked : x.Paced y := by
    have sampled : ∀ v, x.Paced (x.sample 8 p v) := fun v => ⟨fun _ => rfl, rfl⟩
    rw [← hy]
    exact paced_trans (sampled _) (paced_checkDrift _ p)
  have final : x.Paced (if y.clock.upstream = p then y.servo b del o else y) := by
    split
    · exact paced_trans checked (paced_of_timed (timed_servo _ _ _ _))
    · exact checked
  obtain ⟨_, t1, delay, _, outliers, _⟩ := untimed_fields (final.ports p)
  obtain ⟨hdelay, houtliers, ht1⟩ := moved
  rw [t1, delay, outliers, final.ctxs, same]
  exact ⟨hdelay, houtliers, ht1, rfl⟩

/-- The first two delays that are far from the tracked one are kept aside. -/
theorem track_far {d : Dev} {p : Nat} (hd : (d.port p).hasDelay = true) (b : Bytes) {del : Int} (o : Int)
    (h : 4 * 65536 < (del - (d.port p).delay).natAbs) (hl : (d.port p).outliers.length < 2) :
    ((d.track p b del o).port p).delay = (d.port p).delay ∧ ((d.track p b del o).port p).outliers = (d.port p).outliers ++ [del] ∧
      ((d.track p b del o).port p).sentT1 = (d.port p).sentT1 ∧ (d.track p b del o).ctxs = d.ctxs := by
  have counted := rest_countPort d p 0x1C 1
  rw [Dev.track]
  dsimp only
  rw [if_pos (by simp [hd]; omega), if_pos (by simp; omega), port_modPort_same, rest_port counted]
  exact ⟨rfl, rfl, rfl, (rest_fields counted).2.1⟩

/-- The third one in a row sets the mean. -/
theorem track_third {d : Dev} {p : Nat} (hd : (d.port p).hasDelay = true) (b : Bytes) {del : Int} (o : Int)
    (h : 4 * 65536 < (del - (d.port p).delay).natAbs) (hl : 2 ≤ (d.port p).outliers.length) :
    ((d.track p b del o).port p).delay = ((d.port p).outliers ++ [del]).sum / 3 ∧ ((d.track p b del o).port p).outliers = [] ∧
      ((d.track p b del o).port p).sentT1 = (d.port p).sentT1 ∧ (d.track p b del o).ctxs = d.ctxs := by
  have counted := rest_countPort d p 0x1C 1
  rw [Dev.track]
  dsimp only
  rw [if_pos (by simp [hd]; omega), if_neg (by simp; omega)]
  generalize hx : (d.countPort p 0x1C 1).modPort p _ = x
  have checked := paced_checkDrift x p
  obtain ⟨_, t1, delay, _, outliers, _⟩ := untimed_fields (checked.ports p)
  rw [t1, delay, outliers, checked.ctxs, ← hx, port_modPort_same, rest_port counted]
  exact ⟨rfl, rfl, rfl, (rest_fields counted).2.1⟩

/-- The upstream has been heard. -/
def Dev.heard (d : Dev) (p : Nat) : Dev := if d.clock.upstream = p then d.modClock (fun c => { c with respTick := c.time }) else d

/-- A port closes its exchange. -/
def Dev.closing (d : Dev) (p t1 : Nat) : Dev :=
  d.modPort p (fun x => { x with sentT1 := none, exchDone := t1 / 65536 / Sys2Proof.Machine.syncPeriod })

/-- What a response's exchange makes of a port. -/
def Dev.measures (d : Dev) (p : Nat) (b : Bytes) (t4 : Nat) : Dev :=
  if (d.port p).state == .calibrate then d.calibrate p (d.exchange p b t4).1 (d.exchange p b t4).2
  else d.track p b (d.exchange p b t4).1 (d.exchange p b t4).2

theorem timed_heard (d : Dev) (p : Nat) : d.Timed (d.heard p) := by
  unfold Dev.heard
  split
  · exact timed_modClock _ _
  · exact timed_refl _

theorem port_heard (d : Dev) (p q : Nat) : (d.heard p).port q = d.port q := by
  unfold Dev.heard
  split <;> rfl

theorem syncResp_answers {d : Dev} {p : Nat} {b : Bytes} (hs : d.syncs p = true) (hb : sfBad b 2 = false) (t4 : Nat) {t1 : Nat}
    (h : (d.port p).sentT1 = some (sfSeq b, t1)) : d.syncResp p b t4 = (((d.heard p).closing p t1).takeOffer p b).measures p b t4 := by
  have shape : d.syncResp p b t4 = match ((d.heard p).port p).sentT1 with
    | none => (d.heard p).takeOffer p b
    | some (seq, t1) =>
      if seq ≠ sfSeq b then (d.heard p).takeOffer p b else (((d.heard p).closing p t1).takeOffer p b).measures p b t4 := by
    rw [Dev.syncResp, if_neg (by simp [hs]), if_neg (by simp [hb])]
    rfl
  rw [shape, port_heard, h]
  exact if_neg (by simp)

theorem syncResp_unopened {d : Dev} {p : Nat} {b : Bytes} (hs : d.syncs p = true) (hb : sfBad b 2 = false) (t4 : Nat)
    (h : ∀ q x, (d.port p).sentT1 = some (q, x) → q ≠ sfSeq b) : d.syncResp p b t4 = (d.heard p).takeOffer p b := by
  have shape : d.syncResp p b t4 = match ((d.heard p).port p).sentT1 with
    | none => (d.heard p).takeOffer p b
    | some (seq, t1) =>
      if seq ≠ sfSeq b then (d.heard p).takeOffer p b else (((d.heard p).closing p t1).takeOffer p b).measures p b t4 := by
    rw [Dev.syncResp, if_neg (by simp [hs]), if_neg (by simp [hb])]
    rfl
  rw [shape, port_heard]
  split
  · rfl
  · next seq t1 h1 => exact if_pos (h seq t1 h1)

theorem exchange_congr {d e : Dev} (h : e.image = d.image) (p : Nat) (b : Bytes) (t4 : Nat) : e.exchange p b t4 = d.exchange p b t4 := by
  have asym : e.asym p = d.asym p := by rw [Dev.asym, Dev.asym, Dev.img, Dev.img, h]
  rw [Dev.exchange, Dev.exchange, asym]

/-- An exchange that is closed stays so, whatever it measures. -/
theorem measures_keeps {d : Dev} {p : Nat} (b : Bytes) (t4 : Nat) (h : (d.port p).sentT1 = none) :
    ((d.measures p b t4).port p).sentT1 = none ∧ (d.measures p b t4).ctxs = d.ctxs := by
  unfold Dev.measures
  generalize d.exchange p b t4 = m
  split
  · by_cases hn : (d.port p).calibDone + 1 < 64
    · obtain ⟨_, _, t1, _, ctxs⟩ := calibrate_counts hn m.1 m.2
      exact ⟨t1.trans h, ctxs⟩
    · obtain ⟨_, _, _, _, t1, ctxs⟩ := calibrate_ends (Nat.le_of_not_lt hn) m.1 m.2
      exact ⟨t1, ctxs⟩
  · by_cases far : (d.port p).hasDelay = true ∧ 4 * 65536 < (m.1 - (d.port p).delay).natAbs
    · obtain ⟨has, far⟩ := far
      by_cases hl : (d.port p).outliers.length < 2
      · obtain ⟨_, _, t1, ctxs⟩ := track_far has b m.2 far hl
        exact ⟨t1.trans h, ctxs⟩
      · obtain ⟨_, _, t1, ctxs⟩ := track_third has b m.2 far (Nat.le_of_not_lt hl)
        exact ⟨t1.trans h, ctxs⟩
    · obtain ⟨_, _, t1, ctxs⟩ := track_near (d := d) (p := p) b m.2 (fun has => Nat.le_of_not_lt fun hf => far ⟨has, hf⟩)
      exact ⟨t1.trans h, ctxs⟩

theorem measures_calibrate {d : Dev} {p : Nat} (h : (d.port p).state = .calibrate) (b : Bytes) (t4 : Nat) :
    d.measures p b t4 = d.calibrate p (d.exchange p b t4).1 (d.exchange p b t4).2 := if_pos (by simp [h])

theorem measures_up {d : Dev} {p : Nat} (h : (d.port p).state = .up) (b : Bytes) (t4 : Nat) :
    d.measures p b t4 = d.track p b (d.exchange p b t4).1 (d.exchange p b t4).2 := if_neg (by simp [h])

/-- `e` holds an exchange of port `p` of `d` that is closed; what a delay is measured from stands. -/
structure Dev.Closed (p : Nat) (d e : Dev) : Prop where
  sentT1 : (e.port p).sentT1 = none
  state : (e.port p).state = (d.port p).state
  delay : (e.port p).delay = (d.port p).delay
  hasDelay : (e.port p).hasDelay = (d.port p).hasDelay
  outliers : (e.port p).outliers = (d.port p).outliers
  calibDone : (e.port p).calibDone = (d.port p).calibDone
  bringupSum : (e.port p).bringupSum = (d.port p).bringupSum
  ctxs : e.ctxs = d.ctxs
  image : e.image = d.image

theorem closed_answer (d : Dev) (p t1 : Nat) (b : Bytes) : d.Closed p (((d.heard p).closing p t1).takeOffer p b) := by
  have closed : d.Closed p ((d.heard p).closing p t1) := by
    have ctxs : ((d.heard p).closing p t1).ctxs = (d.heard p).ctxs := rfl
    have image : ((d.heard p).closing p t1).image = (d.heard p).image := rfl
    constructor
    case ctxs => exact ctxs.trans (timed_ctxs (timed_heard d p))
    case image => exact image.trans (timed_image (timed_heard d p))
    all_goals rw [Dev.closing, port_modPort_same, port_heard]
  generalize (d.heard p).closing p t1 = x at closed
  obtain ⟨ports, ctxs, image, _, _⟩ := takeOffer_offered x p b
  obtain ⟨state, hsent, delay, has, outliers, done, sum, _⟩ := untimed_fields (ports p)
  exact ⟨hsent.trans closed.sentT1, state.trans closed.state, delay.trans closed.delay, has.trans closed.hasDelay, outliers.trans closed.outliers,
    done.trans closed.calibDone, sum.trans closed.bringupSum, ctxs.trans closed.ctxs, image.trans closed.image⟩

/-- Settles O31: a response closes its exchange, and by the port's state the exchange is counted, ends the bring-up or is tracked. -/
theorem syncResponsesMeasureDelay : Obligations.SyncResponsesMeasureDelay := by
  unfold Obligations.SyncResponsesMeasureDelay
  refine ⟨?_, ?_⟩
  · intro p now t4 b s t1 del hs hb hopen hdel
    refine ⟨s.event now (Dev.syncResp p b t4), rfl, ?_⟩
    obtain ⟨closed, state, delay, has, outliers, done, sum, ctxs, image⟩ := closed_answer (s.devAt now) p t1 b
    rw [event_devAt, noteReady_port, noteReady_ctxs, syncResp_answers hs hb t4 (by rw [port_devAt]; exact hopen)]
    generalize (((s.devAt now).heard p).closing p t1).takeOffer p b = e at *
    rw [port_devAt] at state delay has outliers done sum
    obtain ⟨t1, kept⟩ := measures_keeps b t4 closed
    have measured : del = (e.exchange p b t4).1 := hdel.trans (congrArg Prod.fst (exchange_congr image p b t4).symm)
    have same : e.ctxs = s.dev.ctxs := ctxs.trans (to_ctxs _ _)
    refine ⟨t1, kept.trans same, fun hst hn => ?_, fun hst hn => ?_, fun hst hd hdel => ?_, fun hst hd hdel hl => ?_, fun hst hd hdel hl => ?_⟩
    · rw [← state] at hst
      rw [← done] at hn ⊢
      obtain ⟨count, still, _, total, _⟩ := calibrate_counts hn (e.exchange p b t4).1 (e.exchange p b t4).2
      rw [measures_calibrate hst, measured, ← sum]
      exact ⟨count, still.trans hst, total⟩
    · rw [← state] at hst
      rw [← done] at hn
      obtain ⟨up, has, mean, tracked, _⟩ := calibrate_ends hn (e.exchange p b t4).1 (e.exchange p b t4).2
      rw [measures_calibrate hst, measured, ← sum]
      exact ⟨up, has, mean, tracked⟩
    all_goals
      rw [← state] at hst
      rw [← has] at hd
      rw [← delay, measured] at hdel
      rw [measures_up hst]
    · rw [← delay, measured]
      obtain ⟨moved, none, _⟩ := track_near b (e.exchange p b t4).2 (fun _ => hdel)
      exact ⟨moved.trans (if_pos hd), none⟩
    · rw [← outliers] at hl ⊢
      rw [← delay, measured]
      obtain ⟨still, aside, _⟩ := track_far hd b (e.exchange p b t4).2 hdel hl
      exact ⟨still, aside⟩
    · rw [← outliers] at hl ⊢
      rw [measured]
      obtain ⟨mean, none, _⟩ := track_third hd b (e.exchange p b t4).2 hdel hl
      exact ⟨mean, none⟩
  · intro p now t4 b s hs hb hopen
    refine ⟨s.event now (Dev.syncResp p b t4), rfl, ?_⟩
    obtain ⟨ports, ctxs, _, _, offer⟩ := takeOffer_offered ((s.devAt now).heard p) p b
    obtain ⟨state, t1, delay, _, _, done, _⟩ := untimed_fields (ports p)
    rw [event_devAt, noteReady_port, noteReady_ctxs, noteReady_clock, syncResp_unopened hs hb t4 (by rw [port_devAt]; exact hopen), t1, delay,
      done, state, port_heard, port_devAt]
    exact ⟨rfl, rfl, rfl, rfl, offer, ctxs.trans ((timed_ctxs (timed_heard _ p)).trans (to_ctxs _ _))⟩

end Sys2Proof.Machine
end

section
/-! SUPPORT. What aborts and resets of contexts leave of the device, and what a warm and a cold reset begin with (R92, R109, R367, R371). -/

namespace Sys2Proof.Machine

/-! ### Aborts and context resets leave the clock, the supplies and the state of the ports (R92, R109) -/

/-- `e` is `d` but for contexts, jobs, reports and what packets of the device's own touch. -/
structure Dev.Aside (d e : Dev) : Prop where
  clock : e.clock = d.clock
  power : e.power = d.power
  dies : e.dies = d.dies
  ports : ∀ q, (e.port q).steady = (d.port q).steady
  log : e.sealLog = d.sealLog

theorem aside_refl (d : Dev) : d.Aside d := ⟨rfl, rfl, rfl, fun _ => rfl, rfl⟩

theorem aside_trans {d e t : Dev} (h : d.Aside e) (h' : e.Aside t) : d.Aside t :=
  ⟨h'.clock.trans h.clock, h'.power.trans h.power, h'.dies.trans h.dies, fun q => (h'.ports q).trans (h.ports q), h'.log.trans h.log⟩

theorem aside_foldl {α : Type} (f : Dev → α → Dev) (h : ∀ (d : Dev) a, d.Aside (f d a)) (l : List α) (d : Dev) : d.Aside (l.foldl f d) := by
  induction l generalizing d with
  | nil => exact aside_refl d
  | cons a l ih => exact aside_trans (h d a) (ih _)

theorem aside_of_rest {d e : Dev} (h : e.rest = d.rest) (hlog : e.sealLog = d.sealLog) : d.Aside e :=
  ⟨rest_clock h, (congrArg Dev.power h :), (congrArg Dev.dies h :), fun q => congrArg Port.steady (rest_port h q), hlog⟩

theorem aside_of_marked {d e : Dev} (h : d.Marked e) : d.Aside e :=
  ⟨marked_clock h, marked_power h, marked_dies h, fun q => by rw [Dev.port, marked_ports h]; rfl, h.log⟩

theorem aside_sendVc6 (d : Dev) (p cls job : Nat) (content : Bytes) : d.Aside (d.sendVc6 p cls job content) := by
  have inward := inward_sendVc6 d p cls job content
  exact ⟨(congrArg Dev.clock inward :), (congrArg Dev.power inward :), (congrArg Dev.dies inward :), steady_sendVc6 d p cls job content,
    sealLog_sendVc6 _ _ _ _ _⟩

theorem aside_modCtx (d : Dev) (c : Nat) (f : Ctx → Ctx) : d.Aside (d.modCtx c f) := ⟨rfl, rfl, rfl, fun _ => rfl, rfl⟩
theorem aside_modJob (d : Dev) (j : Nat) (f : Job → Job) : d.Aside (d.modJob j f) := ⟨rfl, rfl, rfl, fun _ => rfl, rfl⟩
theorem aside_poolFree (d : Dev) (p : Holding → Bool) : d.Aside (d.poolFree p) := ⟨rfl, rfl, rfl, fun _ => rfl, rfl⟩

theorem aside_auditUse (d : Dev) (c : Nat) (aborted : Bool) : d.Aside (d.auditUse c aborted) := by
  have audited := unaudited_auditUse d c aborted
  exact ⟨(congrArg Dev.clock audited :), (congrArg Dev.power audited :), (congrArg Dev.dies audited :),
    fun q => (congrArg (fun x : Dev => (x.port q).steady) audited :), (congrArg Dev.sealLog audited :)⟩

theorem aside_useLost (d : Dev) (c status : Nat) : d.Aside (d.useLost c status) := by
  have dropped : ∀ x : Dev, x.Aside (x.dropUse c) := fun x =>
    aside_trans (aside_poolFree x _) (aside_trans (aside_modCtx _ _ _) (aside_modJob _ _ _))
  exact aside_trans (aside_auditUse d c true) (aside_trans (dropped _) (aside_modCtx _ _ _))

theorem aside_abortNoted (d : Dev) (c status node : Nat) : d.Aside (d.abortNoted c status node) := by
  have log : (d.abortNoted c status node).sealLog = (d.useLost c status).sealLog := by
    rw [Dev.abortNoted, sealLog_recordFault, Dev.siltCtx, sealLog_siltWrite]
  exact aside_trans (aside_useLost d c status) (aside_of_rest (rest_abortNoted d c status node) log)

theorem aside_abortUse (d : Dev) (c status node : Nat) (from' : Option Nat) : d.Aside (d.abortUse c status node from') := by
  have shape : d.abortUse c status node from' =
      if from'.isSome && (d.ctx c).forwarded.contains ((d.ctx c).sequence, (d.ctx c).generation) then d.abortNoted c status node
      else (d.abortNoted c status node).sendNotices c (d.ctx c).sequence (d.ctx c).generation (d.useStep c) (d.ctx c).microBatch status node
        from' := rfl
  rw [shape]
  split
  · exact aside_abortNoted d c status node
  · exact aside_trans (aside_abortNoted d c status node) (aside_trans (aside_modCtx _ _ _) (aside_foldl _ (fun _ _ => aside_sendVc6 _ _ _ _ _) _ _))

/-- A use that is aborted where it still can be, before its context is reset. -/
def Dev.useEnded (d : Dev) (c : Nat) : Dev := if (d.ctx c).state == .aborted then d else d.abortUse c stCtxReset (d.ownNode c) none

theorem resetCtx_eq (d : Dev) (c : Nat) : d.resetCtx c =
    if (d.ctx c).state == .free || (d.ctx c).state == .resetting then d
    else (((d.useEnded c).poolFree (fun h => h.holder == ctxHolder c)).modCtx c (fun x =>
      { x with state := .resetting, frags := [], heldAborts := [], digests := [] })).siltCtx c ((d.useEnded c).ctx c).state |>.markSteps 3 := rfl

theorem aside_resetCtx (d : Dev) (c : Nat) : d.Aside (d.resetCtx c) := by
  have ended : d.Aside (d.useEnded c) := by
    unfold Dev.useEnded
    split
    · exact aside_refl d
    · exact aside_abortUse _ _ _ _ _
  rw [resetCtx_eq]
  split
  · exact aside_refl d
  · exact aside_trans ended (aside_trans (aside_trans (aside_poolFree _ _) (aside_modCtx _ _ _))
      (aside_trans (aside_of_rest (rest_siltWrite _ _ _) (sealLog_siltWrite _ _ _)) (aside_of_marked (marked_markSteps _ 3))))

/-- What a reset of a context leaves of every context: whether it is FREE, and its generation. -/
def Ctx.lasting (x : Ctx) : Bool × Nat := (x.state == .free, x.generation)

theorem lasting_resetCtx (d : Dev) (c k : Nat) : ((d.resetCtx c).ctx k).lasting = (d.ctx k).lasting := by
  rw [resetCtx_eq]
  split
  · rfl
  · next hover =>
    rw [Dev.ctx, marked_ctxs (marked_markSteps _ 3)]
    refine (congrArg Ctx.lasting (rest_ctx (rest_siltWrite _ _ _) k)).trans ?_
    have gen : ((d.useEnded c).ctx c).generation = (d.ctx c).generation := by
      unfold Dev.useEnded
      split
      · rfl
      · rw [ctx_abortUse_same]; rfl
    by_cases hk : k = c
    · subst hk
      rw [ctx_modCtx_same]
      have used : (d.ctx k).state ≠ .free := fun h => hover (by simp [h])
      exact Prod.ext (by simp [Ctx.lasting, used]) gen
    · have pooled : ∀ (x : Dev) (p : Holding → Bool), (x.poolFree p).ctx k = x.ctx k := fun _ _ => rfl
      rw [ctx_modCtx_other _ hk, pooled]
      unfold Dev.useEnded
      split
      · rfl
      · exact congrArg Ctx.lasting (ctx_abortUse_other d hk _ _ _)

theorem unbooked_resetCtx (d : Dev) (c j : Nat) : ((d.resetCtx c).job j).unbooked = (d.job j).unbooked :=
  ((Dev.Carries.refl (js := Set.univ) (j := j) d).resetCtx c).job

/-! ### Jobs that stop (R371) -/

/-- A job that a device reset has stopped. -/
def Job.Stopped (x : Job) (cause : Nat) : Prop := x.state = .halted ∧ x.launch = none ∧ x.haltCause = cause

theorem stopped_of_unbooked {x y : Job} {cause : Nat} (h : y.unbooked = x.unbooked) (hx : x.Stopped cause) : y.Stopped cause :=
  ⟨(congrArg Job.state h :).trans hx.1, (congrArg Job.launch h :).trans hx.2.1, (congrArg Job.haltCause h :).trans hx.2.2⟩

/-- A halt leaves a job what it owns. -/
theorem owned_haltJobs (js : List Nat) (cause : Job → Nat) (d : Dev) (j : Nat) : ((d.haltJobs js cause).job j).owned = (d.job j).owned := by
  refine foldl_keeps (fun d : Dev => (d.job j).owned) _ (fun d i => ?_) js d
  by_cases hi : j = i
  · subst hi
    rw [job_modJob_same]; rfl
  · rw [job_modJob_other _ hi]

/-- Each job of a list that is halted is HALTED by its cause, where that goes by what a job owns. -/
theorem haltJobs_stopped {cause : Job → Nat} (hcause : ∀ x y : Job, x.owned = y.owned → cause x = cause y) {j : Nat} (js : List Nat) (d : Dev)
    (h : j ∈ js ∨ (d.job j).Stopped (cause (d.job j))) : ((d.haltJobs js cause).job j).Stopped (cause (d.job j)) := by
  induction js generalizing d with
  | nil => exact h.resolve_left List.not_mem_nil
  | cons i l ih =>
    have owned : ((d.modJob i (fun x => x.halt (cause x) d.time)).job j).owned = (d.job j).owned := owned_haltJobs [i] cause d j
    have step := ih (d.modJob i (fun x => x.halt (cause x) d.time))
    rw [hcause _ _ owned] at step
    refine step ?_
    by_cases hi : j = i
    · subst hi
      exact .inr (by rw [job_modJob_same]; exact ⟨rfl, rfl, rfl⟩)
    · rw [job_modJob_other _ hi]
      exact h.imp_left fun hl => (List.mem_cons.mp hl).resolve_left hi

theorem haltJobs_keeps (d : Dev) (js : List Nat) (cause : Job → Nat) : (d.haltJobs js cause).clock = d.clock ∧
    (d.haltJobs js cause).power = d.power ∧ (d.haltJobs js cause).dies = d.dies ∧ (d.haltJobs js cause).faults = d.faults ∧
    (d.haltJobs js cause).ctxs = d.ctxs ∧ (d.haltJobs js cause).ports = d.ports ∧ (d.haltJobs js cause).sealLog = d.sealLog := by
  have kept := foldl_keeps (fun d : Dev => (d.clock, d.power, d.dies, d.faults, d.ctxs, d.ports, d.sealLog))
    (fun (d : Dev) j => d.modJob j (fun x => x.halt (cause x) d.time)) (fun _ _ => by rfl) js d
  simp only [Prod.mk.injEq] at kept
  exact kept

/-- Every loaded job is HALTED with its cause by R41 or R371. -/
theorem stopJobs_stopped (d : Dev) (fatal : Bool) {j : Nat} (hj : (d.job j).state ≠ .empty) :
    ((d.stopJobs fatal).job j).Stopped (if fatal = true ∧ (d.job j).owned ≠ [] then 5 else 4) := by
  have marked := (marked_markSteps d 3).job j
  have state : ((d.markSteps 3).job j).state = (d.job j).state := (congrArg Job.state marked :)
  have owned : ((d.markSteps 3).job j).owned = (d.job j).owned := (congrArg Job.owned marked :)
  have listed : j ∈ d.loaded := mem_loaded hj
  have stopped := haltJobs_stopped (cause := fun x => if fatal && !x.owned.isEmpty then 5 else 4) (fun x y h => by simp only [h]) d.loaded
    (d.markSteps 3) (.inl listed)
  rw [owned] at stopped
  have cause : (if fatal && !(d.job j).owned.isEmpty then 5 else 4) = if fatal = true ∧ (d.job j).owned ≠ [] then 5 else 4 := by
    cases fatal <;> simp
  rw [← cause]
  exact stopped

/-! ### The links of a device that resets (R276, R371) -/

/-- `e` is `d` but for its ports and for reports. -/
structure Dev.Relinked (d e : Dev) : Prop where
  rest : e.rest = { d.rest with ports := e.ports }
  log : e.sealLog = d.sealLog

theorem relinked_trans {d e t : Dev} (h : d.Relinked e) (h' : e.Relinked t) : d.Relinked t :=
  ⟨h'.rest.trans (congrArg (fun x : Dev => { x with ports := t.ports }) h.rest), h'.log.trans h.log⟩

theorem relinked_fields {d e : Dev} (h : d.Relinked e) : e.clock = d.clock ∧ e.power = d.power ∧ e.jobs = d.jobs ∧ e.ctxs = d.ctxs :=
  ⟨(congrArg Dev.clock h.rest :), (congrArg Dev.power h.rest :), (congrArg Dev.jobs h.rest :), (congrArg Dev.ctxs h.rest :)⟩

theorem relinked_foldl {α : Type} (f : Dev → α → Dev) (h : ∀ (d : Dev) a, d.Relinked (f d a)) (l : List α) (d : Dev) :
    d.Relinked (l.foldl f d) := by
  induction l generalizing d with
  | nil => exact ⟨rfl, rfl⟩
  | cons a l ih => exact relinked_trans (h d a) (ih _)

theorem relinked_of_rest {d e : Dev} (h : e.rest = d.rest) (hlog : e.sealLog = d.sealLog) : d.Relinked e :=
  ⟨h.trans (by rw [(rest_fields h).1]; rfl), hlog⟩

theorem relinked_modPort (d : Dev) (p : Nat) (f : Port → Port) : d.Relinked (d.modPort p f) := ⟨rfl, rfl⟩

theorem relinked_sendTraining (d : Dev) (p r k : Nat) : d.Relinked (d.sendTraining p r k) :=
  relinked_trans (relinked_of_rest (rest_send _ _) (sealLog_send _ _)) (relinked_modPort _ _ _)

theorem relinked_loseRetained (d : Dev) (p : Nat) : d.Relinked (d.loseRetained p) :=
  relinked_trans (relinked_of_rest (rest_countPort _ _ _ _) (sealLog_countPort _ _ _ _)) (relinked_modPort _ _ _)

/-- A device whose ports begin anew. -/
def Dev.portsReset (d : Dev) : Dev := { d with ports := (List.range 98).map (fun p => (p, (d.port p).afterReset d.clock.time)) }

/-- A device whose links have lost what they retained. -/
def Dev.unretained (d : Dev) : Dev := (List.range 98).foldl (fun d p => d.loseRetained p) d

theorem warmLinks_eq (d : Dev) : d.warmLinks =
    d.unretained.portsReset.fabricPorts.foldl (fun d p => d.sendTraining p 0 0) d.unretained.portsReset := rfl

theorem relinked_warmLinks (d : Dev) : d.Relinked d.warmLinks := by
  have replaced : ∀ (x : Dev) (l : Table Port), x.Relinked { x with ports := l } := fun _ _ => ⟨rfl, rfl⟩
  rw [warmLinks_eq]
  exact relinked_trans (relinked_foldl _ relinked_loseRetained _ d)
    (relinked_trans (replaced d.unretained _) (relinked_foldl _ (fun d p => relinked_sendTraining d p 0 0) _ _))

theorem state_afterReset (x : Port) (now : Nat) : (x.afterReset now).state = if x.state = .disabled then .disabled else .txTune := by
  unfold Port.afterReset
  split
  · next h => rw [if_pos (eq_of_beq h)]; exact eq_of_beq h
  · next h => rw [if_neg (fun hx => h (by simp [hx]))]; rfl

theorem state_warmLinks (d : Dev) {p : Nat} (hp : p < 98) :
    (d.warmLinks.port p).state = if (d.port p).state = .disabled then .disabled else .txTune := by
  have trained : ∀ (l : List Nat) (x : Dev), ((l.foldl (fun d p => d.sendTraining p 0 0) x).port p).steady = (x.port p).steady :=
    foldl_keeps (fun x : Dev => (x.port p).steady) _ (fun x q => steady_sendTraining x q 0 0 p)
  have unretained : (d.unretained.port p).state = (d.port p).state := by
    refine foldl_keeps (fun x : Dev => (x.port p).state) _ (fun x q => ?_) (List.range 98) d
    rw [Dev.loseRetained, port_modPort_view Port.state (by rfl), rest_port (rest_countPort _ _ _ _)]
  have reset : d.unretained.portsReset.port p = (d.unretained.port p).afterReset d.unretained.clock.time := by
    rw [Dev.port, Dev.portsReset]
    dsimp only
    rw [tget_listed]
    exact List.mem_range.mpr hp
  rw [warmLinks_eq, (steady_fields (trained _ _)).1, reset, state_afterReset, unretained]

/-! ### A warm reset begins (R371) -/

theorem tget_mapped {α : Type} (v : α) (f : α → α) (hf : f v = v) (t : Table α) (i : Nat) : tget v (t.map (fun e => (e.1, f e.2))) i = f (tget v t i) := by
  induction t with
  | nil => exact hf.symm
  | cons e t ih =>
    rw [List.map_cons, tget, tget]
    split
    · rfl
    · exact ih

/-- The device whose contexts are all being reset. -/
def Dev.ctxsReset (d : Dev) : Dev := d.loaded.foldl (fun d j => (d.ctxsOf j).foldl (fun d c => d.resetCtx c) d) d

theorem ctxsReset_induct {P : Dev → Prop} (h : ∀ d c, P d → P (d.resetCtx c)) {d : Dev} (hd : P d) : P d.ctxsReset := by
  have inner : ∀ (l : List Nat) (x : Dev), P x → P (l.foldl (fun d c => d.resetCtx c) x) := by
    intro l
    induction l with
    | nil => exact fun _ hx => hx
    | cons c l ih => exact fun x hx => ih _ (h x c hx)
  have outer : ∀ (l : List Nat) (x : Dev), P x → P (l.foldl (fun d j => (d.ctxsOf j).foldl (fun d c => d.resetCtx c) d) x) := by
    intro l
    induction l with
    | nil => exact fun _ hx => hx
    | cons j l ih => exact fun x hx => ih _ (inner _ x hx)
  exact outer _ d hd

theorem aside_ctxsReset (d : Dev) : d.Aside d.ctxsReset := ctxsReset_induct (fun _ c h => aside_trans h (aside_resetCtx _ c)) (aside_refl d)

theorem lasting_ctxsReset (d : Dev) (k : Nat) : (d.ctxsReset.ctx k).lasting = (d.ctx k).lasting :=
  ctxsReset_induct (P := fun x => (x.ctx k).lasting = (d.ctx k).lasting) (fun _ c h => (lasting_resetCtx _ c k).trans h) rfl

theorem unbooked_ctxsReset (d : Dev) (j : Nat) : (d.ctxsReset.job j).unbooked = (d.job j).unbooked :=
  ctxsReset_induct (P := fun x => (x.job j).unbooked = (d.job j).unbooked) (fun _ c h => (unbooked_resetCtx _ c j).trans h) rfl

/-- A job without the restored data and the Outflow fragments that it holds. -/
def Job.afterWarm (x : Job) : Job := { x with restored := [], outHeld := [] }

theorem job_warmLose (d : Dev) (j : Nat) : d.warmLose.job j = (d.job j).afterWarm := tget_mapped ({} : Job) Job.afterWarm rfl d.jobs j

theorem ctx_warmLose (d : Dev) (c : Nat) : d.warmLose.ctx c = (d.ctx c).afterWarm := tget_mapped ({} : Ctx) Ctx.afterWarm rfl d.ctxs c

theorem afterWarm_armed {x : Ctx} (h : x.state ≠ .free) :
    x.afterWarm.state = .armed ∧ x.afterWarm.generation = (x.generation + 1) % 2 ^ 16 ∧ x.afterWarm.frags = [] := by
  rw [Ctx.afterWarm, if_neg (by simp [h])]
  exact ⟨rfl, rfl, rfl⟩

/-- What is lost beside contexts and jobs. -/
theorem warmLose_keeps (d : Dev) : d.warmLose.power.warm = some d.clock.time ∧ d.warmLose.power.depthsParked = true ∧
    d.warmLose.power.cold = d.power.cold ∧ d.warmLose.keeper.up = false ∧ d.warmLose.keeper.sessions = [] ∧ d.warmLose.clock.state = .invalid ∧
    d.warmLose.pool = {} ∧ d.warmLose.own = [] ∧ d.warmLose.mirrors.queues = [] ∧ d.warmLose.ports = d.ports ∧ d.warmLose.sealLog = d.sealLog :=
  ⟨rfl, rfl, rfl, rfl, rfl, rfl, rfl, rfl, rfl, rfl, rfl⟩

theorem warmReset_eq {d : Dev} (h : d.power.warm = none) (fatal : Bool) :
    d.warmReset fatal = (((d.siltTrigger 64).stopJobs fatal).warmLinks.ctxsReset.warmLose.siltWarm).updAlert := by
  rw [Dev.warmReset, if_neg (by simp [h])]
  rfl

/-- What Silt and the alert pin do at the end of a warm reset's beginning. -/
theorem siltWarm_keeps (d : Dev) : d.siltWarm.updAlert.rest = d.rest ∧ d.siltWarm.updAlert.sealLog = d.sealLog ∧
    d.siltWarm.updAlert.keeper = d.keeper ∧ d.siltWarm.updAlert.mirrors = d.mirrors := by
  have silt : d.siltWarm.quiet = d.quiet ∧ d.siltWarm.sealLog = d.sealLog ∧ d.siltWarm.keeper = d.keeper ∧ d.siltWarm.mirrors = d.mirrors := by
    unfold Dev.siltWarm
    split
    · exact ⟨rfl, rfl, rfl, rfl⟩
    · exact ⟨quiet_countDev _ _ _, sealLog_countDev _ _ _, keeper_countDev _ _ _, by rw [Dev.countDev, count_eq]; rfl⟩
  obtain ⟨quiet, log, keeper, mirrors⟩ := silt
  have alert : ∀ x : Dev, x.updAlert.keeper = x.keeper ∧ x.updAlert.mirrors = x.mirrors := by
    intro x
    unfold Dev.updAlert Dev.send
    split
    · exact ⟨rfl, rfl⟩
    · split <;> exact ⟨rfl, rfl⟩
  exact ⟨(rest_updAlert _).trans (rest_of_quiet quiet), (sealLog_updAlert _).trans log, (alert _).1.trans keeper, (alert _).2.trans mirrors⟩

/-- `e` is `d` with its jobs stopped, its links down and its contexts being reset. -/
structure Dev.Stopping (fatal : Bool) (d e : Dev) : Prop where
  clock : e.clock = d.clock
  power : e.power = d.power
  log : e.sealLog = d.sealLog
  job : ∀ j, (d.job j).state ≠ .empty → (e.job j).Stopped (if fatal = true ∧ (d.job j).owned ≠ [] then 5 else 4)
  ctx : ∀ c, (e.ctx c).lasting = (d.ctx c).lasting
  port : ∀ p, p < 98 → (e.port p).state = if (d.port p).state = .disabled then .disabled else .txTune

/-- What stops leaves of the device beside its jobs. -/
theorem stopJobs_keeps (d : Dev) (fatal : Bool) : (d.stopJobs fatal).clock = d.clock ∧ (d.stopJobs fatal).power = d.power ∧
    (d.stopJobs fatal).dies = d.dies ∧ (d.stopJobs fatal).faults = d.faults ∧ (d.stopJobs fatal).ctxs = d.ctxs ∧
    (d.stopJobs fatal).ports = d.ports ∧ (d.stopJobs fatal).sealLog = d.sealLog := by
  have marked := marked_markSteps d 3
  obtain ⟨clock, power, dies, faults, ctxs, ports, log⟩ :=
    haltJobs_keeps (d.markSteps 3) d.loaded (fun x => if fatal && !x.owned.isEmpty then 5 else 4)
  exact ⟨clock.trans (marked_clock marked), power.trans (marked_power marked), dies.trans (marked_dies marked),
    faults.trans (marked_faults marked), ctxs.trans (marked_ctxs marked), ports.trans (marked_ports marked), log.trans marked.log⟩

theorem stopping_ctxsReset (d : Dev) (fatal : Bool) : d.Stopping fatal ((d.siltTrigger 64).stopJobs fatal).warmLinks.ctxsReset := by
  have traced := rest_siltTrigger d 64
  have log := sealLog_siltTrigger d 64
  generalize d.siltTrigger 64 = a at *
  obtain ⟨clock, power, _, _, ctxs, ports, hlog⟩ := stopJobs_keeps a fatal
  have stopped : ∀ j, (a.job j).state ≠ .empty → ((a.stopJobs fatal).job j).Stopped (if fatal = true ∧ (a.job j).owned ≠ [] then 5 else 4) :=
    fun j hj => stopJobs_stopped a fatal hj
  generalize a.stopJobs fatal = b at *
  have linked := relinked_warmLinks b
  have states := fun p hp => state_warmLinks b (p := p) hp
  generalize b.warmLinks = x at *
  obtain ⟨hclock, hpower, hjobs, hctxs⟩ := relinked_fields linked
  obtain ⟨tports, tctxs, _, tclock, _, _, tpower, _⟩ := rest_fields traced
  have aside := aside_ctxsReset x
  have jobs := unbooked_ctxsReset x
  have lasting := lasting_ctxsReset x
  generalize x.ctxsReset = y at *
  refine ⟨?_, ?_, ?_, fun j hj => ?_, fun c => ?_, fun p hp => ?_⟩
  · rw [aside.clock, hclock, clock, tclock]
  · rw [aside.power, hpower, power, tpower]
  · rw [aside.log, linked.log, hlog, log]
  · rw [← rest_job traced] at hj ⊢
    refine stopped_of_unbooked (jobs j) ?_
    rw [Dev.job, hjobs]
    exact stopped j hj
  · rw [lasting, Dev.ctx, hctxs, ctxs, tctxs]
    rfl
  · rw [(steady_fields (aside.ports p)).1, states p hp, Dev.port, ports, tports]
    rfl

/-- What a warm reset makes of a device (R367, R371). -/
theorem warmReset_begins {d : Dev} (h : d.power.warm = none) (fatal : Bool) {t : State} (ht : t.dev = (d.warmReset fatal).noteReady) :
    WarmReset fatal d t ∧ t.dev.power.cold = d.power.cold := by
  have stopping := stopping_ctxsReset d fatal
  rw [warmReset_eq h] at ht
  generalize ((d.siltTrigger 64).stopJobs fatal).warmLinks.ctxsReset = x at *
  have jobs := job_warmLose x
  have ctxs := ctx_warmLose x
  obtain ⟨warm, parked, cold, up, sessions, state, pool, own, queues, ports, log⟩ := warmLose_keeps x
  generalize x.warmLose = y at *
  obtain ⟨rest, hlog, keeper, mirrors⟩ := siltWarm_keeps y
  generalize y.siltWarm.updAlert = z at *
  obtain ⟨clock, power, log', job, ctx, port⟩ := stopping
  have hkeeper : (t.dev).keeper.up = z.keeper.up ∧ t.dev.keeper.sessions = z.keeper.sessions := by rw [ht]; exact ⟨noteReady_up _, noteReady_sessions _⟩
  have hpower : t.dev.power = y.power := by rw [ht, noteReady_power]; exact (congrArg Dev.power rest :)
  refine ⟨⟨?_, ?_, ?_, ?_, ?_, ?_, ?_, ?_, fun j hj => ?_, fun c hc => ?_, fun p hp => ?_, ?_⟩, ?_⟩
  · rw [hpower, warm, clock]; rfl
  · rw [hkeeper.1, keeper, up]
  · rw [hkeeper.2, keeper, sessions]
  · rw [ht, noteReady_clock, rest_clock rest, state]
  · rw [ht, noteReady_pool]
    exact (congrArg Dev.pool rest :).trans pool
  · rw [ht, noteReady_own]
    exact (congrArg Dev.own rest :).trans own
  · rw [ht, noteReady_mirrors, mirrors, queues]
  · rw [hpower, parked]
  · rw [ht, noteReady_job, rest_job rest, jobs]
    exact job j hj
  · have used : (x.ctx c).state ≠ .free := by
      have same := congrArg Prod.fst (ctx c)
      simpa [Ctx.lasting, hc] using same
    have gen : (x.ctx c).generation = (d.ctx c).generation := congrArg Prod.snd (ctx c)
    rw [ht, noteReady_ctx, rest_ctx rest, ctxs, ← gen]
    exact afterWarm_armed used
  · rw [ht, noteReady_port, rest_port rest, Dev.port, ports]
    exact port p hp
  · rw [ht, noteReady_gauge]
    exact hlog.trans (log.trans log')
  · rw [hpower, cold, power]

/-- What a warm reset begins with is the same for devices that differ in reports alone. -/
theorem warmReset_congr {fatal : Bool} {d e : Dev} {t : State} (h : WarmReset fatal e t) (hrest : e.rest = d.rest) (hlog : e.sealLog = d.sealLog) :
    WarmReset fatal d t := by
  have time : e.time = d.time := by rw [Dev.time, Dev.time, rest_clock hrest]
  simp only [WarmReset, rest_job hrest, rest_ctx hrest, rest_port hrest, time] at h ⊢
  obtain ⟨warm, up, sessions, state, pool, own, queues, parked, jobs, ctxs, ports, log⟩ := h
  exact ⟨warm, up, sessions, state, pool, own, queues, parked, jobs, ctxs, ports, log.trans hlog⟩

/-! ### A cold reset begins (R367) -/

theorem coldReset_keeps (d : Dev) : d.coldReset.power.cold = true ∧ d.coldReset.keeper.up = false ∧ d.coldReset.keeper.sessions = [] ∧
    d.coldReset.clock.state = .invalid ∧ d.coldReset.jobs = [] ∧ d.coldReset.ctxs = [] ∧ d.coldReset.faults.ring = [] ∧
    d.coldReset.sealLog = d.sealLog := ⟨rfl, rfl, rfl, rfl, rfl, rfl, rfl, rfl⟩

theorem coldReset_begins {d e : Dev} (hlog : e.sealLog = d.sealLog) {t : State} (ht : t.dev = e.coldReset.noteReady) (hdepths : t.depths = []) :
    ColdReset d t := by
  obtain ⟨cold, up, sessions, state, jobs, ctxs, ring, log⟩ := coldReset_keeps e
  generalize e.coldReset = x at *
  refine ⟨hdepths, ?_, ?_, ?_, ?_, fun j => ?_, fun c => ?_, ?_, ?_⟩
  · rw [ht, noteReady_power, cold]
  · rw [ht, noteReady_up, up]
  · rw [ht, noteReady_sessions, sessions]
  · rw [ht, noteReady_clock, state]
  · rw [ht, noteReady_job, Dev.job, jobs]; rfl
  · rw [ht, noteReady_ctx, Dev.ctx, ctxs]; rfl
  · rw [ht, noteReady_faults, ring]
  · rw [ht, noteReady_gauge]
    exact log.trans hlog

end Sys2Proof.Machine
end

section
/-! SUPPORT. What the hold leaves of the device: its supplies and clocks, what is unacknowledged, and that a HALTED job stays so (R276, R360,
R362). -/

namespace Sys2Proof.Machine

/-- `e` is `d` after acts that supply no power, stop or start no die, acknowledge nothing and resume no job. -/
structure Dev.Holds (d e : Dev) : Prop where
  power : e.power = d.power
  dies : e.dies = d.dies
  unacked : ∀ k, (tget {} d.faults.classes k).unacked = true → (tget {} e.faults.classes k).unacked = true
  halted : ∀ j, (d.job j).state = .halted → (e.job j).state = .halted

theorem holds_of_same {d e : Dev} (hp : e.power = d.power) (hd : e.dies = d.dies) (hf : e.faults = d.faults) (hj : e.jobs = d.jobs) : d.Holds e :=
  ⟨hp, hd, fun k hk => by rwa [hf], fun j h => by rwa [Dev.job, hj]⟩

theorem holds_of_inward {d e : Dev} (h : e.inward = d.inward) : d.Holds e :=
  holds_of_same (congrArg Dev.power h :) (congrArg Dev.dies h :) (congrArg Dev.faults h :) (congrArg Dev.jobs h :)

theorem holds_of_timed {d e : Dev} (h : d.Timed e) : d.Holds e :=
  ⟨timed_power h, (congrArg Dev.dies h.rest :), h.unacked, fun j hj => (timed_state h j).trans hj⟩

namespace Dev.Holds

variable {d e t : Dev}

theorem refl (d : Dev) : Holds d d := holds_of_same rfl rfl rfl rfl

theorem trans (h : Holds d e) (h' : Holds e t) : Holds d t :=
  ⟨h'.power.trans h.power, h'.dies.trans h.dies, fun k hk => h'.unacked k (h.unacked k hk), fun j hj => h'.halted j (h.halted j hj)⟩

theorem foldl {α : Type} (h : Holds d e) (f : Dev → α → Dev) (hf : ∀ x a, Holds x (f x a)) (l : List α) : Holds d (l.foldl f e) := by
  induction l generalizing e with
  | nil => exact h
  | cons a l ih => exact ih (h.trans (hf e a))

theorem ite {p : Prop} [Decidable p] (h : Holds d e) (h' : Holds d t) : Holds d (if p then e else t) := by
  split
  · exact h
  · exact h'

theorem quiet (h : Holds d e) (hq : t.quiet = e.quiet) : Holds d t := h.trans (holds_of_inward (inward_of_quiet hq))

theorem modJob (h : Holds d e) (j : Nat) (f : Job → Job) (hf : ∀ x, x.state = .halted → (f x).state = .halted) : Holds d (e.modJob j f) := by
  refine h.trans ⟨rfl, rfl, fun _ => id, fun i hi => ?_⟩
  by_cases hij : i = j
  · subst hij
    rw [job_modJob_same]
    exact hf _ hi
  · rw [job_modJob_other _ hij]
    exact hi

theorem modCtx (h : Holds d e) (c : Nat) (f : Ctx → Ctx) : Holds d (e.modCtx c f) := h.trans (holds_of_same rfl rfl rfl rfl)
theorem modPort (h : Holds d e) (p : Nat) (f : Port → Port) : Holds d (e.modPort p f) := h.trans (holds_of_same rfl rfl rfl rfl)
theorem poolFree (h : Holds d e) (p : Holding → Bool) : Holds d (e.poolFree p) := h.trans (holds_of_same rfl rfl rfl rfl)

theorem count (h : Holds d e) (i n : Nat) : Holds d (e.count i n) := h.quiet (quiet_count _ _ _)
theorem countDev (h : Holds d e) (i n : Nat) : Holds d (e.countDev i n) := h.count _ n
theorem countPort (h : Holds d e) (p i n : Nat) : Holds d (e.countPort p i n) := h.count _ n
theorem countJob (h : Holds d e) (j i n : Nat) : Holds d (e.countJob j i n) := (h.count _ n).count _ n
theorem send (h : Holds d e) (x : Sent) : Holds d (e.send x) := h.quiet (quiet_send _ _)
theorem mirror (h : Holds d e) (x : Bool) (p : Nat) (r : Option Bytes) (b : Bytes) : Holds d (e.mirror x p r b) := h.quiet (quiet_mirror _ _ _ _ _)
theorem siltWrite (h : Holds d e) (m : SiltMsg) (n : Nat) : Holds d (e.siltWrite m n) := h.quiet (quiet_siltWrite _ _ _)
theorem recordFault (h : Holds d e) (r : FaultRec) : Holds d (e.recordFault r) := h.trans (holds_of_timed (timed_recordFault e r))
theorem markSteps (h : Holds d e) (cause : Nat) : Holds d (e.markSteps cause) :=
  h.trans (holds_of_timed (timed_of_marked (marked_markSteps e cause)))

/-! ### Aborts, context resets and an abandoned step (R92, R109, R380) -/

theorem abortUse (h : Holds d e) (c status node : Nat) (from' : Option Nat) : Holds d (e.abortUse c status node from') := by
  have aside := aside_abortUse e c status node from'
  refine h.trans ⟨aside.power, aside.dies, fun k hk => ?_, fun j hj => ?_⟩
  · have lost : (e.useLost c status).faults = e.faults := (congrArg Dev.faults (unaudited_auditUse e c true) :)
    rw [(abortUse_announced e c status node from').2.2.2]
    refine unacked_recordFault _ _ ?_
    rw [Dev.siltCtx, quiet_faults (quiet_siltWrite _ _ _), lost]
    exact hk
  · rw [job_abortUse]
    split
    · exact hj
    · exact hj

theorem resetCtx (h : Holds d e) (c : Nat) : Holds d (e.resetCtx c) := by
  rw [resetCtx_eq]
  exact ite h (markSteps (siltWrite (modCtx (poolFree (ite h (abortUse h _ _ _ _)) _) _ _) _ _) 3)

theorem logBatch (h : Holds d e) (j step : Nat) (head : Bytes) (rest : List (Nat × Bytes)) : Holds d (e.logBatch j step head rest) := by
  unfold Dev.logBatch
  dsimp only
  exact ite h (countJob (countJob (modJob h j _ fun _ hx => by exact hx) _ _ _) _ _ _)

theorem erosion (h : Holds d e) (j : Nat) : Holds d (e.erosion j) := by
  have runs (n : Nat) : Holds d (e.modJob j (fun x => { x with erosionRun := n })) := h.modJob j _ fun _ hx => hx
  have clears : Holds d (e.modJob j (fun x => { x with erosionRun := 0, eroded := false })) := h.modJob j _ fun _ hx => hx
  unfold Dev.erosion
  dsimp only
  exact ite (ite (recordFault (modJob (runs _) j _ fun _ hx => by exact hx) _) (runs _)) (ite (recordFault clears _) clears)

theorem endRecords (h : Holds d e) (j step : Nat) (rest : List (Nat × Bytes)) : Holds d (e.endRecords j step rest) := by
  unfold Dev.endRecords
  dsimp only
  refine modJob (erosion ?_ j) j _ fun _ hx => by exact hx
  split
  · exact (h.logBatch _ _ _ _).recordFault _
  · exact h.logBatch _ _ _ _

theorem rewindCtxs (h : Holds d e) (j : Nat) : Holds d (e.rewindCtxs j) :=
  h.foldl _ (fun x _ => ite (modCtx (refl x) _ _) (refl x)) _

theorem audit (h : Holds d e) (a : Audit) : Holds d { e with audit := a } := h.trans (holds_of_same rfl rfl rfl rfl)

theorem abandonStep (h : Holds d e) (j : Nat) : Holds d (e.abandonStep j) := by
  unfold Dev.abandonStep
  dsimp only
  refine recordFault (audit (modJob (poolFree (modJob (endRecords (modJob (modJob (rewindCtxs ?_ j) j _ ?_) j _ ?_) _ _ _) j _ ?_) _) j _ ?_) _) _
  · exact (h.modJob j _ fun _ _ => rfl).foldl _ (fun x _ => (refl x).resetCtx _) _
  all_goals exact fun _ hx => hx

theorem abortAll (h : Holds d e) (cs : List Nat) (status : Nat) : Holds d (e.abortAll cs status) := by
  refine h.foldl _ (fun x c => ite ?_ (refl x)) cs
  unfold Dev.abortCtx
  dsimp only
  exact ite (((refl x).abortUse _ _ _ _).abandonStep _) ((refl x).abortUse _ _ _ _)

/-! ### A link that leaves UP (R275, R276) -/

theorem returnCredit (h : Holds d e) (p v n : Nat) : Holds d (e.returnCredit p v n) := by
  unfold Dev.returnCredit
  exact ite h (modPort h p _)

theorem sendFrame (h : Holds d e) (p a : Nat) (f : Bytes) : Holds d (e.sendFrame p a f) := (h.send _).quiet (quiet_portBytes _ _ _ _ _)

theorem endOut (h : Holds d e) (out v : Nat) (bad : Bool) : Holds d (e.endOut out v bad) := by
  have whole : ∀ (x : Dev) (b : Bytes), Holds x (x.ethOut out v b) := by
    intro x b
    unfold Dev.ethOut
    dsimp only
    exact ite (sendFrame (mirror (refl x) _ _ _ _) _ _ _) (sendFrame (mirror (refl x) _ _ _ _) _ _ _)
  unfold Dev.endOut
  dsimp only
  refine ite (quiet (ite (modPort h out _) ((modPort h out _).trans (whole _ _))) (quiet_drainCopies _ _)) ?_
  exact ite (send (modPort h out _) _) (mirror (send (modPort h out _) _) _ _ _ _)

theorem writeOut (h : Holds d e) (p v out w : Nat) (f : QFlit) : Holds d (e.writeOut p v out w f) := by
  unfold Dev.writeOut Dev.flitGone
  dsimp only
  have queued : Holds d (if e.ethernet out then e.countDev 0x103 64 else e.relink out w [f]) := ite (countDev h _ _) (modPort h out _)
  generalize (if e.ethernet out then e.countDev 0x103 64 else e.relink out w [f]) = x at *
  have built := modPort (modPort queued out (fun x => { x with building := tmod [] x.building w (· ++ f.data) })) out
    (fun y => { y with wrote := ((x.modPort out (fun x => { x with building := tmod [] x.building w (· ++ f.data) })).frameNo,
                                 inFrame y.wrote (x.modPort out (fun x => { x with building := tmod [] x.building w (· ++ f.data) })).frameNo + 1) })
  exact ite (endOut (ite built (returnCredit built _ _ _)) _ _ _) (ite built (returnCredit built _ _ _))

theorem sampleHead (h : Holds d e) (i o v p q : Nat) (escaped : Bool) (b : Bytes) : Holds d (e.sampleHead i o v p q escaped b) := by
  unfold Dev.sampleHead
  dsimp only
  exact (ite (countDev h _ _) h).trans (holds_of_same rfl rfl rfl rfl)

theorem refair (h : Holds d e) (w : Waiting) : Holds d (e.refair w) := by
  unfold Dev.refair
  exact ite h (h.foldl _ (fun x _ => modPort (refl x) _ _) _)

theorem dropWait (h : Holds d e) (at' : Nat) (w : Waiting) : Holds d (e.dropWait at' w) := by
  unfold Dev.dropWait
  dsimp only
  exact ite (sampleHead (refair (modPort h at' _) w) _ _ _ _ _ _ _) (refair (modPort h at' _) w)

theorem cutInput (h : Holds d e) (p : Nat) : Holds d (e.cutInput p) := by
  unfold Dev.cutInput
  dsimp only
  refine (modPort (h.foldl _ (fun x v => ?_) _) p _).foldl _ (fun x _ => dropWait (refl x) _ _) _
  split
  · exact writeOut (countDev (refl x) _ _) _ _ _ _ _
  · exact refl x

theorem cutLink (h : Holds d e) (p : Nat) : Holds d (e.cutLink p) := by
  unfold Dev.cutLink Dev.cutOutput Dev.loseRetained
  refine modPort ((cutInput (modPort (countPort h _ _ _) p _) p).foldl _ (fun x _ => ?_) _) p _
  exact returnCredit (modPort (refl x) _ _) _ _ _

theorem dropOffer (h : Holds d e) (p : Nat) : Holds d (e.dropOffer p) :=
  h.trans (holds_of_timed (timed_trans (timed_modClock e _) (elect_goes _).1))

theorem leaveUp (h : Holds d e) (p : Nat) : Holds d (e.leaveUp p) := by
  have awake : Holds d (if (e.port p).txSleep = 0 then e else e.endSleep p) := ite h (h.trans (holds_of_inward (inward_endSleep e p)))
  unfold Dev.leaveUp
  dsimp only
  exact dropOffer (ite (abortAll (cutLink (modPort awake p _) p) _ _) (modPort awake p _)) p

theorem setLink (h : Holds d e) (p : Nat) (st : LinkState) : Holds d (e.setLink p st) := by
  unfold Dev.setLink Dev.siltLink
  dsimp only
  exact ite (modPort h p _) (siltWrite (modPort h p _) _ _)

theorem dropLink (h : Holds d e) (p cause : Nat) (st : LinkState) : Holds d (e.dropLink p cause st) := by
  unfold Dev.dropLink
  dsimp only
  have spared : Holds d (if e.up p && e.laneSpare p then e.markSteps 4 else e) := ite (markSteps h 4) h
  generalize (if e.up p && e.laneSpare p then e.markSteps 4 else e) = x at *
  have marked : Holds d (if x.fabric p then x.markSteps 3 else x) := ite (markSteps spared 3) spared
  exact ite (leaveUp (setLink (modPort marked p _) p st) p) (setLink (modPort marked p _) p st)

end Dev.Holds

/-! ### The hold (R362) -/

/-- What the hold makes of a device. -/
theorem hold_holds (d : Dev) : d.hold.power = d.power ∧ d.hold.dies = d.dies ∧ d.hold.faults.held = true ∧
    (∀ k, (tget {} d.faults.classes k).unacked = true → (tget {} d.hold.faults.classes k).unacked = true) ∧
    ∀ j, (d.job j).state ≠ .empty → (d.hold.job j).state = .halted := by
  obtain ⟨_, power, dies, faults, _⟩ := stopJobs_keeps d true
  have stopped := fun j hj => (stopJobs_stopped d true (j := j) hj).1
  have cut : (d.stopJobs true).Holds ((d.stopJobs true).fabricPorts.foldl (fun d p => (d.dropLink p 0 .fault).sendTraining p 0 0) (d.stopJobs true)) :=
    (Dev.Holds.refl _).foldl _ (fun x p => ((Dev.Holds.refl x).dropLink p 0 .fault).trans (holds_of_inward (inward_sendTraining _ _ _ _))) _
  have shape : d.hold = ((d.stopJobs true).fabricPorts.foldl (fun d p => (d.dropLink p 0 .fault).sendTraining p 0 0) (d.stopJobs true)).modFaults
      (fun f => { f with held := true }) := rfl
  rw [shape]
  generalize (d.stopJobs true).fabricPorts.foldl _ _ = e at cut
  generalize d.stopJobs true = x at *
  exact ⟨cut.power.trans power, cut.dies.trans dies, rfl, fun k hk => cut.unacked k (by rwa [faults]), fun j hj => cut.halted j (stopped j hj)⟩

end Sys2Proof.Machine
end

section
/-! PROOFS. GMP_TIME_INVALIDATE, device resets, and the Keeper's failure and return (R200, R360, R371, R402). -/

namespace Sys2Proof.Machine

/-! ### Tables that cannot be read (R359, R360) -/

/-- The device whose job's tables cannot be read, before a severity above 4 acts. -/
def Dev.tablesLost (d : Dev) (r : FaultRec) (j : Nat) : Dev :=
  (if 4 ≤ d.effective r ∧ d.power.cold = false then (d.haltJobs [j] (fun _ => 5)).markSteps 3 else d).recordFault r

theorem raiseFault_tables {d : Dev} {r : FaultRec} {j : Nat} (hsrc : r.source = 0x0A04) (hctx : r.ctx = none) (hjob : r.job = some j) :
    d.raiseFault r = if 5 ≤ d.effective r then (d.tablesLost r j).fatal else d.tablesLost r j := by
  have cls : r.cls = 0x0A := by rw [FaultRec.cls, hsrc]
  have dom : (sourceOf r.source).dom = .job := by rw [hsrc]; decide
  have domain : d.resetDomain .job r = if d.power.cold then d else (d.haltJobs [j] (fun _ => 5)).markSteps 3 := by
    simp [Dev.resetDomain, cls, hjob]
  have acts : d.faultActs r (d.effective r) =
      if 4 ≤ d.effective r ∧ d.power.cold = false then (d.haltJobs [j] (fun _ => 5)).markSteps 3 else d := by
    simp only [Dev.faultActs, hctx, Option.toList_none, Dev.abortAll, List.foldl_nil, ite_self, dom, domain]
    by_cases h4 : 4 ≤ d.effective r
    · cases hcold : d.power.cold <;> simp [h4]
    · simp [h4]
  have late : ¬ r.cls ≤ 3 := by rw [cls]; decide
  rw [Dev.raiseFault, if_neg late, acts]
  rfl

/-- A device that a reset has under way. -/
def Dev.Restarting (d : Dev) : Prop := d.power.warm.isSome = true ∨ d.power.cold = true

/-- What the loss of a job's tables leaves of the supplies and of the other jobs. -/
theorem tablesLost_keeps (d : Dev) (r : FaultRec) (j : Nat) :
    (d.tablesLost r j).power = d.power ∧ ∀ i, i ≠ j → ((d.tablesLost r j).job i).state = (d.job i).state := by
  have halted : ∀ i, i ≠ j → ((d.haltJobs [j] (fun _ => 5)).job i).state = (d.job i).state := fun i hi => by
    rw [show d.haltJobs [j] (fun _ => 5) = d.modJob j (fun x => x.halt 5 d.time) from rfl, job_modJob_other _ hi]
  obtain ⟨_, power, _⟩ := haltJobs_keeps d [j] (fun _ => 5)
  have marked := marked_markSteps (d.haltJobs [j] (fun _ => 5)) 3
  unfold Dev.tablesLost
  rw [rest_power (rest_recordFault _ _)]
  simp only [rest_job (rest_recordFault _ _)]
  split
  · exact ⟨(marked_power marked).trans power, fun i hi => (congrArg Job.state (marked.job i) :).trans (halted i hi)⟩
  · exact ⟨rfl, fun _ _ => rfl⟩

/-- The loss of a job's tables leaves a device that restarts restarting, and the other jobs that are EMPTY so. -/
theorem raiseFault_restarting {d : Dev} {r : FaultRec} {j : Nat} (hsrc : r.source = 0x0A04) (hctx : r.ctx = none) (hjob : r.job = some j)
    (h : d.Restarting) : (d.raiseFault r).Restarting ∧ ∀ i, i ≠ j → (d.job i).state = .empty → ((d.raiseFault r).job i).state = .empty := by
  obtain ⟨power, jobs⟩ := tablesLost_keeps d r j
  rw [raiseFault_tables hsrc hctx hjob]
  generalize d.tablesLost r j = e at *
  have restarting : e.Restarting := by rw [Dev.Restarting, power]; exact h
  have emptied : ∀ i, i ≠ j → (d.job i).state = .empty → (e.job i).state = .empty := fun i hi he => (jobs i hi).trans he
  split
  · obtain ⟨cold, _, _, _, hjobs, _⟩ := coldReset_keeps e
    unfold Dev.fatal
    split
    · exact ⟨restarting, emptied⟩
    · next warm =>
      have near : e.nearWarm = true := by rw [Dev.nearWarm, restarting.resolve_right warm, Bool.true_or]
      rw [if_pos near]
      exact ⟨.inr cold, fun i _ _ => by rw [Dev.job, hjobs]; rfl⟩
  · exact ⟨restarting, emptied⟩

/-! ### A job is unloaded (R20) -/

/-- `e` is `d` with the supplies as they were and every EMPTY job so. -/
structure Dev.Empties (d e : Dev) : Prop where
  power : e.power = d.power
  empty : ∀ i, (d.job i).state = .empty → (e.job i).state = .empty

theorem empties_of_same {d e : Dev} (hp : e.power = d.power) (hj : e.jobs = d.jobs) : d.Empties e := ⟨hp, fun i hi => by rwa [Dev.job, hj]⟩

theorem empties_trans {d e t : Dev} (h : d.Empties e) (h' : e.Empties t) : d.Empties t :=
  ⟨h'.power.trans h.power, fun i hi => h'.empty i (h.empty i hi)⟩

theorem empties_foldl {α : Type} (f : Dev → α → Dev) (h : ∀ (d : Dev) a, d.Empties (f d a)) (l : List α) (d : Dev) : d.Empties (l.foldl f d) := by
  induction l generalizing d with
  | nil => exact empties_of_same rfl rfl
  | cons a l ih => exact empties_trans (h d a) (ih _)

theorem empties_abortUse (d : Dev) (c status node : Nat) (from' : Option Nat) : d.Empties (d.abortUse c status node from') := by
  refine ⟨(aside_abortUse d c status node from').power, fun i hi => ?_⟩
  rw [job_abortUse]
  split
  · exact hi
  · exact hi

theorem empties_endCkpt (d : Dev) (j status : Nat) : d.Empties (d.endCkpt j status) := by
  have moved : ∀ x : Dev, x.Empties x.moveOwn := fun x =>
    empties_of_same (congrArg Dev.power (inward_moveOwn x) :) (congrArg Dev.jobs (inward_moveOwn x) :)
  have notified : ∀ (x : Dev) (step : Nat) (b : Bytes), x.Empties (x.ckptEvent j status step b) := by
    intro x step b
    refine empties_foldl _ (fun y s => ?_) _ x
    split
    · exact empties_of_same (rest_power (rest_gmpNotify _ _ _ _)) (rest_fields (rest_gmpNotify _ _ _ _)).2.2.1
    · exact empties_of_same rfl rfl
  have dropped : ∀ (x : Dev) (qp : Nat), x.Empties (x.dropRdma qp) := fun x qp =>
    empties_trans (e := { x with
      ports := x.ports.map (fun e => (e.1, { e.2 with waiting := e.2.waiting.filter (fun w => w.rdma.map RdmaOut.qp != some qp) })),
      own := x.own.filter (fun f => (f.rdma.bind Waiting.rdma).map RdmaOut.qp != some qp) }) (empties_of_same rfl rfl) (moved _)
  have mod : ∀ (x : Dev) (f : Keeper → Keeper), x.Empties (x.modKeeper f) := fun _ _ => empties_of_same rfl rfl
  unfold Dev.endCkpt
  split
  · exact empties_of_same rfl rfl
  · exact empties_trans (dropped d _) (empties_trans (mod _ _) (notified _ _ _))

/-- The device of an unloaded job, before its tables are gone. -/
def Dev.jobReleased (d : Dev) (j : Nat) : Dev :=
  ((((d.ctxsOf j).foldl (fun d c => let was := (d.ctx c).state; (d.modCtx c (fun x => { x with state := .free })).siltCtx c was)
    ((d.ctxsOf j).foldl (fun d c => if (d.ctx c).openUse then d.abortUse c stJobUnloaded (d.ownNode c) none else d) d)).poolFree
      (fun h => (d.ctxsOf j).contains h.holder || (decide (8192 ≤ h.holder) && h.job == j && h.reserved))).endCkpt j stCkptAborted)

theorem empties_jobReleased (d : Dev) (j : Nat) : d.Empties (d.jobReleased j) := by
  have traced : ∀ (y : Dev) (c : Nat) (was : CtxState), y.Empties (y.siltCtx c was) := fun y c was =>
    empties_of_same (rest_power (rest_siltWrite _ _ _)) (rest_fields (rest_siltWrite _ _ _)).2.2.1
  have freed : ∀ (y : Dev) (c : Nat) (f : Ctx → Ctx), y.Empties (y.modCtx c f) := fun _ _ _ => empties_of_same rfl rfl
  have pooled : ∀ (y : Dev) (p : Holding → Bool), y.Empties (y.poolFree p) := fun _ _ => empties_of_same rfl rfl
  have aborted := empties_foldl (fun (d : Dev) c => if (d.ctx c).openUse then d.abortUse c stJobUnloaded (d.ownNode c) none else d)
    (fun x c => by
      split
      · exact empties_abortUse _ _ _ _ _
      · exact empties_of_same rfl rfl) (d.ctxsOf j) d
  have ended := empties_foldl
    (fun (d : Dev) c => let was := (d.ctx c).state; (d.modCtx c (fun x => { x with state := .free })).siltCtx c was)
    (fun x c => empties_trans (freed x c _) (traced _ c _)) (d.ctxsOf j)
  exact empties_trans aborted (empties_trans (ended _) (empties_trans (pooled _ _) (empties_endCkpt _ _ _)))

theorem unloadJob_empties (d : Dev) (j : Nat) : d.Empties (d.unloadJob j) ∧ ((d.unloadJob j).job j).state = .empty := by
  have released := empties_jobReleased d j
  have power : (d.unloadJob j).power = (d.jobReleased j).power := rfl
  have jobs : (d.unloadJob j).jobs = tdel (d.jobReleased j).jobs j := rfl
  have job : ∀ i, (d.unloadJob j).job i = if i = j then {} else (d.jobReleased j).job i := fun i => by rw [Dev.job, jobs, tget_tdel]; rfl
  refine ⟨⟨power.trans released.power, fun i hi => ?_⟩, by rw [job, if_pos rfl]⟩
  rw [job]
  split
  · rfl
  · exact released.empty i hi

/-! ### The Keeper returns (R371) -/

/-- A job whose tables are bad is unloaded, with its record. -/
def Dev.dropTables (d : Dev) (j : Nat) : Dev := (d.raiseFault { source := 0x0A04, job := some j }).unloadJob j

theorem dropTables_empties {d : Dev} (h : d.Restarting) (j : Nat) :
    (d.dropTables j).Restarting ∧ ∀ i, i = j ∨ (d.job i).state = .empty → ((d.dropTables j).job i).state = .empty := by
  obtain ⟨restarting, others⟩ := raiseFault_restarting (r := { source := 0x0A04, job := some j }) rfl rfl rfl h
  obtain ⟨⟨power, empty⟩, gone⟩ := unloadJob_empties (d.raiseFault { source := 0x0A04, job := some j }) j
  refine ⟨by rw [Dev.Restarting, Dev.dropTables, power]; exact restarting, fun i hi => ?_⟩
  by_cases hij : i = j
  · rw [hij]
    exact gone
  · exact empty i (others i hij (hi.resolve_left hij))

/-- Every job of a list, and every one that was, is EMPTY once the list's tables are dropped. -/
theorem foldl_dropTables (l : List Nat) {d : Dev} (h : d.Restarting) {i : Nat} (hi : i ∈ l ∨ (d.job i).state = .empty) :
    ((l.foldl Dev.dropTables d).job i).state = .empty := by
  induction l generalizing d with
  | nil => exact hi.resolve_left List.not_mem_nil
  | cons j l ih =>
    obtain ⟨restarting, empty⟩ := dropTables_empties h j
    refine ih restarting ?_
    obtain hl | he := hi
    · obtain rfl | hl := List.mem_cons.mp hl
      · exact .inr (empty i (.inl rfl))
      · exact .inl hl
    · exact .inr (empty i (.inr he))

/-- The Keeper as it serves again. -/
def Dev.keeperUp (d : Dev) : Dev := d.modKeeper (fun k => { k with up := true })

theorem keeperBack_eq {d : Dev} (hwarm : d.power.warm.isSome = true) (hup : d.keeper.up = false) (corrupt : List Nat) :
    d.keeperBack corrupt = ((d.keeperUp.loaded.filter corrupt.contains).foldl Dev.dropTables d.keeperUp).warmOver := by
  have back : ¬ (d.power.warm.isNone || d.keeper.up) = true := by
    rw [hup]
    cases h : d.power.warm <;> simp_all
  exact if_neg back

theorem warmOver_keeps (d : Dev) : d.warmOver.keeper = d.keeper ∧ d.warmOver.jobs = d.jobs ∧ d.warmOver.ports = d.ports ∧ d.warmOver.faults = d.faults := by
  unfold Dev.warmOver
  split <;> exact ⟨rfl, rfl, rfl, rfl⟩

theorem keeperBack_unloads {d : Dev} (hwarm : d.power.warm.isSome = true) (hup : d.keeper.up = false) {corrupt : List Nat} {j : Nat}
    (hj : j ∈ corrupt) : ((d.keeperBack corrupt).job j).state = .empty := by
  rw [keeperBack_eq hwarm hup, Dev.job, (warmOver_keeps _).2.1]
  have restarting : d.keeperUp.Restarting := .inl hwarm
  refine foldl_dropTables _ restarting ?_
  by_cases he : (d.keeperUp.job j).state = .empty
  · exact .inr he
  · exact .inl (List.mem_filter.mpr ⟨mem_loaded he, by simpa using hj⟩)

theorem keeperBack_serves {d : Dev} (hwarm : d.power.warm.isSome = true) (hup : d.keeper.up = false) :
    (d.keeperBack []).keeper.up = true ∧ (d.keeperBack []).jobs = d.jobs ∧ (d.keeperBack []).ports = d.ports ∧ (d.keeperBack []).faults = d.faults := by
  have none : d.keeperUp.loaded.filter (List.contains []) = [] := List.filter_eq_nil_iff.mpr fun _ _ => by simp
  rw [keeperBack_eq hwarm hup, none]
  obtain ⟨keeper, jobs, ports, faults⟩ := warmOver_keeps d.keeperUp
  exact ⟨congrArg Keeper.up keeper, jobs, ports, faults⟩

/-! ### A device-fatal fault acts (R360, R362, R372) -/

/-- KEEPER_WATCHDOG names no unit and no context: it is recorded, and at severity 5 it acts on the device. -/
theorem raiseFault_watchdog {d : Dev} (h : d.effective { source := 0x0C02 } = 5) :
    d.raiseFault { source := 0x0C02 } = (d.recordFault { source := 0x0C02 }).fatal := by
  have dom : (sourceOf 0x0C02).dom = .none := by decide
  have acts : d.faultActs { source := 0x0C02 } 5 = d := by simp [Dev.faultActs, Dev.abortAll, Dev.resetDomain, dom]
  have late : ¬ ({ source := 0x0C02 } : FaultRec).cls ≤ 3 := by simp [FaultRec.cls]
  rw [Dev.raiseFault, if_neg late, h, acts]
  rfl

theorem nearWarm_congr {d e : Dev} (hp : e.power = d.power) (hc : e.clock = d.clock) : e.nearWarm = d.nearWarm := by
  rw [Dev.nearWarm, Dev.nearWarm, Dev.time, Dev.time, hp, hc]

theorem holdOnFatal_congr {d e : Dev} (h : e.image = d.image) : e.holdOnFatal = d.holdOnFatal := by
  rw [Dev.holdOnFatal, Dev.holdOnFatal, Dev.img, Dev.img, Dev.hasImg, Dev.hasImg, h]

theorem fatal_eq {d : Dev} (h : d.power.cold = false) : d.fatal = if d.nearWarm then d.coldReset else if d.holdOnFatal then d.hold else d.warmReset true :=
  if_neg (by simp [h])

theorem warm_of_not_near {d : Dev} (h : d.nearWarm = false) : d.power.warm = none := by
  rw [Dev.nearWarm, Bool.or_eq_false_iff] at h
  exact Option.isSome_eq_false_iff.mp h.1 |> Option.isNone_iff_eq_none.mp

/-! ### GMP_DEVICE_RESET (R371, R402, R411) -/

/-- The device that has answered a reset's request and not yet begun it. -/
def State.resetAnswered (s : State) (m : GmpMsg) (x : Session) : Dev :=
  (s.taking m 0x0052).dev.gmpReply x.number 0x0052 m.tag ({} : Reply).body

theorem rest_resetAnswered (s : State) (m : GmpMsg) (x : Session) : (s.resetAnswered m x).rest = (s.devAt m.now).rest :=
  (rest_gmpReply _ _ _ _ _).trans (rest_taking s m _)

theorem sealLog_resetAnswered (s : State) (m : GmpMsg) (x : Session) : (s.resetAnswered m x).sealLog = (s.devAt m.now).sealLog :=
  (sealLog_gmpReply _ _ _ _ _).trans (sealLog_taken _ _ _)

theorem imageState_taking (s : State) (m : GmpMsg) (code : Nat) : (s.taking m code).dev.keeper.imageState = s.dev.keeper.imageState := by
  have same := (congrArg (fun d : Dev => d.keeper.imageState) (rest_taking s m code) :)
  have at' : (s.devAt m.now).keeper.imageState = s.dev.keeper.imageState := by rw [to_keeper]
  exact Eq.trans same at'

/-- A warm reset that is asked for while the image is not BAD. -/
theorem gmpCommand_warm {m : GmpMsg} {s : State} {x : Session} (h : Served resetWarmRequest m x (s.devAt m.now))
    (himage : s.dev.keeper.imageState ≠ .bad) :
    gmpCommand resetWarmRequest m s =
      { s with dev := (s.resetAnswered m x).warmReset.noteReady, depths := if (s.resetAnswered m x).warmReset.power.cold then [] else s.depths } := by
  refine gmpCommand_silent resetWarmRequest m s x h (k := (s.taking m 0x0052).mod
    (fun d => (d.gmpReply x.number 0x0052 m.tag ({} : Reply).body).warmReset)) ?_
  have good : ¬ ((s.taking m 0x0052).dev.keeper.imageState == .bad) = true := by rw [imageState_taking]; simpa using himage
  exact if_neg good

theorem gmpCommand_cold {m : GmpMsg} {s : State} {x : Session} (h : Served resetColdRequest m x (s.devAt m.now)) :
    gmpCommand resetColdRequest m s =
      { s with dev := (s.resetAnswered m x).coldReset.noteReady, depths := if (s.resetAnswered m x).coldReset.power.cold then [] else s.depths } :=
  gmpCommand_silent resetColdRequest m s x h (k := (s.taking m 0x0052).mod
    (fun d => (d.gmpReply x.number 0x0052 m.tag ({} : Reply).body).coldReset)) rfl

/-- The device whose GTC GMP_TIME_INVALIDATE has made INVALID, with no upstream (R200). -/
def Dev.timeInvalidated (d : Dev) : Dev := (d.enterGtc .invalid 7).modClock (fun c => { c with upstream := 0x7F })

theorem timeInvalidated_keeps (d : Dev) : d.Timed d.timeInvalidated ∧ d.timeInvalidated.ports = d.ports ∧
    d.timeInvalidated.clock.state = .invalid ∧ d.timeInvalidated.clock.cause = 7 ∧ d.timeInvalidated.clock.upstream = 0x7F ∧
    d.timeInvalidated.clock.gtc = d.clock.gtc := by
  have gtc : (d.enterGtc .invalid 7).clock.gtc = d.clock.gtc := (beat_fields (beat_enterGtc d .invalid 7)).1
  have state := state_enterGtc d .invalid 7
  have cause := cause_enterGtc d .invalid 7
  have ports := ports_enterGtc d .invalid 7
  have timed := timed_enterGtc d .invalid 7
  unfold Dev.timeInvalidated
  generalize d.enterGtc .invalid 7 = e at *
  exact ⟨timed_trans timed (timed_modClock _ _), ports, state, cause, rfl, gtc⟩

/-- Settles O46: each request and each fault comes down to the GTC's INVALID, to a warm or a cold reset, to the hold, or to the Keeper's return. -/
theorem timeIsInvalidatedAndResetsBegin : Obligations.TimeIsInvalidatedAndResetsBegin := by
  unfold Obligations.TimeIsInvalidatedAndResetsBegin
  refine ⟨⟨?_, ?_, ?_, ?_, ?_⟩, ?_, ?_, ?_⟩
  · intro m s x h
    refine ⟨gmpCommand timeInvalidateRequest m s, rfl, ?_⟩
    obtain ⟨timed, ports, state, cause, upstream, gtc⟩ := timeInvalidated_keeps (s.taking m timeInvalidateRequest.msg).dev
    obtain ⟨answered, rest, -⟩ := gmpCommand_acts h (f := Dev.timeInvalidated) (a := {}) rfl timed.sessions
    have taking := rest_taking s m timeInvalidateRequest.msg
    obtain ⟨hports, hctxs, _, hclock, _⟩ := rest_fields rest
    obtain ⟨tports, tctxs, _, tclock, _⟩ := rest_fields taking
    refine ⟨answered, ?_, ?_, ?_, ?_, ?_, ?_⟩
    · rw [hclock, state]
    · rw [hclock, cause]
    · rw [hclock, upstream]
    · rw [hclock, gtc, tclock]
    · rw [hports, ports, tports, to_ports]
    · rw [hctxs, timed_ctxs timed, tctxs, to_ctxs]
  · intro m s x h himage hwarm
    refine ⟨gmpCommand resetWarmRequest m s, rfl, ?_⟩
    have rest := rest_resetAnswered s m x
    have power : (s.resetAnswered m x).power = s.dev.power := (rest_power rest).trans (to_power _ _)
    rw [gmpCommand_warm h himage]
    obtain ⟨begins, cold⟩ := warmReset_begins (d := s.resetAnswered m x) (by rw [power]; exact hwarm) false
      (t := { s with dev := (s.resetAnswered m x).warmReset.noteReady }) rfl
    refine ⟨warmReset_congr begins rest (sealLog_resetAnswered s m x), rfl, fun hcold => if_neg ?_⟩
    rw [noteReady_power, power, hcold] at cold
    simp [cold]
  · intro m s x h himage hwarm
    refine ⟨gmpCommand resetWarmRequest m s, rfl, ?_⟩
    have rest := rest_resetAnswered s m x
    have power : (s.resetAnswered m x).power = s.dev.power := (rest_power rest).trans (to_power _ _)
    have joined : (s.resetAnswered m x).warmReset = s.resetAnswered m x := if_pos (by rw [power]; exact hwarm)
    obtain ⟨y, hy⟩ := served_session resetWarmRequest m s x h
    obtain ⟨z, hz, hl⟩ := session_gmpReply (s.taking m 0x0052).dev m.session 0x0052 m.tag ({} : Reply).body y hy
    rw [gmpCommand_warm h himage, joined]
    refine ⟨⟨z, ?_, hl⟩, (rest_noteReady _).trans rest⟩
    rw [noteReady_session, State.resetAnswered, served_number h]
    exact hz
  · intro m s x h himage
    refine ⟨gmpCommand resetWarmRequest m s, rfl, gmpCommand_refuses h (a := { status := stRecoveryOnly }) (if_pos ?_)⟩
    rw [imageState_taking, himage]
    rfl
  · intro m s x h
    refine ⟨gmpCommand resetColdRequest m s, rfl, ?_⟩
    have log := sealLog_resetAnswered s m x
    rw [gmpCommand_cold h]
    generalize s.resetAnswered m x = e at log ⊢
    have depths : (if e.coldReset.power.cold then [] else s.depths) = [] := if_pos (coldReset_keeps e).1
    rw [depths]
    exact ⟨coldReset_begins log (by dsimp only) (by dsimp only), by dsimp only⟩
  · intro now s heff hcold
    refine ⟨s.event now (fun d => d.raiseFault { source := 0x0C02 }), rfl, event_flash _ _ _, ?_⟩
    have rest := rest_recordFault (s.devAt now) { source := 0x0C02 }
    have log := sealLog_recordFault (s.devAt now) { source := 0x0C02 }
    have dev := event_devAt s now (fun d => d.raiseFault { source := 0x0C02 })
    have depths := event_depths s now (fun d => d.raiseFault { source := 0x0C02 })
    have raised := raiseFault_watchdog heff
    have off : ((s.devAt now).recordFault { source := 0x0C02 }).power.cold = false := by rw [rest_power rest, to_power]; exact hcold
    have near := nearWarm_congr (rest_power rest) (rest_clock rest)
    have holds := holdOnFatal_congr (rest_fields rest).2.2.2.2.1
    have jobs : ∀ j, ((s.devAt now).recordFault { source := 0x0C02 }).job j = s.dev.job j := fun j => (rest_job rest j).trans (job_devAt s now j)
    rw [raised, fatal_eq off, near, holds] at dev depths
    generalize (s.devAt now).recordFault { source := 0x0C02 } = e at *
    refine ⟨fun hnear => ?_, fun hnear hhold => ?_, fun hnear hhold => ?_⟩
    · rw [hnear, if_pos rfl] at dev depths
      exact coldReset_begins log dev (depths.trans (if_pos (coldReset_keeps e).1))
    · rw [hnear, hhold] at dev
      exact warmReset_congr (warmReset_begins (warm_of_not_near (near.trans hnear)) true dev).1 rest log
    · rw [hnear, hhold, if_neg Bool.false_ne_true, if_pos rfl] at dev depths
      obtain ⟨power, _, held, _, halted⟩ := hold_holds e
      refine ⟨by rw [dev, noteReady_faults]; exact held, depths.trans (if_neg ?_), fun j hj => ?_⟩
      · rw [power, off]
        decide
      · rw [dev, noteReady_job]
        exact halted j (by rw [jobs]; exact hj)
  · intro now corrupt s hwarm hup
    refine ⟨s.event now (Dev.keeperBack corrupt), rfl, ?_⟩
    have warm : (s.devAt now).power.warm.isSome = true := by rw [to_power]; exact hwarm
    have down : (s.devAt now).keeper.up = false := by rw [to_keeper]; exact hup
    rw [event_devAt]
    refine ⟨fun j hj => ?_, ?_⟩
    · rw [noteReady_job]
      exact keeperBack_unloads warm down hj
    · rintro rfl
      obtain ⟨up, jobs, ports, faults⟩ := keeperBack_serves warm down
      rw [noteReady_up, noteReady_jobs, noteReady_ports, noteReady_faults, jobs, ports, faults, to_jobs, to_ports, to_faults]
      exact ⟨up, rfl, rfl, rfl⟩
  · intro now corrupt s h
    refine ⟨s.event now (Dev.keeperBack corrupt), rfl, rest_event_idle (if_pos ?_)⟩
    rw [to_power, to_keeper]
    obtain hw | hu := h
    · rw [hw]; rfl
    · rw [hu, Bool.or_true]

end Sys2Proof.Machine
end

section
/-! PROOFS. The clocks of the compute dies, and temperature (R216, R219, R221, R372, R479, R487). -/

namespace Sys2Proof.Machine

/-! ### What the dies' clocks touch -/

theorem rest_dies {d e : Dev} (h : e.rest = d.rest) : e.dies = d.dies := (rest_fields h).2.2.2.2.2.2.2.1

theorem rest_die {d e : Dev} (h : e.rest = d.rest) (k : Nat) : e.die k = d.die k := by rw [Dev.die, Dev.die, rest_dies h]

/-- A job without its lags and the causes of R219. -/
def Job.unlagged (x : Job) : Job := { x with lag0 := 0, lag1 := 0, causes := 0 }

/-- `e` is `d` but for its dies, the lags and causes of its jobs, whether a clock was stretched, and reports. -/
structure Dev.Lagged (d e : Dev) : Prop where
  quiet : e.quiet = { d.quiet with dies := e.dies, jobs := e.jobs, clock := { d.clock with stretched := e.clock.stretched } }
  log : e.sealLog = d.sealLog
  job : ∀ j, (e.job j).unlagged = (d.job j).unlagged

theorem lagged_refl (d : Dev) : d.Lagged d := ⟨rfl, rfl, fun _ => rfl⟩

theorem lagged_trans {d e t : Dev} (h : d.Lagged e) (h' : e.Lagged t) : d.Lagged t where
  quiet := h'.quiet.trans (congrArg
    (fun x : Dev => { x with dies := t.dies, jobs := t.jobs, clock := { x.clock with stretched := t.clock.stretched } }) h.quiet)
  log := h'.log.trans h.log
  job j := (h'.job j).trans (h.job j)

theorem lagged_of_quiet {d e : Dev} (h : e.quiet = d.quiet) (hlog : e.sealLog = d.sealLog) : d.Lagged e := by
  have rest := rest_of_quiet h
  refine ⟨h.trans ?_, hlog, fun j => congrArg Job.unlagged (rest_job rest j)⟩
  rw [rest_clock rest, (rest_fields rest).2.2.1, rest_dies rest]
  rfl

theorem lagged_of_marked {d e : Dev} (h : d.Marked e) : d.Lagged e := by
  refine ⟨h.quiet.trans ?_, h.log, fun j => (congrArg (fun x : Job => { x with lag0 := 0, lag1 := 0 }) (h.job j) :)⟩
  rw [marked_clock h, marked_dies h]
  rfl

theorem lagged_modDie (d : Dev) (i : Nat) (f : Die → Die) : d.Lagged (d.modDie i f) := ⟨rfl, rfl, fun _ => rfl⟩
theorem lagged_countDie (d : Dev) (i k n : Nat) : d.Lagged (d.countDie i k n) := lagged_of_quiet (quiet_countDie _ _ _ _) (sealLog_countDie _ _ _ _)
theorem lagged_siltWrite (d : Dev) (m : SiltMsg) : d.Lagged (d.siltWrite m) := lagged_of_quiet (quiet_siltWrite _ _ _) (sealLog_siltWrite _ _ _)
theorem lagged_stretched (d : Dev) : d.Lagged (d.modClock (fun c => { c with stretched := true })) := ⟨rfl, rfl, fun _ => rfl⟩

section
variable {d e : Dev} (h : d.Lagged e)
include h

theorem lagged_faults : e.faults = d.faults := (congrArg Dev.faults h.quiet :)
theorem lagged_image : e.image = d.image := (congrArg Dev.image h.quiet :)
theorem lagged_power : e.power = d.power := (congrArg Dev.power h.quiet :)
theorem lagged_ctxs : e.ctxs = d.ctxs := (congrArg Dev.ctxs h.quiet :)
theorem lagged_ports : e.ports = d.ports := (congrArg Dev.ports h.quiet :)
theorem lagged_time : e.time = d.time := (congrArg Dev.time h.quiet :)
theorem lagged_state (j : Nat) : (e.job j).state = (d.job j).state := (congrArg Job.state (h.job j) :)
theorem lagged_owned (j : Nat) : (e.job j).owned = (d.job j).owned := (congrArg Job.owned (h.job j) :)
theorem lagged_effective (r : FaultRec) : e.effective r = d.effective r := (congrArg (fun x : Dev => x.effective r) h.quiet :)

end

/-! ### Lag (R216) -/

/-- A job with the edges that a die has missed. -/
def Dev.lagJob (d : Dev) (i : Nat) (x : Job) : Job :=
  if x.running || x.runSection.isSome then
    let n := (d.die i).missed (max (d.die i).since x.beginTime) d.time
    if i = 0 then { x with lag0 := x.lag0 + n } else { x with lag1 := x.lag1 + n }
  else x

theorem lagJob_lagOf (d : Dev) (i : Nat) (x : Job) :
    (d.lagJob i x).lagOf i = if (x.running || x.runSection.isSome) = true then d.lagOn x i else x.lagOf i := by
  unfold Dev.lagJob
  split
  · by_cases hi : i = 0 <;> simp [Job.lagOf, Dev.lagOn, hi]
  · rfl

theorem lagJob_unlagged (d : Dev) (i : Nat) (x : Job) : (d.lagJob i x).unlagged = x.unlagged := by
  unfold Dev.lagJob
  split
  · dsimp only
    split <;> rfl
  · rfl

theorem job_lagDie (d : Dev) (i j : Nat) : (d.lagDie i).job j = d.lagJob i (d.job j) := by
  have jobs : (d.lagDie i).jobs = d.jobs.map (fun e => (e.1, d.lagJob i e.2)) := by
    refine List.map_congr_left fun e _ => ?_
    rw [Dev.lagJob]
    split <;> rfl
  rw [Dev.job, jobs]
  exact tget_mapped ({} : Job) (d.lagJob i) rfl d.jobs j

theorem lagged_lagDie (d : Dev) (i : Nat) : d.Lagged (d.lagDie i) :=
  ⟨rfl, rfl, fun j => by rw [job_lagDie, lagJob_unlagged]⟩

/-! ### A die is settled (R221) -/

/-- What the settlement of a die makes of the dies and the jobs. -/
theorem settle_settles (d : Dev) (i : Nat) : d.Lagged (d.settle i) ∧ (∀ k, k ≠ i → (d.settle i).die k = d.die k) ∧
    ((d.settle i).die i).since = d.time ∧ ((d.settle i).die i).stretching = (d.die i).stretching ∧
    ((d.settle i).die i).stopped = (d.die i).stopped ∧ ∀ j, (d.settle i).job j = d.lagJob i (d.job j) := by
  have counted := lagged_countDie (d.lagDie i) i (if (d.die i).stopped.isSome then 2 else 1) ((d.die i).missed (d.die i).since d.time)
  have rest := rest_countDie (d.lagDie i) i (if (d.die i).stopped.isSome then 2 else 1) ((d.die i).missed (d.die i).since d.time)
  have lagged := lagged_lagDie d i
  have jobs := fun j => job_lagDie d i j
  have same : ∀ k, (d.lagDie i).die k = d.die k := fun _ => rfl
  unfold Dev.settle
  dsimp only
  generalize d.lagDie i = a at *
  generalize a.countDie _ _ _ = b at *
  have dies : ∀ k, b.die k = d.die k := fun k => (rest_die rest k).trans (same k)
  have time : b.time = d.time := (lagged_time counted).trans (lagged_time lagged)
  refine ⟨lagged_trans lagged (lagged_trans counted (lagged_modDie _ _ _)), fun k hk => ?_, ?_, ?_, ?_, fun j => ?_⟩
  · rw [die_modDie_other _ hk, dies]
  · rw [die_modDie_same]
    exact time
  · rw [die_modDie_same, dies]
  · rw [die_modDie_same, dies]
  · exact (rest_job rest j).trans (jobs j)

/-! ### A stretch or a stop begins (R219, R221, R439, R479, R487) -/

/-- A mild fault that names no context is recorded, and nothing else follows (R360). -/
theorem raiseFault_mild {d : Dev} {r : FaultRec} (h : d.effective r ≤ 3) (hctx : r.ctx = none) : d.raiseFault r = d.recordFault r := by
  have acts : ∀ x : Dev, x.faultActs r (d.effective r) = x := fun x => by
    rw [Dev.faultActs, hctx, if_neg (show ¬ 4 ≤ d.effective r by omega)]
    exact ite_self _
  rw [Dev.raiseFault]
  rw [if_neg (show ¬ 5 ≤ d.effective r by omega), acts, acts, ite_self]

/-- A stretch or a stop sets stretched and leaves the dies alone. -/
theorem clockBegins_keeps (d : Dev) (i cause : Nat) : d.Lagged (d.clockBegins i cause) ∧ (d.clockBegins i cause).dies = d.dies ∧
    (d.clockBegins i cause).clock.stretched = true := by
  have counted := lagged_countDie d i 3 1
  have dies : (d.countDie i 3 1).dies = d.dies := (congrArg Dev.dies (rest_countDie d i 3 1) :)
  unfold Dev.clockBegins
  generalize d.countDie i 3 1 = a at *
  have marked := marked_markSteps (a.modClock (fun c => { c with stretched := true })) cause
  generalize (a.modClock (fun c => { c with stretched := true })).markSteps cause = e at *
  exact ⟨lagged_trans counted (lagged_trans (lagged_stretched _) (lagged_of_marked marked)), (marked_dies marked).trans dies,
    by rw [marked_clock marked]; rfl⟩

/-- A die's clock is changed from now on, and the steps are marked. -/
def Dev.clockTurns (d : Dev) (i cause : Nat) (f : Die → Die) : Dev := ((d.settle i).modDie i f).clockBegins i cause

/-- A die whose clock is stretched from a tick on. -/
def Die.stretchedFrom (tick : Nat) (x : Die) : Die := { x with stretching := some tick, lost := 0 }

/-- A die whose clock stands still from a tick on. -/
def Die.stoppedFrom (tick : Nat) (x : Die) : Die := { x with stopped := some tick }

theorem clockTurns_keeps (d : Dev) (i cause : Nat) (f : Die → Die) : d.Lagged (d.clockTurns i cause f) ∧
    (∀ k, k ≠ i → (d.clockTurns i cause f).die k = d.die k) ∧ (d.clockTurns i cause f).die i = f ((d.settle i).die i) ∧
    (d.clockTurns i cause f).clock.stretched = true := by
  obtain ⟨settled, others, _⟩ := settle_settles d i
  unfold Dev.clockTurns
  generalize d.settle i = a at *
  obtain ⟨lagged, dies, stretched⟩ := clockBegins_keeps (a.modDie i f) i cause
  refine ⟨lagged_trans settled (lagged_trans (lagged_modDie a i f) lagged), fun k hk => ?_, ?_, stretched⟩
  · rw [Dev.die, dies]
    exact (die_modDie_other a hk f).trans (others k hk)
  · rw [Dev.die, dies]
    exact die_modDie_same a i f

theorem stretch_begins {d : Dev} {i : Nat} (hi : i < 2) (h : (d.die i).stretching = none) :
    d.stretch i = (d.clockTurns i 1 (Die.stretchedFrom d.tick)).raiseFault { source := 0x0B01, unit := some i } :=
  if_neg (by simp [h]; omega)

theorem stretch_idle {d : Dev} {i : Nat} (h : 2 ≤ i ∨ (d.die i).stretching.isSome = true) : d.stretch i = d := if_pos h

/-- The STOP_BEGIN record leaves what the stop has made. -/
theorem gate_begins {d : Dev} {i : Nat} (h : (d.die i).stopped = none) : ∃ m, d.gate i = (d.clockTurns i 2 (Die.stoppedFrom d.tick)).siltWrite m :=
  ⟨_, if_neg (by simp [h])⟩

theorem clockStop_begins {d : Dev} {i : Nat} (hi : i < 2) (h : (d.die i).stopped = none) :
    d.clockStop i = (d.gate i).raiseFault { source := 0x0B02, unit := some i } := if_neg (by simp [h]; omega)

theorem clockStop_idle {d : Dev} {i : Nat} (h : 2 ≤ i ∨ (d.die i).stopped.isSome = true) : d.clockStop i = d := if_pos h

/-- What the beginning of a stop leaves. -/
theorem gate_turns {d : Dev} {i : Nat} (h : (d.die i).stopped = none) : d.Lagged (d.gate i) ∧ (∀ k, k ≠ i → (d.gate i).die k = d.die k) ∧
    (d.gate i).die i = ((d.settle i).die i).stoppedFrom d.tick ∧ (d.gate i).clock.stretched = true := by
  obtain ⟨m, begins⟩ := gate_begins h
  obtain ⟨lagged, others, die, stretched⟩ := clockTurns_keeps d i 2 (Die.stoppedFrom d.tick)
  rw [begins]
  generalize d.clockTurns i 2 (Die.stoppedFrom d.tick) = a at *
  have dies := rest_die (rest_siltWrite a m 0)
  exact ⟨lagged_trans lagged (lagged_siltWrite a m), fun k hk => (dies k).trans (others k hk), (dies i).trans die,
    by rw [clock_siltWrite]; exact stretched⟩

/-- What the gating of a die leaves. -/
theorem gate_keeps (d : Dev) (i : Nat) : d.Lagged (d.gate i) ∧ (∀ k, k ≠ i → (d.gate i).die k = d.die k) ∧ ((d.gate i).die i).stopped.isSome = true := by
  cases hs : (d.die i).stopped with
  | some b =>
    have idle : d.gate i = d := if_pos (by simp [hs])
    rw [idle, hs]
    exact ⟨lagged_refl d, fun _ _ => rfl, rfl⟩
  | none =>
    obtain ⟨lagged, others, die, _⟩ := gate_turns hs
    exact ⟨lagged, others, by rw [die]; rfl⟩

/-- The record of a stretch or a stop leaves what that has made. -/
theorem clockFault_keeps {d a : Dev} (h : d.Lagged a) {r : FaultRec} (hmild : d.effective r ≤ 3) (hctx : r.ctx = none) (hsrc : r.source < 65536) :
    (a.raiseFault r).noteReady.clock = a.clock ∧ (∃ e ∈ (a.raiseFault r).noteReady.faults.ring, recSource e.bytes = r.source) ∧
    (∀ k, (a.raiseFault r).noteReady.die k = a.die k) ∧ (a.raiseFault r).noteReady.ports = d.ports ∧
    (a.raiseFault r).noteReady.ctxs = d.ctxs := by
  have rest := rest_recordFault a r
  have source := recordFault_source a r hsrc
  rw [raiseFault_mild (by rw [lagged_effective h]; exact hmild) hctx]
  generalize a.recordFault r = e at *
  refine ⟨?_, ?_, fun k => ?_, ?_, ?_⟩
  · rw [noteReady_clock, rest_clock rest]
  · rw [noteReady_faults]
    exact source
  · rw [noteReady_die, rest_die rest]
  · rw [noteReady_ports, (rest_fields rest).1, lagged_ports h]
  · rw [noteReady_ctxs, (rest_fields rest).2.1, lagged_ctxs h]

/-! ### A stretch or a stop ends (R216, R221, R479, R487) -/

/-- A die's clock is changed back, with its Silt record. -/
theorem clockReturns (d : Dev) (i : Nat) (f : Die → Die) (kind start lost : Nat) :
    d.Lagged (((d.settle i).modDie i f).siltStretch i kind start lost) ∧
    (∀ k, k ≠ i → (((d.settle i).modDie i f).siltStretch i kind start lost).die k = d.die k) ∧
    (((d.settle i).modDie i f).siltStretch i kind start lost).die i = f ((d.settle i).die i) ∧
    ∀ j, (((d.settle i).modDie i f).siltStretch i kind start lost).job j = d.lagJob i (d.job j) := by
  obtain ⟨settled, others, _, _, _, jobs⟩ := settle_settles d i
  unfold Dev.siltStretch
  generalize d.settle i = a at *
  have written := rest_siltWrite (a.modDie i f)
  have lagged := lagged_siltWrite (a.modDie i f)
  have dies : ∀ m k, ((a.modDie i f).siltWrite m).die k = (a.modDie i f).die k := fun m => rest_die (written m 0)
  refine ⟨lagged_trans settled (lagged_trans (lagged_modDie a i f) (lagged _)), fun k hk => ?_, ?_, fun j => ?_⟩
  · rw [dies, die_modDie_other a hk, others k hk]
  · rw [dies, die_modDie_same]
  · exact (rest_job (written _ 0) j).trans (jobs j)

/-- A stretch ends. -/
def Die.unstretched (x : Die) : Die := { x with stretching := none }

/-- A stop ends. -/
def Die.restarted (x : Die) : Die := { x with stopped := none }

theorem stretchEnds_eq {d : Dev} {i b least : Nat} (hs : (d.die i).stretching = some b) (hl : droopEnd ≤ least) :
    d.stretchEnds i least = ((d.settle i).modDie i Die.unstretched).siltStretch i 0 b ((d.settle i).die i).lost := by
  rw [Dev.stretchEnds, hs, decide_eq_true hl]
  rfl

theorem stretchEnds_idle {d : Dev} {i least : Nat} (h : least < droopEnd ∨ (d.die i).stretching = none) : d.stretchEnds i least = d := by
  unfold Dev.stretchEnds
  obtain hl | hn := h
  · rw [decide_eq_false (by omega)]
    split <;> simp_all
  · rw [hn]

theorem ungate_eq {d : Dev} {i b : Nat} (hs : (d.die i).stopped = some b) :
    d.ungate i = ((d.settle i).modDie i Die.restarted).siltStretch i 1 b ((d.die i).missed (d.die i).since d.time) := by
  rw [Dev.ungate, hs]
  rfl

theorem ungate_idle {d : Dev} {i : Nat} (hs : (d.die i).stopped = none) : d.ungate i = d := by rw [Dev.ungate, hs]

theorem lagged_ungate (d : Dev) (i : Nat) : d.Lagged (d.ungate i) := by
  cases hs : (d.die i).stopped with
  | none => rw [ungate_idle hs]; exact lagged_refl d
  | some b => rw [ungate_eq hs]; exact (clockReturns d i Die.restarted _ _ _).1

/-- What a warm reset begins with is the same for devices that differ in their dies, lags and reports alone. -/
theorem warmReset_lagged {d e : Dev} {t : State} (h : WarmReset true e t) (hl : d.Lagged e) : WarmReset true d t := by
  have ctxs : ∀ c, e.ctx c = d.ctx c := fun c => by rw [Dev.ctx, Dev.ctx, lagged_ctxs hl]
  have ports : ∀ p, e.port p = d.port p := fun p => by rw [Dev.port, Dev.port, lagged_ports hl]
  simp only [WarmReset, lagged_state hl, lagged_owned hl, ctxs, ports, lagged_time hl] at h ⊢
  obtain ⟨warm, up, sessions, state, pool, own, queues, parked, jobs, ctxs, ports, log⟩ := h
  exact ⟨warm, up, sessions, state, pool, own, queues, parked, jobs, ctxs, ports, log.trans hl.log⟩

/-! ### Temperature (R372, R487) -/

theorem die_devAt (s : State) (now k : Nat) : (s.devAt now).die k = s.dev.die k := (congrArg (fun x : Dev => x.die k) (to_eq s.dev now) :)

/-- The device that a shutdown has darkened, with both dies gated. -/
def Dev.shut (d : Dev) : Dev := ((d.modPower (fun x => { x with dark := true, darkHost := true, depthsParked := true })).gate 0).gate 1

theorem shut_keeps (d : Dev) : d.shut.power = { d.power with dark := true, darkHost := true, depthsParked := true } ∧
    (d.shut.die 0).stopped.isSome = true ∧ (d.shut.die 1).stopped.isSome = true ∧ d.shut.faults = d.faults ∧ d.shut.image = d.image ∧
    d.shut.ports = d.ports ∧ d.shut.ctxs = d.ctxs ∧ ∀ j, (d.shut.job j).state = (d.job j).state := by
  obtain ⟨lagged, others, stopped⟩ := gate_keeps (d.modPower (fun x => { x with dark := true, darkHost := true, depthsParked := true })) 0
  unfold Dev.shut
  generalize hb : (d.modPower (fun x => { x with dark := true, darkHost := true, depthsParked := true })).gate 0 = b at *
  obtain ⟨lagged', others', stopped'⟩ := gate_keeps b 1
  have both := lagged_trans lagged lagged'
  refine ⟨lagged_power both, ?_, stopped', (lagged_faults both :), (lagged_image both :), (lagged_ports both :), (lagged_ctxs both :),
    (lagged_state both :)⟩
  rw [others' 0 (by decide)]
  exact stopped

/-- What a shutdown waits for: a cold reset near a warm one, and else a warm one or the hold. -/
def Dev.shutWaits (d : Dev) (near : Bool) : Dev := if near then d.fatalWaits 3 else if d.holdOnFatal then d.hold else d.fatalWaits 2

theorem shutWaits_keeps (d : Dev) (near : Bool) : (d.shutWaits near).dies = d.dies ∧
    (∃ n, (d.shutWaits near).power = { d.power with warmWait := n }) ∧
    ∀ k, (tget {} d.faults.classes k).unacked = true → (tget {} (d.shutWaits near).faults.classes k).unacked = true := by
  have waits : ∀ n, (d.fatalWaits n).dies = d.dies ∧ (∃ m, (d.fatalWaits n).power = { d.power with warmWait := m }) ∧
      ∀ k, (tget {} d.faults.classes k).unacked = true → (tget {} (d.fatalWaits n).faults.classes k).unacked = true :=
    fun n => ⟨rfl, ⟨n, rfl⟩, fun _ => id⟩
  unfold Dev.shutWaits
  split
  · exact waits 3
  · split
    · obtain ⟨power, dies, _, unacked, _⟩ := hold_holds d
      exact ⟨dies, ⟨d.power.warmWait, power⟩, unacked⟩
    · exact waits 2

theorem shutdown_eq {d : Dev} (hcold : d.power.cold = false) (u temp : Nat) (r : FaultRec)
    (hr : r = { source := 0x0B05, unit := some u, detail := leBytes 8 temp }) :
    d.shutdown u temp = (d.recordFault r).shut.shutWaits d.nearWarm := by
  have rest := rest_recordFault d r
  subst hr
  have off : ¬ (d.recordFault { source := 0x0B05, unit := some u, detail := leBytes 8 temp }).power.cold = true := by
    rw [rest_power rest, hcold]
    decide
  rw [Dev.shutdown]
  dsimp only
  rw [if_neg off, nearWarm_congr (rest_power rest) (rest_clock rest)]
  rfl

theorem shutdown_cold {d : Dev} (hcold : d.power.cold = true) (u temp : Nat) :
    d.shutdown u temp = d.recordFault { source := 0x0B05, unit := some u, detail := leBytes 8 temp } :=
  if_pos (by rw [rest_power (rest_recordFault _ _)]; exact hcold)

theorem thermalBack_eq {d : Dev} (h : 2 ≤ d.power.warmWait) (cold : Bool) : d.thermalBack cold =
    if (cold || decide (d.power.warmWait = 3)) = true then ((d.ungate 0).ungate 1).coldReset else ((d.ungate 0).ungate 1).warmReset true :=
  if_neg (by omega)

/-- Settles O49: each command of a die's clock settles that die, and a shutdown or its end comes down to gates and to the resets. -/
theorem clocksAndTemperaturesAct : Obligations.ClocksAndTemperaturesAct := by
  unfold Obligations.ClocksAndTemperaturesAct
  refine ⟨⟨?_, ?_, ?_, ?_⟩, ?_, ?_, ?_, ?_⟩
  · intro i temp now src c s hi hmild hc
    have dies := die_devAt s now
    have ports : (s.devAt now).ports = s.dev.ports := to_ports _ _
    have ctxs : (s.devAt now).ctxs = s.dev.ctxs := to_ctxs _ _
    obtain ⟨settled, _, since, stretching, stopped, _⟩ := settle_settles (s.devAt now) i
    obtain ⟨rfl, rfl, hnone⟩ | ⟨rfl, rfl, hnone⟩ := hc
    · refine ⟨s.event now (Dev.stretch i), rfl, ?_⟩
      rw [← dies] at hnone
      have turned := clockTurns_keeps (s.devAt now) i 1 (Die.stretchedFrom (s.devAt now).tick)
      rw [event_devAt, stretch_begins hi hnone]
      generalize (s.devAt now).clockTurns i 1 _ = a at *
      obtain ⟨lagged, others, die, stretched⟩ := turned
      obtain ⟨clock, recorded, same, ports', ctxs'⟩ := clockFault_keeps lagged (r := { source := 0x0B01, unit := some i }) (hmild _ rfl) rfl
        (show 0x0B01 < 65536 by decide)
      refine ⟨by rw [clock, stretched], recorded, ?_, ?_, ?_, fun k hk => ?_, ports'.trans ports, ctxs'.trans ctxs⟩
      · rw [same, die]; rfl
      · rw [same, die]
        exact stopped.trans (by rw [dies]; rfl)
      · rw [same, die]
        exact since
      · rw [same, others k hk, dies]
    · refine ⟨s.event now (Dev.clockStop i), rfl, ?_⟩
      rw [← dies] at hnone
      have turned := gate_turns hnone
      rw [event_devAt, clockStop_begins hi hnone]
      generalize (s.devAt now).gate i = a at *
      obtain ⟨lagged, others, die, stretched⟩ := turned
      obtain ⟨clock, recorded, same, ports', ctxs'⟩ := clockFault_keeps lagged (r := { source := 0x0B02, unit := some i }) (hmild _ rfl) rfl
        (show 0x0B02 < 65536 by decide)
      refine ⟨by rw [clock, stretched], recorded, ?_, ?_, ?_, fun k hk => ?_, ports'.trans ports, ctxs'.trans ctxs⟩
      · rw [same, die]
        exact stretching.trans (by rw [dies]; rfl)
      · rw [same, die]; rfl
      · rw [same, die]
        exact since
      · rw [same, others k hk, dies]
  · intro i temp now c s hc
    obtain ⟨rfl, h⟩ | ⟨rfl, h⟩ := hc
    · exact ⟨s.event now (Dev.stretch i), rfl, rest_event_idle (stretch_idle (by rw [die_devAt]; exact h))⟩
    · exact ⟨s.event now (Dev.clockStop i), rfl, rest_event_idle (clockStop_idle (by rw [die_devAt]; exact h))⟩
  · intro i b least now c s hc
    have dies := die_devAt s now
    have jobs := job_devAt s now
    have ports : (s.devAt now).ports = s.dev.ports := to_ports _ _
    have ctxs : (s.devAt now).ctxs = s.dev.ctxs := to_ctxs _ _
    have lag := lagJob_lagOf (s.devAt now) i
    obtain ⟨rfl, hl, hs⟩ | ⟨rfl, hw, hs⟩ := hc
    · refine ⟨s.event now (Dev.stretchEnds i least), rfl, ?_⟩
      rw [← dies] at hs
      obtain ⟨lagged, others, die, lags⟩ := clockReturns (s.devAt now) i Die.unstretched 0 b (((s.devAt now).settle i).die i).lost
      rw [event_devAt, stretchEnds_eq hs hl]
      refine ⟨fun k hk => ?_, ?_, ?_, fun _ => ?_, fun hc => absurd hc (by simp), fun j => ?_⟩
      · rw [noteReady_die, others k hk, dies]
      · rw [noteReady_ctxs, lagged_ctxs lagged, ctxs]
      · rw [noteReady_ports, lagged_ports lagged, ports]
      · rw [noteReady_die, die]; rfl
      · rw [noteReady_job, lags, lag, jobs]
    · refine ⟨s.event now (Dev.gateEnds i), rfl, ?_⟩
      rw [← dies] at hs
      have gates : (s.devAt now).gateEnds i = (s.devAt now).ungate i := if_neg (by rw [to_power]; omega)
      obtain ⟨lagged, others, die, lags⟩ := clockReturns (s.devAt now) i Die.restarted 1 b
        (((s.devAt now).die i).missed ((s.devAt now).die i).since (s.devAt now).time)
      rw [event_devAt, gates, ungate_eq hs]
      refine ⟨fun k hk => ?_, ?_, ?_, fun hc => absurd hc (by simp), fun _ => ?_, fun j => ?_⟩
      · rw [noteReady_die, others k hk, dies]
      · rw [noteReady_ctxs, lagged_ctxs lagged, ctxs]
      · rw [noteReady_ports, lagged_ports lagged, ports]
      · rw [noteReady_die, die]; rfl
      · rw [noteReady_job, lags, lag, jobs]
  · intro i least now c s hc
    obtain ⟨rfl, h⟩ | ⟨rfl, h⟩ := hc
    · exact ⟨s.event now (Dev.stretchEnds i least), rfl, rest_event_idle (stretchEnds_idle (by rw [die_devAt]; exact h))⟩
    · refine ⟨s.event now (Dev.gateEnds i), rfl, rest_event_idle ?_⟩
      unfold Dev.gateEnds
      rw [to_power]
      split
      · rfl
      · next hw => exact ungate_idle (by rw [die_devAt]; exact h.resolve_left hw)
  · intro u temp now s hmild
    have raised := raiseFault_mild (hmild { source := 0x0B03, unit := some u, detail := leBytes 8 temp } rfl) rfl
    refine ⟨s.event now (Dev.thermalWarn u temp), rfl, ?_⟩
    rw [event_devAt, Dev.thermalWarn, raised, rest_noteReady, rest_recordFault, noteReady_faults]
    exact ⟨rfl, recordFault_source _ _ (show 0x0B03 < 65536 by decide)⟩
  · intro u temp now s hcold
    refine ⟨s.event now (Dev.shutdown u temp), rfl, ?_⟩
    have rest := rest_recordFault (s.devAt now) { source := 0x0B05, unit := some u, detail := leBytes 8 temp }
    have unacked := recordFault_unacked (s.devAt now) { source := 0x0B05, unit := some u, detail := leBytes 8 temp } rfl
    have recorded := recordFault_source (s.devAt now) { source := 0x0B05, unit := some u, detail := leBytes 8 temp }
      (show 0x0B05 < 65536 by decide)
    have off : (s.devAt now).power.cold = false := by rw [to_power]; exact hcold
    have dev := event_devAt s now (Dev.shutdown u temp)
    have depths := event_depths s now (Dev.shutdown u temp)
    rw [shutdown_eq off u temp _ rfl] at dev depths
    generalize (s.devAt now).recordFault _ = a at *
    obtain ⟨power, zero, one, faults, image, ports, ctxs, states⟩ := shut_keeps a
    generalize a.shut = b at *
    obtain ⟨dies, ⟨n, power'⟩, kept⟩ := shutWaits_keeps b (s.devAt now).nearWarm
    have holds : b.holdOnFatal = (s.devAt now).holdOnFatal := holdOnFatal_congr (image.trans (rest_fields rest).2.2.2.2.1)
    have lit : (b.shutWaits (s.devAt now).nearWarm).power.cold = false := by rw [power', power, rest_power rest]; exact off
    have die : ∀ k, (b.shutWaits (s.devAt now).nearWarm).die k = b.die k := fun k => by rw [Dev.die, dies]; rfl
    refine ⟨?_, ?_, ?_, ?_, ?_, ?_, event_flash _ _ _, depths.trans (if_neg (by simp [lit])), fun hwait => ?_, fun hnear hhold => ?_⟩
    · rw [dev, noteReady_power, power', power]
    · rw [dev, noteReady_power, power', power]
    · rw [dev, noteReady_power, power', power]
    · rw [dev, noteReady_die, die]
      exact zero
    · rw [dev, noteReady_die, die]
      exact one
    · rw [dev, noteReady_faults]
      refine kept 0x0B ?_
      rw [faults]
      simpa [FaultRec.cls] using unacked
    · have waits : b.shutWaits (s.devAt now).nearWarm = b.fatalWaits (if (s.devAt now).nearWarm then 3 else 2) := by
        unfold Dev.shutWaits
        split
        · rfl
        · next hnear => rw [holds, if_neg (by simp [hwait.resolve_left hnear])]
      have kept : (b.fatalWaits (if (s.devAt now).nearWarm then 3 else 2)).faults = b.faults := rfl
      rw [dev, waits]
      refine ⟨by rw [noteReady_power]; rfl, ?_, ?_, ?_⟩
      · rw [noteReady_faults, kept, faults]
        exact recorded
      · rw [noteReady_ports]
        exact ports.trans ((rest_fields rest).1.trans (to_ports _ _))
      · rw [noteReady_ctxs]
        exact ctxs.trans ((rest_fields rest).2.1.trans (to_ctxs _ _))
    · have hold : b.shutWaits (s.devAt now).nearWarm = b.hold := by rw [Dev.shutWaits, hnear, holds, hhold]; rfl
      obtain ⟨_, _, held, _, halted⟩ := hold_holds b
      rw [dev, hold, noteReady_faults]
      exact ⟨held, fun j hj => by rw [noteReady_job]; exact halted j (by rw [states, rest_job rest, job_devAt]; exact hj)⟩
  · intro u temp now s hcold
    refine ⟨s.event now (Dev.shutdown u temp), rfl, ?_⟩
    have unacked := recordFault_unacked (s.devAt now) { source := 0x0B05, unit := some u, detail := leBytes 8 temp } rfl
    rw [event_devAt, shutdown_cold (by rw [to_power]; exact hcold), rest_noteReady, rest_recordFault, noteReady_faults]
    exact ⟨rfl, by simpa [FaultRec.cls] using unacked⟩
  · intro now cold s
    refine ⟨s.event now (Dev.thermalBack cold), rfl, fun h => rest_event_idle (if_pos (by rw [to_power]; exact h)), fun hw hcold hwarm => ?_,
      fun hw hcold => ?_⟩
    · subst hcold
      have back := thermalBack_eq (d := s.devAt now) (by rw [to_power]; omega) false
      have lagged := lagged_trans (lagged_ungate (s.devAt now) 0) (lagged_ungate _ 1)
      have dev := event_devAt s now (Dev.thermalBack false)
      rw [back, to_power, hw, if_neg (by decide)] at dev
      exact warmReset_lagged (warmReset_begins (by rw [lagged_power lagged, to_power]; exact hwarm) true dev).1 lagged
    · have back := thermalBack_eq (d := s.devAt now) (by rw [to_power]; exact hw) cold
      have lagged := lagged_trans (lagged_ungate (s.devAt now) 0) (lagged_ungate _ 1)
      have dev := event_devAt s now (Dev.thermalBack cold)
      have depths := event_depths s now (Dev.thermalBack cold)
      have begins : (cold || decide (s.dev.power.warmWait = 3)) = true := by simpa using hcold
      rw [back, to_power, if_pos begins] at dev depths
      exact coldReset_begins lagged.log dev (depths.trans (if_pos (coldReset_keeps _).1))

end Sys2Proof.Machine
end

section
/-! PROOFS. Launches are admitted, cancelled, armed, started and withheld (R204 to R206, R360, R362, R501). -/

namespace Sys2Proof.Machine

/-! ### A sequencer reads its tables (R359, R360) -/

/-- The record of a job's tables that cannot be read. -/
def Dev.tablesFault (d : Dev) (j : Nat) : FaultRec := { source := 0x0A04, job := some j, step := (d.job j).rcStep }

/-- Tables that can be read leave the device as it was but for a record. -/
theorem readTables_reads (d : Dev) (j : Nat) {tables : EccResult} (h : tables ≠ .uncorrectable) :
    (d.readTables j tables).rest = d.rest ∧ (d.readTables j tables).faults.held = d.faults.held := by
  cases tables with
  | clean => exact ⟨rfl, rfl⟩
  | corrected => exact ⟨rest_recordFault _ _, recordFault_held _ _⟩
  | uncorrectable => exact absurd rfl h

/-- A job whose tables cannot be read is HALTED, its launch and its section are gone, and that is recorded. -/
theorem readTables_halts {d : Dev} {j : Nat} (hcold : d.power.cold = false) (heff : d.effective (d.tablesFault j) = 4) :
    ((d.readTables j .uncorrectable).job j).state = .halted ∧ ((d.readTables j .uncorrectable).job j).launch = none ∧
    ((d.readTables j .uncorrectable).job j).runSection = none ∧
    ∃ e ∈ (d.readTables j .uncorrectable).faults.ring, recSource e.bytes = 0x0A04 := by
  have shape : d.readTables j .uncorrectable = d.raiseFault (d.tablesFault j) := rfl
  have marked := marked_markSteps (d.haltJobs [j] (fun _ => 5)) 3
  have job := (marked.job j).trans (congrArg Job.unmarked (job_modJob_same d j (fun x => x.halt 5 d.time)))
  rw [shape, raiseFault_tables (r := d.tablesFault j) rfl rfl rfl, heff, if_neg (by decide), Dev.tablesLost, heff,
    if_pos ⟨by decide, hcold⟩]
  generalize (d.haltJobs [j] (fun _ => 5)).markSteps 3 = e at *
  rw [rest_job (rest_recordFault e _)]
  exact ⟨(congrArg Job.state job :), (congrArg Job.launch job :), (congrArg Job.runSection job :),
    recordFault_source e (d.tablesFault j) (show 0x0A04 < 65536 by decide)⟩

/-! ### A step starts (R206, R378, R379, R382) -/

/-- What of a job tells where it stands: its state, its launch, its step and the section it runs. -/
def Job.course (x : Job) : JobState × Option Launch × Nat × Nat × Option Section × Nat :=
  (x.state, x.launch, x.rcStep, x.launchTick, x.runSection, x.rcPhase)

/-- `e` is `d` with the jobs where they stood and the contexts as they were. -/
structure Dev.Courses (d e : Dev) : Prop where
  ctxs : e.ctxs = d.ctxs
  job : ∀ i, (e.job i).course = (d.job i).course

theorem courses_refl (d : Dev) : d.Courses d := ⟨rfl, fun _ => rfl⟩

theorem courses_trans {d e t : Dev} (h : d.Courses e) (h' : e.Courses t) : d.Courses t :=
  ⟨h'.ctxs.trans h.ctxs, fun i => (h'.job i).trans (h.job i)⟩

theorem courses_of_rest {d e : Dev} (h : e.rest = d.rest) : d.Courses e := ⟨(rest_fields h).2.1, fun i => congrArg Job.course (rest_job h i)⟩

theorem courses_of_marked {d e : Dev} (h : d.Marked e) : d.Courses e :=
  ⟨marked_ctxs h, fun i => (congrArg Job.course (h.job i) :)⟩

theorem courses_of_worked {j : Nat} {d e : Dev} (h : d.Worked j id e) : d.Courses e := by
  refine ⟨worked_ctxs h, fun i => ?_⟩
  by_cases hi : i = j
  · rw [hi]
    exact (congrArg Job.course h.job :)
  · rw [h.others i hi]

theorem courses_modJob (d : Dev) (j : Nat) {f : Job → Job} (hf : ∀ x, (f x).course = x.course) : d.Courses (d.modJob j f) := by
  refine ⟨rfl, fun i => ?_⟩
  by_cases hi : i = j
  · rw [hi, job_modJob_same, hf]
  · rw [job_modJob_other _ hi]

theorem courses_ite {d e : Dev} (c : Prop) [Decidable c] (h : d.Courses e) : d.Courses (if c then e else d) := by
  split
  · exact h
  · exact courses_refl d

theorem courses_markLaunch (d : Dev) (j late : Nat) : d.Courses (d.markLaunch j late) := by
  have marks : ∀ (x : Dev) n, x.Courses (x.markJob j n) := fun x n => courses_of_marked (marked_markJob x j n)
  have marked : ∀ (x : Dev) (c : Prop) [Decidable c] (n : Nat), x.Courses (if c then x.markJob j n else x) := fun x c _ n =>
    courses_ite c (marks x n)
  have spares : ∀ (x : Dev) (c : Prop) [Decidable c] (n : Nat), x.Courses (if c then x else x.markJob j n) := by
    intro x c _ n
    split
    · exact courses_refl x
    · exact marks x n
  unfold Dev.markLaunch
  exact courses_trans (spares _ _ _) (courses_trans (marked _ _ _) (courses_trans (spares _ _ _) (courses_trans (marked _ _ _)
    (courses_trans (marked _ _ _) (marked _ _ _)))))

theorem courses_freeSpares (d : Dev) : d.Courses d.freeSpares := by
  have units : ∀ (x : Dev) (u : Nat) (f : UnitSt → UnitSt), x.Courses (x.modUnit u f) := fun _ _ _ => ⟨rfl, fun _ => rfl⟩
  have one : ∀ (x : Dev) (s : Nat), x.Courses (if x.spareDone s then
      ((x.modUnit (x.unit s).standsFor (fun v => { v with returning := false })).modUnit s
        (fun v => { v with state := .standby, standsFor := 0x7F })).markSteps 4 else x) := fun x s =>
    courses_ite _ (courses_trans (units x _ _) (courses_trans (units _ s _) (courses_of_marked (marked_markSteps _ 4))))
  exact courses_trans (one d 48) (one _ 49)

theorem courses_launchPulse (d : Dev) (j : Nat) : d.Courses (d.launchPulse j) :=
  courses_of_rest (rest_foldl _ (fun _ _ => rest_pulse _ _) _ _)

/-- What a context is known by: whether it is FREE, and its job. -/
def Ctx.held (x : Ctx) : CtxState × Nat := (x.state, x.job)

theorem takeSlots_keeps (d : Dev) (j : Nat) : (d.takeSlots j).jobs = d.jobs ∧ (d.takeSlots j).clock = d.clock ∧
    ∀ c, ((d.takeSlots j).ctx c).held = (d.ctx c).held := by
  have step : ∀ (x : Dev) (c : Nat), let y := (if (x.ctx c).spareBasin && (x.unit (x.home (x.ctx c).basin)).returning then
        x.modCtx c (fun z => { z with basin := x.home (x.ctx c).basin, spareBasin := false }) else x);
      (y.jobs, y.clock, fun k => (y.ctx k).held) = (x.jobs, x.clock, fun k => (x.ctx k).held) := by
    intro x c
    dsimp only
    split
    · refine congrArg (fun h => (x.jobs, x.clock, h)) (funext fun k => ?_)
      by_cases hk : k = c
      · rw [hk, ctx_modCtx_same]; rfl
      · rw [ctx_modCtx_other _ hk]
    · rfl
  have kept := foldl_keeps (fun x : Dev => (x.jobs, x.clock, fun k => (x.ctx k).held)) _ step (d.ctxsOf j) d
  simp only [Prod.mk.injEq] at kept
  obtain ⟨jobs, clock, ctxs⟩ := kept
  exact ⟨jobs, clock, fun c => congrFun ctxs c⟩

/-- The job as its step begins, with what its contexts stand at. -/
def Dev.stepBegun (d : Dev) (j : Nat) (l : Launch) (late : Nat × Nat) : Dev :=
  (d.dropOutflow j).modJob j (fun x => x.begin l late d.time ((d.ctxsOf j).map (fun c => (c, ((d.ctx c).sequence, (d.ctx c).microBatch)))))

/-- The contexts of a job are those of its launched step from now on. -/
def Dev.stepOpened (d : Dev) (j : Nat) (completion : Bool) : Dev :=
  (d.ctxsOf j).foldl (fun d c => d.modCtx c (fun x => { x with launched := x.launched || !completion, openTick := d.time })) d

/-- A context is open from a time on, and one of a launched step unless that is completed. -/
def Ctx.Opened (x : Ctx) (time : Nat) (completion : Bool) : Prop := x.openTick = time ∧ (completion = false → x.launched = true)

/-- The retained vector is held again at a completion launch. -/
def Dev.vectorHeld (d : Dev) (j : Nat) (completion : Bool) : Dev := if completion && (d.job j).isRoot then d.holdResult j true else d

/-- The job whose step uses a spare, or does not. -/
def Job.sparing (spare : Bool) (x : Job) : Job := { x with spareUsed := x.spareUsed || spare, offHome := x.sparePath }

theorem startStep_eq (d : Dev) (j : Nat) (l : Launch) : ∃ late m spare, d.startStep j l =
    ((((((((d.takeSlots j).stepBegun j l late).stepOpened j l.completion).vectorHeld j l.completion).markLaunch j m).modJob j
      (Job.sparing spare)).freeSpares).launchPulse j).siltLaunch j l.step l.tick false l.completion := ⟨_, _, _, rfl⟩

/-- The job stands where its launch says from its step's beginning on. -/
theorem course_begin (x : Job) (l : Launch) (late : Nat × Nat) (now : Nat) (seqs : Table (Nat × Nat)) : (x.begin l late now seqs).course =
    (.running, none, l.step, l.tick, some (if l.completion then .tail else .microBatch 0), if l.completion then x.rcPhase else 1) := by
  unfold Job.begin
  cases l.completion <;> rfl

/-- What the beginning of a step makes of the jobs. -/
theorem stepBegun_begins (d : Dev) (j : Nat) (l : Launch) (late : Nat × Nat) : ((d.stepBegun j l late).job j).course =
      (.running, none, l.step, l.tick, some (if l.completion then .tail else .microBatch 0), if l.completion then (d.job j).rcPhase else 1) ∧
    (∀ i, i ≠ j → ((d.stepBegun j l late).job i).course = (d.job i).course) ∧ (d.stepBegun j l late).ctxs = d.ctxs ∧
    (d.stepBegun j l late).clock = d.clock := by
  have dropped : d.Courses (d.dropOutflow j) := by
    have cleared := courses_modJob (d.poolFree (fun h => h.reserved && h.job == j)) j (f := fun x => { x with outHeld := [] }) (fun _ => rfl)
    exact ⟨cleared.ctxs, cleared.job⟩
  have same : ((d.dropOutflow j).job j).rcPhase = (d.job j).rcPhase := (congrArg (fun c => c.2.2.2.2.2) (dropped.job j) :)
  refine ⟨?_, fun i hi => ?_, rfl, rfl⟩
  · rw [Dev.stepBegun, job_modJob_same, course_begin, same]
  · rw [Dev.stepBegun, job_modJob_other _ hi]
    exact dropped.job i

/-- Each context of the job is one of the launched step, open from now on. -/
theorem stepOpened_opens (d : Dev) (j : Nat) (completion : Bool) : (d.stepOpened j completion).jobs = d.jobs ∧
    ∀ c, c ∈ d.ctxsOf j → ((d.stepOpened j completion).ctx c).openTick = d.time ∧
      (completion = false → ((d.stepOpened j completion).ctx c).launched = true) := by
  have fold : ∀ (l : List Nat) (e : Dev), (l.foldl (fun d c => d.modCtx c (fun x =>
      { x with launched := x.launched || !completion, openTick := d.time })) e).jobs = e.jobs ∧
      ∀ c, (c ∈ l ∨ (e.ctx c).Opened e.time completion) →
        ((l.foldl (fun d c => d.modCtx c (fun x => { x with launched := x.launched || !completion, openTick := d.time })) e).ctx c).Opened e.time
          completion := by
    intro l
    induction l with
    | nil => exact fun e => ⟨rfl, fun c hc => hc.resolve_left List.not_mem_nil⟩
    | cons k l ih =>
      intro e
      obtain ⟨jobs, opened⟩ := ih (e.modCtx k (fun x => { x with launched := x.launched || !completion, openTick := e.time }))
      refine ⟨jobs, fun c hc => opened c ?_⟩
      by_cases hk : c = k
      · refine .inr ?_
        rw [hk, ctx_modCtx_same]
        exact ⟨rfl, fun h => by simp [h]⟩
      · rw [ctx_modCtx_other _ hk]
        exact hc.imp_left fun hm => (List.mem_cons.mp hm).resolve_left hk
  exact ⟨(fold _ d).1, fun c hc => (fold _ d).2 c (.inl hc)⟩

theorem courses_vectorHeld (d : Dev) (j : Nat) (completion : Bool) : d.Courses (d.vectorHeld j completion) :=
  courses_ite _ (courses_of_worked (worked_holdResult d j true))

/-- What a step's start leaves of jobs and contexts. -/
theorem startStep_starts (d : Dev) (j : Nat) (l : Launch) : ((d.startStep j l).job j).course =
      (.running, none, l.step, l.tick, some (if l.completion then .tail else .microBatch 0), if l.completion then (d.job j).rcPhase else 1) ∧
    (∀ i, i ≠ j → ((d.startStep j l).job i).course = (d.job i).course) ∧
    ∀ c, (d.ctx c).state ≠ .free → (d.ctx c).job = j →
      ((d.startStep j l).ctx c).openTick = d.time ∧ (l.completion = false → ((d.startStep j l).ctx c).launched = true) := by
  obtain ⟨late, m, spare, shape⟩ := startStep_eq d j l
  obtain ⟨jobs, clock, held⟩ := takeSlots_keeps d j
  rw [shape]
  generalize d.takeSlots j = a at *
  obtain ⟨course, others, ctxs, clock'⟩ := stepBegun_begins a j l late
  generalize a.stepBegun j l late = b at *
  obtain ⟨jobs', opened⟩ := stepOpened_opens b j l.completion
  generalize b.stepOpened j l.completion = e at *
  have goes := courses_trans (courses_vectorHeld e j l.completion) (courses_trans (courses_markLaunch _ j m)
    (courses_trans (courses_modJob _ j (f := Job.sparing spare) (fun _ => rfl)) (courses_trans (courses_freeSpares _)
      (courses_trans (courses_launchPulse _ j) (courses_of_rest (rest_siltLaunch _ j l.step l.tick false l.completion))))))
  generalize Dev.siltLaunch _ j l.step l.tick false l.completion = t at *
  have same : ∀ i, (e.job i).course = (b.job i).course := fun i => by rw [Dev.job, jobs']; rfl
  have was : ∀ i, a.job i = d.job i := fun i => by rw [Dev.job, jobs]; rfl
  refine ⟨?_, fun i hi => ?_, fun c hfree hjob => ?_⟩
  · rw [goes.job, same, course, was]
  · rw [goes.job, same, others i hi, was]
  · have time : b.time = d.time := by rw [Dev.time, Dev.time, clock', clock]
    have known : (b.ctx c).held = (d.ctx c).held := by rw [Dev.ctx, ctxs]; exact held c
    have mem : c ∈ b.ctxsOf j := mem_ctxsOf (fun hf => hfree ((congrArg Prod.fst known :).symm.trans hf)) ((congrArg Prod.snd known :).trans hjob)
    obtain ⟨tick, launched⟩ := opened c mem
    rw [Dev.ctx, goes.ctxs, ← time]
    exact ⟨tick, launched⟩

/-! ### The launch cycle (R204, R206) -/

theorem launchGrade_congr {d e : Dev} (h : e.rest = d.rest) : e.launchGrade = d.launchGrade := by
  rw [Dev.launchGrade, Dev.launchGrade, Dev.time, Dev.time, rest_clock h]

theorem launchNow_eq {d : Dev} {j : Nat} {l : Launch} (hl : (d.job j).launch = some l) (hs : l.stage = .armed) (ht : l.tick ≤ d.tick)
    (tables : EccResult) : d.launchNow j tables =
      if ((d.readTables j tables).job j).launch.isNone then d.readTables j tables
      else if (d.readTables j tables).launchGrade && !(d.readTables j tables).faults.held then (d.readTables j tables).startStep j l
      else (d.readTables j tables).withhold j := by
  rw [Dev.launchNow, hl]
  exact if_neg (by rw [hs]; simp; omega)

theorem launchNow_idle {d : Dev} {j : Nat} (h : ∀ l, (d.job j).launch = some l → l.stage = .pending ∨ d.tick < l.tick) (tables : EccResult) :
    d.launchNow j tables = d := by
  unfold Dev.launchNow
  split
  · rfl
  · next l hl =>
    refine if_pos ?_
    obtain hs | ht := h l hl
    · rw [hs]; rfl
    · simp [ht]

theorem armLaunch_idle {d : Dev} {j : Nat} (h : ∀ l, (d.job j).launch = some l → l.stage = .armed ∨ d.tick + 9750 < l.tick) :
    d.armLaunch j = d := by
  unfold Dev.armLaunch
  split
  · rfl
  · next l hl =>
    refine if_pos ?_
    obtain hs | ht := h l hl
    · rw [hs]; rfl
    · simp [ht]

theorem armLaunch_eq {d : Dev} {j : Nat} {l : Launch} (hl : (d.job j).launch = some l) (hs : l.stage = .pending) (ht : l.tick ≤ d.tick + 9750) :
    d.armLaunch j = if d.launchGrade && !d.faults.held then d.modJob j (fun x => { x with launch := some { l with stage := .armed } })
      else d.withhold j := by
  rw [Dev.armLaunch, hl]
  exact if_neg (by rw [hs]; simp; omega)

/-- The status of a cancel that has nothing to take away. -/
theorem cancelStatus_late {x : Job} {step st : Nat} (hstep : step ≠ noStep)
    (h : (st = stLaunchArmed ∧ ∃ l, x.launch = some l ∧ l.step = step ∧ l.stage = .armed) ∨
      ((∀ l, x.launch = some l → l.step ≠ step) ∧ st = if x.rcStep = step then stLaunchArmed else stLaunchStep)) :
    x.cancelStatus step = st ∧ st ≠ stOk := by
  obtain ⟨rfl, l, hl, rfl, hs⟩ | ⟨hl, rfl⟩ := h
  · refine ⟨?_, by decide⟩
    simp [Job.cancelStatus, hl, hs]
  · refine ⟨?_, by split <;> decide⟩
    unfold Job.cancelStatus
    split
    · next l h => simp [hl l h, hstep]
    · simp [hstep]

theorem launchRequest_act (m : GmpMsg) (x : Session) (k : Mach) : launchRequest.act m x k =
    if k.dev.launchStatus (u8 m.body 0) (fld m.body 2 6) (fld m.body 8 8) (bit (u8 m.body 1) 0) = stOk then
      (k.mod (fun d => d.modJob (u8 m.body 0) (fun x => { x with
        launch := some { tick := fld m.body 8 8, step := fld m.body 2 6, completion := bit (u8 m.body 1) 0 } })), some {})
    else (k, some { status := k.dev.launchStatus (u8 m.body 0) (fld m.body 2 6) (fld m.body 8 8) (bit (u8 m.body 1) 0) }) := by
  unfold launchRequest onDev
  dsimp only
  split <;> rfl

theorem launchCancelRequest_act (m : GmpMsg) (x : Session) (k : Mach) : launchCancelRequest.act m x k =
    if (k.dev.job (u8 m.body 0)).cancelStatus (fld m.body 2 6) = stOk then
      (k.mod (fun d => d.modJob (u8 m.body 0) (fun x => { x with launch := none })), some {})
    else (k, some { status := (k.dev.job (u8 m.body 0)).cancelStatus (fld m.body 2 6) }) := by
  unfold launchCancelRequest onDev
  dsimp only
  split
  · next h => rw [h]; rfl
  · rfl

/-- Settles O14: requests answer by the status of the job as it stands, and a launch's times come down to an arming, a start or a withheld
launch. -/
theorem launchesAreTakenCancelledAndStarted : Obligations.LaunchesAreTakenCancelledAndStarted := by
  unfold Obligations.LaunchesAreTakenCancelledAndStarted
  refine ⟨⟨?_, ?_, ?_⟩, ?_, ?_, ?_, ?_, ?_⟩
  · intro m s x h
    refine ⟨gmpCommand launchRequest m s, rfl, ?_⟩
    have taking := rest_taking s m launchRequest.msg
    have status : (s.taking m launchRequest.msg).dev.launchStatus (u8 m.body 0) (fld m.body 2 6) (fld m.body 8 8) (bit (u8 m.body 1) 0) =
        (s.devAt m.now).launchStatus (u8 m.body 0) (fld m.body 2 6) (fld m.body 8 8) (bit (u8 m.body 1) 0) :=
      (congrArg (fun d : Dev => d.launchStatus (u8 m.body 0) (fld m.body 2 6) (fld m.body 8 8) (bit (u8 m.body 1) 0)) taking :)
    have shape := launchRequest_act m x (s.taking m launchRequest.msg)
    rw [status] at shape
    split
    · next hok =>
      rw [if_pos hok] at shape
      obtain ⟨answered, rest, -⟩ := gmpCommand_acts h shape (sameSessions_of_keeper rfl)
      rw [hok]
      exact ⟨answered, rest.trans (rest_modJob_congr taking rfl)⟩
    · next hbad =>
      rw [if_neg hbad] at shape
      exact gmpCommand_refuses h shape
  · intro m s x l h hl hstep hs
    refine ⟨gmpCommand launchCancelRequest m s, rfl, ?_⟩
    have status : (s.dev.job (u8 m.body 0)).cancelStatus (fld m.body 2 6) = stOk := by simp [Job.cancelStatus, hl, hstep, hs]
    have shape := launchCancelRequest_act m x (s.taking m launchCancelRequest.msg)
    rw [job_taking, status, if_pos rfl] at shape
    obtain ⟨answered, rest, -⟩ := gmpCommand_acts h shape (sameSessions_of_keeper rfl)
    exact ⟨answered, rest.trans (rest_modJob_congr (rest_taking s m _) rfl)⟩
  · intro m s x st h hstep hcase
    refine ⟨gmpCommand launchCancelRequest m s, rfl, ?_⟩
    obtain ⟨status, bad⟩ := cancelStatus_late hstep hcase
    have shape := launchCancelRequest_act m x (s.taking m launchCancelRequest.msg)
    rw [job_taking, status, if_neg bad] at shape
    exact gmpCommand_refuses h shape
  · intro j now s l hl hs ht
    refine ⟨s.event now (Dev.armLaunch j), rfl, ?_⟩
    have hl' : ((s.devAt now).job j).launch = some l := by rw [job_devAt]; exact hl
    have held : (s.devAt now).faults.held = s.dev.faults.held := by rw [to_faults]
    rw [event_devAt, armLaunch_eq hl' hs ht, held, rest_noteReady, noteReady_faults]
    refine ⟨fun hgrade hfree => ?_, fun hbad => ?_⟩
    · rw [hgrade, hfree]
      rfl
    · rw [if_neg (by obtain hb | hb := hbad <;> simp [hb])]
      exact ⟨rest_withhold hl', withhold_recorded hl'⟩
  · intro j now tables s l hl hs ht hgrade hfree htables
    refine ⟨s.event now (Dev.launchNow j tables), rfl, ?_⟩
    have hl' : ((s.devAt now).job j).launch = some l := by rw [job_devAt]; exact hl
    obtain ⟨rest, held⟩ := readTables_reads (s.devAt now) j htables
    have launched : (((s.devAt now).readTables j tables).job j).launch = some l := by rw [rest_job rest]; exact hl'
    obtain ⟨course, others, ctxs⟩ := startStep_starts ((s.devAt now).readTables j tables) j l
    rw [event_devAt, launchNow_eq hl' hs ht, launched, launchGrade_congr rest, hgrade, held, to_faults, hfree]
    rw [if_neg (by simp), if_pos (by simp)]
    have jobs : ∀ i, ((s.devAt now).readTables j tables).job i = s.dev.job i := fun i => (rest_job rest i).trans (job_devAt s now i)
    have ctxs' : ∀ c, ((s.devAt now).readTables j tables).ctx c = s.dev.ctx c := fun c => (rest_ctx rest c).trans (ctx_devAt s now c)
    have time : ((s.devAt now).readTables j tables).time = (s.devAt now).time := by rw [Dev.time, Dev.time, rest_clock rest]
    generalize ((s.devAt now).readTables j tables).startStep j l = e at *
    simp only [noteReady_job, noteReady_ctx]
    simp only [Job.course, Prod.mk.injEq] at course others
    obtain ⟨state, launch, step, tick, run, phase⟩ := course
    refine ⟨state, launch, step, tick, run, fun hc => by rw [phase, hc]; rfl, fun c hfree' hjob => ?_, fun i hi => ?_⟩
    · rw [← time]
      exact ctxs c (by rw [ctxs']; exact hfree') (by rw [ctxs']; exact hjob)
    · obtain ⟨state', _, step', _⟩ := others i hi
      rw [← jobs]
      exact ⟨state', step'⟩
  · intro j now tables s l hl hs ht hbad htables
    refine ⟨s.event now (Dev.launchNow j tables), rfl, ?_⟩
    have hl' : ((s.devAt now).job j).launch = some l := by rw [job_devAt]; exact hl
    obtain ⟨rest, held⟩ := readTables_reads (s.devAt now) j htables
    have launched : (((s.devAt now).readTables j tables).job j).launch = some l := by rw [rest_job rest]; exact hl'
    rw [event_devAt, launchNow_eq hl' hs ht, launched, launchGrade_congr rest, held, to_faults, rest_noteReady, noteReady_faults]
    rw [if_neg (by simp), if_neg (by obtain hb | hb := hbad <;> simp [hb]), rest_withhold launched]
    exact ⟨rest_modJob_congr rest rfl, withhold_recorded launched⟩
  · intro j now s l hl hs ht hcold heff
    refine ⟨s.event now (Dev.launchNow j .uncorrectable), rfl, ?_⟩
    have hl' : ((s.devAt now).job j).launch = some l := by rw [job_devAt]; exact hl
    obtain ⟨state, launch, _, recorded⟩ := readTables_halts (d := s.devAt now) (j := j) (by rw [to_power]; exact hcold)
      (by rw [Dev.tablesFault, job_devAt]; exact heff)
    rw [event_devAt, launchNow_eq hl' hs ht, if_pos (by rw [launch]; rfl), noteReady_job, noteReady_faults]
    exact ⟨state, launch, recorded⟩
  · intro j now tables c s hc
    obtain ⟨rfl, h⟩ | ⟨rfl, h⟩ := hc
    · exact ⟨s.event now (Dev.armLaunch j), rfl, rest_event_idle (armLaunch_idle (by rw [job_devAt]; exact h))⟩
    · exact ⟨s.event now (Dev.launchNow j tables), rfl, rest_event_idle (launchNow_idle (by rw [job_devAt]; exact h) tables)⟩

end Sys2Proof.Machine
end

section
/-! PROOFS. The sections of a step follow each other (R206, R359, R378, R501). -/

namespace Sys2Proof.Machine

/-- A section that can be read is entered. -/
theorem enterSection_enters {d : Dev} {j : Nat} (hlive : (d.job j).live = true) {tables : EccResult} (h : tables ≠ .uncorrectable) (sec : Section) :
    (d.enterSection j tables sec).rest = (d.modJob j (fun x => { x with runSection := some sec })).rest := by
  obtain ⟨rest, -⟩ := readTables_reads d j h
  have live : ((d.readTables j tables).job j).live = true := by rw [rest_job rest]; exact hlive
  rw [show d.enterSection j tables sec = (d.readTables j tables).modJob j (fun x => { x with runSection := some sec }) from if_pos live]
  exact rest_modJob_congr rest rfl

/-- One that cannot be read halts the job. -/
theorem enterSection_halts {d : Dev} {j : Nat} (hcold : d.power.cold = false) (heff : d.effective (d.tablesFault j) = 4) (sec : Section) :
    ((d.enterSection j .uncorrectable sec).job j).state = .halted ∧ ((d.enterSection j .uncorrectable sec).job j).runSection = none ∧
    ∃ e ∈ (d.enterSection j .uncorrectable sec).faults.ring, recSource e.bytes = 0x0A04 := by
  obtain ⟨state, _, run, recorded⟩ := readTables_halts hcold heff
  have dead : ¬ ((d.readTables j .uncorrectable).job j).live = true := by rw [Job.live, state]; simp
  rw [show d.enterSection j .uncorrectable sec = d.readTables j .uncorrectable from if_neg dead]
  exact ⟨state, run, recorded⟩

theorem startMicro_eq {d : Dev} {j m : Nat} (hlive : (d.job j).live = true) (hm : 1 ≤ m) (hacc : m < (d.job j).accum)
    (hrun : (d.job j).runSection = some (.microBatch (m - 1))) (tables : EccResult) : d.startMicro j m tables =
      if (d.job j).launchTick + m * scPeriod (d.job j).sched ≤ d.tick then d.enterSection j tables (.microBatch m) else d := by
  simp only [Dev.startMicro, hlive, hm, hacc, hrun, true_and]

theorem startTail_eq {d : Dev} {j : Nat} (hlive : (d.job j).live = true)
    (hrun : (d.job j).runSection = some (.microBatch ((d.job j).accum - 1))) (tables : EccResult) : d.startTail j tables =
      if (d.job j).launchTick + (d.job j).accum * scPeriod (d.job j).sched ≤ d.tick then d.enterSection j tables .tail else d := by
  simp only [Dev.startTail, hlive, hrun, true_and]

/-- The last tail slot's end and the span's, in one (R378, R501). -/
theorem outflowEnds_spanEnds {x : Job} {lag tick : Nat} {done : Prop} [Decidable done]
    (hdone : done ↔ x.rcStep ≠ noStep ∧ x.tailEnd lag ≤ tick ∧ x.outflowReady = true) (hrun : x.runSection = some .tail) :
    (x.outflowEnds lag tick).spanEnds lag tick = { x with
      rcPhase := if done then 5 else x.rcPhase
      runSection := if x.spanEnd lag ≤ tick ∧ (done ∨ x.rcPhase = 5 ∨ x.rcStep = noStep) then none else some .tail } := by
  have phased : x.outflowEnds lag tick = { x with rcPhase := if done then 5 else x.rcPhase } := by
    unfold Job.outflowEnds
    by_cases h : done
    · rw [if_pos (hdone.mp h), if_pos h]
    · rw [if_neg (fun hx => h (hdone.mpr hx)), if_neg h]
  have ended : ∀ n, { x with rcPhase := n }.spanEnds lag tick =
      { x with rcPhase := n, runSection := if x.spanEnd lag ≤ tick ∧ (n = 5 ∨ x.rcStep = noStep) then none else some .tail } := by
    intro n
    by_cases h : x.spanEnd lag ≤ tick ∧ (n = 5 ∨ x.rcStep = noStep)
    · rw [if_pos h]
      exact if_pos h
    · rw [if_neg h, ← hrun]
      exact if_neg h
  rw [phased, ended]
  by_cases h : done <;> simp [h]

/-- Settles O15: at its time a section is entered or its tables halt the job, and the span's end is one change of the job. -/
theorem sectionsFollowEachOther : Obligations.SectionsFollowEachOther := by
  unfold Obligations.SectionsFollowEachOther
  refine ⟨?_, ?_, ?_, ?_, ?_⟩
  · intro j mb now tables s hlive hm hacc hrun htables
    refine ⟨s.event now (Dev.startMicro j mb tables), rfl, ?_⟩
    rw [← job_devAt s now] at hlive hacc hrun ⊢
    rw [event_devAt, rest_noteReady, startMicro_eq hlive hm hacc hrun]
    split
    · exact enterSection_enters hlive htables _
    · rfl
  · intro j now tables s hlive hrun htables
    refine ⟨s.event now (Dev.startTail j tables), rfl, ?_⟩
    rw [← job_devAt s now] at hlive hrun ⊢
    rw [event_devAt, rest_noteReady, startTail_eq hlive hrun]
    split
    · exact enterSection_enters hlive htables _
    · rfl
  · intro j mb now c s hlive hcold hc heff
    rw [← job_devAt s now] at hlive hc heff
    have cold : (s.devAt now).power.cold = false := by rw [to_power]; exact hcold
    obtain ⟨rfl, hm, hacc, hrun, ht⟩ | ⟨rfl, hrun, ht⟩ := hc
    · refine ⟨s.event now (Dev.startMicro j mb .uncorrectable), rfl, ?_⟩
      rw [event_devAt, startMicro_eq hlive hm hacc hrun, if_pos ht, noteReady_job, noteReady_faults]
      exact enterSection_halts cold heff _
    · refine ⟨s.event now (Dev.startTail j .uncorrectable), rfl, ?_⟩
      rw [event_devAt, startTail_eq hlive hrun, if_pos ht, noteReady_job, noteReady_faults]
      exact enterSection_halts cold heff _
  · intro j lag now s x y done _ hx hlive hrun hlag hdone hy
    refine ⟨s.event now (Dev.endSpan j), rfl, ?_⟩
    have job : (s.devAt now).job j = x := (job_devAt s now j).trans hx.symm
    have ends : (s.devAt now).endSpan j = (s.devAt now).modJob j (fun x =>
        (x.outflowEnds ((s.devAt now).lagMax x) (s.devAt now).tick).spanEnds ((s.devAt now).lagMax x) (s.devAt now).tick) :=
      if_pos (by rw [job]; exact ⟨hlive, hrun⟩)
    rw [event_devAt, rest_noteReady, ends]
    refine rest_modJob_congr rfl ?_
    rw [job, ← hlag, hy]
    exact outflowEnds_spanEnds hdone hrun
  · intro j now s h
    refine ⟨s.event now (Dev.endSpan j), rfl, rest_event_idle (if_neg ?_)⟩
    rw [job_devAt]
    obtain h | h := h <;> simp [h]

end Sys2Proof.Machine
end

section
/-! PROOFS. Inputs of the scheduled plane measure slack or add lag (R215, R216, R219, R220). -/

namespace Sys2Proof.Machine

/-! ### When a round is due and its input is taken (R210, R213, R215) -/

/-- The next claimed window is not in the past. -/
theorem le_nextClaim (x : Job) (res t : Nat) : t ≤ x.nextClaim res t := by
  unfold Job.nextClaim
  dsimp only
  split
  · exact Nat.le_refl t
  · split
    · next k hk =>
      have listed := List.mem_of_find?_eq_some hk
      obtain ⟨n, _, rfl⟩ := List.mem_map.mp listed
      omega
    · exact Nat.le_refl t

theorem lagOf_addLag (x : Job) (die n : Nat) : (x.addLag die n).lagOf die = x.lagOf die + n := by
  unfold Job.addLag Job.lagOf
  split <;> rfl

/-- A job without what a round counts: the rounds, the returns and what the last one moved. -/
def Job.uncounted (x : Job) : Job := { x with acted := [], returned := [], moved := [] }

theorem dueAt_congr {d e : Dev} {j : Nat} (hclock : e.clock = d.clock) (hdies : e.dies = d.dies)
    (hjob : (e.job j).uncounted = (d.job j).uncounted) (i m : Nat) : e.dueAt j i m = d.dueAt j i m := by
  have lag : ∀ die, e.lagOn (e.job j) die = d.lagOn (d.job j) die := fun die => by
    have own : (e.job j).lagOf die = (d.job j).lagOf die := (congrArg (fun x : Job => x.lagOf die) hjob :)
    have begin' : (e.job j).beginTime = (d.job j).beginTime := (congrArg Job.beginTime hjob :)
    rw [Dev.lagOn, Dev.lagOn, own, begin', Dev.die, Dev.die, hdies, Dev.time, Dev.time, hclock]
  have start : (e.job j).roundStart i m = (d.job j).roundStart i m := (congrArg (fun x : Job => x.roundStart i m) hjob :)
  have sched : (e.job j).sched = (d.job j).sched := (congrArg Job.sched hjob :)
  rw [Dev.dueAt, Dev.dueAt]
  rw [lag, start, sched]

theorem sched_begun (d : Dev) (j i : Nat) : ((d.begun j i).job j).sched = (d.job j).sched := by
  have same := (inRound_begun d j i).job j
  exact (congrArg Job.sched same :)

/-- A round that has begun is due at its slot's tick: the wait for a window is lag. -/
theorem dueAt_begun (d : Dev) (j i : Nat) : (d.begun j i).dueAt j i (tget 0 (d.job j).acted i) = d.slotTick j i := by
  have lag : (d.begun j i).lagOn ((d.begun j i).job j) (resDie (slResource (scSlot (d.job j).sched i))) =
      d.lagOn (d.job j) (resDie (slResource (scSlot (d.job j).sched i))) + (d.slotTick j i - d.dueAt j i (tget 0 (d.job j).acted i)) := by
    have begin' : ((d.begun j i).job j).beginTime = (d.job j).beginTime := by
      have same := (inRound_begun d j i).job j
      exact (congrArg Job.beginTime same :)
    have own : ((d.begun j i).job j).lagOf (resDie (slResource (scSlot (d.job j).sched i))) =
        (d.job j).lagOf (resDie (slResource (scSlot (d.job j).sched i))) + (d.slotTick j i - d.dueAt j i (tget 0 (d.job j).acted i)) := by
      rw [Dev.begun, job_modJob_same]
      exact lagOf_addLag _ _ _
    have die : (d.begun j i).die = d.die := rfl
    have time : (d.begun j i).time = d.time := rfl
    rw [Dev.lagOn, Dev.lagOn, own, begin', die, time]
    omega
  have start : ((d.begun j i).job j).roundStart i (tget 0 (d.job j).acted i) = (d.job j).roundStart i (tget 0 (d.job j).acted i) := by
    have same := (inRound_begun d j i).job j
    exact (congrArg (fun x : Job => x.roundStart i (tget 0 (d.job j).acted i)) same :)
  have reached : d.dueAt j i (tget 0 (d.job j).acted i) ≤ d.slotTick j i := le_nextClaim _ _ _
  have due : d.dueAt j i (tget 0 (d.job j).acted i) = (d.job j).roundStart i (tget 0 (d.job j).acted i) + slStart (scSlot (d.job j).sched i) +
      d.lagOn (d.job j) (resDie (slResource (scSlot (d.job j).sched i))) := rfl
  rw [Dev.dueAt]
  rw [sched_begun, lag, start]
  omega

/-! ### An input is taken (R216, R219, R220) -/

/-- The job that has taken an input: by its release cycle its slack is measured, later it is lag. -/
def Job.takesInput (die release nominal arrival : Nat) (y : Job) : Job :=
  if release < arrival then
    { y.addLag die (arrival - release) with causes := if y.running = true ∧ bit y.causes 0 = false then y.causes + 1 else y.causes }
  else { y with slackMin := min y.slackMin (min (release - max arrival nominal) 0xFFFFFE) }

/-- A mark changes the job's causes and nothing else of any job. -/
theorem job_markJob (d : Dev) (j cause k : Nat) : (d.markJob j cause).job k = (d.modJob j (fun y =>
    { y with causes := if y.running = true ∧ bit y.causes cause = false then y.causes + 2 ^ cause else y.causes })).job k := by
  unfold Dev.markJob
  dsimp only
  by_cases hk : k = j
  · subst hk
    split
    · next h =>
      rw [rest_job (rest_siltWrite _ _ _), job_modJob_same, job_modJob_same, if_pos (by simpa using h)]
    · next h => rw [job_modJob_same, if_neg (by simpa using h)]
  · rw [job_modJob_other _ hk]
    split
    · rw [rest_job (rest_siltWrite _ _ _), job_modJob_other _ hk]
    · rfl

theorem running_addLag (x : Job) (die n : Nat) : (x.addLag die n).running = x.running := by
  unfold Job.addLag
  split <;> rfl

theorem causes_addLag (x : Job) (die n : Nat) : (x.addLag die n).causes = x.causes := by
  unfold Job.addLag
  split <;> rfl

/-- What taking an input leaves of a device. -/
theorem inputAt_takes (d : Dev) (j i m arrival : Nat) {e : Bytes} {release : Nat} (he : scSlot (d.job j).sched i = e)
    (hrelease : d.releaseAt j i m = release) : (d.inputAt j i m arrival).ctxs = d.ctxs ∧ (d.inputAt j i m arrival).ports = d.ports ∧
    (d.inputAt j i m arrival).faults = d.faults ∧ ∀ k, (d.inputAt j i m arrival).job k =
      (d.modJob j (Job.takesInput (resDie (slResource e)) release (release - slSlack e) arrival)).job k := by
  have shape : d.inputAt j i m arrival =
      if release < arrival then
        ((d.sample 3 j (arrival - ((d.job j).roundStart i m + slStart e + slLength e))).modJob j
          (fun y => y.addLag (resDie (slResource e)) (arrival - release))).markJob j 0
      else (d.sample 3 j (arrival - ((d.job j).roundStart i m + slStart e + slLength e))).modJob j
        (fun y => { y with slackMin := min y.slackMin (min (release - max arrival (release - slSlack e)) 0xFFFFFE) }) := by
    subst he hrelease
    rfl
  have sampled : ∀ n k, (d.sample 3 j n).job k = d.job k := fun _ _ => rfl
  rw [shape]
  split
  · next hlate =>
    have marked := marked_markJob ((d.sample 3 j (arrival - ((d.job j).roundStart i m + slStart e + slLength e))).modJob j
      (fun y => y.addLag (resDie (slResource e)) (arrival - release))) j 0
    refine ⟨(marked_ctxs marked :), (marked_ports marked :), (marked_faults marked :), fun k => ?_⟩
    rw [job_markJob]
    by_cases hk : k = j
    · subst hk
      rw [job_modJob_same, job_modJob_same, job_modJob_same, sampled, Job.takesInput, if_pos hlate, running_addLag, causes_addLag]
      rfl
    · rw [job_modJob_other _ hk, job_modJob_other _ hk, job_modJob_other _ hk, sampled]
  · next hearly =>
    refine ⟨rfl, rfl, rfl, fun k => ?_⟩
    by_cases hk : k = j
    · subst hk
      rw [job_modJob_same, job_modJob_same, sampled, Job.takesInput, if_neg hearly]
    · rw [job_modJob_other _ hk, job_modJob_other _ hk, sampled]

/-- The release cycle of a round that has begun. -/
theorem releaseAt_begun {d : Dev} {j i : Nat} {e : Bytes} (he : scSlot (d.job j).sched i = e) :
    (d.begun j i).releaseAt j i (tget 0 (d.job j).acted i) = d.slotTick j i + slLength e + slSlack e := by
  have shape : (d.begun j i).releaseAt j i (tget 0 (d.job j).acted i) = (d.begun j i).dueAt j i (tget 0 (d.job j).acted i) +
      slLength (scSlot ((d.begun j i).job j).sched i) + slSlack (scSlot ((d.begun j i).job j).sched i) := rfl
  rw [shape, dueAt_begun, sched_begun, he]

/-- An event that takes an input in a device with the contexts, ports and fault records of the state. -/
theorem event_takes {s : State} {now j i m arrival release : Nat} {f : Dev → Dev} {d : Dev} {e : Bytes}
    (hf : f (s.devAt now) = d.inputAt j i m arrival) (hctxs : d.ctxs = s.dev.ctxs) (hports : d.ports = s.dev.ports)
    (hfaults : d.faults = s.dev.faults) (he : scSlot (d.job j).sched i = e) (hrelease : d.releaseAt j i m = release) :
    (s.event now f).dev.ctxs = s.dev.ctxs ∧ (s.event now f).dev.ports = s.dev.ports ∧ (s.event now f).dev.faults = s.dev.faults ∧
    ∀ k, (s.event now f).dev.job k =
      (d.modJob j (Job.takesInput (resDie (slResource e)) release (release - slSlack e) arrival)).job k := by
  obtain ⟨ctxs, ports, faults, jobs⟩ := inputAt_takes d j i m arrival he hrelease
  rw [event_devAt, hf, noteReady_ctxs, noteReady_ports, noteReady_faults]
  exact ⟨ctxs.trans hctxs, ports.trans hports, faults.trans hfaults, fun k => (noteReady_job _ k).trans (jobs k)⟩

theorem rxRelease_due {d : Dev} {j i : Nat} {e : Bytes} (h : SlotDue d j i 1 e) (told : Nat) {release : Nat}
    (hrelease : release = d.slotTick j i + slLength e + slSlack e) : d.rxRelease j i told =
    match d.rxArrival j i (tget 0 (d.job j).acted i) told with
    | some arrival => if d.tick < max arrival release then d
        else (d.begun j i).inputAt j i (tget 0 (d.job j).acted i) arrival
    | none => d := by
  have same : release = (d.begun j i).releaseAt j i (tget 0 (d.job j).acted i) := hrelease.trans (releaseAt_begun h.1).symm
  subst same
  unfold Dev.rxRelease
  simp only [takeSlot_due h]
  cases d.rxArrival j i (tget 0 (d.job j).acted i) told <;> rfl

/-- The device of a read that has come back. -/
def Dev.readBack (d : Dev) (j i m : Nat) : Dev := d.modJob j (fun y => { y with returned := tset y.returned i (m + 1) })

theorem sched_readBack (d : Dev) (j i m : Nat) : ((d.readBack j i m).job j).sched = (d.job j).sched := by
  rw [Dev.readBack, job_modJob_same]
  rfl

/-- The read's return is not counted in its release cycle. -/
theorem releaseAt_readBack (d : Dev) (j i m : Nat) : (d.readBack j i m).releaseAt j i m = d.releaseAt j i m := by
  have uncounted : ((d.readBack j i m).job j).uncounted = (d.job j).uncounted := by
    rw [Dev.readBack, job_modJob_same]
    rfl
  have due := dueAt_congr (d := d) (e := d.readBack j i m) rfl rfl uncounted i m
  have shape : (d.readBack j i m).releaseAt j i m = (d.readBack j i m).dueAt j i m +
      slLength (scSlot ((d.readBack j i m).job j).sched i) + slSlack (scSlot ((d.readBack j i m).job j).sched i) := rfl
  rw [shape, due, sched_readBack]
  rfl

theorem hbmReturn_due {d : Dev} {j i arrival : Nat} (hacts : d.slotActs j i 5 = true)
    (hmoved : tget 0 (d.job j).returned i < tget 0 (d.job j).acted i)
    (horder : (d.job j).inOrder (resDie (slResource (scSlot (d.job j).sched i)))
      ((d.job j).roundStart i (tget 0 (d.job j).returned i) + slPlace (scSlot (d.job j).sched i) true) = true)
    (htick : max arrival (d.releaseAt j i (tget 0 (d.job j).returned i)) ≤ d.tick) :
    d.hbmReturn j i arrival .clean = (d.readBack j i (tget 0 (d.job j).returned i)).inputAt j i (tget 0 (d.job j).returned i) arrival :=
  if_pos (by simp only [hacts, hmoved, horder, htick, decide_true, Bool.and_self])

/-- Settles O25: a round that is due takes its input at its slot's tick and its length and slack later, a read at its release cycle. -/
theorem inputsMeasureSlackOrAddLag : Obligations.InputsMeasureSlackOrAddLag := by
  unfold Obligations.InputsMeasureSlackOrAddLag
  refine ⟨?_, ?_, ?_⟩
  · intro j i told arrival now release e s hdue harr hrelease htick
    refine ⟨s.event now (Dev.rxRelease j i told), rfl, ?_⟩
    have entry : scSlot (((s.devAt now).begun j i).job j).sched i = e := (congrArg (scSlot · i) (sched_begun _ j i)).trans hdue.1
    have takes : (s.devAt now).rxRelease j i told =
        ((s.devAt now).begun j i).inputAt j i (tget 0 ((s.devAt now).job j).acted i) arrival := by
      rw [← job_devAt s now] at harr
      rw [rxRelease_due hdue told hrelease, harr]
      exact if_neg (by omega)
    exact event_takes takes (to_ctxs _ _) (to_ports _ _) (to_faults _ _) entry ((releaseAt_begun hdue.1).trans hrelease.symm)
  · intro j i told now e s hdue hcase
    refine ⟨s.event now (Dev.rxRelease j i told), rfl, rest_event_idle ?_⟩
    rw [← job_devAt s now] at hcase
    rw [rxRelease_due hdue told rfl]
    obtain hnone | ⟨arrival, harr, hearly⟩ := hcase
    · rw [hnone]
    · rw [harr]
      exact if_pos hearly
  · intro j i arrival now m release e s he hm hacts hmoved horder hrelease htick
    refine ⟨s.event now (Dev.hbmReturn j i arrival .clean), rfl, ?_⟩
    rw [← job_devAt s now] at he hm hmoved horder
    subst he hm hrelease
    exact event_takes (d := (s.devAt now).readBack j i (tget 0 ((s.devAt now).job j).returned i)) (hbmReturn_due hacts hmoved horder htick)
      (to_ctxs _ _) (to_ports _ _) (to_faults _ _) (congrArg (scSlot · i) (sched_readBack _ j i _)) (releaseAt_readBack _ j i _)

end Sys2Proof.Machine
end

section
/-! SUPPORT. What a command that turns on one port leaves of the device, and how a port enters a state of bring-up (R236 to R240, R254). -/

namespace Sys2Proof.Machine

/-! ### One port -/

/-- A device without its ports, the count of free values drawn, and what reports touch. -/
def Dev.unported (d : Dev) : Dev := { d.rest with ports := [], freeCtr := 0 }

theorem unported_of_rest {d e : Dev} (h : e.rest = d.rest) : e.unported = d.unported :=
  congrArg (fun d : Dev => { d with ports := [], freeCtr := 0 }) h

/-- The device differs at port `p` and in reports only. -/
structure Dev.AtPort (p : Nat) (d e : Dev) : Prop where
  frame : e.unported = d.unported
  others : ∀ q, q ≠ p → e.port q = d.port q

section
variable {p : Nat} {d e t : Dev}

theorem atPort_refl : d.AtPort p d := ⟨rfl, fun _ _ => rfl⟩

theorem atPort_trans (h : d.AtPort p e) (h' : e.AtPort p t) : d.AtPort p t :=
  ⟨h'.frame.trans h.frame, fun q hq => (h'.others q hq).trans (h.others q hq)⟩

theorem atPort_of_rest (h : e.rest = d.rest) : d.AtPort p e := ⟨unported_of_rest h, fun q _ => rest_port h q⟩

theorem atPort_modPort (h : d.AtPort p e) (f : Port → Port) : d.AtPort p (e.modPort p f) :=
  ⟨h.frame, fun q hq => (port_modPort_other e hq f).trans (h.others q hq)⟩

theorem atPort_ite {c : Prop} [Decidable c] (h : d.AtPort p e) (h' : d.AtPort p t) : d.AtPort p (if c then e else t) := by
  split
  · exact h
  · exact h'

theorem atPort_draw (d : Dev) (p : Nat) : d.AtPort p d.draw.2 := ⟨rfl, fun _ _ => rfl⟩

section
variable (h : d.AtPort p e)
include h
theorem atPort_ctxs : e.ctxs = d.ctxs := (congrArg Dev.ctxs h.frame :)
theorem atPort_jobs : e.jobs = d.jobs := (congrArg Dev.jobs h.frame :)
theorem atPort_clock : e.clock = d.clock := (congrArg Dev.clock h.frame :)
theorem atPort_fabric (q : Nat) : e.fabric q = d.fabric q := (congrArg (fun x : Dev => x.fabric q) h.frame :)

/-- A severity depends on the image and the classes alone (R361, R362). -/
theorem atPort_effective (hfaults : e.faults = d.faults) (r : FaultRec) : e.effective r = d.effective r := by
  have configured : e.configured r.source = d.configured r.source := (congrArg (fun x : Dev => x.configured r.source) h.frame :)
  rw [Dev.effective, Dev.effective, configured, hfaults]
end

/-- A mild fault at the port is recorded. -/
theorem atPort_raiseFault {r : FaultRec} (h : d.AtPort p e) (hfaults : e.faults = d.faults) (hmild : d.mild r.source) (hctx : r.ctx = none) :
    e.raiseFault r = e.recordFault r ∧ d.AtPort p (e.raiseFault r) := by
  have eq := raiseFault_mild (d := e) ((atPort_effective h hfaults r).trans_le (hmild r rfl)) hctx
  exact ⟨eq, eq ▸ atPort_trans h (atPort_of_rest (rest_recordFault e r))⟩

/-- A mild fault is in the ring, and leaves the port as it was. -/
theorem raised_mild {r : FaultRec} (h : d.AtPort p e) (hfaults : e.faults = d.faults) (hmild : d.mild r.source) (hctx : r.ctx = none)
    (hsrc : r.source < 65536) : d.AtPort p (e.raiseFault r) ∧ (∀ q, (e.raiseFault r).port q = e.port q) ∧
      ∃ x ∈ (e.raiseFault r).faults.ring, recSource x.bytes = r.source := by
  obtain ⟨eq, at'⟩ := atPort_raiseFault h hfaults hmild hctx
  exact ⟨at', fun q => eq ▸ rest_port (rest_recordFault e r) q, eq ▸ recordFault_source e r hsrc⟩

end

/-! ### An event at one port -/

section
variable {s : State} {now p : Nat} {f : Dev → Dev}

@[simp] theorem event_port (s : State) (now q : Nat) (f : Dev → Dev) : (s.event now f).dev.port q = (f (s.devAt now)).port q := by
  rw [event_dev, noteReady_port]

@[simp] theorem event_faults (s : State) (now : Nat) (f : Dev → Dev) : (s.event now f).dev.faults = (f (s.devAt now)).faults := by
  rw [event_dev, noteReady_faults]

@[simp] theorem event_sent (s : State) (now : Nat) (f : Dev → Dev) : (s.event now f).dev.sent = (f (s.devAt now)).sent := by
  rw [event_dev, noteReady_sent]

variable (h : (s.devAt now).AtPort p (f (s.devAt now)))
include h

theorem event_others (q : Nat) (hq : q ≠ p) : (s.event now f).dev.port q = s.dev.port q := by
  rw [event_port, h.others q hq, port_devAt]

theorem event_ctxs : (s.event now f).dev.ctxs = s.dev.ctxs := by
  rw [event_dev, noteReady_ctxs, atPort_ctxs h, to_ctxs]

theorem event_jobs : (s.event now f).dev.jobs = s.dev.jobs := by
  rw [event_dev, noteReady_jobs, atPort_jobs h, to_jobs]

end

/-! ### A port enters a state (R238) -/

@[simp] theorem state_enter (x : Port) (st : LinkState) (now : Nat) : (x.enter st now).state = st := by cases st <;> rfl
@[simp] theorem cause_enter (x : Port) (st : LinkState) (now : Nat) : (x.enter st now).cause = x.cause := by cases st <;> rfl
@[simp] theorem entryTick_enter (x : Port) (st : LinkState) (now : Nat) : (x.enter st now).entryTick = now := by cases st <;> rfl

theorem port_setLink (d : Dev) (p : Nat) (st : LinkState) (q : Nat) :
    (d.setLink p st).port q = (d.modPort p (fun x => x.enter st d.time)).port q := by
  unfold Dev.setLink
  dsimp only
  split
  · rfl
  · exact rest_port (rest_siltLink _ _ _) q

theorem port_setLink_same (d : Dev) (p : Nat) (st : LinkState) : (d.setLink p st).port p = (d.port p).enter st d.time := by
  rw [port_setLink, port_modPort_same]

theorem quiet_setLink (d : Dev) (p : Nat) (st : LinkState) : (d.setLink p st).quiet = (d.modPort p (fun x => x.enter st d.time)).quiet := by
  unfold Dev.setLink
  dsimp only
  split
  · rfl
  · exact quiet_siltLink _ _ _

theorem faults_setLink (d : Dev) (p : Nat) (st : LinkState) : (d.setLink p st).faults = d.faults := (congrArg Dev.faults (quiet_setLink d p st) :)

theorem atPort_setLink (d : Dev) (p : Nat) (st : LinkState) : d.AtPort p (d.setLink p st) :=
  ⟨(congrArg Dev.unported (rest_of_quiet (quiet_setLink d p st)) :), fun q hq => by rw [port_setLink, port_modPort_other d hq]⟩

/-- A port without the numbering of its training frames (R236). -/
def Port.untrained (x : Port) : Port := { x with trainNext := 0, trainTime := none }

theorem port_sendTraining (d : Dev) (p r k : Nat) : ((d.sendTraining p r k).port p).untrained = (d.port p).untrained := by
  unfold Dev.sendTraining
  dsimp only
  rw [port_modPort_same]
  exact (congrArg Port.untrained (rest_port (rest_send d _) p) :)

theorem faults_sendTraining (d : Dev) (p r k : Nat) : (d.sendTraining p r k).faults = d.faults :=
  (inward_fields (inward_sendTraining d p r k)).2.2

theorem atPort_sendTraining (d : Dev) (p r k : Nat) : d.AtPort p (d.sendTraining p r k) :=
  atPort_modPort (atPort_of_rest (rest_send d _)) _

section
variable (d : Dev) (p : Nat)

theorem train_cases (r : Nat) : d.train p r = d ∨ d.train p r = d.sendTraining p r 0 := by
  unfold Dev.train
  split
  · exact .inr rfl
  · exact .inl rfl

theorem enterLink_cases (st : LinkState) : ∃ r, d.enterLink p st = d.setLink p st ∨ d.enterLink p st = (d.setLink p st).sendTraining p r 0 := by
  cases st with
  | acquire => exact ⟨0, train_cases _ p 0⟩
  | handshake => exact ⟨1, train_cases _ p 1⟩
  | fault => exact ⟨0, train_cases _ p 0⟩
  | _ => exact ⟨0, .inl rfl⟩

theorem atPort_enterLink (st : LinkState) : d.AtPort p (d.enterLink p st) := by
  obtain ⟨r, h | h⟩ := enterLink_cases d p st <;> rw [h]
  · exact atPort_setLink d p st
  · exact atPort_trans (atPort_setLink d p st) (atPort_sendTraining _ p r 0)

@[simp] theorem faults_enterLink (st : LinkState) : (d.enterLink p st).faults = d.faults := by
  obtain ⟨r, h | h⟩ := enterLink_cases d p st <;> rw [h]
  · exact faults_setLink d p st
  · exact (faults_sendTraining _ p r 0).trans (faults_setLink d p st)

theorem port_enterLink (st : LinkState) : ((d.enterLink p st).port p).untrained = ((d.port p).enter st d.time).untrained := by
  obtain ⟨r, h | h⟩ := enterLink_cases d p st <;> rw [h]
  · rw [port_setLink_same]
  · rw [port_sendTraining, port_setLink_same]

@[simp] theorem state_enterLink (st : LinkState) : ((d.enterLink p st).port p).state = st :=
  (congrArg Port.state (port_enterLink d p st)).trans (state_enter _ _ _)
@[simp] theorem cause_enterLink (st : LinkState) : ((d.enterLink p st).port p).cause = (d.port p).cause :=
  (congrArg Port.cause (port_enterLink d p st)).trans (cause_enter _ _ _)
@[simp] theorem entryTick_enterLink (st : LinkState) : ((d.enterLink p st).port p).entryTick = d.time :=
  (congrArg Port.entryTick (port_enterLink d p st)).trans (entryTick_enter _ _ _)

end

/-! ### A bring-up that fails (R238, R254) -/

/-- What a failed bring-up leaves: the port in its next state with the cause, and LINK_DOWN at the first failure since the port was UP. -/
structure Dev.BringupFailed (d e : Dev) (p reason : Nat) (st : LinkState) : Prop where
  atPort : d.AtPort p e
  state : (e.port p).state = st
  cause : (e.port p).cause = reason
  entryTick : (e.port p).entryTick = d.time
  record : (d.port p).acquireRaised = false → ∃ x ∈ e.faults.ring, recSource x.bytes = 0x0101
  silent : (d.port p).acquireRaised = true → reason ≠ 3 → e.faults = d.faults

/-- A port whose bring-up has failed for a cause. -/
def Port.blamed (reason : Nat) (x : Port) : Port := { x with cause := reason, acquireRaised := true }

/-- The device whose port has entered the state after a failed bring-up, before LINK_DOWN. -/
def Dev.failedTo (d : Dev) (p reason : Nat) (st : LinkState) : Dev := (d.modPort p (Port.blamed reason)).enterLink p st

theorem bringupFails_eq (d : Dev) (p reason : Nat) (st : LinkState) : d.bringupFails p reason st =
    if (!(d.port p).acquireRaised || decide (reason = 0x03 ∧ (d.port p).cause ≠ 0x03)) = true then
      (d.failedTo p reason st).raiseFault ((d.failedTo p reason st).linkDownRecord p)
    else d.failedTo p reason st := rfl

theorem bringupFails_fails {d : Dev} (hmild : d.mild 0x0101) (p reason : Nat) (st : LinkState) :
    d.BringupFailed (d.bringupFails p reason st) p reason st := by
  have entered : d.AtPort p (d.failedTo p reason st) := atPort_trans (atPort_modPort atPort_refl _) (atPort_enterLink _ p st)
  have faults : (d.failedTo p reason st).faults = d.faults := faults_enterLink _ p st
  have state : ((d.failedTo p reason st).port p).state = st := state_enterLink _ p st
  have cause : ((d.failedTo p reason st).port p).cause = reason :=
    (cause_enterLink (d.modPort p (Port.blamed reason)) p st).trans (congrArg Port.cause (port_modPort_same d p _))
  have entry : ((d.failedTo p reason st).port p).entryTick = d.time := entryTick_enterLink _ p st
  rw [bringupFails_eq]
  generalize d.failedTo p reason st = e at *
  obtain ⟨raised, ports, record⟩ := raised_mild (r := e.linkDownRecord p) entered faults hmild rfl (by decide : 0x0101 < 65536)
  split
  · next first =>
    exact ⟨raised, (ports p).symm ▸ state, (ports p).symm ▸ cause, (ports p).symm ▸ entry, fun _ => record,
      fun hr hc => by simp [hr, hc] at first⟩
  · next later =>
    exact ⟨entered, state, cause, entry, fun hr => absurd (by simp [hr]) later, fun _ _ => faults⟩

end Sys2Proof.Machine
end

section
/-! PROOFS. The statement on the time-outs of bring-up (R238, R254). -/

namespace Sys2Proof.Machine

/-- The causes of ACQUIRE that a finding of its receiver allows (R254). -/
def acquireCauses : AcquireFinding → List Nat
  | .noLight => [0x01]
  | .swapped => [0x02]
  | .modeMismatch => [0x0E]
  | .other => [0x01, 0x02, 0x0E]

theorem causes_subset (f : AcquireFinding) : acquireCauses f ⊆ [0x01, 0x02, 0x0E] := by cases f <;> decide

/-- A draw of a free value before a bring-up fails changes nothing of what is said of it. -/
theorem bringupFailed_draw {d e : Dev} {p reason : Nat} {st : LinkState} (h : d.draw.2.BringupFailed e p reason st) :
    d.BringupFailed e p reason st :=
  ⟨atPort_trans (atPort_draw d p) h.atPort, h.state, h.cause, h.entryTick, h.record, h.silent⟩

section
variable {d : Dev} {p : Nat} (hmild : d.mild 0x0101)
include hmild

theorem tuneTimeout_fails (h : d.lasted p .txTune (300 * msTicks) = true) :
    d.BringupFailed (Dev.tuneTimeout p d) p (d.tuneCause p) .fault := by
  rw [Dev.tuneTimeout, if_pos h]
  exact bringupFails_fails hmild p _ _

theorem identifyTimeout_fails (h : d.lasted p .identify (10 * msTicks) = true) :
    ∃ c ∈ [0x04, 0x0D], d.BringupFailed (Dev.identifyTimeout p d) p c .fault := by
  refine ⟨[0x04, 0x0D].getD (d.draw.1 % 2) 0x04, ?_, ?_⟩
  · have two : d.draw.1 % 2 = 0 ∨ d.draw.1 % 2 = 1 := by omega
    obtain e | e := two <;> rw [e] <;> decide
  · rw [Dev.identifyTimeout, if_pos h]
    exact bringupFailed_draw (bringupFails_fails (d := d.draw.2) hmild p _ _)

theorem handshakeTimeout_fails (h : d.lasted p .handshake (100 * msTicks) = true) :
    d.BringupFailed (Dev.handshakeTimeout p d) p 0x0C .acquire := by
  rw [Dev.handshakeTimeout, if_pos h]
  exact bringupFails_fails hmild p _ _

theorem calibrateTimeout_fails (h : d.lasted p .calibrate msTicks = true) : d.BringupFailed (Dev.calibrateTimeout p d) p 0x11 .acquire := by
  rw [Dev.calibrateTimeout, if_pos h]
  exact bringupFails_fails hmild p _ _

theorem acquireTimeout_fails (h : d.lasted p .acquire (200 * msTicks) = true) (f : AcquireFinding) :
    ∃ c ∈ acquireCauses f, d.BringupFailed (Dev.acquireTimeout p f d) p c .acquire := by
  cases f with
  | other =>
    refine ⟨[0x01, 0x02, 0x0E].getD (d.draw.1 % 3) 0x01, ?_, ?_⟩
    · have three : d.draw.1 % 3 = 0 ∨ d.draw.1 % 3 = 1 ∨ d.draw.1 % 3 = 2 := by omega
      obtain e | e | e := three <;> rw [e] <;> decide
    · rw [Dev.acquireTimeout, if_pos h]
      exact bringupFailed_draw (bringupFails_fails (d := d.draw.2) hmild p _ _)
  | _ =>
    refine ⟨_, List.mem_singleton.mpr rfl, ?_⟩
    rw [Dev.acquireTimeout, if_pos h]
    exact bringupFails_fails hmild p _ _

end

theorem tuneCause_ne (d : Dev) (p : Nat) : 3 ∉ [d.tuneCause p] := by
  rw [List.mem_singleton, Dev.tuneCause]
  split <;> decide

/-- A time-out: it fails its bring-up with a cause of a list once its state has lasted, and is idle before. -/
theorem event_timesOut {c : Instr} {s : State} {now p n : Nat} {was st : LinkState} {f : Dev → Dev} {causes : List Nat}
    (hexec : exec c s = .next (s.event now f)) (hmis : 3 ∉ causes)
    (hidle : (s.devAt now).lasted p was n = false → f (s.devAt now) = s.devAt now)
    (hfails : (s.devAt now).lasted p was n = true → (s.devAt now).mild 0x0101 →
      ∃ x ∈ causes, (s.devAt now).BringupFailed (f (s.devAt now)) p x st) :
    ((s.devAt now).lasted p was n = true → (s.devAt now).mild 0x0101 →
      ∃ t, exec c s = .next t ∧ (t.dev.port p).state = st ∧ (t.dev.port p).cause ∈ causes ∧ (t.dev.port p).entryTick = (s.devAt now).time ∧
        (∀ q, q ≠ p → t.dev.port q = s.dev.port q) ∧ t.dev.ctxs = s.dev.ctxs ∧ t.dev.jobs = s.dev.jobs ∧
        ((s.dev.port p).acquireRaised = false → ∃ e ∈ t.dev.faults.ring, recSource e.bytes = 0x0101) ∧
        ((s.dev.port p).acquireRaised = true → t.dev.faults = s.dev.faults)) ∧
    ((s.devAt now).lasted p was n = false → ∃ t, exec c s = .next t ∧ t.dev.rest = (s.devAt now).rest) := by
  refine ⟨fun h hm => ⟨s.event now f, hexec, ?_⟩, fun h => ⟨s.event now f, hexec, rest_event_idle (hidle h)⟩⟩
  obtain ⟨x, hx, hf⟩ := hfails h hm
  rw [event_port, event_faults]
  refine ⟨hf.state, hf.cause ▸ hx, hf.entryTick, event_others hf.atPort, event_ctxs hf.atPort, event_jobs hf.atPort, ?_, ?_⟩
  · exact fun hr => hf.record (by rw [port_devAt, hr])
  · exact fun hr => (hf.silent (by rw [port_devAt, hr]) (fun e => hmis (e ▸ hx))).trans (to_faults _ _)

/-- ACQUIRE's time-out, with a list of causes that its finding allows. -/
theorem event_acquireTimeout (p now : Nat) (s : State) {f : AcquireFinding} {causes : List Nat} (hsub : acquireCauses f ⊆ causes) :
    (s.devAt now).lasted p .acquire (200 * msTicks) = true → (s.devAt now).mild 0x0101 →
      ∃ x ∈ causes, (s.devAt now).BringupFailed (Dev.acquireTimeout p f (s.devAt now)) p x .acquire := fun h hm => by
  obtain ⟨x, hx, hf⟩ := acquireTimeout_fails hm h f
  exact ⟨x, hsub hx, hf⟩

theorem idle_of_undone {b : Bool} {d e : Dev} (h : b = false) : (if b then e else d) = d := if_neg (by simp [h])

/-- Settles O34: each time-out fails its bring-up by the same rule, and the back-off enters TX_TUNE. -/
theorem bringupTimesOut : Obligations.BringupTimesOut := by
  unfold Obligations.BringupTimesOut
  refine ⟨?_, fun p now s => ⟨s.event now (Dev.backoff p), rfl, fun h => ?_, fun h => rest_event_idle (idle_of_undone h)⟩⟩
  · intro p now n f c was st causes s hc
    obtain ⟨rfl, rfl, rfl, rfl, rfl⟩ | ⟨rfl, rfl, rfl, rfl, rfl⟩ | ⟨rfl, rfl, rfl, rfl, rfl⟩ | ⟨rfl, rfl, rfl, rfl, rfl⟩ |
      ⟨rfl, rfl, rfl, rfl, rfl⟩ | ⟨rfl, rfl, rfl, rfl, rfl⟩ | ⟨rfl, rfl, rfl, rfl, rfl⟩ | ⟨rfl, rfl, rfl, rfl, rfl⟩ := hc
    · exact event_timesOut (f := Dev.tuneTimeout p) rfl (tuneCause_ne _ _) idle_of_undone
        fun h hm => ⟨_, List.mem_singleton.mpr rfl, tuneTimeout_fails hm h⟩
    · exact event_timesOut (f := Dev.acquireTimeout p .noLight) rfl (by decide) idle_of_undone (event_acquireTimeout p now s (List.Subset.refl _))
    · exact event_timesOut (f := Dev.acquireTimeout p .swapped) rfl (by decide) idle_of_undone (event_acquireTimeout p now s (List.Subset.refl _))
    · exact event_timesOut (f := Dev.acquireTimeout p .modeMismatch) rfl (by decide) idle_of_undone
        (event_acquireTimeout p now s (List.Subset.refl _))
    · exact event_timesOut (f := Dev.acquireTimeout p f) rfl (by decide) idle_of_undone (event_acquireTimeout p now s (causes_subset f))
    · exact event_timesOut (f := Dev.identifyTimeout p) rfl (by decide) idle_of_undone fun h hm => identifyTimeout_fails hm h
    · exact event_timesOut (f := Dev.handshakeTimeout p) rfl (by decide) idle_of_undone
        fun h hm => ⟨_, List.mem_singleton.mpr rfl, handshakeTimeout_fails hm h⟩
    · exact event_timesOut (f := Dev.calibrateTimeout p) rfl (by decide) idle_of_undone
        fun h hm => ⟨_, List.mem_singleton.mpr rfl, calibrateTimeout_fails hm h⟩
  · have at' := atPort_enterLink (s.devAt now) p .txTune
    have entered : Dev.backoff p (s.devAt now) = (s.devAt now).enterLink p .txTune := if_pos h
    rw [event_port, entered]
    refine ⟨state_enterLink _ _ _, ?_, event_others (f := Dev.backoff p) (entered ▸ at')⟩
    rw [← port_devAt s now p]
    exact (congrArg Port.retrains (port_enterLink (s.devAt now) p .txTune) :)

end Sys2Proof.Machine
end

section
/-! SUPPORT. What a command that also marks steps leaves of the other ports, and the lane that S carries (R31, R219, R243). -/

namespace Sys2Proof.Machine

/-! ### A port's neighbourhood -/

/-- No other port, no context and nothing of the image differs. -/
structure Dev.NearPort (p : Nat) (d e : Dev) : Prop where
  others : ∀ q, q ≠ p → e.port q = d.port q
  ctxs : e.ctxs = d.ctxs
  image : e.image = d.image

section
variable {p : Nat} {d e t : Dev}

theorem nearPort_of_atPort (h : d.AtPort p e) : d.NearPort p e := ⟨h.others, atPort_ctxs h, (congrArg Dev.image h.frame :)⟩

theorem nearPort_refl : d.NearPort p d := nearPort_of_atPort atPort_refl

theorem nearPort_trans (h : d.NearPort p e) (h' : e.NearPort p t) : d.NearPort p t :=
  ⟨fun q hq => (h'.others q hq).trans (h.others q hq), h'.ctxs.trans h.ctxs, h'.image.trans h.image⟩

theorem nearPort_modPort (h : d.NearPort p e) (f : Port → Port) : d.NearPort p (e.modPort p f) :=
  nearPort_trans h (nearPort_of_atPort (atPort_modPort atPort_refl f))

/-- A severity depends on the image and the classes alone (R361, R362). -/
theorem nearPort_mild (h : d.NearPort p e) (hfaults : e.faults = d.faults) {src : Nat} (hmild : d.mild src) : e.mild src := fun r hr => by
  have configured : e.configured r.source = d.configured r.source := by
    rw [Dev.configured, Dev.configured, Dev.faultEntry, Dev.faultEntry, Dev.img, Dev.img, h.image]
  have same : e.effective r = d.effective r := by rw [Dev.effective, Dev.effective, configured, hfaults]
  exact same ▸ hmild r hr

end

/-! ### The spare begins to stand in (R31, R219) -/

/-- A device without its jobs and what messages, counters and traces touch. -/
def Dev.jobless (d : Dev) : Dev := { d.quiet with jobs := [] }

theorem jobless_of_marked {d e : Dev} (h : d.Marked e) : e.jobless = d.jobless := congrArg (fun x : Dev => { x with jobs := [] }) h.quiet

/-- A report that a spare stands in changes jobs alone. -/
theorem jobless_spareSteps (d : Dev) (p : Nat) : (d.spareSteps p).jobless = d.jobless := by
  have noted : ∀ (l : List Nat) (e : Dev), (l.foldl (fun (d : Dev) j => if (d.job j).namedPorts.contains p then
      d.modJob j (fun x => { x with spareUsed := x.spareUsed || x.running }) else d) e).jobless = e.jobless := by
    intro l
    induction l with
    | nil => exact fun _ => rfl
    | cons j l ih =>
      intro e
      rw [List.foldl_cons, ih]
      split <;> rfl
  exact (jobless_of_marked (marked_markSteps _ 4)).trans (noted d.loaded d)

section
variable {d e : Dev} (h : e.jobless = d.jobless)
include h
theorem jobless_port (q : Nat) : e.port q = d.port q := (congrArg (fun x : Dev => x.port q) h :)
theorem jobless_faults : e.faults = d.faults := (congrArg Dev.faults h :)
theorem jobless_nearPort (p : Nat) : d.NearPort p e := ⟨fun q _ => jobless_port h q, (congrArg Dev.ctxs h :), (congrArg Dev.image h :)⟩
end

/-- A port without the lanes that S stands in for and the peer's lanes (R243). -/
def Port.unspared (x : Port) : Port :=
  { x with rxLanes := 0, rxSpareFor := 0, txSpareFor := 0, spareChange := false, txChange := false, peerMask := 0 }

/-- The peer's mask changes the port's spare, and the jobs' reports of it. -/
theorem takePeerMask_keeps (d : Dev) (p mask : Nat) : d.NearPort p (d.takePeerMask p mask) ∧ (d.takePeerMask p mask).faults = d.faults ∧
    ((d.takePeerMask p mask).port p).unspared = (d.port p).unspared := by
  have masked : d.NearPort p (d.modPort p (fun x => { x with peerMask := mask })) := nearPort_modPort nearPort_refl _
  have same : ((d.modPort p (fun x => { x with peerMask := mask })).port p).unspared = (d.port p).unspared :=
    (congrArg Port.unspared (port_modPort_same d p _) :)
  unfold Dev.takePeerMask
  dsimp only
  split
  · next l _ =>
    split
    · have spared := jobless_spareSteps
        ((d.modPort p (fun x => { x with peerMask := mask })).modPort p (fun x => { x with txSpareFor := l, txChange := true })) p
      refine ⟨nearPort_trans (nearPort_modPort masked _) (jobless_nearPort spared p), (jobless_faults spared :), ?_⟩
      rw [jobless_port spared, port_modPort_same]
      exact same
    · exact ⟨masked, rfl, same⟩
  · exact ⟨masked, rfl, same⟩

end Sys2Proof.Machine
end

section
/-! PROOFS. The statement on rings that lock and training frames (R237 to R240, R244). -/

namespace Sys2Proof.Machine

/-! ### Rings that lock (R238, R253) -/

theorem feedGood_keeps (d : Dev) (p rings : Nat) : d.AtPort p (d.feedGood p rings) ∧ (d.feedGood p rings).faults = d.faults := by
  unfold Dev.feedGood
  dsimp only
  generalize (if d.fabric p = true then _ else _ : Nat) = lines
  split
  · exact ⟨atPort_refl, rfl⟩
  · exact ⟨atPort_modPort (atPort_draw d p) _, rfl⟩

/-- The port once its rings have locked, before it enters ACQUIRE. -/
def Dev.ringsIn (d : Dev) (p rings : Nat) : Dev :=
  (d.feedGood p rings).modPort p (fun x => { x with txBad := if d.fabric p then (List.range 9).filter (fun i => !bit rings i) else [] })

theorem ringsLocked_enters {d : Dev} {p rings : Nat} (hup : d.bringsUp p = true) (hst : (d.port p).state = .txTune)
    (hrings : d.ringsNeeded p rings = true) : Dev.ringsLocked p rings d = (d.ringsIn p rings).enterLink p .acquire :=
  if_pos (by rw [hup, hst, hrings]; rfl)

theorem ringsLocked_idle {d : Dev} {p rings : Nat}
    (h : (d.port p).state ≠ .txTune ∨ d.ringsNeeded p rings = false ∨ d.bringsUp p = false) : Dev.ringsLocked p rings d = d := by
  refine if_neg fun hc => ?_
  simp only [Bool.and_eq_true, beq_iff_eq] at hc
  obtain ⟨⟨hup, hst⟩, hrings⟩ := hc
  simp [hup, hst, hrings] at h

/-! ### Training frames by the port's state (R237, R244) -/

/-- The info fields of a training frame that count: valid ones of lanes that are not retired. -/
def Port.infosOf (x : Port) (l : List (Nat × Nat)) : List (Nat × Nat) :=
  (l.filter (fun e => !infoBad e.2)).filter (fun e => !x.retired.contains (inLane e.2))

/-- The device once the bad info fields of a frame are counted. -/
def Dev.infosCounted (d : Dev) (p : Nat) (l : List (Nat × Nat)) : Dev :=
  d.countPort p 0x19 (l.length - (l.filter (fun e => !infoBad e.2)).length)

theorem atPort_infosCounted (d : Dev) (p : Nat) (l : List (Nat × Nat)) : d.AtPort p (d.infosCounted p l) := atPort_of_rest (rest_countPort _ _ _ _)
theorem faults_infosCounted (d : Dev) (p : Nat) (l : List (Nat × Nat)) : (d.infosCounted p l).faults = d.faults :=
  quiet_faults (quiet_countPort _ _ _ _)
theorem port_infosCounted (d : Dev) (p : Nat) (l : List (Nat × Nat)) (q : Nat) : (d.infosCounted p l).port q = d.port q :=
  rest_port (rest_countPort _ _ _ _) q

section
variable {d : Dev} {p skew : Nat} {l : List (Nat × Nat)} (hfab : d.fabric p = true)
include hfab

theorem trainingRx_eq (hst : (d.port p).state ≠ .disabled) : Dev.trainingRx p l skew d =
    match (d.port p).state with
    | .acquire => (d.infosCounted p l).acquireFrame p ((d.port p).infosOf l).length
    | .identify => if 8 ≤ ((d.port p).infosOf l).length then (d.infosCounted p l).identify p ((d.port p).infosOf l) skew else d.infosCounted p l
    | .handshake => if (d.port p).infosOf l = [] then (d.infosCounted p l).modPort p (fun x => { x with readyRun := 0 })
      else (d.infosCounted p l).handshakeFrame p ((d.port p).infosOf l)
    | .up => (d.infosCounted p l).trainingWhileUp p l.length
    | _ => d.infosCounted p l := by
  rw [← port_infosCounted d p l p]
  exact if_neg (by simp [hfab, hst])

theorem trainingRx_acquire (hst : (d.port p).state = .acquire) :
    Dev.trainingRx p l skew d = (d.infosCounted p l).acquireFrame p ((d.port p).infosOf l).length := by
  rw [trainingRx_eq hfab (by simp [hst]), hst]

theorem trainingRx_identify (hst : (d.port p).state = .identify) (hlen : 8 ≤ ((d.port p).infosOf l).length) :
    Dev.trainingRx p l skew d = (d.infosCounted p l).identify p ((d.port p).infosOf l) skew := by
  rw [trainingRx_eq hfab (by simp [hst]), hst]
  exact if_pos hlen

theorem trainingRx_few (hst : (d.port p).state = .identify) (hlen : ((d.port p).infosOf l).length < 8) :
    Dev.trainingRx p l skew d = d.infosCounted p l := by
  rw [trainingRx_eq hfab (by simp [hst]), hst]
  exact if_neg (by omega)

theorem trainingRx_none (hst : (d.port p).state = .handshake) (hnone : (d.port p).infosOf l = []) :
    Dev.trainingRx p l skew d = (d.infosCounted p l).modPort p (fun x => { x with readyRun := 0 }) := by
  rw [trainingRx_eq hfab (by simp [hst]), hst]
  exact if_pos hnone

theorem trainingRx_handshake (hst : (d.port p).state = .handshake) (hsome : (d.port p).infosOf l ≠ []) :
    Dev.trainingRx p l skew d = (d.infosCounted p l).handshakeFrame p ((d.port p).infosOf l) := by
  rw [trainingRx_eq hfab (by simp [hst]), hst]
  exact if_neg hsome

theorem trainingRx_up (hst : (d.port p).state = .up) : Dev.trainingRx p l skew d = (d.infosCounted p l).trainingWhileUp p l.length := by
  rw [trainingRx_eq hfab (by simp [hst]), hst]

end

/-! ### ACQUIRE -/

/-- The run of good frames after a frame with `n` good info fields. -/
def Port.runAfter (x : Port) (n : Nat) : Nat := if 8 ≤ n then x.infoRun + 1 else 0

theorem acquireFrame_eq (d : Dev) (p n : Nat) : d.acquireFrame p n =
    if 4 ≤ (d.port p).runAfter n then (d.modPort p (fun x => { x with infoRun := (d.port p).runAfter n })).enterLink p .identify
    else d.modPort p (fun x => { x with infoRun := (d.port p).runAfter n }) := rfl

theorem acquireFrame_runs (d : Dev) (p n : Nat) : d.AtPort p (d.acquireFrame p n) ∧ (d.acquireFrame p n).faults = d.faults ∧
    ((d.acquireFrame p n).port p).state = (if 4 ≤ (d.port p).runAfter n then .identify else (d.port p).state) ∧
    ((d.port p).runAfter n < 4 → ((d.acquireFrame p n).port p).infoRun = (d.port p).runAfter n) := by
  rw [acquireFrame_eq]
  split
  · exact ⟨atPort_trans (atPort_modPort atPort_refl _) (atPort_enterLink _ p .identify), faults_enterLink _ p _, state_enterLink _ p _,
      fun _ => by omega⟩
  · rw [port_modPort_same]
    exact ⟨atPort_modPort atPort_refl _, rfl, rfl, fun _ => rfl⟩

/-! ### IDENTIFY (R239, R240) -/

/-- The port whose neighbour the first info field names. -/
def Port.meets (i : Nat) (x : Port) : Port := { x with neighbourPort := inPortOf i, neighbourId := inDev i, neighbourRack := inRack i }

/-- The checks read the image alone. -/
theorem identifyFault_atPort {p q skew : Nat} {d e : Dev} (h : d.AtPort p e) (l : List (Nat × Nat)) :
    e.identifyFault q l skew = d.identifyFault q l skew := (congrArg (fun x : Dev => x.identifyFault q l skew) h.frame :)

theorem identify_fails {d : Dev} {p skew c : Nat} {l : List (Nat × Nat)} (h : d.identifyFault p l skew = some c) :
    d.identify p l skew = (d.modPort p (Port.meets (l.headD (0, 0)).2)).bringupFails p c .fault := by
  have same : (d.modPort p (Port.meets (l.headD (0, 0)).2)).identifyFault p l skew = some c := h
  unfold Dev.identify
  dsimp only
  split
  · next c' hc =>
    have cause : some c' = some c := hc.symm.trans same
    rw [Option.some.inj cause]
    rfl
  · next hc => exact absurd (hc.symm.trans same) (by simp)

/-- The port whose lanes are mapped (R239, R244). -/
def Port.mapped (l : List (Nat × Nat)) (mask : Nat) (moved : Bool) (x : Port) : Port :=
  { x with rxMask := laneMask l, rxLanes := laneMask l, remapped := moved, peerMask := mask,
           retired := x.retired ++ (List.range 9).filter (fun b => !bit (laneMask l) b && !x.retired.contains b) }

theorem identify_passes {d : Dev} {p skew : Nat} {l : List (Nat × Nat)} (h : d.identifyFault p l skew = none) (hmild : d.mild 0x0102) :
    ∃ e, d.identify p l skew = e.enterLink p .handshake ∧ d.AtPort p e ∧ (e.port p).neighbourPort = inPortOf (l.headD (0, 0)).2 ∧
      (e.port p).neighbourId = inDev (l.headD (0, 0)).2 ∧ (e.port p).rxMask = laneMask l := by
  have same : (d.modPort p (Port.meets (l.headD (0, 0)).2)).identifyFault p l skew = none := h
  have shape : d.identify p l skew = (if (l.any (fun x => x.1 != inLane x.2)) = true then
      ((d.modPort p (Port.meets (l.headD (0, 0)).2)).modPort p
        (Port.mapped l (inMask (l.headD (0, 0)).2) (l.any (fun x => x.1 != inLane x.2)))).raiseFault { source := 0x0102, unit := some p }
      else (d.modPort p (Port.meets (l.headD (0, 0)).2)).modPort p
        (Port.mapped l (inMask (l.headD (0, 0)).2) (l.any (fun x => x.1 != inLane x.2)))).enterLink p .handshake := by
    unfold Dev.identify
    dsimp only
    split
    · next c' hc => exact absurd (hc.symm.trans same) (by simp)
    · rfl
  have at' : d.AtPort p ((d.modPort p (Port.meets (l.headD (0, 0)).2)).modPort p
      (Port.mapped l (inMask (l.headD (0, 0)).2) (l.any (fun x => x.1 != inLane x.2)))) := atPort_modPort (atPort_modPort atPort_refl _) _
  have port : ((d.modPort p (Port.meets (l.headD (0, 0)).2)).modPort p
      (Port.mapped l (inMask (l.headD (0, 0)).2) (l.any (fun x => x.1 != inLane x.2)))).port p =
      ((d.port p).meets (l.headD (0, 0)).2).mapped l (inMask (l.headD (0, 0)).2) (l.any (fun x => x.1 != inLane x.2)) := by
    rw [port_modPort_same, port_modPort_same]
  obtain ⟨raised, ports, -⟩ := raised_mild (r := { source := 0x0102, unit := some p }) at' rfl hmild rfl (by decide : 0x0102 < 65536)
  refine ⟨_, shape, ?_, ?_⟩
  · exact atPort_ite raised at'
  · split
    · rw [ports, port]
      exact ⟨rfl, rfl, rfl⟩
    · rw [port]
      exact ⟨rfl, rfl, rfl⟩

/-! ### HANDSHAKE (R238, R243) -/

theorem atPort_enterCalibrate (d : Dev) (p : Nat) : d.AtPort p (d.enterCalibrate p) :=
  atPort_trans (atPort_modPort atPort_refl _) (atPort_enterLink _ p .calibrate)

theorem handshakeDone_keeps (d : Dev) (p : Nat) : d.AtPort p (d.handshakeDone p) ∧ (d.handshakeDone p).faults = d.faults := by
  unfold Dev.handshakeDone
  split
  · exact ⟨atPort_enterCalibrate d p, faults_enterLink _ p .calibrate⟩
  · exact ⟨atPort_refl, rfl⟩

/-- The last of the handshake leaves the port as it is, or in CALIBRATE. -/
theorem port_handshakeDone (d : Dev) (p : Nat) :
    if (d.port p).state = .handshake ∧ (d.port p).sending = true ∧ 4 ≤ (d.port p).dataRun then ((d.handshakeDone p).port p).state = .calibrate
    else (d.handshakeDone p).port p = d.port p := by
  unfold Dev.handshakeDone
  split
  · next h =>
    rw [if_pos (by simpa [and_assoc] using h)]
    exact state_enterLink _ p .calibrate
  · next h => rw [if_neg (by simpa [and_assoc] using h)]

theorem countDown_keeps (d : Dev) (p : Nat) : d.AtPort p (d.countDown p) ∧ (d.countDown p).faults = d.faults ∧
    (((d.countDown p).port p).sending = true ∨ ((d.countDown p).port p).state = .calibrate) := by
  have trained : ∀ (l : List Nat) (e : Dev), e.AtPort p (l.foldl (fun d i => d.sendTraining p 1 (16 - i)) e) ∧
      (l.foldl (fun d i => d.sendTraining p 1 (16 - i)) e).faults = e.faults := by
    intro l
    induction l with
    | nil => exact fun _ => ⟨atPort_refl, rfl⟩
    | cons i l ih =>
      intro e
      exact ⟨atPort_trans (atPort_sendTraining e p 1 (16 - i)) (ih _).1, (ih _).2.trans (faults_sendTraining e p 1 (16 - i))⟩
  obtain ⟨at', faults⟩ := trained (List.range 16) d
  unfold Dev.countDown forN
  dsimp only
  generalize (List.range 16).foldl (fun d i => d.sendTraining p 1 (16 - i)) d = e at *
  obtain ⟨done, doneFaults⟩ := handshakeDone_keeps (e.modPort p (fun x => { x with sending := true, precoder := [], trainTime := none })) p
  refine ⟨atPort_trans (atPort_modPort at' _) done, doneFaults.trans faults, ?_⟩
  have port := port_handshakeDone (e.modPort p (fun x => { x with sending := true, precoder := [], trainTime := none })) p
  split at port
  · exact .inr port
  · rw [port, port_modPort_same]
    exact .inl rfl

/-- The run of frames with rx_ready after the frame with these info fields. -/
def Port.readyAfter (x : Port) (l : List (Nat × Nat)) : Nat := if l.head?.any (fun i => inReady i.2) = true then x.readyRun + 1 else 0

/-- The port after a frame in HANDSHAKE: its run, and how far the peer has counted down. -/
def Port.readied (n i : Nat) (x : Port) : Port := { x with readyRun := n, countdown := max x.countdown (inCount i) }

/-- A frame in HANDSHAKE before the countdown may begin: the run goes on, and the peer's mask is taken. -/
def Dev.readyTaken (d : Dev) (p : Nat) (l : List (Nat × Nat)) : Dev :=
  let i := (l.headD (0, 0)).2
  let e := d.modPort p (Port.readied ((d.port p).readyAfter l) i)
  if inReady i then e.takePeerMask p (inMask i) else e

theorem handshakeFrame_eq (d : Dev) (p : Nat) {l : List (Nat × Nat)} (hl : l ≠ []) : d.handshakeFrame p l =
    if 4 ≤ (d.port p).readyAfter l ∧ ((d.readyTaken p l).port p).sending = false then (d.readyTaken p l).countDown p else d.readyTaken p l := by
  cases l with
  | nil => exact absurd rfl hl
  | cons i l => rfl

theorem readyTaken_keeps (d : Dev) (p : Nat) (l : List (Nat × Nat)) : d.NearPort p (d.readyTaken p l) ∧ (d.readyTaken p l).faults = d.faults ∧
    ((d.readyTaken p l).port p).readyRun = (d.port p).readyAfter l ∧ ((d.readyTaken p l).port p).state = (d.port p).state ∧
    ((d.readyTaken p l).port p).sending = (d.port p).sending := by
  have run : d.NearPort p (d.modPort p (Port.readied ((d.port p).readyAfter l) (l.headD (0, 0)).2)) := nearPort_modPort nearPort_refl _
  have port := port_modPort_same d p (Port.readied ((d.port p).readyAfter l) (l.headD (0, 0)).2)
  obtain ⟨near, faults, same⟩ := takePeerMask_keeps (d.modPort p (Port.readied ((d.port p).readyAfter l) (l.headD (0, 0)).2)) p
    (inMask (l.headD (0, 0)).2)
  rw [port] at same
  unfold Dev.readyTaken
  dsimp only
  split
  · exact ⟨nearPort_trans run near, faults, (congrArg Port.readyRun same :), (congrArg Port.state same :), (congrArg Port.sending same :)⟩
  · rw [port]
    exact ⟨run, rfl, rfl, rfl, rfl⟩

/-- What a training frame does in HANDSHAKE. -/
theorem trainingRx_readies {d : Dev} {p skew : Nat} {l : List (Nat × Nat)} (hfab : d.fabric p = true) (hst : (d.port p).state = .handshake) :
    d.NearPort p (Dev.trainingRx p l skew d) ∧ (Dev.trainingRx p l skew d).faults = d.faults ∧
      ((d.port p).sending = true ∨ (d.port p).readyAfter ((d.port p).infosOf l) < 4 →
        ((Dev.trainingRx p l skew d).port p).readyRun = (d.port p).readyAfter ((d.port p).infosOf l) ∧
          ((Dev.trainingRx p l skew d).port p).state = .handshake) ∧
      ((d.port p).sending = false → 4 ≤ (d.port p).readyAfter ((d.port p).infosOf l) →
        ((Dev.trainingRx p l skew d).port p).sending = true ∨ ((Dev.trainingRx p l skew d).port p).state = .calibrate) := by
  have counted := nearPort_of_atPort (atPort_infosCounted d p l)
  have faults := faults_infosCounted d p l
  have port := port_infosCounted d p l p
  by_cases hnone : (d.port p).infosOf l = []
  · have run : (d.port p).readyAfter ((d.port p).infosOf l) = 0 := by rw [hnone]; rfl
    rw [trainingRx_none hfab hst hnone, run, port_modPort_same]
    refine ⟨nearPort_modPort counted _, faults, fun _ => ⟨rfl, ?_⟩, fun _ h => absurd h (by decide)⟩
    rw [port]
    exact hst
  · rw [trainingRx_handshake hfab hst hnone, handshakeFrame_eq _ p hnone]
    generalize d.infosCounted p l = e at *
    obtain ⟨near, sameFaults, run, state, sending⟩ := readyTaken_keeps e p ((d.port p).infosOf l)
    rw [port] at run state sending ⊢
    rw [sending]
    split
    · next h =>
      obtain ⟨at', downFaults, sends⟩ := countDown_keeps (e.readyTaken p ((d.port p).infosOf l)) p
      exact ⟨nearPort_trans (nearPort_trans counted near) (nearPort_of_atPort at'), downFaults.trans (sameFaults.trans faults),
        fun hc => by obtain hc | hc := hc <;> [simp [h.2] at hc; omega], fun _ _ => sends⟩
    · next h =>
      exact ⟨nearPort_trans counted near, sameFaults.trans faults, fun _ => ⟨run, state.trans hst⟩, fun hs hn => absurd ⟨hn, hs⟩ h⟩

/-! ### The statement -/

theorem head_of_long {α : Type} {n : Nat} {l : List α} (h : n + 1 ≤ l.length) (a : α) : ∃ i, l.head? = some i ∧ l.headD a = i := by
  cases l with
  | nil => exact absurd h (by simp)
  | cons i r => exact ⟨i, rfl, rfl⟩

/-- What the statement says of an event near a port. -/
theorem event_near {s : State} {now p : Nat} {f : Dev → Dev} (h : (s.devAt now).NearPort p (f (s.devAt now))) :
    (∀ q, q ≠ p → (s.event now f).dev.port q = s.dev.port q) ∧ (s.event now f).dev.ctxs = s.dev.ctxs :=
  ⟨fun q hq => by rw [event_port, h.others q hq, port_devAt], by rw [event_dev, noteReady_ctxs, h.ctxs, to_ctxs]⟩

/-- Settles O33: each state of bring-up takes a frame by its own rule; a frame turns on its port alone. -/
theorem bringupFollowsTrainingFrames : Obligations.BringupFollowsTrainingFrames := by
  unfold Obligations.BringupFollowsTrainingFrames
  refine ⟨?_, ?_, ?_, ?_, ?_, ?_, ?_⟩
  · intro p rings now s hup hst hrings
    refine ⟨s.event now (Dev.ringsLocked p rings), rfl, ?_⟩
    rw [← port_devAt s now] at hst
    obtain ⟨fed, faults⟩ := feedGood_keeps (s.devAt now) p rings
    have locked := ringsLocked_enters hup hst hrings
    have at' : (s.devAt now).AtPort p ((s.devAt now).ringsIn p rings) := atPort_modPort fed _
    have entered : (s.devAt now).AtPort p (Dev.ringsLocked p rings (s.devAt now)) := locked ▸ atPort_trans at' (atPort_enterLink _ p .acquire)
    refine ⟨?_, ?_, event_others entered, event_ctxs entered, event_jobs entered, ?_⟩
    · rw [event_port, locked, state_enterLink]
    · rw [event_port, locked, entryTick_enterLink]
      exact congrArg Clock.time (atPort_clock at')
    · rw [event_faults, locked, faults_enterLink]
      exact faults.trans (to_faults _ _)
  · intro p rings now s h
    rw [← port_devAt s now] at h
    exact ⟨s.event now (Dev.ringsLocked p rings), rfl, rest_event_idle (ringsLocked_idle h)⟩
  · intro p skew now n l g s hfab hst hg hn
    refine ⟨s.event now (Dev.trainingRx p l skew), rfl, ?_⟩
    rw [← port_devAt s now] at hst hg hn
    subst hg hn
    have frame := trainingRx_acquire (skew := skew) (l := l) hfab hst
    have counted := atPort_infosCounted (s.devAt now) p l
    have faults := faults_infosCounted (s.devAt now) p l
    have port := port_infosCounted (s.devAt now) p l p
    generalize (s.devAt now).infosCounted p l = e at *
    obtain ⟨at', kept, state, run⟩ := acquireFrame_runs e p ((s.devAt now).port p |>.infosOf l).length
    rw [port, hst] at state
    rw [port] at run
    have at'' : (s.devAt now).AtPort p (Dev.trainingRx p l skew (s.devAt now)) := frame ▸ atPort_trans counted at'
    rw [event_port, event_faults, frame]
    exact ⟨state, run, event_others at'', event_ctxs at'', kept.trans (faults.trans (to_faults _ _))⟩
  · intro p skew now l g s hfab hst hg hlen hmild hnone
    rw [← port_devAt s now] at hst hg
    subst hg
    have frame := trainingRx_identify (skew := skew) hfab hst hlen
    have counted := atPort_infosCounted (s.devAt now) p l
    have faults := faults_infosCounted (s.devAt now) p l
    have none' : ((s.devAt now).infosCounted p l).identifyFault p (((s.devAt now).port p).infosOf l) skew = none := by
      rw [identifyFault_atPort counted]
      exact hnone
    obtain ⟨e, eq, at', port, id, mask⟩ := identify_passes none' (nearPort_mild (nearPort_of_atPort counted) faults hmild)
    have entered : (s.devAt now).AtPort p (Dev.trainingRx p l skew (s.devAt now)) :=
      frame ▸ eq ▸ atPort_trans counted (atPort_trans at' (atPort_enterLink e p .handshake))
    have same := port_enterLink e p .handshake
    obtain ⟨i, hi, first⟩ := head_of_long hlen (0, 0)
    rw [show ((((s.devAt now).port p).infosOf l).headD (0, 0)) = i from first] at port id
    refine ⟨s.event now (Dev.trainingRx p l skew), i, rfl, hi, ?_⟩
    rw [event_port, frame, eq]
    exact ⟨state_enterLink e p _, (congrArg Port.neighbourPort same).trans port, (congrArg Port.neighbourId same).trans id,
      (congrArg Port.rxMask same).trans mask, event_others entered, event_ctxs entered⟩
  · intro p skew now c l g s hfab hst hg hlen hmild hfault
    rw [← port_devAt s now] at hst hg
    subst hg
    have frame := trainingRx_identify (skew := skew) hfab hst hlen
    have counted := atPort_infosCounted (s.devAt now) p l
    have faults := faults_infosCounted (s.devAt now) p l
    have some' : ((s.devAt now).infosCounted p l).identifyFault p (((s.devAt now).port p).infosOf l) skew = some c := by
      rw [identifyFault_atPort counted]
      exact hfault
    rw [identify_fails some'] at frame
    have met := atPort_modPort counted (Port.meets ((((s.devAt now).port p).infosOf l).headD (0, 0)).2)
    have failed := bringupFails_fails (nearPort_mild (nearPort_of_atPort met) faults hmild) p c .fault
    have at' : (s.devAt now).AtPort p (Dev.trainingRx p l skew (s.devAt now)) := frame ▸ atPort_trans met failed.atPort
    refine ⟨s.event now (Dev.trainingRx p l skew), rfl, ?_⟩
    rw [event_port, frame]
    exact ⟨failed.state, failed.cause, event_others at', event_ctxs at'⟩
  · intro p skew now l g s hfab hst hg hlen
    rw [← port_devAt s now] at hst hg
    subst hg
    refine ⟨s.event now (Dev.trainingRx p l skew), rfl, ?_⟩
    rw [event_dev, rest_noteReady, trainingRx_few hfab hst hlen]
    exact rest_countPort _ _ _ _
  · intro p skew now n l g s hfab hst hg hn
    rw [← port_devAt s now] at hst hg hn ⊢
    subst hg hn
    obtain ⟨near, faults, waits, sends⟩ := trainingRx_readies (skew := skew) (l := l) hfab hst
    obtain ⟨others, ctxs⟩ := event_near (f := Dev.trainingRx p l skew) near
    refine ⟨s.event now (Dev.trainingRx p l skew), rfl, ?_⟩
    rw [event_port, event_faults]
    exact ⟨waits, sends, others, ctxs, faults.trans (to_faults _ _)⟩

end Sys2Proof.Machine
end

section
/-! SUPPORT. Records that stay in the ring behind later ones (R364), and the first lane of a direction that fails (R243, R256). -/

namespace Sys2Proof.Machine

/-! ### Records behind the last ones (R364) -/

/-- A record with at most `k` records behind it. -/
def Faults.Recent (f : Faults) (k : Nat) (e : Event) : Prop := ∃ l m, f.ring = l ++ e :: m ∧ m.length ≤ k

theorem recent_mem {f : Faults} {k : Nat} {e : Event} (h : f.Recent k e) : e ∈ f.ring := by
  obtain ⟨l, m, hring, -⟩ := h
  rw [hring]
  simp

/-- The next record drops the oldest of a full ring only (R364). -/
theorem recent_put {f : Faults} {k : Nat} {e : Event} (h : f.Recent k e) (hk : k < 1023) (b : Bytes) (x : Bool) : (f.put b x).Recent (k + 1) e := by
  obtain ⟨l, m, hring, hm⟩ := h
  have length : f.ring.length = l.length + (m.length + 1) := by rw [hring]; simp
  unfold Faults.put Faults.Recent
  dsimp only
  split
  · exact ⟨l, m ++ [{ seq := f.eventSeq, bytes := b, delivered := x }], by rw [hring]; simp, by simp; omega⟩
  · cases l with
    | nil => simp at length; omega
    | cons a l => exact ⟨l, m ++ [{ seq := f.eventSeq, bytes := b, delivered := x }], by rw [hring]; simp, by simp; omega⟩

theorem recent_of_ring {f g : Faults} {k : Nat} {e : Event} (hring : f.ring = g.ring) (h : g.Recent k e) : f.Recent k e := by
  obtain ⟨l, m, hl, hm⟩ := h
  exact ⟨l, m, hring.trans hl, hm⟩

theorem ring_afterRecord (d : Dev) (r : FaultRec) : ∃ b x, (d.writeRecord r).faults.ring = (d.faults.put b x).ring := by
  refine ⟨d.faultBytes r (d.effective r), decide (d.eventSessions (d.effective r) ≠ []), (writeRecord_faults d r).1.trans ?_⟩
  unfold Dev.afterRecord
  dsimp only
  split <;> rfl

theorem recent_writeRecord {d : Dev} {k : Nat} {e : Event} (h : d.faults.Recent k e) (hk : k < 1023) (r : FaultRec) :
    (d.writeRecord r).faults.Recent (k + 1) e := by
  obtain ⟨b, x, ring⟩ := ring_afterRecord d r
  exact recent_of_ring ring (recent_put h hk b x)

/-- A record, with that of the overwriting that its writing may cause, leaves the last records in the ring. -/
theorem mem_recordFault {d : Dev} {k : Nat} {e : Event} (h : d.faults.Recent k e) (hk : k < 1022) (r : FaultRec) :
    e ∈ (d.recordFault r).faults.ring := by
  have once := recent_writeRecord h (by omega) r
  unfold Dev.recordFault
  split
  · exact recent_mem (recent_writeRecord (d := (d.writeRecord r).modFaults (fun f => { f with overwriteRaised := true }))
      (recent_of_ring rfl once) (by omega) _)
  · exact recent_mem once

/-- A fault's record is the last but one at most. -/
theorem recordFault_recent (d : Dev) (r : FaultRec) (h : r.source < 65536) :
    ∃ e, (d.recordFault r).faults.Recent 1 e ∧ recSource e.bytes = r.source := by
  obtain ⟨l, e, hring, -, hbytes⟩ := writeRecord_ring d r
  have last : (d.writeRecord r).faults.Recent 0 e := ⟨l, [], hring, le_refl _⟩
  refine ⟨e, ?_, by rw [hbytes]; exact recSource_faultBytes d r _ h⟩
  unfold Dev.recordFault
  split
  · exact recent_writeRecord (d := (d.writeRecord r).modFaults (fun f => { f with overwriteRaised := true })) (recent_of_ring rfl last) (by omega) _
  · exact ⟨l, [], hring, by decide⟩

/-- A record of another class leaves a source as mild as it was (R361). -/
theorem mild_recordFault {d : Dev} {src : Nat} (h : d.mild src) (r : FaultRec) (hcls : src / 256 ≠ r.cls) (hcls' : src / 256 ≠ 0x0C) :
    (d.recordFault r).mild src := fun q hq => by
  have cls : q.cls = src / 256 := by rw [FaultRec.cls, hq]
  rw [effective_recordFault d (by rw [cls]; exact hcls) (by rw [cls]; exact hcls')]
  exact h q hq

/-! ### The first lane that fails (R243, R256) -/

/-- SPARE_LOST where the lane that failed is S itself. -/
def Dev.spareLost (d : Dev) (p lane : Nat) : Dev := if lane = 8 then d.raiseFault { source := 0x0104, unit := some p } else d

theorem spareLost_keeps {d e : Dev} {p : Nat} (h : d.AtPort p e) (hmild : e.mild 0x0104) (lane : Nat) :
    d.AtPort p (e.spareLost p lane) ∧ (∀ q, (e.spareLost p lane).port q = e.port q) ∧
      (lane = 8 → ∃ x ∈ (e.spareLost p lane).faults.ring, recSource x.bytes = 0x0104) ∧ (lane ≠ 8 → (e.spareLost p lane).faults = e.faults) := by
  obtain ⟨raised, ports, record⟩ := raised_mild (r := { source := 0x0104, unit := some p }) (atPort_refl (d := e) (p := p)) rfl hmild rfl
    (by decide : 0x0104 < 65536)
  unfold Dev.spareLost
  split
  · next h8 => exact ⟨atPort_trans h raised, ports, fun _ => record, fun hn => absurd h8 hn⟩
  · next h8 => exact ⟨h, fun _ => rfl, fun h' => absurd h' h8, fun _ => rfl⟩

theorem record_spareLost {d : Dev} {p lane : Nat} {e : Event} (hmild : d.mild 0x0104) (h : d.faults.Recent 1 e) :
    e ∈ (d.spareLost p lane).faults.ring := by
  unfold Dev.spareLost
  split
  · rw [raiseFault_mild (hmild _ rfl) rfl]
    exact mem_recordFault h (by decide) _
  · exact recent_mem h

/-- A port whose first receive lane has failed: it is retired, and its bit leaves the mask (R243 step 1). -/
def Port.rxRetires (lane : Nat) (x : Port) : Port :=
  { x with retired := x.retired ++ [lane], rxMask := x.rxMask - (if bit x.rxMask lane then 2 ^ lane else 0), corrWindow := tdel x.corrWindow lane,
           rxLanes := if lane = 8 then x.rxLanes - (if bit x.rxLanes 8 then 256 else 0) else x.rxLanes,
           spareChange := x.spareChange || decide (lane ≠ 8) }

/-- A port whose first transmit lane has failed (R243, R256). -/
def Port.txLoses (lane : Nat) (x : Port) : Port := { x with txBad := x.txBad ++ [lane], txChange := x.txChange || decide (lane ≠ 8) }

section
variable {d : Dev} {p lane : Nat}

theorem rxLaneFails_first (h : (d.port p).retired = []) : d.rxLaneFails p lane = (d.modPort p (Port.rxRetires lane)).spareLost p lane := by
  unfold Dev.rxLaneFails
  dsimp only
  rw [h, if_neg (by simp), if_neg (by simp)]
  rfl

theorem rxLaneFails_again (h : (d.port p).retired.contains lane = true) : d.rxLaneFails p lane = d := if_pos h

theorem txLaneFails_first (h : (d.port p).txLost = []) : d.txLaneFails p lane = (d.modPort p (Port.txLoses lane)).spareLost p lane := by
  unfold Dev.txLaneFails
  dsimp only
  rw [h, if_neg (by simp), if_neg (by simp)]
  rfl

theorem txBad_of_txLost {x : Port} (h : x.txLost = []) : x.txBad = [] := (List.append_eq_nil_iff.mp h).1

theorem laneFails_transmit (ht : d.takesFlits p = true) (hl : lane ≤ 8) : Dev.laneFails p true lane d = d.txLaneFails p lane :=
  if_neg (by simp [ht, hl])

theorem laneFails_receive (ht : d.takesFlits p = true) (hl : lane ≤ 8) : Dev.laneFails p false lane d = d.rxLaneFails p lane :=
  if_neg (by simp [ht, hl])

end

/-- A bit taken out of a mask is not in it. -/
theorem bit_without (m i : Nat) : bit (m - (if bit m i then 2 ^ i else 0)) i = false := by
  unfold bit
  split
  · next h =>
    have shifted : (m - 2 ^ i) / 2 ^ i = m / 2 ^ i - 1 := by simpa using Nat.sub_mul_div m (2 ^ i) 1
    rw [Nat.testBit_eq_decide_div_mod_eq, decide_eq_true_eq] at h
    rw [Nat.testBit_eq_decide_div_mod_eq, shifted, decide_eq_false_iff_not]
    omega
  · next h => simpa using h

end Sys2Proof.Machine
end

section
/-! PROOFS. The statement on heater headroom, one missing line and an excess of power (R243, R249, R250, R253, R256). -/

namespace Sys2Proof.Machine

/-! ### Heaters (R249, R250) -/

/-- The port after a measurement of its rings. -/
def Port.measured (t : Table Nat) (low : Bool) (x : Port) : Port :=
  { x with rings := t, warm := min (leastWarm t / 32) 0xFF, cool := min (leastCool t / 32) 0xFF, headroomLow := low }

section
variable {d : Dev} {p : Nat} {powers : List (Nat × Nat)}

theorem heaters_idle (h : d.ownRings p powers = [] ∨ (d.port p).state = .disabled ∨ d.power.heatersOff = true) : Dev.heaters p powers d = d :=
  if_pos (by obtain h | h | h := h <;> simp [h])

theorem heaters_measures (hst : (d.port p).state ≠ .disabled) (hon : d.power.heatersOff = false) (hrings : d.ownRings p powers ≠ []) :
    Dev.heaters p powers d = (d.headroom p powers).ringEnds p powers := if_neg (by simp [hst, hon, hrings])

/-- headroom_low after a measurement. -/
def Dev.lowAfter (d : Dev) (p : Nat) (powers : List (Nat × Nat)) : Bool :=
  headroomNext (d.port p).headroomLow (min (leastWarm (d.ringsAfter p powers)) (leastCool (d.ringsAfter p powers))) (d.headroomWarn p)

theorem headroom_eq : d.headroom p powers =
    if d.lowAfter p powers = (d.port p).headroomLow then d.modPort p (Port.measured (d.ringsAfter p powers) (d.lowAfter p powers))
    else (d.modPort p (Port.measured (d.ringsAfter p powers) (d.lowAfter p powers))).raiseFault (headroomRecord p (d.port p).headroomLow) := rfl

/-- A measurement changes its port, and the record of a change follows (R250). -/
theorem headroom_measures (hmild : d.mild 0x0207) :
    (d.headroom p powers).rest = (d.modPort p (Port.measured (d.ringsAfter p powers) (d.lowAfter p powers))).rest ∧
      (d.lowAfter p powers ≠ (d.port p).headroomLow → ∃ e ∈ (d.headroom p powers).faults.ring, recSource e.bytes = 0x0207) ∧
      (d.lowAfter p powers = (d.port p).headroomLow → (d.headroom p powers).faults = d.faults) ∧
      ∀ src, src / 256 ≠ 2 → src / 256 ≠ 0x0C → d.mild src → (d.headroom p powers).mild src := by
  have measured : d.AtPort p (d.modPort p (Port.measured (d.ringsAfter p powers) (d.lowAfter p powers))) := atPort_modPort atPort_refl _
  have raised := (atPort_raiseFault (r := headroomRecord p (d.port p).headroomLow) measured rfl hmild rfl).1
  have milds : ∀ src, d.mild src → (d.modPort p (Port.measured (d.ringsAfter p powers) (d.lowAfter p powers))).mild src :=
    fun src hm => nearPort_mild (nearPort_of_atPort measured) rfl hm
  rw [headroom_eq, raised]
  split
  · next h => exact ⟨rfl, fun hn => absurd h hn, fun _ => rfl, fun src _ _ => milds src⟩
  · next h =>
    exact ⟨rest_recordFault _ _, fun _ => recordFault_source _ _ (by decide : 0x0207 < 65536), fun hn => absurd hn h,
      fun src hc hc' hm => mild_recordFault (milds src hm) _ (by simpa [headroomRecord, FaultRec.cls] using hc) hc'⟩

/-- headroom_low is set below the limit, cleared 2 K above it, and else as it was (R250). -/
theorem headroomNext_hysteresis (was : Bool) (least warn : Nat) : (least < 32 * warn → headroomNext was least warn = true) ∧
    (32 * (warn + 2) ≤ least → headroomNext was least warn = false) ∧
    (32 * warn ≤ least → least < 32 * (warn + 2) → headroomNext was least warn = was) := by
  unfold headroomNext
  cases was <;> simp <;> omega

theorem ownRings_congr {e : Dev} (himage : e.image = d.image) : e.ownRings p powers = d.ownRings p powers := by
  have mode : e.mode p = d.mode p := by rw [Dev.mode, Dev.mode, Dev.img, Dev.img, himage]
  rw [Dev.ownRings, Dev.ownRings, Dev.ringCount, Dev.ringCount, mode]

/-- A ring of a transmit lane at an end of its range takes its lane with it (R249, R243). -/
theorem heaters_loseLane {lane power : Nat} (hown : d.ownRings p powers = [(lane, power)]) (hend : power = 0 ∨ heaterMax ≤ power) (hlane : lane < 9)
    (htakes : d.takesFlits p = true) (hon : d.power.heatersOff = false) (hlost : (d.port p).txLost = []) (hmild : d.mild 0x0207)
    (hmild' : d.mild 0x0104) : d.AtPort p (Dev.heaters p powers d) ∧ ((Dev.heaters p powers d).port p).txBad = [lane] ∧
      ((Dev.heaters p powers d).port p).state = (d.port p).state := by
  have hst : (d.port p).state ≠ .disabled := fun h => by simp [Dev.takesFlits, h] at htakes
  obtain ⟨rest, -, -, milds⟩ := headroom_measures (powers := powers) hmild
  have measured : d.AtPort p (d.headroom p powers) := atPort_trans (atPort_modPort atPort_refl _) (atPort_of_rest rest)
  have port := (rest_port rest p).trans (port_modPort_same _ p _)
  have own : (d.headroom p powers).ownRings p powers = [(lane, power)] :=
    (ownRings_congr (congrArg Dev.image measured.frame :)).trans hown
  have ends : (d.headroom p powers).ringEnds p powers = Dev.laneFails p true lane (d.headroom p powers) := by
    unfold Dev.ringEnds
    rw [own, List.filter_cons_of_pos (by simpa using hend)]
    simp [hlane, Nat.mod_eq_of_lt hlane]
  have takes : (d.headroom p powers).takesFlits p = true := by
    rw [Dev.takesFlits, atPort_fabric measured, port]
    exact htakes
  rw [heaters_measures hst hon (by simp [hown]), ends, laneFails_transmit takes (by omega), txLaneFails_first (by rw [port]; exact hlost)]
  obtain ⟨lost, ports, -, -⟩ := spareLost_keeps (atPort_modPort measured (Port.txLoses lane)) (milds 0x0104 (by decide) (by decide) hmild') lane
  refine ⟨lost, ?_⟩
  rw [ports, port_modPort_same, port]
  exact ⟨congrArg (· ++ [lane]) (txBad_of_txLost hlost), rfl⟩

end

/-! ### Laser lines (R243, R253, R256) -/

/-- The port once one of its lines is missing. -/
def Port.lineOut (line power : Nat) (x : Port) : Port :=
  { x with lines := x.feedLines - 2 ^ line, feedPower := power % 65536, feedState := if x.feedState = 3 then 0 else x.feedState }

/-- LASER_LINE_MISSING for a port. -/
def lineRecord (p : Nat) : FaultRec := { source := 0x0202, unit := some p }

theorem bit_allLines {line : Nat} (h : line ≤ 8) : bit 511 line = true := by
  interval_cases line <;> rfl

theorem lineMissing_first {d : Dev} {p line : Nat} (power : Nat) (hfab : d.fabric p = true) (hwatched : d.feedWatched p = true) (hline : line ≤ 8)
    (hall : (d.port p).feedLines = 511) (hmild : d.mild 0x0202) : Dev.lineMissing p line power d =
      if (((d.modPort p (Port.lineOut line power)).recordFault (lineRecord p)).takesFlits p) = true then
        ((d.modPort p (Port.lineOut line power)).recordFault (lineRecord p)).txLaneFails p line
      else (d.modPort p (Port.lineOut line power)).recordFault (lineRecord p) := by
  have out : d.AtPort p (d.modPort p (Port.lineOut line power)) := atPort_modPort atPort_refl _
  rw [← (atPort_raiseFault (r := lineRecord p) out rfl hmild rfl).1]
  have watched : ¬ ((!d.fabric p || !d.feedWatched p || decide (8 < line) || !bit (d.port p).feedLines line) = true) := by
    simp [hfab, hwatched, hall, bit_allLines hline, hline]
  exact (if_neg watched).trans (if_neg (by simp [hall]))

/-- What the first missing line leaves. -/
theorem lineMissing_reports {d : Dev} {p line : Nat} (power : Nat) (hfab : d.fabric p = true) (hwatched : d.feedWatched p = true)
    (hline : line ≤ 8) (hall : (d.port p).feedLines = 511) (hlost : (d.port p).txLost = []) (hmild : d.mild 0x0202) (hmild' : d.mild 0x0104) :
    d.AtPort p (Dev.lineMissing p line power d) ∧
      ((Dev.lineMissing p line power d).port p = if d.takesFlits p then ((d.port p).lineOut line power).txLoses line
        else (d.port p).lineOut line power) ∧
      ∃ e ∈ (Dev.lineMissing p line power d).faults.ring, recSource e.bytes = 0x0202 := by
  have missing := lineMissing_first power hfab hwatched hline hall hmild
  have rest := rest_recordFault (d.modPort p (Port.lineOut line power)) (lineRecord p)
  have out : d.AtPort p ((d.modPort p (Port.lineOut line power)).recordFault (lineRecord p)) :=
    atPort_trans (atPort_modPort atPort_refl _) (atPort_of_rest rest)
  have port : ((d.modPort p (Port.lineOut line power)).recordFault (lineRecord p)).port p = (d.port p).lineOut line power :=
    (rest_port rest p).trans (port_modPort_same _ p _)
  have mild : ((d.modPort p (Port.lineOut line power)).recordFault (lineRecord p)).mild 0x0104 :=
    mild_recordFault (nearPort_mild (nearPort_of_atPort (atPort_modPort atPort_refl _)) rfl hmild') _ (by simp [lineRecord, FaultRec.cls]) (by decide)
  obtain ⟨record, recent, source⟩ := recordFault_recent (d.modPort p (Port.lineOut line power)) (lineRecord p) (by decide : 0x0202 < 65536)
  generalize (d.modPort p (Port.lineOut line power)).recordFault (lineRecord p) = e at missing out port mild recent
  have takes : e.takesFlits p = d.takesFlits p := by
    rw [Dev.takesFlits, Dev.takesFlits, atPort_fabric out, port]
    rfl
  rw [missing, takes]
  split
  · rw [txLaneFails_first (by rw [port]; exact hlost)]
    obtain ⟨lost, ports, -, -⟩ := spareLost_keeps (atPort_modPort out (Port.txLoses line)) mild line
    exact ⟨lost, by rw [ports, port_modPort_same, port], record, record_spareLost mild recent, source⟩
  · exact ⟨out, port, record, recent_mem recent, source⟩

/-- Settles O38: a measurement and a line change their port and record one fault each; the lane of a ring at its end, or of the line, fails. -/
theorem headroomAndOneLineAreReported : Obligations.HeadroomAndOneLineAreReported := by
  unfold Obligations.HeadroomAndOneLineAreReported
  refine ⟨⟨?_, ?_, ?_⟩, ?_, ?_⟩
  · intro p now least tx rx powers rings s hp hst hon hrings hends hmild hr hl
    subst hp hr hl
    rw [← port_devAt s now] at hst ⊢
    have measures := heaters_measures hst (by rw [to_power]; exact hon) hrings
    obtain ⟨rest, changed, same, -⟩ := headroom_measures (powers := ringPowers tx rx) hmild
    have inside : ((s.devAt now).headroom p (ringPowers tx rx)).ringEnds p (ringPowers tx rx) = (s.devAt now).headroom p (ringPowers tx rx) := by
      unfold Dev.ringEnds
      rw [ownRings_congr (rest_fields rest).2.2.2.2.1]
      rw [List.filter_eq_nil_iff.mpr]
      · rfl
      · intro e he
        obtain ⟨hlow, hhigh⟩ := hends e he
        simp
        omega
    rw [inside] at measures
    obtain ⟨below, above, between⟩ := headroomNext_hysteresis ((s.devAt now).port p).headroomLow
      (min (leastWarm ((s.devAt now).ringsAfter p (ringPowers tx rx))) (leastCool ((s.devAt now).ringsAfter p (ringPowers tx rx))))
      ((s.devAt now).headroomWarn p)
    refine ⟨s.event now (Dev.heaters p (ringPowers tx rx)), (s.devAt now).lowAfter p (ringPowers tx rx), rfl, ?_, below, above, between, ?_, ?_⟩
    · rw [event_port, measures, rest_port rest, port_modPort_same]
      rfl
    · rw [event_dev, rest_noteReady, measures]
      exact rest
    · rw [event_faults, measures]
      exact ⟨changed, fun h => (same h).trans (to_faults _ _)⟩
  · intro p now lane power tx rx s hown hend hlane htakes hon hlost hmild hmild'
    rw [← port_devAt s now] at hlost ⊢
    obtain ⟨at', bad, state⟩ := heaters_loseLane hown hend hlane htakes (by rw [to_power]; exact hon) hlost hmild hmild'
    refine ⟨s.event now (Dev.heaters p (ringPowers tx rx)), rfl, ?_⟩
    rw [event_port]
    exact ⟨bad, state, event_others at'⟩
  · intro p now tx rx s h
    rw [← port_devAt s now, ← to_power s.dev now] at h
    exact ⟨s.event now (Dev.heaters p (ringPowers tx rx)), rfl, rest_event_idle (heaters_idle h)⟩
  · intro p line power now s hfab hwatched hline hall hlost hmild hmild'
    rw [← port_devAt s now] at hall hlost ⊢
    obtain ⟨at', port, record⟩ := lineMissing_reports power hfab hwatched hline hall hlost hmild hmild'
    refine ⟨s.event now (Dev.lineMissing p line power), rfl, ?_⟩
    rw [event_port, event_faults, port]
    refine ⟨?_, ?_, ?_, ?_, record, event_others at', event_ctxs at'⟩ <;> split
    · exact congrArg (· - 2 ^ line) hall
    · exact congrArg (· - 2 ^ line) hall
    · rfl
    · rfl
    · rfl
    · rfl
    · exact congrArg (· ++ [line]) (txBad_of_txLost hlost)
    · exact txBad_of_txLost hlost
  · intro p power now s hwatched hmild
    have high : Dev.powerHigh p power (s.devAt now) = ((s.devAt now).modPort p (fun x => { x with
        feedPower := (s.devAt now).leastPower p power })).raiseFault { source := 0x0206, unit := some p } := if_pos hwatched
    rw [(atPort_raiseFault (p := p) (atPort_modPort atPort_refl _) rfl hmild rfl).1] at high
    refine ⟨s.event now (Dev.powerHigh p power), rfl, ?_⟩
    rw [event_dev, rest_noteReady, noteReady_faults, high]
    exact ⟨rest_recordFault _ _, recordFault_source _ _ (by decide : 0x0206 < 65536)⟩

end Sys2Proof.Machine
end

section
/-! SUPPORT. What the crossbar, the receiver's packets and the frames that leave touch: parts of the ports, the Keeper's frames that wait, head
samples and reports (R265, R275, R286, R291, R297, R302 to R304, R319). -/

namespace Sys2Proof.Machine

/-! ### What stays -/

/-- A device without its ports, the Keeper's frames that wait, head samples, and what messages, counters and traces touch; the Keeper whole. -/
def Dev.still (d : Dev) : Dev :=
  { d with sent := [], ctrs := [], mirrors := {}, silt := {}, gauge := {}, ports := [], own := [], samples := {} }

/-- What of a port the crossbar and the receiver's packets leave alone: its link, its session with the peer, its feed. -/
def Port.standing (x : Port) : Port :=
  { state := x.state, cause := x.cause, retained := x.retained, rxExpected := x.rxExpected, nakFor := x.nakFor, frameCount := x.frameCount,
    feedState := x.feedState, lines := x.lines, feedPower := x.feedPower }

/-- `e` is `d` but for what packets on their way touch. -/
structure Dev.Crosses (d e : Dev) : Prop where
  still : e.still = d.still
  port : ∀ q, (e.port q).standing = (d.port q).standing

section
variable {d e t : Dev}

theorem crosses_refl (d : Dev) : d.Crosses d := ⟨rfl, fun _ => rfl⟩

theorem crosses_trans (h : d.Crosses e) (h' : e.Crosses t) : d.Crosses t :=
  ⟨h'.still.trans h.still, fun q => (h'.port q).trans (h.port q)⟩

/-- What changes messages, counters and traces alone, and not the Keeper. -/
theorem crosses_of_quiet (hq : e.quiet = d.quiet) (hk : e.keeper = d.keeper) : d.Crosses e where
  still := by
    have quiet := congrArg (fun x : Dev => { x with ports := [], own := [], samples := {}, keeper := d.keeper }) hq
    have whole : e.still = { e.quiet with ports := [], own := [], samples := {}, keeper := d.keeper } := by rw [← hk]; rfl
    exact whole.trans quiet
  port q := congrArg Port.standing (port_of_quiet hq q)

theorem crosses_of_inward (hi : e.inward = d.inward) (hk : e.keeper = d.keeper) (hp : ∀ q, (e.port q).standing = (d.port q).standing) :
    d.Crosses e where
  still := by
    have inward := congrArg (fun x : Dev => { x with samples := {}, keeper := d.keeper }) hi
    have whole : e.still = { e.inward with samples := {}, keeper := d.keeper } := by rw [← hk]; rfl
    exact whole.trans inward
  port := hp

theorem crosses_modPort (d : Dev) (p : Nat) {f : Port → Port} (hf : ∀ x, (f x).standing = x.standing) : d.Crosses (d.modPort p f) :=
  ⟨rfl, port_modPort_view Port.standing (hf _)⟩

theorem crosses_ite {c : Prop} [Decidable c] (h : d.Crosses e) (h' : d.Crosses t) : d.Crosses (if c then e else t) := by
  split
  · exact h
  · exact h'

theorem crosses_foldl {α : Type} (f : Dev → α → Dev) (h : ∀ (d : Dev) a, d.Crosses (f d a)) (l : List α) (d : Dev) : d.Crosses (l.foldl f d) := by
  induction l generalizing d with
  | nil => exact crosses_refl d
  | cons a l ih => exact crosses_trans (h d a) (ih _)

section
variable (h : d.Crosses e)
include h
theorem crosses_ctxs : e.ctxs = d.ctxs := (congrArg Dev.ctxs h.still :)
theorem crosses_jobs : e.jobs = d.jobs := (congrArg Dev.jobs h.still :)
theorem crosses_clock : e.clock = d.clock := (congrArg Dev.clock h.still :)
theorem crosses_faults : e.faults = d.faults := (congrArg Dev.faults h.still :)
theorem crosses_image : e.image = d.image := (congrArg Dev.image h.still :)
theorem crosses_keeper : e.keeper = d.keeper := (congrArg Dev.keeper h.still :)
end
end

/-! ### Frames and counters -/

section
variable (d : Dev)

theorem crosses_send (x : Sent) : d.Crosses (d.send x) := crosses_of_quiet (quiet_send d x) (keeper_send d x)
theorem crosses_count (i n : Nat) : d.Crosses (d.count i n) := crosses_of_quiet (quiet_count d i n) (keeper_count d i n)
theorem crosses_countDev (i n : Nat) : d.Crosses (d.countDev i n) := crosses_count d _ n
theorem crosses_countPort (p i n : Nat) : d.Crosses (d.countPort p i n) := crosses_count d _ n
theorem crosses_countJob (j i n : Nat) : d.Crosses (d.countJob j i n) := crosses_of_quiet (quiet_countJob d j i n) (keeper_countJob d j i n)
theorem crosses_portBytes (a p : Nat) (tx : Bool) (n : Nat) : d.Crosses (d.portBytes a p tx n) :=
  crosses_of_quiet (quiet_portBytes d a p tx n) (keeper_portBytes d a p tx n)
theorem crosses_mirror (x : Bool) (p : Nat) (r : Option Bytes) (b : Bytes) : d.Crosses (d.mirror x p r b) :=
  crosses_of_quiet (quiet_mirror d x p r b) (keeper_mirror d x p r b)
theorem crosses_drainCopies (p : Nat) : d.Crosses (d.drainCopies p) := crosses_of_quiet (quiet_drainCopies d p) (keeper_drainCopies d p)
theorem crosses_sendFrame (p a : Nat) (f : Bytes) : d.Crosses (d.sendFrame p a f) := crosses_trans (crosses_send d _) (crosses_portBytes _ _ _ _ _)

/-! ### Writes of the crossbar (R303, R304) -/

theorem crosses_wrote (p n : Nat) : d.Crosses (d.wrote p n) := crosses_modPort d p (fun _ => by rfl)
theorem crosses_relink (p vc : Nat) (fl : List QFlit) : d.Crosses (d.relink p vc fl) := crosses_modPort d p (fun _ => by rfl)
theorem crosses_enqueue (p vc : Nat) (fl : List QFlit) : d.Crosses (d.enqueue p vc fl) :=
  crosses_trans (crosses_relink d p vc fl) (crosses_countDev _ _ _)

theorem crosses_feedTo (p : Nat) : d.Crosses (d.feedTo p) := by
  unfold Dev.feedTo
  dsimp only
  split
  · exact crosses_refl d
  · refine crosses_trans ?_ (crosses_modPort _ p (fun _ => by rfl))
    exact crosses_trans (crosses_foldl _ (fun e (f : Nat × QFlit) => crosses_enqueue e p f.1 [f.2]) _ d) (crosses_wrote _ p _)

theorem crosses_moveOwn : d.Crosses d.moveOwn :=
  crosses_of_inward (inward_moveOwn d) (keeper_moveOwn d) (fun q => (congrArg Port.standing (steady_moveOwn d q) :))

/-! ### Crossing (R275, R286, R297, R304) -/

theorem crosses_returnCredit (p v n : Nat) : d.Crosses (d.returnCredit p v n) :=
  crosses_ite (crosses_refl d) (crosses_modPort d p (fun _ => by rfl))

theorem crosses_ethOut (out v : Nat) (b : Bytes) : d.Crosses (d.ethOut out v b) :=
  crosses_ite (crosses_trans (crosses_mirror d _ _ _ _) (crosses_sendFrame _ _ _ _)) (crosses_trans (crosses_mirror d _ _ _ _) (crosses_sendFrame _ _ _ _))

theorem crosses_endOut (out v : Nat) (bad : Bool) : d.Crosses (d.endOut out v bad) := by
  refine crosses_trans (crosses_modPort d out (f := fun x => { x with holder := tdel x.holder v, building := tdel x.building v }) (fun _ => by rfl)) ?_
  unfold Dev.endOut
  dsimp only
  generalize d.modPort out (fun x => { x with holder := tdel x.holder v, building := tdel x.building v }) = e
  split
  · exact crosses_trans (crosses_ite (crosses_refl e) (crosses_ethOut e out v _)) (crosses_drainCopies _ out)
  · exact crosses_trans (crosses_send e _) (crosses_ite (crosses_refl _) (crosses_mirror _ _ _ _ _))

theorem crosses_flitGone (p v : Nat) (f : QFlit) : d.Crosses (d.flitGone p v f) := crosses_ite (crosses_refl d) (crosses_returnCredit d p v 1)

theorem crosses_writeOut (p v out w : Nat) (f : QFlit) : d.Crosses (d.writeOut p v out w f) := by
  have linked : d.Crosses (if d.ethernet out then d.countDev 0x103 64 else d.relink out w [f]) :=
    crosses_ite (crosses_countDev d _ _) (crosses_relink d out w [f])
  unfold Dev.writeOut
  dsimp only
  generalize (if d.ethernet out then d.countDev 0x103 64 else d.relink out w [f]) = e at *
  have gone : d.Crosses (((e.modPort out (fun x => { x with building := tmod [] x.building w (· ++ f.data) })).wrote out 1).flitGone p v f) :=
    crosses_trans (crosses_trans (crosses_trans linked (crosses_modPort e out (fun _ => by rfl))) (crosses_wrote _ out 1)) (crosses_flitGone _ p v f)
  exact crosses_ite (crosses_trans gone (crosses_endOut _ out w _)) gone

theorem crosses_crossOne (out : Nat) (h : Nat × Nat) : d.Crosses (d.crossOne out h) := by
  unfold Dev.crossOne
  dsimp only
  split
  · exact crosses_refl d
  · exact crosses_trans (crosses_trans (crosses_modPort d _ (fun _ => by rfl)) (crosses_modPort _ out (fun _ => by rfl))) (crosses_writeOut _ _ _ _ _ _)

theorem crosses_crossMany (n out : Nat) : d.Crosses (Dev.crossMany n out d) := by
  induction n generalizing d with
  | zero => exact crosses_refl d
  | succ n ih =>
    unfold Dev.crossMany
    split
    · exact crosses_trans (crosses_crossOne d out _) (ih _)
    · exact crosses_refl d

theorem crosses_pullTo (out : Nat) : d.Crosses (d.pullTo out) :=
  crosses_trans (crosses_trans (crosses_feedTo d out) (crosses_moveOwn _)) (crosses_crossMany _ _ out)

theorem crosses_cross (p v : Nat) (f : QFlit) : d.Crosses (d.cross p v f) := by
  unfold Dev.cross
  split
  · exact crosses_flitGone d p v f
  · exact crosses_trans (crosses_modPort d p (fun _ => by rfl)) (crosses_pullTo _ _)

/-! ### Waiting heads (R286, R291, R319) -/

theorem crosses_sampleHead (i o v path queued : Nat) (x : Bool) (h : Bytes) : d.Crosses (d.sampleHead i o v path queued x h) := by
  unfold Dev.sampleHead
  dsimp only
  split
  · exact crosses_trans (crosses_countDev d 0x105 1) ⟨rfl, fun _ => rfl⟩
  · exact ⟨rfl, fun _ => rfl⟩

theorem crosses_refair (w : Waiting) : d.Crosses (d.refair w) :=
  crosses_ite (crosses_refl d) (crosses_foldl _ (fun e p => crosses_modPort e p (fun _ => by rfl)) _ d)

theorem crosses_addWait (p : Nat) (w : Waiting) : d.Crosses (d.addWait p w) :=
  crosses_trans (crosses_modPort d p (fun _ => by rfl)) (crosses_refair _ w)

theorem crosses_dropWait (p : Nat) (w : Waiting) : d.Crosses (d.dropWait p w) := by
  have dropped : d.Crosses ((d.modWait p w (fun _ => none)).refair w) := crosses_trans (crosses_modPort d p (fun _ => by rfl)) (crosses_refair _ w)
  exact crosses_ite (crosses_trans dropped (crosses_sampleHead _ _ _ _ _ _ _ _)) dropped

theorem crosses_flitBytes (p vc : Nat) (tx : Bool) (ftype : Nat) (data : Bytes) : d.Crosses (d.flitBytes p vc tx ftype data) :=
  crosses_trans (crosses_ite (crosses_modPort d p (fun _ => by rfl)) (crosses_refl d)) (crosses_portBytes _ _ p tx 64)

end

end Sys2Proof.Machine
end

section
/-! SUPPORT. A link frame that goes out: its header, and what filling its slots leaves (R229, R230, R261, R267, R269, R272, R374). -/

namespace Sys2Proof.Machine

/-! ### Filling the slots -/

/-- `e` is `d` but for what filling a frame's slots touches: no link changes its state or the number of its frames. -/
structure Dev.Fills (d e : Dev) : Prop where
  still : e.still = d.still
  port : ∀ q, (e.port q).state = (d.port q).state ∧ (e.port q).frameCount = (d.port q).frameCount

section
variable {d e t : Dev}

theorem fills_of_crosses (h : d.Crosses e) : d.Fills e :=
  ⟨h.still, fun q => ⟨(congrArg Port.state (h.port q) :), (congrArg Port.frameCount (h.port q) :)⟩⟩

theorem fills_refl (d : Dev) : d.Fills d := fills_of_crosses (crosses_refl d)

theorem fills_trans (h : d.Fills e) (h' : e.Fills t) : d.Fills t :=
  ⟨h'.still.trans h.still, fun q => ⟨(h'.port q).1.trans (h.port q).1, (h'.port q).2.trans (h.port q).2⟩⟩

theorem fills_modPort (d : Dev) (p : Nat) {f : Port → Port} (hs : ∀ x, (f x).state = x.state) (hc : ∀ x, (f x).frameCount = x.frameCount) :
    d.Fills (d.modPort p f) :=
  ⟨rfl, fun q => ⟨port_modPort_view Port.state (hs _) q, port_modPort_view Port.frameCount (hc _) q⟩⟩

theorem fills_ite {c : Prop} [Decidable c] (h : d.Fills e) (h' : d.Fills t) : d.Fills (if c then e else t) := by
  split
  · exact h
  · exact h'

theorem fills_foldl {α : Type} (f : Dev → α → Dev) (h : ∀ (d : Dev) a, d.Fills (f d a)) (l : List α) (d : Dev) : d.Fills (l.foldl f d) := by
  induction l generalizing d with
  | nil => exact fills_refl d
  | cons a l ih => exact fills_trans (h d a) (ih _)

end

section
variable (d : Dev) (p : Nat)

theorem fills_sendCtrl : d.Fills (d.sendCtrl p).1 := fills_modPort d p (fun _ => by rfl) (fun _ => by rfl)

theorem fills_resend (r : Retained) : d.Fills (d.resend p r).1 :=
  fills_trans (fills_of_crosses (crosses_trans (crosses_countPort d p 0x02 1) (crosses_countDev _ 0x103 64)))
    (fills_modPort _ p (fun _ => by rfl) (fun _ => by rfl))

theorem fills_sendFlit (v : Nat) (f : QFlit) : d.Fills (d.sendFlit p v f).1 :=
  fills_trans (fills_modPort d p (fun _ => by rfl) (fun _ => by rfl))
    (fills_of_crosses (crosses_trans (crosses_countDev _ 0x103 64) (crosses_flitBytes _ p v true f.ftype f.data)))

theorem fills_dropStaleCells (v : Nat) : d.Fills (d.dropStaleCells p v) :=
  fills_ite (fills_of_crosses (crosses_trans (crosses_countDev d 0x106 _) (crosses_modPort _ p (fun _ => by rfl)))) (fills_refl d)

theorem fills_serveVc (v : Nat) : d.Fills (d.serveVc p v) := fills_ite (fills_modPort d p (fun _ => by rfl) (fun _ => by rfl)) (fills_refl d)

/-- The slot that carries no data flit: a CTRL flit that is due, or IDLE (R267 items 7 and 8). -/
def Dev.restSlot (d : Dev) (p : Nat) : Dev × Bytes := if (d.port p).ctrlDue.isSome then d.sendCtrl p else (d, idleSlot)

theorem fills_restSlot : d.Fills (d.restSlot p).1 := by
  unfold Dev.restSlot
  split
  · exact fills_sendCtrl d p
  · exact fills_refl d

/-- A slot with a new flit, once stale cells are gone. -/
def Dev.freshSlot (d : Dev) (p : Nat) : Dev × Bytes :=
  if d.replayLimit p ≤ (d.port p).retained.length then d.restSlot p
  else match d.nextVc p with
    | none => d.restSlot p
    | some v => match (d.port p).front v with
      | none => d.restSlot p
      | some f => (d.serveVc p v).sendFlit p v f

theorem fills_freshSlot : d.Fills (d.freshSlot p).1 := by
  unfold Dev.freshSlot
  split
  · exact fills_restSlot d p
  · split
    · exact fills_restSlot d p
    · split
      · exact fills_restSlot d p
      · exact fills_trans (fills_serveVc d p _) (fills_sendFlit _ p _ _)

theorem fills_newSlot : d.Fills (d.newSlot p).1 := by
  have cleared := fills_foldl _ (fun e v => fills_dropStaleCells e p v) (List.range 8) d
  unfold Dev.newSlot
  dsimp only
  generalize (List.range 8).foldl (fun d v => d.dropStaleCells p v) d = e at *
  exact fills_trans cleared (fills_freshSlot e p)

theorem fills_fillSlot : d.Fills (d.fillSlot p).1 := by
  unfold Dev.fillSlot
  split
  · exact fills_refl d
  · split
    · exact fills_sendCtrl d p
    · split
      · exact fills_resend d p _
      · exact fills_newSlot d p

theorem fills_fillFrame : d.Fills (d.fillFrame p).1 := by
  have filled : ∀ (l : List Nat) (a : Dev × Bytes),
      a.1.Fills (l.foldl (fun (a : Dev × Bytes) _ => ((a.1.fillSlot p).1, a.2 ++ (a.1.fillSlot p).2)) a).1 := by
    intro l
    induction l with
    | nil => exact fun a => fills_refl a.1
    | cons _ l ih => exact fun a => fills_trans (fills_fillSlot a.1 p) (ih ((a.1.fillSlot p).1, a.2 ++ (a.1.fillSlot p).2))
  exact filled _ (d, [])

/-- The device and the slots of the frame that it sends. -/
def Dev.frameFilled (d : Dev) (p : Nat) : Dev × Bytes := ((d.pullTo p).wakeVcs p).fillFrame p

theorem fills_frameFilled : d.Fills (d.frameFilled p).1 :=
  fills_trans (fills_trans (fills_of_crosses (crosses_pullTo d p)) (fills_modPort _ p (fun _ => by rfl) (fun _ => by rfl))) (fills_fillFrame _ p)

end

/-! ### The header (R230) -/

section
variable (d : Dev) (p sleep wake : Nat)

/-- The header before its checksum. -/
def Dev.headerBody : Bytes :=
  leBytes 2 0xC3A5 ++ leBytes 1 1 ++ leBytes 1 (pack [(0, b2n ((d.port p).state != .up)), (1, b2n (decide ((d.port p).txSpareFor < 8)))]) ++
    leBytes 1 (if (d.port p).txSpareFor < 8 then (d.port p).txSpareFor else 0xFF) ++ leBytes 1 sleep ++ leBytes 2 (d.port p).rxMask ++
    leBytes 8 (if sleep = 0 then 2 ^ 64 - 1 else wake) ++ leBytes 8 (d.port p).frameCount ++ leBytes 12 0

theorem frameHeader_eq : d.frameHeader p sleep wake = d.headerBody p sleep wake ++ leBytes 4 (crc32c (d.headerBody p sleep wake)) := rfl

theorem length_headerBody : (d.headerBody p sleep wake).length = 36 := by simp [Dev.headerBody]

/-- A frame's first bytes, whatever follows them. -/
theorem fields_frameHeader (r : Bytes) :
    fld (d.frameHeader p sleep wake ++ r) 0 2 = 0xC3A5 ∧ u8 (d.frameHeader p sleep wake ++ r) 5 = sleep % 256 ∧
      fld (d.frameHeader p sleep wake ++ r) 8 8 = (if sleep = 0 then 2 ^ 64 - 1 else wake) % 2 ^ 64 ∧
      fld (d.frameHeader p sleep wake ++ r) 16 8 = (d.port p).frameCount % 2 ^ 64 := by
  rw [frameHeader_eq, Dev.headerBody]
  simp [u8, fld_append_behind, fld_leBytes_append]

/-- A field behind bytes of known length. -/
theorem fld_behind {b : Bytes} {m : Nat} (h : b.length = m) (r : Bytes) (n : Nat) : fld (b ++ r) m n = fld r 0 n := by
  rw [fld, fld, slice, slice, ← h, List.drop_left, List.drop_zero]

theorem bitRev_lt (n v : Nat) : bitRev n v < 2 ^ n := by
  have upTo : ∀ k ≤ n, (List.range k).foldl (fun a i => a + b2n (bit v i) * 2 ^ (n - 1 - i)) 0 + 2 ^ (n - k) ≤ 2 ^ n := by
    intro k hk
    induction k with
    | zero => simp
    | succ k ih =>
      have half : 2 ^ (n - k) = 2 ^ (n - (k + 1)) + 2 ^ (n - (k + 1)) := by rw [← two_mul, ← pow_succ', show n - (k + 1) + 1 = n - k by omega]
      have one : b2n (bit v k) ≤ 1 := by cases bit v k <;> decide
      have term := Nat.mul_le_mul_right (2 ^ (n - (k + 1))) one
      rw [List.range_succ, List.foldl_append, List.foldl_cons, List.foldl_nil, show n - 1 - k = n - (k + 1) by omega]
      have before := ih (by omega)
      omega
  have all := upTo n le_rfl
  have pos : 0 < 2 ^ (n - n) := by positivity
  unfold bitRev
  omega

theorem crc32c_lt (b : Bytes) : crc32c b < 2 ^ 32 := Nat.xor_lt_two_pow (bitRev_lt 32 _) (by decide)

/-- A frame's header checksum is right (R230). -/
theorem checksum_frameHeader (r : Bytes) :
    fld (d.frameHeader p sleep wake ++ r) 36 4 = crc32c ((d.frameHeader p sleep wake ++ r).take 36) := by
  have length := length_headerBody d p sleep wake
  rw [frameHeader_eq, List.append_assoc, fld_behind length, fld_leBytes_append, Nat.mod_eq_of_lt (show _ < 256 ^ 4 from crc32c_lt _),
    ← length, List.take_left]

end

/-! ### The frame (R229) -/

/-- The port once a frame has gone out on these lanes. -/
def Port.framed (lanes : List (Nat × List Nat)) (x : Port) : Port :=
  { x with frameCount := (x.frameCount + 1) % 2 ^ 64, precoder := lanes.map (fun l => (l.1, l.2.getLastD 0)),
           txChange := x.txChange && decide (8 ≤ x.txSpareFor) }

/-- What a frame that goes out leaves: the frame among what has been sent, and its number in the port. -/
structure Dev.FrameSent (p sleep wake : Nat) (d e : Dev) : Prop where
  still : e.still = d.still
  state : ∀ q, (e.port q).state = (d.port q).state
  count : (e.port p).frameCount = ((d.port p).frameCount + 1) % 2 ^ 64
  frame : d.darkPort p = false → ∃ b l, Sent.frame p b l ∈ e.sent ∧ fld b 0 2 = 0xC3A5 ∧ u8 b 5 = sleep % 256 ∧
    fld b 8 8 = (if sleep = 0 then 2 ^ 64 - 1 else wake) % 2 ^ 64 ∧ fld b 16 8 = (d.port p).frameCount % 2 ^ 64 ∧ fld b 36 4 = crc32c (b.take 36)

theorem sendLinkFrame_eq (d : Dev) (p sleep wake : Nat) : ∃ lanes l, d.sendLinkFrame p sleep wake =
    ((d.frameFilled p).1.send (.frame p ((d.frameFilled p).1.frameHeader p sleep wake ++ (d.frameFilled p).2) l)).modPort p (Port.framed lanes) := by
  unfold Dev.sendLinkFrame Dev.frameFilled
  generalize ((d.pullTo p).wakeVcs p).fillFrame p = z
  obtain ⟨e, slots⟩ := z
  exact ⟨_, _, rfl⟩

theorem sent_send {d : Dev} {x : Sent} (h : x.fibre.any d.darkPort = false) : (d.send x).sent = d.sent ++ [x] := by
  rw [Dev.send, if_neg (by simp [h])]

theorem frameSent_sendLinkFrame (d : Dev) (p sleep wake : Nat) : d.FrameSent p sleep wake (d.sendLinkFrame p sleep wake) := by
  obtain ⟨lanes, l, eq⟩ := sendLinkFrame_eq d p sleep wake
  have filled := fills_frameFilled d p
  rw [eq]
  generalize (d.frameFilled p).1 = e at *
  generalize (d.frameFilled p).2 = slots at *
  have sent := crosses_send e (.frame p (e.frameHeader p sleep wake ++ slots) l)
  have framed : ∀ q, ((e.send (.frame p (e.frameHeader p sleep wake ++ slots) l)).port q) = e.port q := fun q => rest_port (rest_send e _) q
  refine ⟨(sent.still.trans filled.still :), fun q => ?_, ?_, fun hlit => ?_⟩
  · rw [port_modPort_view Port.state (by rfl), framed, (filled.port q).1]
  · rw [port_modPort_same, framed]
    exact congrArg (fun n => (n + 1) % 2 ^ 64) (filled.port p).2
  · have lit : e.darkPort p = false := (congrArg (fun x : Dev => x.darkPort p) filled.still :).trans hlit
    obtain ⟨sync, level, tick, number⟩ := fields_frameHeader e p sleep wake slots
    refine ⟨e.frameHeader p sleep wake ++ slots, l, ?_, sync, level, tick, ?_, checksum_frameHeader e p sleep wake slots⟩
    · have mem := sent_send (d := e) (x := .frame p (e.frameHeader p sleep wake ++ slots) l) (by simpa [Sent.fibre] using lit)
      exact (show _ ∈ (e.send (.frame p (e.frameHeader p sleep wake ++ slots) l)).sent by rw [mem]; simp)
    · rw [number, (filled.port p).2]

end Sys2Proof.Machine
end

section
/-! PROOFS. The statement on the first bad lane and on sleep (R243, R245, R246, R256). -/

namespace Sys2Proof.Machine

/-! ### A lane that S carries already, and lanes of a port that takes no flits (R243) -/

/-- The port with a transmit lane noted among the bad ones. -/
def Port.txNoted (lane : Nat) (x : Port) : Port := { x with txBad := if x.txBad.contains lane then x.txBad else x.txBad ++ [lane] }

theorem txLaneFails_carried {d : Dev} {p lane : Nat} (h : (d.port p).txLost.contains lane = true) :
    d.txLaneFails p lane = d.modPort p (Port.txNoted lane) := if_pos h

theorem txNoted_contains (lane : Nat) (x : Port) : (x.txNoted lane).txBad.contains lane = true := by
  unfold Port.txNoted
  dsimp only
  split
  · assumption
  · simp

theorem laneFails_idle {d : Dev} {p lane : Nat} {b : Bool} (h : d.takesFlits p = false ∨ 8 < lane ∨ b = false ∧ (d.port p).retired.contains lane = true) :
    Dev.laneFails p b lane d = d := by
  unfold Dev.laneFails
  split
  · rfl
  · next hin =>
    simp only [Bool.or_eq_true, Bool.not_eq_true', decide_eq_true_eq, not_or] at hin
    obtain h | h | ⟨rfl, h⟩ := h
    · exact absurd h hin.1
    · exact absurd h hin.2
    · exact rxLaneFails_again h

/-! ### Sleep begins and ends (R245, R246) -/

/-- A port that sleeps. -/
def Port.asleep (level wake since : Nat) (x : Port) : Port := { x with txSleep := level, wakeTick := wake, sleepSince := since }

section
variable {d : Dev} {p level wake : Nat}

theorem sleep_enters (hfab : d.fabric p = true) (hup : d.up p = true) (hawake : (d.port p).txSleep = 0)
    (hmay : d.maySleep p level (d.tick + 64) wake = true) : Dev.sleep p level wake d =
      if level = 1 then ((d.sendLinkFrame p level wake).modPort p (Port.asleep level wake (d.tick + 64))).send (.quiet p 0 [3, -3])
      else (d.sendLinkFrame p level wake).modPort p (Port.asleep level wake (d.tick + 64)) :=
  if_pos (by simp [hfab, hup, hawake, hmay])

theorem sleep_stays (h : d.maySleep p level (d.tick + 64) wake = false ∨ d.fabric p = false ∨ d.up p = false ∨ (d.port p).txSleep ≠ 0) :
    Dev.sleep p level wake d = d :=
  if_neg (by obtain h | h | h | h := h <;> simp [h])

theorem level_of_maySleep {a b : Nat} (h : d.maySleep p level a b = true) : level = 1 ∨ level = 2 := by
  simp only [Dev.maySleep, Bool.and_eq_true, decide_eq_true_eq] at h
  tauto

theorem port_send (d : Dev) (x : Sent) (q : Nat) : (d.send x).port q = d.port q := rest_port (rest_send d x) q

/-- What going to sleep leaves: the port asleep, the frame that announces it, and in S1 lane 0's levels (R245, R246). -/
theorem sleep_announces (hfab : d.fabric p = true) (hup : d.up p = true) (hawake : (d.port p).txSleep = 0)
    (hmay : d.maySleep p level (d.tick + 64) wake = true) : (Dev.sleep p level wake d).still = d.still ∧
      (∀ q, ((Dev.sleep p level wake d).port q).state = (d.port q).state) ∧
      ((Dev.sleep p level wake d).port p).txSleep = level ∧ ((Dev.sleep p level wake d).port p).wakeTick = wake ∧
      ((Dev.sleep p level wake d).port p).sleepSince = d.tick + 64 ∧
      (d.darkPort p = false → ∃ b l, Sent.frame p b l ∈ (Dev.sleep p level wake d).sent ∧ fld b 0 2 = 0xC3A5 ∧ u8 b 5 = level ∧
        fld b 8 8 = wake % 2 ^ 64) ∧
      (level = 1 → d.darkPort p = false → Sent.quiet p 0 [3, -3] ∈ (Dev.sleep p level wake d).sent) := by
  have sent := frameSent_sendLinkFrame d p level wake
  rw [sleep_enters hfab hup hawake hmay]
  generalize d.sendLinkFrame p level wake = e at *
  have asleep : ∀ q, ((e.modPort p (Port.asleep level wake (d.tick + 64))).port q).state = (d.port q).state := fun q =>
    (port_modPort_view Port.state (by rfl) q).trans (sent.state q)
  have port := port_modPort_same e p (Port.asleep level wake (d.tick + 64))
  have announced : d.darkPort p = false → ∃ b l, Sent.frame p b l ∈ e.sent ∧ fld b 0 2 = 0xC3A5 ∧ u8 b 5 = level ∧ fld b 8 8 = wake % 2 ^ 64 := by
    intro hlit
    obtain ⟨b, l, mem, sync, lvl, tick, -⟩ := sent.frame hlit
    refine ⟨b, l, mem, sync, ?_, ?_⟩ <;> obtain h | h := level_of_maySleep hmay <;> subst h
    · exact lvl
    · exact lvl
    · exact tick
    · exact tick
  split
  · refine ⟨(crosses_send (e.modPort p (Port.asleep level wake (d.tick + 64))) _).still.trans sent.still,
      fun q => ?_, ?_, ?_, ?_, fun hlit => ?_, fun _ hlit => ?_⟩
    · rw [port_send, asleep]
    · rw [port_send, port]; rfl
    · rw [port_send, port]; rfl
    · rw [port_send, port]; rfl
    · obtain ⟨b, l, mem, rest⟩ := announced hlit
      exact ⟨b, l, sentBy_send _ _ _ mem, rest⟩
    · have lit : (e.modPort p (Port.asleep level wake (d.tick + 64))).darkPort p = false :=
        (congrArg (fun x : Dev => x.darkPort p) sent.still :).trans hlit
      rw [sent_send (by simpa [Sent.fibre] using lit)]
      simp
  · next hlevel =>
    refine ⟨sent.still, asleep, ?_, ?_, ?_, announced, fun h => absurd h hlevel⟩
    · rw [port]; rfl
    · rw [port]; rfl
    · rw [port]; rfl

end

theorem exitTraining_keeps (d : Dev) (p : Nat) : d.AtPort p (d.exitTraining p) ∧ ((d.exitTraining p).port p).untrained = (d.port p).untrained := by
  unfold Dev.exitTraining forN
  generalize List.range _ = l
  induction l generalizing d with
  | nil => exact ⟨atPort_refl, rfl⟩
  | cons i l ih =>
    obtain ⟨at', port⟩ := ih (d.sendTraining p 1 0)
    exact ⟨atPort_trans (atPort_sendTraining d p 1 0) at', port.trans (port_sendTraining d p 1 0)⟩

/-- A port that is awake again. -/
def Port.awake (x : Port) : Port := { x with txSleep := 0, wakeTick := 0, precoder := [], trainTime := none }

/-- The end of a direction's sleep counts its ticks and wakes its port (R438). -/
theorem endSleep_wakes (d : Dev) (p : Nat) : d.AtPort p (d.endSleep p) ∧ (d.endSleep p).port p = (d.port p).awake := by
  unfold Dev.endSleep
  dsimp only
  have counted : ∀ i n, (d.countPort p i n).port p = d.port p := fun i n => rest_port (rest_countPort d p i n) p
  split
  · exact ⟨atPort_modPort (atPort_of_rest (rest_countPort _ _ _ _)) _, by rw [port_modPort_same, counted]; rfl⟩
  · split
    · exact ⟨atPort_modPort (atPort_of_rest (rest_countPort _ _ _ _)) _, by rw [port_modPort_same, counted]; rfl⟩
    · exact ⟨atPort_modPort atPort_refl _, by rw [port_modPort_same]; rfl⟩

/-- The exit training and the end of a direction's sleep turn on its port, and its link stays as it is. -/
theorem sleepOver (d : Dev) (p : Nat) : d.AtPort p ((d.exitTraining p).endSleep p) ∧ ((d.exitTraining p).endSleep p).faults = d.faults ∧
    (((d.exitTraining p).endSleep p).port p).txSleep = 0 ∧ (((d.exitTraining p).endSleep p).port p).state = (d.port p).state := by
  have faults := (inward_fields ((inward_endSleep (d.exitTraining p) p).trans (inward_exitTraining d p))).2.2
  obtain ⟨trained, port⟩ := exitTraining_keeps d p
  obtain ⟨ended, awake⟩ := endSleep_wakes (d.exitTraining p) p
  rw [awake]
  exact ⟨atPort_trans trained ended, faults, rfl, (congrArg Port.state port :)⟩

/-- Settles O37: the first lane of a direction is retired or noted at its port; the last frame before sleep announces it. -/
theorem lanesAreSparedAndSleep : Obligations.LanesAreSparedAndSleep := by
  unfold Obligations.LanesAreSparedAndSleep
  refine ⟨⟨?_, ?_, ?_, ?_⟩, ?_, ?_, ?_, ?_⟩
  · intro p lane now r s htakes hlane hretired hmild
    rw [← port_devAt s now] at hretired ⊢
    have eq := (laneFails_receive htakes hlane).trans (rxLaneFails_first hretired)
    obtain ⟨at', ports, lost, kept⟩ := spareLost_keeps (atPort_modPort atPort_refl (Port.rxRetires lane))
      (nearPort_mild (nearPort_of_atPort (atPort_modPort atPort_refl (Port.rxRetires lane))) rfl hmild) lane
    rw [← eq] at at' lost kept
    refine ⟨s.event now (Dev.laneFails p false lane), rfl, ?_⟩
    rw [event_port, event_faults, eq, ports, port_modPort_same, ← eq]
    exact ⟨congrArg (· ++ [lane]) hretired, bit_without _ _, rfl, event_others at', event_ctxs at', lost, fun h => (kept h).trans (to_faults _ _)⟩
  · intro p lane now r s htakes hlane hlost hmild
    rw [← port_devAt s now] at hlost ⊢
    have eq := (laneFails_transmit htakes hlane).trans (txLaneFails_first hlost)
    obtain ⟨at', ports, lost, kept⟩ := spareLost_keeps (atPort_modPort atPort_refl (Port.txLoses lane))
      (nearPort_mild (nearPort_of_atPort (atPort_modPort atPort_refl (Port.txLoses lane))) rfl hmild) lane
    rw [← eq] at at' lost kept
    refine ⟨s.event now (Dev.laneFails p true lane), rfl, ?_⟩
    rw [event_port, event_faults, eq, ports, port_modPort_same, ← eq]
    exact ⟨congrArg (· ++ [lane]) (txBad_of_txLost hlost), rfl, event_others at', event_ctxs at', lost, fun h => (kept h).trans (to_faults _ _)⟩
  · intro p lane now r s htakes hlane hlost
    rw [← port_devAt s now] at hlost ⊢
    have eq := (laneFails_transmit htakes hlane).trans (txLaneFails_carried hlost)
    have at' : (s.devAt now).AtPort p (Dev.laneFails p true lane (s.devAt now)) := eq ▸ atPort_modPort atPort_refl _
    refine ⟨s.event now (Dev.laneFails p true lane), rfl, ?_⟩
    rw [event_port, event_faults, eq, port_modPort_same]
    exact ⟨txNoted_contains lane _, rfl, event_others at', to_faults _ _⟩
  · intro p lane now b r s h
    rw [← port_devAt s now] at h
    exact ⟨s.event now (Dev.laneFails p b lane), rfl, rest_event_idle (laneFails_idle h)⟩
  · intro p level wake now s hfab hup hawake hmay
    rw [← port_devAt s now] at hawake
    rw [← up_devAt s now] at hup
    obtain ⟨still, states, asleep, tick, since, announced, levels⟩ := sleep_announces hfab hup hawake hmay
    refine ⟨s.event now (Dev.sleep p level wake), rfl, ?_⟩
    rw [event_port, event_sent, event_faults, ← darkPort_devAt s now]
    refine ⟨asleep, tick, since, ?_, ?_, ?_, fun q _ => ?_, announced, levels⟩
    · rw [states]
      simpa [Dev.up] using hup
    · rw [event_dev, noteReady_ctxs]
      exact (congrArg Dev.ctxs still :).trans (to_ctxs _ _)
    · exact (congrArg Dev.faults still :).trans (to_faults _ _)
    · rw [event_port, states, port_devAt]
  · intro p level wake now s h
    rw [← port_devAt s now, ← up_devAt s now] at h
    exact ⟨s.event now (Dev.sleep p level wake), rfl, rest_event_idle (sleep_stays h)⟩
  · intro p now s hasleep htick
    rw [← port_devAt s now] at hasleep htick ⊢
    have eq : Dev.sleepEnds p (s.devAt now) = ((s.devAt now).exitTraining p).endSleep p := if_pos ⟨hasleep, htick⟩
    obtain ⟨at', faults, awake, state⟩ := sleepOver (s.devAt now) p
    rw [← eq] at at' faults awake state
    refine ⟨s.event now (Dev.sleepEnds p), rfl, ?_⟩
    rw [event_port, event_faults]
    exact ⟨awake, state, event_others at', event_ctxs at', faults.trans (to_faults _ _)⟩
  · intro p now s h
    rw [← port_devAt s now] at h
    refine ⟨s.event now (Dev.sleepEnds p), rfl, rest_event_idle (if_neg fun hc => ?_)⟩
    obtain ⟨hasleep, htick⟩ := hc
    obtain h | h := h
    · exact hasleep h
    · omega

end Sys2Proof.Machine
end

section
/-! SUPPORT. What a received link frame counts and what its header does (R230, R231, R233, R238, R243). -/

namespace Sys2Proof.Machine

/-! ### Corrected symbols (R233) -/

/-- What a window holds of a lane after the symbols of a frame. -/
theorem tget_corrected (c : List Nat) (k l : Nat) (t : Table Nat) :
    tget 0 ((c.zipIdx k).foldl (fun t e => tmod 0 t e.2 (· + e.1)) t) l = tget 0 t l + if k ≤ l then c.getD (l - k) 0 else 0 := by
  induction c generalizing k t with
  | nil => simp
  | cons n c ih =>
    rw [List.zipIdx_cons, List.foldl_cons, ih, tget_tmod]
    by_cases hkl : l = k
    · subst hkl
      simp
    · rw [if_neg hkl]
      by_cases hlt : k ≤ l
      · rw [if_pos hlt, if_pos (by omega), show l - k = (l - (k + 1)) + 1 by omega, List.getD_cons_succ]
      · rw [if_neg hlt, if_neg (by omega)]

/-- The port once the corrected symbols of a frame are in its window. -/
def Port.corrected (c : List Nat) (x : Port) : Port :=
  { x with windowFrames := (if decide (65536 ≤ x.windowFrames) = true then 0 else x.windowFrames) + 1,
           corrWindow := c.zipIdx.foldl (fun t e => tmod 0 t e.2 (· + e.1)) (if decide (65536 ≤ x.windowFrames) = true then [] else x.corrWindow) }

/-- The device once a frame's uncorrectable codewords and corrected symbols are counted. -/
def Dev.symbolsCounted (d : Dev) (p : Nat) (bad corrected : List Nat) : Dev :=
  (corrected.take 9).zipIdx.foldl (fun d e => d.countPort p (0x10 + e.2) e.1) (if bad = [] then d else d.countPort p 0x05 1)

theorem rest_symbolsCounted (d : Dev) (p : Nat) (bad corrected : List Nat) : (d.symbolsCounted p bad corrected).rest = d.rest := by
  refine (foldl_keeps Dev.rest _ (fun _ _ => rest_countPort _ _ _ _) _ _).trans ?_
  split
  · rfl
  · exact rest_countPort _ _ _ _

theorem faults_symbolsCounted (d : Dev) (p : Nat) (bad corrected : List Nat) : (d.symbolsCounted p bad corrected).faults = d.faults := by
  refine (foldl_keeps Dev.faults _ (fun _ _ => quiet_faults (quiet_countPort _ _ _ _)) _ _).trans ?_
  split
  · rfl
  · exact quiet_faults (quiet_countPort _ _ _ _)

/-- The count of bad headers is none of those. -/
theorem ctr_symbolsCounted (d : Dev) (p : Nat) (bad corrected : List Nat) :
    (d.symbolsCounted p bad corrected).ctr (ctrIdx 2 p 0x04) = d.ctr (ctrIdx 2 p 0x04) := by
  refine (foldl_keeps (fun e : Dev => e.ctr (ctrIdx 2 p 0x04)) _ (fun e a => ctr_count_other e (by unfold ctrIdx; omega) _) _ _).trans ?_
  split
  · rfl
  · exact ctr_count_other d (by unfold ctrIdx; omega) 1

/-- The device once a frame's codewords are accounted for, where no lane fails by them. -/
def Dev.wordsTaken (d : Dev) (p : Nat) (bad corrected : List Nat) : Dev :=
  (d.symbolsCounted p bad corrected).modPort p (Port.corrected (corrected.take 9))

section
variable {d : Dev} {p : Nat} {bad corrected : List Nat}

theorem port_wordsTaken : (d.wordsTaken p bad corrected).port p = (d.port p).corrected (corrected.take 9) := by
  rw [Dev.wordsTaken, port_modPort_same, rest_port (rest_symbolsCounted d p bad corrected)]

theorem atPort_wordsTaken (d : Dev) (p : Nat) (bad corrected : List Nat) : d.AtPort p (d.wordsTaken p bad corrected) :=
  atPort_modPort (atPort_of_rest (rest_symbolsCounted d p bad corrected)) _

theorem takesFlits_wordsTaken : (d.wordsTaken p bad corrected).takesFlits p = d.takesFlits p := by
  have state : ((d.wordsTaken p bad corrected).port p).state = (d.port p).state := (congrArg Port.state (port_wordsTaken (d := d) (p := p)) :)
  rw [Dev.takesFlits, Dev.takesFlits, atPort_fabric (atPort_wordsTaken d p bad corrected), state]

/-- No lane exceeds what a window allows (R233). -/
theorem corrWindow_within (hframes : (d.port p).windowFrames < 65536)
    (hwithin : ∀ l, l < 9 → tget 0 (d.port p).corrWindow l + corrected.getD l 0 ≤ 2048) :
    (List.range 9).filter (fun l => decide (2048 < tget 0 ((d.wordsTaken p bad corrected).port p).corrWindow l)) = [] := by
  rw [port_wordsTaken, List.filter_eq_nil_iff]
  intro l hl
  have hl9 := List.mem_range.mp hl
  have window : tget 0 ((d.port p).corrected (corrected.take 9)).corrWindow l = tget 0 (d.port p).corrWindow l + corrected.getD l 0 := by
    unfold Port.corrected
    dsimp only
    rw [if_neg (by simpa using hframes), tget_corrected, if_pos (Nat.zero_le _), Nat.sub_zero]
    simp [List.getD_eq_getElem?_getD, hl9]
  have := hwithin l hl9
  rw [window]
  simpa using this

theorem corrections_eq (h : d.takesFlits p = false ∨ (d.port p).windowFrames < 65536 ∧
      ∀ l, l < 9 → tget 0 (d.port p).corrWindow l + corrected.getD l 0 ≤ 2048) :
    (if bad = [] then d else d.countPort p 0x05 1).corrections p corrected = d.wordsTaken p bad corrected := by
  have shape : (if bad = [] then d else d.countPort p 0x05 1).corrections p corrected =
      ((List.range 9).filter (fun l => decide (2048 < tget 0 ((d.wordsTaken p bad corrected).port p).corrWindow l))).foldl (fun d l =>
        if d.takesFlits p then d.rxLaneFails p l else d) (d.wordsTaken p bad corrected) := rfl
  rw [shape]
  obtain h | ⟨hframes, hwithin⟩ := h
  · rw [← takesFlits_wordsTaken (bad := bad) (corrected := corrected)] at h
    generalize (List.range 9).filter _ = l
    generalize d.wordsTaken p bad corrected = e at h
    induction l with
    | nil => rfl
    | cons a l ih => rw [List.foldl_cons, if_neg (by simp [h]), ih]
  · rw [corrWindow_within hframes hwithin]
    rfl

/-! ### The header (R230, R243) -/

/-- The port that has taken a good header's own words. -/
def Port.headed (h : Bytes) (x : Port) : Port :=
  { x with peerFault := bit (u8 h 3) 0, rxSleep := u8 h 5, rxWakeTick := if u8 h 5 = 0 then 0 else fld h 8 8, rxExit := 0, dataRun := x.dataRun + 1 }

/-- The port whose S carries a lane of the peer from this frame on (R243 step 3). -/
def Port.spareIn (lane : Nat) (x : Port) : Port :=
  { x with rxSpareFor := lane, spareChange := false, rxLanes := Nat.lor (x.rxLanes - (if bit x.rxLanes lane then 2 ^ lane else 0)) 256 }

/-- The spare that the peer's header names changes the port's spare, the clock's source and reports. -/
theorem takeSpare_keeps (hmild : d.mild 0x0103) (active : Bool) (lane : Nat) : d.NearPort p (d.takeSpare p active lane) ∧
    ((d.takeSpare p active lane).port p).unspared = (d.port p).unspared := by
  have shape : d.takeSpare p active lane = if active = true ∧ lane < 8 ∧ (d.port p).rxSpareFor ≠ lane then
      (((d.modPort p (Port.spareIn lane)).steer.raiseFault { source := 0x0103, unit := some p }).spareSteps p) else d := rfl
  rw [shape]
  split
  · have modified : d.NearPort p (d.modPort p (Port.spareIn lane)) := nearPort_modPort nearPort_refl _
    have steered : d.NearPort p (d.modPort p (Port.spareIn lane)).steer := ⟨modified.others, modified.ctxs, modified.image⟩
    have port : ((d.modPort p (Port.spareIn lane)).steer.port p) = (d.port p).spareIn lane := port_modPort_same d p _
    have mild := nearPort_mild steered rfl hmild
    generalize (d.modPort p (Port.spareIn lane)).steer = e at *
    obtain ⟨raised, ports, -⟩ := raised_mild (r := { source := 0x0103, unit := some p }) (atPort_refl (d := e) (p := p)) rfl mild rfl
      (by decide : 0x0103 < 65536)
    have spared := jobless_spareSteps (e.raiseFault { source := 0x0103, unit := some p }) p
    refine ⟨nearPort_trans (nearPort_trans steered (nearPort_of_atPort raised)) (jobless_nearPort spared p), ?_⟩
    rw [jobless_port spared, ports, port]
    rfl
  · exact ⟨nearPort_refl, rfl⟩

/-- The device that has taken a good header, but for the end of the handshake. -/
def Dev.headerTaken (d : Dev) (p : Nat) (h : Bytes) : Dev :=
  ((d.modPort p (Port.headed h)).takePeerMask p (fld h 6 2)).takeSpare p (bit (u8 h 3) 1) (u8 h 4)

theorem headerTaken_keeps (hmild : d.mild 0x0103) (h : Bytes) : d.NearPort p (d.headerTaken p h) ∧
    ((d.headerTaken p h).port p).unspared = ((d.port p).headed h).unspared := by
  have headed : d.NearPort p (d.modPort p (Port.headed h)) := nearPort_modPort nearPort_refl _
  obtain ⟨masked, faults, same⟩ := takePeerMask_keeps (d.modPort p (Port.headed h)) p (fld h 6 2)
  have near := nearPort_trans headed masked
  have mild := nearPort_mild near faults hmild
  obtain ⟨spared, kept⟩ := takeSpare_keeps (p := p) mild (bit (u8 h 3) 1) (u8 h 4)
  refine ⟨nearPort_trans near spared, ?_⟩
  rw [port_modPort_same] at same
  exact kept.trans same

/-- What a good header does: the port's own words, and the end of the handshake where it is due (R230, R238). -/
theorem takeHeader_keeps (hmild : d.mild 0x0103) (h : Bytes) : d.NearPort p (d.takeHeader p h) ∧
    if (d.port p).state = .handshake ∧ (d.port p).sending = true ∧ 4 ≤ (d.port p).dataRun + 1 then ((d.takeHeader p h).port p).state = .calibrate
    else ((d.takeHeader p h).port p).unspared = ((d.port p).headed h).unspared := by
  have shape : d.takeHeader p h = (d.headerTaken p h).handshakeDone p := rfl
  obtain ⟨near, same⟩ := headerTaken_keeps (p := p) hmild h
  rw [shape]
  generalize d.headerTaken p h = e at *
  have state : (e.port p).state = (d.port p).state := (congrArg Port.state same :)
  have sending : (e.port p).sending = (d.port p).sending := (congrArg Port.sending same :)
  have run : (e.port p).dataRun = (d.port p).dataRun + 1 := (congrArg Port.dataRun same :)
  have done := port_handshakeDone e p
  rw [state, sending, run] at done
  refine ⟨nearPort_trans near (nearPort_of_atPort (handshakeDone_keeps e p).1), ?_⟩
  split at done
  · next hc => rw [if_pos hc]; exact done
  · next hc => rw [if_neg hc, done]; exact same

/-! ### The frame (R229, R231) -/

/-- The port once a frame with a bad header has damaged every slot, and with a good one the slots of bad codewords. -/
def Port.allDamaged (x : Port) : Port := { x with damaged := List.range 75, dataRun := 0 }
def Port.someDamaged (bad : List Nat) (x : Port) : Port := { x with damaged := damagedSlots bad }

/-- Whether a frame is received: on a port that takes flits, and in HANDSHAKE once the peer has counted down. -/
def Dev.framesIn (d : Dev) (p : Nat) : Bool := d.takesFlits p || (d.fabric p && (d.port p).state == .handshake && (d.port p).countdown != 0)

theorem frameRx_idle {h : Bytes} (hin : d.framesIn p = false) : Dev.frameRx p h bad corrected d = d :=
  if_pos ((Bool.not_or _ _).symm.trans (congrArg (! ·) hin))

theorem frameRx_eq {h : Bytes} (hin : d.framesIn p = true) (hlanes : d.takesFlits p = false ∨ (d.port p).windowFrames < 65536 ∧
      ∀ l, l < 9 → tget 0 (d.port p).corrWindow l + corrected.getD l 0 ≤ 2048) :
    Dev.frameRx p h bad corrected d = if frameBad h then ((d.wordsTaken p bad corrected).countPort p 0x04 1).modPort p Port.allDamaged
      else ((d.wordsTaken p bad corrected).modPort p (Port.someDamaged bad)).takeHeader p h := by
  rw [← corrections_eq hlanes]
  exact if_neg (ne_true_of_eq_false ((Bool.not_or _ _).symm.trans (congrArg (! ·) hin)))

end

end Sys2Proof.Machine
end

section
/-! PROOFS. The statement on link frames (R229 to R233, R238, R265, R359). -/

namespace Sys2Proof.Machine

/-! ### The cell of the next flit (R265, R267, R359) -/

/-- A fair level picks a queue of those it is offered. -/
theorem mem_of_pick {l : FairLevel} {ns : List Nat} {v : Nat} (h : l.pick ns = some v) : v ∈ ns := by
  have member : ∀ (ns : List Nat) (b : Option Nat), ns.foldl (fun b n => match b with
      | none => some n
      | some m => if serialAfter 64 (tget {} l.queues m).s (tget {} l.queues n).s then some n else some m) b = some v → b = some v ∨ v ∈ ns := by
    intro ns
    induction ns with
    | nil => exact fun _ h => .inl h
    | cons n ns ih =>
      intro b h
      obtain h | h := ih _ h
      · cases b with
        | none => exact .inr (by simp [Option.some.inj h])
        | some m =>
          dsimp only at h
          split at h
          · exact .inr (by simp [Option.some.inj h])
          · exact .inl h
      · exact .inr (List.mem_cons_of_mem _ h)
  exact (member ns none h).resolve_left (by simp)

section
variable {d : Dev} {p v : Nat}

/-- The VC whose turn it is has a flit at the front of its queue. -/
theorem vcReady_of_nextVc (h : d.nextVc p = some v) : d.vcReady p v = true := by
  obtain h | ⟨-, h⟩ := Option.or_eq_some_iff.mp h
  · exact List.find?_some h
  · exact (List.mem_filter.mp (mem_of_pick h)).2

theorem outQ_of_nextVc (h : d.nextVc p = some v) : ∃ f r, tget [] (d.port p).outQ v = f :: r := by
  have ready := vcReady_of_nextVc h
  simp only [Dev.vcReady, Port.front, Bool.and_eq_true] at ready
  exact List.exists_cons_of_ne_nil fun h => by simp [h] at ready

/-- `e` is `d` but for what packets on their way and reports touch. -/
structure Dev.Reads (d e : Dev) : Prop where
  still : e.still.rest = d.still.rest
  port : ∀ q, (e.port q).standing = (d.port q).standing

theorem reads_of_crosses {e : Dev} (h : d.Crosses e) : d.Reads e := ⟨congrArg Dev.rest h.still, h.port⟩

theorem reads_recordFault {e : Dev} (h : d.Reads e) (r : FaultRec) : d.Reads (e.recordFault r) :=
  ⟨(congrArg (fun x : Dev => { x with ports := [], own := [], samples := {} }) (rest_recordFault e r) :).trans h.still,
    fun q => (congrArg Port.standing (rest_port (rest_recordFault e r) q)).trans (h.port q)⟩

/-- A severity depends on the image and the classes alone (R361, R362). -/
theorem mild_crosses {e : Dev} (h : d.Crosses e) {src : Nat} (hmild : d.mild src) : e.mild src := fun r hr => by
  have same : e.effective r = d.effective r := (congrArg (fun x : Dev => x.effective r) h.still :)
  exact same ▸ hmild r hr

theorem crosses_dropMoving (d : Dev) (h : Nat × Nat) : d.Crosses (d.dropMoving h) :=
  crosses_trans (crosses_modPort d _ (fun _ => by rfl)) (crosses_returnCredit _ _ _ _)

/-- What is left where the front cell of an output queue cannot be read, before the fault is raised (R265, R275). -/
def Dev.cellEnded (d : Dev) (p v : Nat) (f : QFlit) (r : List QFlit) : Dev :=
  let rest := if f.isTail then r else (r.dropWhile (fun q => !q.isTail)).drop 1
  let e := d.modPort p (fun x => { x with outQ := tset x.outQ v ({ f with ftype := 6, data := tailBad.data } :: rest) })
  if (f :: r).any QFlit.isTail then e
  else match (e.port p).holder.find? (fun h => h.1 == v) with
    | some h => (e.dropMoving h).modPort p (fun x => { x with holder := tdel x.holder v, building := tdel x.building v })
    | none => e.modPort p (fun x => { x with feed := cutFeed v x.feed })

theorem badCell_eq {f : QFlit} {r : List QFlit} (h : tget [] (d.port p).outQ v = f :: r) :
    d.badCell p v = (d.cellEnded p v f r).raiseFault { source := 0x0A03 } := by
  unfold Dev.badCell
  rw [h]
  rfl

theorem crosses_cellEnded (d : Dev) (p v : Nat) (f : QFlit) (r : List QFlit) : d.Crosses (d.cellEnded p v f r) := by
  unfold Dev.cellEnded
  dsimp only
  have queued := crosses_modPort d p (f := fun x => { x with
    outQ := tset x.outQ v ({ f with ftype := 6, data := tailBad.data } :: (if f.isTail then r else (r.dropWhile (fun q => !q.isTail)).drop 1)) })
    (fun _ => by rfl)
  refine crosses_ite queued (crosses_trans queued ?_)
  generalize d.modPort p _ = e
  split
  · exact crosses_trans (crosses_dropMoving e _) (crosses_modPort _ p (fun _ => by rfl))
  · exact crosses_modPort e p (fun _ => by rfl)

/-- What error correction says of the next flit's cell: an error is recorded, and no link changes its state (R359). -/
theorem readCell_reads {cell : EccResult} (hmild : cell = .uncorrectable → d.mild 0x0A03) : d.Reads (d.readCell p cell) ∧
    (cell = .clean → (d.readCell p cell).faults = d.faults) ∧
    ((d.nextVc p).isSome = true → cell = .corrected → ∃ e ∈ (d.readCell p cell).faults.ring, recSource e.bytes = 0x0A01) ∧
    ((d.nextVc p).isSome = true → cell = .uncorrectable → ∃ e ∈ (d.readCell p cell).faults.ring, recSource e.bytes = 0x0A03) := by
  have same : d.Reads d := reads_of_crosses (crosses_refl d)
  cases hvc : d.nextVc p with
  | none =>
    have eq : d.readCell p cell = d := by
      unfold Dev.readCell
      rw [hvc]
      cases cell <;> rfl
    rw [eq]
    exact ⟨same, fun _ => rfl, fun h => absurd h (by simp), fun h => absurd h (by simp)⟩
  | some v =>
    unfold Dev.readCell
    rw [hvc]
    cases cell with
    | clean => exact ⟨same, fun _ => rfl, fun _ h => absurd h (by simp), fun _ h => absurd h (by simp)⟩
    | corrected =>
      exact ⟨reads_recordFault same _, fun h => absurd h (by simp), fun _ _ => recordFault_source d _ (by decide : 0x0A01 < 65536),
        fun _ h => absurd h (by simp)⟩
    | uncorrectable =>
      obtain ⟨f, r, hq⟩ := outQ_of_nextVc hvc
      have ended := crosses_cellEnded d p v f r
      have eq : d.badCell p v = (d.cellEnded p v f r).recordFault { source := 0x0A03 } :=
        (badCell_eq hq).trans (raiseFault_mild (r := { source := 0x0A03 }) (mild_crosses ended (hmild rfl) _ rfl) rfl)
      dsimp only
      rw [eq]
      exact ⟨reads_recordFault (reads_of_crosses ended) _, fun h => absurd h (by simp), fun _ h => absurd h (by simp),
        fun _ _ => recordFault_source _ _ (by decide : 0x0A03 < 65536)⟩

end

/-! ### The statement -/

theorem takesFlits_not_handshake {d : Dev} {p : Nat} (h : d.takesFlits p = true) : (d.port p).state ≠ .handshake := by
  intro hc
  simp [Dev.takesFlits, hc] at h

/-- Settles O40: a received frame turns on its port; a frame that is sent has a right header, whatever is said of the next cell. -/
theorem linkFramesCrossTheLink : Obligations.LinkFramesCrossTheLink := by
  unfold Obligations.LinkFramesCrossTheLink
  refine ⟨⟨?_, ?_, ?_⟩, ?_, ?_⟩
  · intro p now h bad corrected s htakes hframes hwithin hmild
    rw [← port_devAt s now] at hframes hwithin ⊢
    have frame := frameRx_eq (bad := bad) (h := h) (by simp [Dev.framesIn, htakes] : (s.devAt now).framesIn p = true) (.inr ⟨hframes, hwithin⟩)
    have words := atPort_wordsTaken (s.devAt now) p bad corrected
    have faults : ((s.devAt now).wordsTaken p bad corrected).faults = (s.devAt now).faults := faults_symbolsCounted _ p bad corrected
    have port := port_wordsTaken (d := s.devAt now) (p := p) (bad := bad) (corrected := corrected)
    refine ⟨s.event now (Dev.frameRx p h bad corrected), rfl, ?_⟩
    cases hbad : frameBad h with
    | true =>
      rw [hbad, if_pos rfl] at frame
      have at' : (s.devAt now).AtPort p (Dev.frameRx p h bad corrected (s.devAt now)) :=
        frame ▸ atPort_modPort (atPort_trans words (atPort_of_rest (rest_countPort _ _ _ _))) _
      have ctr : (((s.devAt now).wordsTaken p bad corrected).countPort p 0x04 1).ctr (ctrIdx 2 p 0x04) =
          ((s.devAt now).ctr (ctrIdx 2 p 0x04) + 1) % 2 ^ 64 :=
        by
        rw [Dev.countPort, ctr_count _ _ _ _ (by decide), if_pos rfl]
        exact congrArg (fun n => (n + 1) % 2 ^ 64) (ctr_symbolsCounted (s.devAt now) p bad corrected)
      have counted : (((s.devAt now).wordsTaken p bad corrected).countPort p 0x04 1).port p = _ := (rest_port (rest_countPort _ _ _ _) p).trans port
      refine ⟨?_, ?_, fun hc => absurd hc (by simp), fun _ => ⟨?_, event_jobs at'⟩, event_others at', event_ctxs at'⟩
      · rw [event_port, frame, port_modPort_same, counted]
        rfl
      · rw [event_port, frame, port_modPort_same]
        rfl
      · rw [event_dev, noteReady_ctr, frame]
        exact ctr
    | false =>
      rw [hbad, if_neg (by simp)] at frame
      have damaged : (s.devAt now).NearPort p (((s.devAt now).wordsTaken p bad corrected).modPort p (Port.someDamaged bad)) :=
        nearPort_modPort (nearPort_of_atPort words) _
      obtain ⟨near, result⟩ := takeHeader_keeps (p := p) (nearPort_mild damaged faults hmild) h
      rw [port_modPort_same, port, if_neg (fun hc => takesFlits_not_handshake htakes hc.1), ← frame] at result
      have near' : (s.devAt now).NearPort p (Dev.frameRx p h bad corrected (s.devAt now)) := frame ▸ nearPort_trans damaged near
      obtain ⟨others, ctxs⟩ := event_near (f := Dev.frameRx p h bad corrected) near'
      rw [event_port]
      exact ⟨(congrArg Port.state result :), (congrArg Port.damaged result :), fun _ => (congrArg Port.rxSleep result :),
        fun hc => absurd hc (by simp), others, ctxs⟩
  · intro p now h bad corrected s hfab hst hcount hgood hmild
    rw [← port_devAt s now] at hst hcount ⊢
    have takes : (s.devAt now).takesFlits p = false := by simp [Dev.takesFlits, hst]
    have frame := frameRx_eq (bad := bad) (corrected := corrected) (h := h)
      (by simp [Dev.framesIn, hfab, hst, hcount] : (s.devAt now).framesIn p = true) (.inl takes)
    rw [hgood, if_neg (by simp)] at frame
    have faults : ((s.devAt now).wordsTaken p bad corrected).faults = (s.devAt now).faults := faults_symbolsCounted _ p bad corrected
    have damaged : (s.devAt now).NearPort p (((s.devAt now).wordsTaken p bad corrected).modPort p (Port.someDamaged bad)) :=
      nearPort_modPort (nearPort_of_atPort (atPort_wordsTaken (s.devAt now) p bad corrected)) _
    obtain ⟨near, result⟩ := takeHeader_keeps (p := p) (nearPort_mild damaged faults hmild) h
    rw [port_modPort_same, port_wordsTaken, ← frame] at result
    have near' : (s.devAt now).NearPort p (Dev.frameRx p h bad corrected (s.devAt now)) := frame ▸ nearPort_trans damaged near
    obtain ⟨others, ctxs⟩ := event_near (f := Dev.frameRx p h bad corrected) near'
    refine ⟨s.event now (Dev.frameRx p h bad corrected), rfl, ?_⟩
    rw [event_port]
    by_cases hc : ((s.devAt now).port p).sending = true ∧ 4 ≤ ((s.devAt now).port p).dataRun + 1
    · rw [if_pos (by exact ⟨hst, hc⟩)] at result
      rw [if_pos hc, result]
      exact ⟨rfl, fun h => absurd h (by simp), others, ctxs⟩
    · rw [if_neg (by exact fun h => hc h.2)] at result
      rw [if_neg hc]
      exact ⟨(congrArg Port.state result :).trans hst, fun _ => (congrArg Port.dataRun result :), others, ctxs⟩
  · intro p now h bad corrected s htakes hout
    rw [← port_devAt s now] at hout
    refine ⟨s.event now (Dev.frameRx p h bad corrected), rfl, rest_event_idle (frameRx_idle ?_)⟩
    obtain hst | hfab | hcount := hout
    · simp [Dev.framesIn, htakes, hst]
    · simp [Dev.framesIn, htakes, hfab]
    · simp [Dev.framesIn, htakes, hcount]
  · intro p now cell s hsends hlit hmild
    rw [← darkPort_devAt s now] at hlit
    have eq : Dev.frameTx p cell (s.devAt now) = (((s.devAt now).pullTo p).readCell p cell).sendLinkFrame p 0 0 := if_pos hsends
    have pulled := crosses_pullTo (s.devAt now) p
    generalize (s.devAt now).pullTo p = d at *
    obtain ⟨read, clean, corrected, uncorrectable⟩ := readCell_reads (p := p) (cell := cell) (fun hc => mild_crosses pulled (hmild hc))
    have sent := frameSent_sendLinkFrame (d.readCell p cell) p 0 0
    rw [← eq] at sent
    have number : ((d.readCell p cell).port p).frameCount = ((s.devAt now).port p).frameCount :=
      ((congrArg Port.frameCount (read.port p) :).trans (congrArg Port.frameCount (pulled.port p) :))
    have lit : (d.readCell p cell).darkPort p = false :=
      (congrArg (fun x : Dev => x.darkPort p) read.still :).trans ((congrArg (fun x : Dev => x.darkPort p) pulled.still :).trans hlit)
    obtain ⟨b, l, mem, sync, -, -, count, checksum⟩ := sent.frame lit
    have faults : (Dev.frameTx p cell (s.devAt now)).faults = (d.readCell p cell).faults := (congrArg Dev.faults sent.still :)
    refine ⟨s.event now (Dev.frameTx p cell), b, l, rfl, ?_⟩
    rw [event_sent, event_port, event_faults, faults, ← port_devAt s now, ← number]
    refine ⟨mem, sync, count, checksum, sent.count, fun q => ?_, ?_, ?_, fun hc => ?_, corrected, uncorrectable⟩
    · rw [event_port, sent.state, ← port_devAt s now]
      exact (congrArg Port.state (read.port q) :).trans (congrArg Port.state (pulled.port q) :)
    · rw [event_dev, noteReady_ctxs]
      exact (congrArg Dev.ctxs sent.still :).trans ((congrArg Dev.ctxs read.still :).trans ((crosses_ctxs pulled).trans (to_ctxs _ _)))
    · rw [event_dev, noteReady_jobs]
      exact (congrArg Dev.jobs sent.still :).trans ((congrArg Dev.jobs read.still :).trans ((crosses_jobs pulled).trans (to_jobs _ _)))
    · exact (clean hc).trans ((crosses_faults pulled).trans (to_faults _ _))
  · intro p now cell s hsends
    exact ⟨s.event now (Dev.frameTx p cell), rfl, rest_event_idle (if_neg (by simp [hsends]))⟩

end Sys2Proof.Machine
end

section
/-! SUPPORT. What a received flit touches: the packets that arrive and wait, heads' samples, credits and reports (R265, R275, R286, R291). -/

namespace Sys2Proof.Machine

section
variable (d : Dev) (p v : Nat)

theorem crosses_modArriving (f : Waiting → Waiting) : d.Crosses (d.modArriving p v f) := crosses_modPort d p (fun _ => by rfl)

theorem crosses_onward (f : QFlit) : d.Crosses (d.onward p v f) := crosses_ite (crosses_modArriving d p v _) (crosses_cross d p v _)

theorem crosses_endRx (bad : Bool) : d.Crosses (d.endRx p v bad) := by
  unfold Dev.endRx
  split
  · exact crosses_refl d
  · have closed := crosses_modPort d p (f := fun x => { x with rx := tdel x.rx v }) (fun _ => by rfl)
    exact crosses_ite closed (crosses_trans closed (crosses_mirror _ _ _ _ _))

theorem crosses_truncate (fate : Fate) : d.Crosses (d.truncate p v fate) := by
  have counted := crosses_countPort d p 0x22 1
  exact crosses_trans (crosses_ite (crosses_trans counted (crosses_onward _ p v tailBad)) counted) (crosses_endRx _ p v true)

theorem crosses_sampleEnd (samp : Bool) (out : Nat) (h : Bytes) : d.Crosses (d.sampleEnd samp p v out h) :=
  crosses_ite (crosses_sampleHead d _ _ _ _ _ _ _) (crosses_refl d)

/-! ### Routing (R278, R285, R297, R299) -/

theorem crosses_leaves (h : Bytes) (hop : Hop) : d.Crosses (d.leaves p h hop).1 := by
  unfold Dev.leaves
  split
  · exact crosses_countPort d p 0x23 1
  · split
    · exact crosses_refl d
    · split
      · split
        · exact crosses_countPort d _ _ 1
        · exact crosses_refl d
      · exact crosses_countPort d p 0x24 1

theorem crosses_routeP2p (h : Bytes) : d.Crosses (d.routeP2p p v h).1 := by
  unfold Dev.routeP2p
  dsimp only
  split
  · exact crosses_countJob d _ _ 1
  · exact crosses_leaves d p h _

theorem crosses_routeEth (h : Bytes) : d.Crosses (d.routeEth p v h).1 := by
  unfold Dev.routeEth
  split
  · exact crosses_countPort d p 0x2A 1
  · split
    · exact crosses_countPort d p 0x2E 1
    · split
      · exact crosses_countPort d p 0x2E 1
      · exact crosses_leaves d p h _

theorem crosses_route (h : Bytes) : d.Crosses (d.route p v h).1 := by
  unfold Dev.route
  split
  · exact crosses_countPort d p 0x21 1
  · split
    · split
      · exact crosses_refl d
      · exact crosses_countPort d p 0x23 1
    · exact crosses_routeEth d p v h
    · split
      · exact crosses_countJob d _ _ 1
      · split
        · exact crosses_routeP2p d p v h
        · split
          · exact crosses_countPort d p 0x23 1
          · exact crosses_refl d

theorem crosses_countHead (h : Bytes) : d.Crosses (d.countHead p h).2 := by
  unfold Dev.countHead
  dsimp only
  split
  · exact crosses_refl d
  · exact crosses_modPort d p (fun _ => by rfl)

/-! ### Flits (R265, R271, R275) -/

theorem crosses_headRx (ftype : Nat) (h : Bytes) : d.Crosses (d.headRx p v ftype h) := by
  have routed : d.Crosses ((d.countHead p h).2.route p v h).1 := crosses_trans (crosses_countHead d p h) (crosses_route _ p v h)
  unfold Dev.headRx
  dsimp only
  generalize (d.countHead p h).2.route p v h = z at *
  refine crosses_trans routed ?_
  have begun : ∀ (e : Dev) (o : OpenRx), e.Crosses (e.modPort p (fun x => { x with rx := tset x.rx v o })) :=
    fun e o => crosses_modPort e p (fun _ => by rfl)
  split
  · exact crosses_trans (crosses_trans (crosses_sampleEnd _ p v _ _ _) (begun _ _)) (crosses_returnCredit _ p v 1)
  · exact crosses_trans (crosses_trans (crosses_sampleEnd _ p v _ _ _) (begun _ _)) (crosses_returnCredit _ p v 1)
  · exact crosses_trans (crosses_addWait _ p _) (begun _ _)

/-- What a head does to a packet that was still open on its VC, and to its own packet where it is the whole of it (R265). -/
def Dev.closeOpen (d : Dev) (p v : Nat) : Dev :=
  match d.rxFate p v with
  | some o => if o.fate == Fate.dropped then d.endRx p v true else d.truncate p v o.fate
  | none => d

def Dev.closeHead (d : Dev) (p v ftype : Nat) : Dev :=
  match d.rxFate p v with
  | none => d
  | some o =>
    if o.fate == Fate.dropped then (if ftype = 4 then d.endRx p v true else d)
    else if tailFault ftype 1 o.need then d.truncate p v o.fate
    else if ftype = 4 then d.endRx p v false
    else d

theorem takeHead_eq (ftype : Nat) (h : Bytes) : d.takeHead p v ftype h = ((d.closeOpen p v).headRx p v ftype h).closeHead p v ftype := rfl

theorem crosses_closeOpen : d.Crosses (d.closeOpen p v) := by
  unfold Dev.closeOpen
  split
  · exact crosses_ite (crosses_endRx d p v true) (crosses_truncate d p v _)
  · exact crosses_refl d

theorem crosses_closeHead (ftype : Nat) : d.Crosses (d.closeHead p v ftype) := by
  unfold Dev.closeHead
  split
  · exact crosses_refl d
  · exact crosses_ite (crosses_ite (crosses_endRx d p v true) (crosses_refl d))
      (crosses_ite (crosses_truncate d p v _) (crosses_ite (crosses_endRx d p v false) (crosses_refl d)))

theorem crosses_takeHead (ftype : Nat) (h : Bytes) : d.Crosses (d.takeHead p v ftype h) := by
  rw [takeHead_eq]
  exact crosses_trans (crosses_trans (crosses_closeOpen d p v) (crosses_headRx _ p v ftype h)) (crosses_closeHead _ p v ftype)

theorem crosses_takeRest (ftype : Nat) (data : Bytes) : d.Crosses (d.takeRest p v ftype data) := by
  unfold Dev.takeRest
  split
  · exact crosses_returnCredit d p v 1
  · next o _ =>
    dsimp only
    have got := crosses_modPort d p (f := fun x => { x with rx := tset x.rx v { o with got := o.got ++ [data] } }) (fun _ => by rfl)
    refine crosses_trans got ?_
    generalize d.modPort p _ = e
    have credited := crosses_returnCredit e p v 1
    refine crosses_ite (crosses_ite (crosses_trans credited (crosses_endRx _ p v true)) credited)
      (crosses_ite (crosses_trans credited (crosses_truncate _ p v _)) ?_)
    have kept : e.Crosses (if (o.fate == Fate.forwarded && ftype != 6) = true then e else e.returnCredit p v 1) :=
      crosses_ite (crosses_refl e) credited
    generalize (if (o.fate == Fate.forwarded && ftype != 6) = true then e else e.returnCredit p v 1) = e' at *
    have passed : e.Crosses (if (o.fate == Fate.forwarded) = true then e'.onward p v { ftype := ftype, data := data } else e') :=
      crosses_ite (crosses_trans kept (crosses_onward e' p v _)) kept
    exact crosses_ite (crosses_trans passed (crosses_endRx _ p v _)) passed

theorem crosses_enterIngress (n : Nat) : d.Crosses (d.enterIngress p v n) :=
  crosses_ite (crosses_refl d) (crosses_trans (crosses_countDev d 0x102 _) (crosses_modPort _ p (fun _ => by rfl)))

theorem crosses_takeFlit (ftype : Nat) (data : Bytes) : d.Crosses (d.takeFlit p v ftype data) := by
  have entered : d.Crosses ((d.flitBytes p v false ftype data).enterIngress p v 1) :=
    crosses_trans (crosses_flitBytes d p v false ftype data) (crosses_enterIngress _ p v 1)
  exact crosses_ite (crosses_trans entered (crosses_takeHead _ p v ftype data)) (crosses_trans entered (crosses_takeRest _ p v ftype data))

end

end Sys2Proof.Machine
end

section
/-! PROOFS. The statement on the order of data flits (R231, R261, R271). -/

namespace Sys2Proof.Machine

/-! ### What a slot does (R231, R271) -/

/-- The port that has taken the flit it expected (R271 item 1). -/
def Port.accepts (now : Nat) (x : Port) : Port := ({ x with rxExpected := (x.rxExpected + 1) % 2 ^ 24, nakFor := none } : Port).due now

/-- The port that asks for the number it expects (R271 items 3 and 4). -/
def Port.asks (now : Nat) (x : Port) : Port := ({ x with nakFor := some x.rxExpected, nakTick := now, ctrlNak := true } : Port).due now

section
variable {d : Dev} {p slot tr : Nat} {x : Bytes}

/-- What of a slot makes it a good data flit (R231, R261). -/
def Dev.goodData (d : Dev) (p slot tr : Nat) : Prop :=
  d.takesFlits p = true ∧ (d.port p).damaged.contains slot = false ∧ trBad tr = false ∧ trType tr ≠ 0 ∧ trType tr ≠ 5

theorem slotRx_data (h : d.goodData p slot tr) : d.slotRx p slot tr x false = d.takeData p tr x := by
  obtain ⟨htakes, hslot, hbad, hidle, hctrl⟩ := h
  unfold Dev.slotRx
  rw [if_neg (by simp [htakes]), if_neg (by simpa using hslot), if_neg (by simp [hbad]), if_neg hctrl, if_neg (by simp [hidle])]

theorem takeData_expected (h : trSeq tr = (d.port p).rxExpected) :
    d.takeData p tr x = (d.modPort p (Port.accepts d.tick)).takeFlit p (trVc tr) (trType tr) x := if_pos h

theorem takeData_again (h : trSeq tr ≠ (d.port p).rxExpected) (hafter : serialAfter 24 (trSeq tr) (d.port p).rxExpected = false) :
    d.takeData p tr x = d.countPort p 0x1E 1 := (if_neg h).trans (if_neg (by simp [hafter]))

theorem takeData_early (h : trSeq tr ≠ (d.port p).rxExpected) (hafter : serialAfter 24 (trSeq tr) (d.port p).rxExpected = true) :
    d.takeData p tr x = d.nak p := (if_neg h).trans (if_pos hafter)

/-- A slot that is damaged or has a bad trailer asks for a NAK, at most with a count before it. -/
theorem slotRx_damaged (htakes : d.takesFlits p = true) (h : (d.port p).damaged.contains slot = true ∨ trBad tr = true) (ctrl : Bool) :
    ∃ e : Dev, e.rest = d.rest ∧ d.slotRx p slot tr x ctrl = e.nak p := by
  unfold Dev.slotRx
  rw [if_neg (by simp [htakes])]
  by_cases hslot : (d.port p).damaged.contains slot = true
  · exact ⟨d, rfl, if_pos hslot⟩
  · exact ⟨d.countPort p 0x1D 1, rest_countPort _ _ _ _, (if_neg hslot).trans (if_pos (h.resolve_left hslot))⟩

theorem slotRx_idle {ctrl : Bool} (h : d.takesFlits p = false ∨ (d.port p).damaged.contains slot = false ∧ trBad tr = false ∧
      (ctrl = false ∧ (trType tr = 0 ∨ trType tr = 5) ∨ ctrl = true ∧ trType tr ≠ 5)) : d.slotRx p slot tr x ctrl = d := by
  unfold Dev.slotRx
  obtain h | ⟨hslot, hbad, h⟩ := h
  · exact if_pos (by simp [h])
  · split
    · rfl
    · rw [if_neg (by simpa using hslot), if_neg (by simp [hbad])]
      obtain ⟨rfl, h | h⟩ | ⟨rfl, h⟩ := h
      · rw [if_neg (by simp [h]), if_pos (.inl h)]
      · rw [if_pos h, if_neg (by simp)]
      · rw [if_neg h, if_pos (.inr rfl)]

/-! ### NAKs (R271) -/

theorem nak_due (h : (d.port p).nakFor ≠ some (d.port p).rxExpected ∨ (d.port p).nakTick + d.retryTicks p ≤ d.tick) :
    d.nak p = d.modPort p (Port.asks d.tick) := by
  refine if_neg fun hc => ?_
  obtain h | h := h
  · exact h hc.1
  · exact absurd hc.2 (by omega)

theorem nak_underWay (hnak : (d.port p).nakFor = some (d.port p).rxExpected) (htick : d.tick < (d.port p).nakTick + d.retryTicks p) : d.nak p = d :=
  if_pos ⟨hnak, htick⟩

theorem atPort_nak (d : Dev) (p : Nat) : d.AtPort p (d.nak p) := atPort_ite atPort_refl (atPort_modPort atPort_refl _)

theorem rxExpected_nak (d : Dev) (p : Nat) : ((d.nak p).port p).rxExpected = (d.port p).rxExpected := by
  unfold Dev.nak
  dsimp only
  split
  · rfl
  · rw [port_modPort_same]
    rfl

/-- What the statement says of a flit that asks for a NAK. -/
theorem event_naks {s : State} {now p : Nat} {f : Dev → Dev} (h : ∃ e : Dev, e.rest = (s.devAt now).rest ∧ f (s.devAt now) = e.nak p) :
    ((s.dev.port p).nakFor ≠ some (s.dev.port p).rxExpected ∨ (s.dev.port p).nakTick + (s.devAt now).retryTicks p ≤ (s.devAt now).tick →
      ((s.event now f).dev.port p).nakFor = some (s.dev.port p).rxExpected ∧ ((s.event now f).dev.port p).nakTick = (s.devAt now).tick ∧
      ((s.event now f).dev.port p).ctrlNak = true ∧ ((s.event now f).dev.port p).ctrlDue.isSome = true) ∧
    ((s.dev.port p).nakFor = some (s.dev.port p).rxExpected → (s.devAt now).tick < (s.dev.port p).nakTick + (s.devAt now).retryTicks p →
      (s.event now f).dev.rest = (s.devAt now).rest) ∧
    ((s.event now f).dev.port p).rxExpected = (s.dev.port p).rxExpected ∧
    (∀ q, q ≠ p → (s.event now f).dev.port q = s.dev.port q) ∧ (s.event now f).dev.ctxs = s.dev.ctxs ∧ (s.event now f).dev.jobs = s.dev.jobs := by
  obtain ⟨e, rest, eq⟩ := h
  have at' : (s.devAt now).AtPort p (f (s.devAt now)) := eq ▸ atPort_trans (atPort_of_rest rest) (atPort_nak e p)
  have port : e.port p = (s.devAt now).port p := rest_port rest p
  have tick : e.tick = (s.devAt now).tick := (congrArg Dev.tick rest :)
  have retry : e.retryTicks p = (s.devAt now).retryTicks p := (congrArg (fun x : Dev => x.retryTicks p) rest :)
  rw [← port_devAt s now, ← port, ← tick, ← retry, event_port, eq]
  refine ⟨fun hdue => ?_, fun hnak htick => ?_, rxExpected_nak e p, event_others at', event_ctxs at', event_jobs at'⟩
  · rw [nak_due hdue, port_modPort_same]
    refine ⟨rfl, rfl, rfl, ?_⟩
    cases h : (e.port p).ctrlDue <;> simp [Port.asks, Port.due, h]
  · rw [event_dev, rest_noteReady, show f (s.dev.to now) = e from eq.trans (nak_underWay hnak htick), rest]

end

/-- Settles O41: the expected flit is taken by its port; every other one is counted or asked for. -/
theorem dataFlitsComeInOrder : Obligations.DataFlitsComeInOrder := by
  unfold Obligations.DataFlitsComeInOrder
  refine ⟨?_, ?_, ?_, ?_⟩
  · intro p slot tr now x s htakes hslot hbad hidle hctrl hseq
    rw [← port_devAt s now] at hslot hseq ⊢
    have eq := (slotRx_data (x := x) ⟨htakes, hslot, hbad, hidle, hctrl⟩).trans (takeData_expected hseq)
    have taken := crosses_takeFlit ((s.devAt now).modPort p (Port.accepts (s.devAt now).tick)) p (trVc tr) (trType tr) x
    have port := taken.port p
    rw [← eq] at taken port
    rw [port_modPort_same] at port
    refine ⟨s.event now (fun d => d.slotRx p slot tr x false), rfl, ?_⟩
    rw [event_port, event_dev, noteReady_ctxs, noteReady_jobs, noteReady_clock]
    exact ⟨(congrArg Port.rxExpected port :), (congrArg Port.nakFor port :), (congrArg Port.state port :), (crosses_ctxs taken).trans (to_ctxs _ _),
      (crosses_jobs taken).trans (to_jobs _ _), (congrArg Dev.clock taken.still :)⟩
  · intro p slot tr now x s htakes hslot hbad hidle hctrl hseq hafter
    rw [← port_devAt s now] at hslot hseq hafter
    have eq := (slotRx_data (x := x) ⟨htakes, hslot, hbad, hidle, hctrl⟩).trans (takeData_again hseq hafter)
    refine ⟨s.event now (fun d => d.slotRx p slot tr x false), rfl, ?_⟩
    rw [event_dev, rest_noteReady, noteReady_ctrs, show (s.dev.to now).slotRx p slot tr x false = _ from eq]
    exact ⟨rest_countPort _ _ _ _, rfl⟩
  · intro p slot tr now x c s htakes h
    rw [← port_devAt s now] at h
    obtain ⟨hdamaged, rfl | rfl⟩ | ⟨rfl, hbad, hidle, hctrl, hseq, hafter⟩ := h
    · exact ⟨s.event now (fun d => d.slotRx p slot tr x false), rfl, event_naks (slotRx_damaged htakes hdamaged false)⟩
    · exact ⟨s.event now (fun d => d.slotRx p slot tr x true), rfl, event_naks (slotRx_damaged htakes hdamaged true)⟩
    · refine ⟨s.event now (fun d => d.slotRx p slot tr x false), rfl, event_naks ?_⟩
      by_cases hslot : ((s.devAt now).port p).damaged.contains slot = true
      · exact slotRx_damaged htakes (.inl hslot) false
      · exact ⟨s.devAt now, rfl, (slotRx_data ⟨htakes, by simpa using hslot, hbad, hidle, hctrl⟩).trans (takeData_early hseq hafter)⟩
  · intro p slot tr now x c s hc h
    rw [← port_devAt s now] at h
    obtain rfl | rfl := hc
    · exact ⟨s.event now (fun d => d.slotRx p slot tr x false), rfl, rest_event_idle (slotRx_idle (by simpa using h))⟩
    · exact ⟨s.event now (fun d => d.slotRx p slot tr x true), rfl, rest_event_idle (slotRx_idle (by simpa using h))⟩

end Sys2Proof.Machine
end

section
/-! SUPPORT. What a frame that passes an Ethernet-mode port counts, and what the Keeper does with one (R257, R294, R298, R312, R429). -/

namespace Sys2Proof.Machine

/-! ### Counters that no copy touches (R294, R438) -/

/-- A counter's number differs from the low bits of another's place. -/
theorem ctrIdx_ne {g i n k : Nat} (hk : n < 4096) (h : k % 4096 ≠ n) : k ≠ ctrIdx g i n := by
  unfold ctrIdx
  omega

theorem ctr_send (d : Dev) (x : Sent) (k : Nat) : (d.send x).ctr k = d.ctr k := by
  unfold Dev.send
  split <;> rfl

section
variable {k : Nat} (hk : k % 4096 = 0x2D ∨ k % 4096 = 0x2E) (d : Dev)
include hk

theorem ctr_portBytes_other (a p : Nat) (tx : Bool) (n : Nat) : (d.portBytes a p tx n).ctr k = d.ctr k := by
  have tapped : ∀ e : Dev, (e.tap a p tx n).ctr k = e.ctr k := fun e => by
    unfold Dev.tap
    split <;> rfl
  rw [Dev.portBytes, tapped]
  refine ctr_count_other d ?_ n
  cases tx
  · exact ctrIdx_ne (n := 1) (by decide) (by omega)
  · exact ctrIdx_ne (n := 0) (by decide) (by omega)

theorem ctr_drainCopies_other (p : Nat) : (d.drainCopies p).ctr k = d.ctr k := by
  unfold Dev.drainCopies
  split
  · refine foldl_keeps (fun e : Dev => e.ctr k) _ (fun e f => ?_) _ d
    rw [Dev.countDev, ctr_count_other _ (ctrIdx_ne (by decide) (by omega)), ctr_portBytes_other hk, ctr_send]
  · rfl

theorem ctr_putCopy_other (p q : Nat) (f : Bytes) : (d.putCopy p q f).ctr k = d.ctr k := by
  unfold Dev.putCopy
  dsimp only
  split
  · exact ctr_count_other d (ctrIdx_ne (by decide) (by omega)) 1
  · rw [ctr_drainCopies_other hk, Dev.countDev, ctr_count_other _ (ctrIdx_ne (by decide) (by omega))]
    rfl

theorem ctr_copyFor_other (i : Nat) (e : Bytes) (x : Bool) (p : Nat) (r : Option Bytes) (b : Bytes) : (d.copyFor i e x p r b).ctr k = d.ctr k := by
  unfold Dev.copyFor
  dsimp only
  split
  · rfl
  · exact ctr_putCopy_other hk _ _ _ _

theorem ctr_mirror_other (x : Bool) (p : Nat) (r : Option Bytes) (b : Bytes) : (d.mirror x p r b).ctr k = d.ctr k := by
  refine foldl_keeps (fun e : Dev => e.ctr k) _ (fun e s => ?_) _ d
  split
  · exact ctr_copyFor_other hk e _ _ _ _ _ _
  · rfl

end

/-! ### A small item of the staging pool (R311) -/

/-- How a request of one block ends. -/
def Dev.smallAnswer (d : Dev) (a : Asker) (holder b : Nat) : PoolAnswer :=
  if (([0, 1, 2, 3].filter (fun r => decide (poolFor b ≤ r))).find? (fun r => d.poolServes a holder 0 r)).isSome then .taken
  else if d.overQuota a holder b then .overQuota else .refused

theorem poolTake_small (d : Dev) (a : Asker) (holder item : Nat) {b : Nat} (hb : b ≤ 16384) :
    (d.poolTake a holder item b).1 = d.smallAnswer a holder b := by
  unfold Dev.poolTake Dev.smallAnswer
  rw [poolsFor, if_pos hb]
  dsimp only
  rw [oneBlock_eq]
  cases ([0, 1, 2, 3].filter (fun r => decide (poolFor b ≤ r))).find? (fun r => d.poolServes a holder 0 r) with
  | none => rfl
  | some r => rfl

/-- The answer turns on nothing that reports touch. -/
theorem poolTake_small_quiet {d e : Dev} (h : e.quiet = d.quiet) (a : Asker) (holder item : Nat) {b : Nat} (hb : b ≤ 16384) :
    (e.poolTake a holder item b).1 = (d.poolTake a holder item b).1 := by
  rw [poolTake_small _ _ _ _ hb, poolTake_small _ _ _ _ hb]
  exact (congrArg (fun x : Dev => x.smallAnswer a holder b) h :)

/-! ### The Keeper's answer (R313, R429) -/

/-- What is left of a device when its staging pool, messages, counters and traces are put aside. -/
def Dev.poolless (d : Dev) : Dev := { d.quiet with pool := {} }

theorem poolless_of_quiet {d e : Dev} (h : e.quiet = d.quiet) : e.poolless = d.poolless := congrArg (fun x : Dev => { x with pool := {} }) h

/-- A frame that the Keeper answers. -/
theorem toKeeper_answers {d : Dev} {p : Nat} {e f r : Bytes} (htaken : (d.poolTake .keeper (portHolder p) 0 f.length).1 = .taken)
    (hup : d.keeper.up = true) (hanswer : keeperAnswer (epLocalMac e) [epLocalIp e] f = some r) (hlit : d.darkPort p = false) :
    Sent.eth p (r ++ fcsOf r) ∈ (d.toKeeper p e f).sent ∧ (d.toKeeper p e f).poolless = d.poolless := by
  have frame := unpooled_poolTake d .keeper (portHolder p) 0 f.length
  unfold Dev.toKeeper
  generalize d.poolTake .keeper (portHolder p) 0 f.length = z at *
  obtain ⟨answer, g⟩ := z
  subst htaken
  have up : g.keeper.up = true := (congrArg (fun x : Dev => x.keeper.up) frame :).trans hup
  have lit : g.darkPort p = false := (congrArg (fun x : Dev => x.darkPort p) frame :).trans hlit
  dsimp only
  rw [if_pos up, hanswer]
  dsimp only
  have mirrored := quiet_mirror g true p none r
  generalize g.mirror true p none r = h at *
  have lit' : h.darkPort p = false := (congrArg (fun x : Dev => x.darkPort p) mirrored :).trans lit
  refine ⟨?_, ?_⟩
  · have sent : (h.sendFrame p 256 r).sent = h.sent ++ [Sent.eth p (r ++ fcsOf r)] := by
      rw [Dev.sendFrame, sent_portBytes, sent_send (by simpa [Sent.fibre] using lit')]
    exact (show _ ∈ (h.sendFrame p 256 r).sent by rw [sent]; simp)
  · have framed : (h.sendFrame p 256 r).poolless = g.poolless :=
      (poolless_of_quiet ((quiet_portBytes _ _ _ _ _).trans (quiet_send h _))).trans (poolless_of_quiet mirrored)
    exact (framed :).trans (congrArg Dev.poolless frame :)

end Sys2Proof.Machine
end

section
/-! PROOFS. The statement on Ethernet and out-of-band frames (R257, R259, R298, R362, R429). -/

namespace Sys2Proof.Machine

section
variable {d : Dev} {p : Nat} {f : Bytes}

/-- The device once a frame's bytes are counted at its port. -/
def Dev.frameIn (d : Dev) (p : Nat) (f : Bytes) : Dev := d.portBytes (d.frameAccount p f) p false (f.length + 4)

/-- The device once a good frame has been mirrored, before it is handled. -/
def Dev.frameSeen (d : Dev) (p : Nat) (f : Bytes) : Dev := (d.frameIn p f).mirror false p ((d.frameIn p f).frameRoute p f) f

theorem quiet_frameIn (d : Dev) (p : Nat) (f : Bytes) : (d.frameIn p f).quiet = d.quiet := quiet_portBytes _ _ _ _ _
theorem quiet_frameSeen (d : Dev) (p : Nat) (f : Bytes) : (d.frameSeen p f).quiet = d.quiet := (quiet_mirror _ _ _ _ _).trans (quiet_frameIn d p f)
theorem keeper_frameSeen (d : Dev) (p : Nat) (f : Bytes) : (d.frameSeen p f).keeper = d.keeper :=
  (keeper_mirror _ _ _ _ _).trans (keeper_portBytes _ _ _ _ _)

theorem ctr_frameSeen {k : Nat} (hk : k % 4096 = 0x2D ∨ k % 4096 = 0x2E) (d : Dev) (p : Nat) (f : Bytes) : (d.frameSeen p f).ctr k = d.ctr k :=
  (ctr_mirror_other hk _ _ _ _ _).trans (ctr_portBytes_other hk _ _ _ _ _)

/-! ### The checks of a frame (R257) -/

theorem ethRx_off {ok : Bool} (h : d.ethernet p = false ∨ d.up p = false) : Dev.ethRx p f ok d = d :=
  if_pos (by obtain h | h := h <;> simp [h])

variable (heth : d.ethernet p = true) (hup : d.up p = true)
include heth hup

/-- A frame that a check of R257 refuses is counted under its number. -/
theorem ethRx_refused {ok : Bool} {n : Nat} (h : ((9216 < f.length + 4 ∨ f.length + 4 < 64) ∧ n = 0x2A) ∨
      (f.length + 4 ≤ 9216 ∧ 64 ≤ f.length + 4 ∧ ok = false ∧ n = 0x2B) ∨
      (f.length + 4 ≤ 9216 ∧ 64 ≤ f.length + 4 ∧ ok = true ∧ frType f = 0x8808 ∧ n = 0x2C)) :
    Dev.ethRx p f ok d = (d.frameIn p f).countPort p n 1 := by
  unfold Dev.ethRx
  rw [if_neg (by simp [heth, hup])]
  dsimp only
  obtain ⟨hlen | hlen, rfl⟩ | ⟨hlong, hshort, rfl, rfl⟩ | ⟨hlong, hshort, rfl, htype, rfl⟩ := h
  · rw [if_pos hlen]; rfl
  · rw [if_neg (by omega), if_pos hlen]; rfl
  · rw [if_neg (by omega), if_neg (by omega)]; rfl
  · rw [if_neg (by omega), if_neg (by omega), if_neg (by simp), if_pos htype]; rfl

variable (hlong : f.length + 4 ≤ 9216) (hshort : 64 ≤ f.length + 4) (htype : frType f ≠ 0x8808)
include hlong hshort htype

theorem ethRx_good : Dev.ethRx p f true d = if d.faults.held then d.frameIn p f else (d.frameSeen p f).handleFrame p f := by
  have held : (d.frameIn p f).faults = d.faults := quiet_faults (quiet_frameIn d p f)
  unfold Dev.ethRx
  rw [if_neg (by simp [heth, hup])]
  dsimp only
  rw [if_neg (by omega), if_neg (by omega), if_neg (by simp), if_neg htype, ← held]
  rfl

end

/-! ### The rule that applies (R298, R299) -/

section
variable {d : Dev} {p : Nat} {e f : Bytes} (he : e = (d.ethEntry p).getD [])
include he

/-- Whether a frame is for the port's address or a group address. -/
def forPort (e f : Bytes) : Bool := (e != [] && frDst f == epLocalMac e) || isGroup (frDst f)

omit he in
theorem forPort_iff (e f : Bytes) : forPort e f = true ↔ e ≠ [] ∧ frDst f = epLocalMac e ∨ isGroup (frDst f) = true := by simp [forPort]

theorem handleFrame_eq : (d.frameSeen p f).handleFrame p f = if isEncap e f d.encapUdp then (d.frameSeen p f).decap p f
    else if forPort e f then (if d.ownRow p f then d.frameSeen p f else (d.frameSeen p f).toKeeper p e f)
    else (d.frameSeen p f).l2Forward p f := by
  have quiet := quiet_frameSeen d p f
  have entry : (d.frameSeen p f).ethEntry p = d.ethEntry p := (congrArg (fun x : Dev => x.ethEntry p) quiet :)
  have udp : (d.frameSeen p f).encapUdp = d.encapUdp := (congrArg Dev.encapUdp quiet :)
  have row : (d.frameSeen p f).ownRow p f = d.ownRow p f := (congrArg (fun x : Dev => x.ownRow p f) quiet :)
  unfold Dev.handleFrame
  dsimp only
  rw [entry, ← he, udp, row]
  rfl

end

/-- A frame for an address that the L2 table does not list, or lists at this port, is counted and dropped (R299). -/
theorem l2Forward_nowhere {d : Dev} {p : Nat} {f : Bytes} (h : ∀ r, d.l2Entry (frDst f) = some r → l2Port r = p) :
    (d.frameSeen p f).l2Forward p f = (d.frameSeen p f).countPort p 0x2E 1 := by
  have entry : (d.frameSeen p f).l2Entry (frDst f) = d.l2Entry (frDst f) := (congrArg (fun x : Dev => x.l2Entry (frDst f)) (quiet_frameSeen d p f) :)
  unfold Dev.l2Forward
  rw [entry]
  split
  · rfl
  · next r hr => exact if_pos (h r hr)

/-- What is counted at the port once a frame has been seen. -/
theorem ctr_seen_count {n : Nat} (hn : n = 0x2D ∨ n = 0x2E) (d : Dev) (p : Nat) (f : Bytes) :
    ((d.frameSeen p f).countPort p n 1).ctr (ctrIdx 2 p n) = (d.ctr (ctrIdx 2 p n) + 1) % 2 ^ 64 := by
  have low : ctrIdx 2 p n % 4096 = 0x2D ∨ ctrIdx 2 p n % 4096 = 0x2E := by unfold ctrIdx; omega
  rw [Dev.countPort, ctr_count _ _ _ _ (by decide), if_pos rfl, ctr_frameSeen low]

/-! ### The out-of-band port (R429) -/

section
variable {d : Dev} {f : Bytes}

theorem oobFrame_ignored {ok : Bool} (h : ok = false ∨ d.keeper.up = false ∨ frDst f ≠ d.keeper.oobMac ∧ isGroup (frDst f) = false) :
    Dev.oobFrame f ok d = d :=
  if_pos (by obtain h | h | ⟨h, h'⟩ := h <;> simp [*])

theorem oobFrame_taken (hup : d.keeper.up = true) (hdst : frDst f = d.keeper.oobMac ∨ isGroup (frDst f) = true) :
    Dev.oobFrame f true d = match keeperAnswer d.keeper.oobMac d.oobAddresses f with
      | some r => d.send (.eth 98 (r ++ fcsOf r))
      | none => d.countDev 0x107 1 :=
  if_neg (by obtain h | h := hdst <;> simp [hup, h])

end

/-! ### The statement -/

theorem ctrs_send (d : Dev) (x : Sent) : (d.send x).ctrs = d.ctrs := by
  unfold Dev.send
  split <;> rfl

theorem sent_devAt (s : State) (now : Nat) : (s.devAt now).sent = s.dev.sent := (congrArg Dev.sent (to_eq s.dev now) :)

/-- Settles O45: a frame comes to one rule of R257 or R298; the Keeper's answer goes out where the pool takes the frame. -/
theorem ethernetAndOutOfBandFramesAct : Obligations.EthernetAndOutOfBandFramesAct := by
  unfold Obligations.EthernetAndOutOfBandFramesAct
  refine ⟨⟨?_, ?_, ?_, ?_, ?_, ?_⟩, ?_, ?_⟩
  · intro p now n f ok s heth hup h
    rw [← up_devAt s now] at hup
    refine ⟨s.event now (Dev.ethRx p f ok), rfl, ?_⟩
    rw [event_dev, rest_noteReady, noteReady_ctrs, show Dev.ethRx p f ok (s.dev.to now) = _ from ethRx_refused heth hup h]
    exact ⟨(rest_countPort _ _ _ _).trans (rest_of_quiet (quiet_frameIn _ p f)), rfl⟩
  · intro p now f r e s heth hup hlong hshort htype hheld he hfor hencap hrow hkeeper hanswer hlit htaken
    rw [← up_devAt s now] at hup
    rw [← darkPort_devAt s now] at hlit
    have frame := ethRx_good heth hup hlong hshort htype
    rw [if_neg (by simp [hheld]), handleFrame_eq he, if_neg (by simp [hencap]), if_pos ((forPort_iff e f).mpr hfor), if_neg (by simp [hrow])] at frame
    have quiet := quiet_frameSeen (s.devAt now) p f
    have keeper := keeper_frameSeen (s.devAt now) p f
    generalize (s.devAt now).frameSeen p f = g at *
    obtain ⟨sent, poolless⟩ := toKeeper_answers ((poolTake_small_quiet quiet _ _ _ (by omega)).trans htaken)
      ((congrArg Keeper.up (keeper.trans (to_keeper _ _))).trans hkeeper) hanswer ((congrArg (fun x : Dev => x.darkPort p) quiet :).trans hlit)
    have same : (Dev.ethRx p f true (s.devAt now)).poolless = (s.devAt now).poolless := frame ▸ poolless.trans (poolless_of_quiet quiet)
    refine ⟨s.event now (Dev.ethRx p f true), rfl, ?_, ?_, ?_, fun q => ?_⟩
    · rw [event_sent, frame]
      exact sent
    · rw [event_dev, noteReady_ctxs]
      exact (congrArg Dev.ctxs same :).trans (to_ctxs _ _)
    · rw [event_dev, noteReady_jobs]
      exact (congrArg Dev.jobs same :).trans (to_jobs _ _)
    · rw [event_port, ← port_devAt s now]
      exact (congrArg (fun x : Dev => (x.port q).state) same :)
  · intro p now f e s heth hup hlong hshort htype he hencap hheld hdst hgroup hl2
    rw [← up_devAt s now] at hup
    have other : ¬ forPort e f = true := by
      rw [forPort_iff]
      rintro (⟨hne, heq⟩ | hg)
      · exact hdst.elim hne (fun h => h heq)
      · simp [hgroup] at hg
    have frame := ethRx_good heth hup hlong hshort htype
    rw [if_neg (by simp [hheld]), handleFrame_eq he, if_neg (by simp [hencap]), if_neg other, l2Forward_nowhere hl2] at frame
    have rest : (Dev.ethRx p f true (s.devAt now)).rest = (s.devAt now).rest :=
      frame ▸ (rest_countPort _ _ _ _).trans (rest_of_quiet (quiet_frameSeen _ p f))
    have at' : (s.devAt now).AtPort p (Dev.ethRx p f true (s.devAt now)) := atPort_of_rest rest
    refine ⟨s.event now (Dev.ethRx p f true), rfl, ?_, event_ctxs at', event_jobs at', fun q => ?_⟩
    · rw [event_dev, noteReady_ctr, show Dev.ethRx p f true (s.dev.to now) = _ from frame]
      exact ctr_seen_count (.inr rfl) (s.devAt now) p f
    · rw [event_port, rest_port rest, port_devAt]
  · intro p now f e s heth hup hlong hshort htype he hheld hencap hgood
    rw [← up_devAt s now] at hup
    have frame := ethRx_good heth hup hlong hshort htype
    rw [if_neg (by simp [hheld]), handleFrame_eq he, if_pos hencap, Dev.decap, if_neg (by simp [hgood])] at frame
    refine ⟨s.event now (Dev.ethRx p f true), rfl, ?_⟩
    rw [event_dev, noteReady_ctr, rest_noteReady, show Dev.ethRx p f true (s.dev.to now) = _ from frame]
    exact ⟨ctr_seen_count (.inl rfl) (s.devAt now) p f, (rest_countPort _ _ _ _).trans (rest_of_quiet (quiet_frameSeen _ p f))⟩
  · intro p now f e s heth hup hlong hshort htype he h
    rw [← up_devAt s now] at hup
    rw [← to_faults s.dev now] at h
    have frame := ethRx_good heth hup hlong hshort htype
    refine ⟨s.event now (Dev.ethRx p f true), rfl, ?_⟩
    rw [event_dev, rest_noteReady, show Dev.ethRx p f true (s.dev.to now) = _ from frame]
    split
    · exact rest_of_quiet (quiet_frameIn _ p f)
    · next hheld =>
      obtain ⟨hencap, hfor, hrow⟩ := h.resolve_left hheld
      rw [handleFrame_eq he, if_neg (by simp [hencap]), if_pos ((forPort_iff e f).mpr hfor), if_pos hrow]
      exact rest_of_quiet (quiet_frameSeen _ p f)
  · intro p now f ok s h
    rw [← up_devAt s now] at h
    exact ⟨s.event now (Dev.ethRx p f ok), rfl, rest_event_idle (ethRx_off h)⟩
  · intro now f s hkeeper hdst
    have keeper : (s.devAt now).keeper = s.dev.keeper := to_keeper _ _
    rw [← keeper] at hkeeper hdst ⊢
    have frame := oobFrame_taken hkeeper hdst
    refine ⟨s.event now (Dev.oobFrame f true), rfl, ?_⟩
    rw [event_sent, event_dev, rest_noteReady, noteReady_ctrs, frame]
    cases hanswer : keeperAnswer (s.devAt now).keeper.oobMac (s.devAt now).oobAddresses f with
    | some r =>
      have sent := sent_send (d := s.devAt now) (x := .eth 98 (r ++ fcsOf r)) (by simp [Sent.fibre, Dev.darkPort])
      refine ⟨rest_send _ _, fun r' hr => ⟨?_, ctrs_send _ _⟩, fun h => absurd h (by simp)⟩
      rw [← Option.some.inj hr]
      exact (show _ ∈ ((s.devAt now).send (.eth 98 (r ++ fcsOf r))).sent by rw [sent]; simp)
    | none => exact ⟨rest_countDev _ _ _, fun r h => absurd h (by simp), fun _ => ⟨(sent_count _ _ _).trans (sent_devAt s now), rfl⟩⟩
  · intro now f ok s h
    have keeper : (s.devAt now).keeper = s.dev.keeper := to_keeper _ _
    rw [← keeper] at h
    have frame := oobFrame_ignored h
    refine ⟨s.event now (Dev.oobFrame f ok), rfl, rest_event_idle frame, ?_⟩
    rw [event_sent, frame, sent_devAt]

end Sys2Proof.Machine
end

section
/-! SUPPORT. What the aborts and the rules of time that follow a link's loss leave of records, links and contexts (R92, R109, R193, R200, R276,
R364, R380). -/

namespace Sys2Proof.Machine

/-! ### Records go on (R361, R364, R365) -/

/-- Records have gone on: none of class LASER, and what was unacknowledged is so still. -/
structure Faults.Grows (f g : Faults) : Prop where
  seq : f.eventSeq ≤ g.eventSeq
  laser : tget {} g.classes 2 = tget {} f.classes 2
  unacked : ∀ k, (tget {} f.classes k).unacked = true → (tget {} g.classes k).unacked = true

section
variable {f g h : Faults}

theorem grows_refl (f : Faults) : f.Grows f := ⟨le_refl _, rfl, fun _ => id⟩

theorem grows_of_eq (hg : g = f) : f.Grows g := hg ▸ grows_refl f

theorem grows_trans (hg : f.Grows g) (hh : g.Grows h) : f.Grows h :=
  ⟨hg.seq.trans hh.seq, hh.laser.trans hg.laser, fun k hk => hh.unacked k (hg.unacked k hk)⟩

end

theorem seq_recordFault (d : Dev) (r : FaultRec) : d.faults.eventSeq < (d.recordFault r).faults.eventSeq := by
  have once := writeRecord_seq d r
  unfold Dev.recordFault
  split
  · rw [writeRecord_seq, faults_modFaults]
    dsimp only
    omega
  · omega

theorem grows_recordFault (d : Dev) {r : FaultRec} (hcls : r.cls ≠ 2) : d.faults.Grows (d.recordFault r).faults :=
  ⟨(seq_recordFault d r).le, recordFault_otherClass d r hcls.symm (by decide), fun _ => unacked_recordFault d r⟩

/-! ### What is left -/

/-- A context that is aborted or on its way out of a reset. -/
def Ctx.down (x : Ctx) : Prop := x.state = .aborted ∨ x.state = .resetting

/-- `e` is `d` after aborts and rules of time: the image, the links' standing and the offers are as they were, each context that has changed its
state is down, and records have gone on. -/
structure Dev.Weathers (d e : Dev) : Prop where
  image : e.image = d.image
  port : ∀ q, (e.port q).standing = (d.port q).standing
  faults : d.faults.Grows e.faults
  ctx : ∀ c, (e.ctx c).state = (d.ctx c).state ∨ (e.ctx c).down
  sessions : d.sameSessions e
  offers : e.clock.offers = d.clock.offers

theorem image_inward {d e : Dev} (h : e.inward = d.inward) : e.image = d.image := (congrArg Dev.image h :)
theorem image_rest {d e : Dev} (h : e.rest = d.rest) : e.image = d.image := (congrArg Dev.image h :)
theorem image_useLost (d : Dev) (c status : Nat) : (d.useLost c status).image = d.image := (congrArg Dev.image (unaudited_auditUse d c true) :)
theorem faults_useLost (d : Dev) (c status : Nat) : (d.useLost c status).faults = d.faults := (congrArg Dev.faults (unaudited_auditUse d c true) :)

/-- An abort that is noted sends its notices, unless they went out ahead of the use (R110). -/
theorem abortUse_cases (d : Dev) (c status node : Nat) (from' : Option Nat) : d.abortUse c status node from' = d.abortNoted c status node ∨
    d.abortUse c status node from' = (d.abortNoted c status node).sendNotices c (d.ctx c).sequence (d.ctx c).generation (d.useStep c)
      (d.ctx c).microBatch status node from' := by
  have shape : d.abortUse c status node from' =
      if from'.isSome && (d.ctx c).forwarded.contains ((d.ctx c).sequence, (d.ctx c).generation) then d.abortNoted c status node
      else (d.abortNoted c status node).sendNotices c (d.ctx c).sequence (d.ctx c).generation (d.useStep c) (d.ctx c).microBatch status node
        from' := rfl
  rw [shape]
  split
  · exact .inl rfl
  · exact .inr rfl

theorem image_abortUse (d : Dev) (c status node : Nat) (from' : Option Nat) : (d.abortUse c status node from').image = d.image := by
  have noted : (d.abortNoted c status node).image = d.image := (image_rest (rest_abortNoted d c status node)).trans (image_useLost d c status)
  obtain h | h := abortUse_cases d c status node from' <;> rw [h]
  · exact noted
  · exact (image_inward (inward_sendNotices _ _ _ _ _ _ _ _ _)).trans noted

theorem grows_abortUse (d : Dev) (c node : Nat) (from' : Option Nat) {status : Nat} (hstatus : status / 256 = 3) :
    d.faults.Grows (d.abortUse c status node from').faults := by
  have lost : ((d.useLost c status).siltCtx c (d.ctx c).state).faults = d.faults :=
    (quiet_faults (quiet_siltWrite _ _ _)).trans (faults_useLost d c status)
  have cls : ((d.useLost c status).abortRecord c status node).cls = 3 := hstatus
  rw [(abortUse_announced d c status node from').2.2.2]
  exact grows_trans (grows_of_eq lost) (grows_recordFault _ (by rw [cls]; decide))

/-- The same fields of two devices. -/
theorem weathers_of_same {d e : Dev} (hi : e.image = d.image) (hp : e.ports = d.ports) (hf : d.faults.Grows e.faults) (hc : e.ctxs = d.ctxs)
    (hk : d.sameSessions e) (ho : e.clock.offers = d.clock.offers) : d.Weathers e :=
  ⟨hi, fun q => by rw [Dev.port, hp]; rfl, hf, fun c => .inl (congrArg Ctx.state (ctx_congr hc c)), hk, ho⟩

namespace Dev.Weathers

variable {d e t : Dev}

theorem refl (d : Dev) : Weathers d d := weathers_of_same rfl rfl (grows_refl _) rfl (sameSessions_refl d) rfl

theorem trans (h : Weathers d e) (h' : Weathers e t) : Weathers d t where
  image := h'.image.trans h.image
  port q := (h'.port q).trans (h.port q)
  faults := grows_trans h.faults h'.faults
  ctx c := (h'.ctx c).elim (fun same => (h.ctx c).imp same.trans fun down => by rwa [Ctx.down, same]) .inr
  sessions := sameSessions_trans h.sessions h'.sessions
  offers := h'.offers.trans h.offers

theorem foldl {α : Type} (h : Weathers d e) (f : Dev → α → Dev) (hf : ∀ x a, Weathers x (f x a)) (l : List α) : Weathers d (l.foldl f e) := by
  induction l generalizing e with
  | nil => exact h
  | cons a l ih => exact ih (h.trans (hf e a))

theorem ite {p : Prop} [Decidable p] (h : Weathers d e) (h' : Weathers d t) : Weathers d (if p then e else t) := by
  split
  · exact h
  · exact h'

/-- A context that is down stays so. -/
theorem down (h : Weathers d e) {c : Nat} (hc : (d.ctx c).down) : (e.ctx c).down := by
  obtain same | down := h.ctx c
  · rwa [Ctx.down, same]
  · exact down

theorem marked (h : Weathers d e) (h' : e.Marked t) : Weathers d t :=
  h.trans (weathers_of_same (congrArg Dev.image h'.quiet :) (marked_ports h') (grows_of_eq (marked_faults h')) (marked_ctxs h')
    (sameSessions_of_keeper h'.keeper) (congrArg Clock.offers (marked_clock h')))

theorem modJob (h : Weathers d e) (j : Nat) (f : Job → Job) : Weathers d (e.modJob j f) :=
  h.trans (weathers_of_same rfl rfl (grows_refl _) rfl (sameSessions_of_keeper rfl) rfl)

theorem poolFree (h : Weathers d e) (p : Holding → Bool) : Weathers d (e.poolFree p) :=
  h.trans (weathers_of_same rfl rfl (grows_refl _) rfl (sameSessions_of_keeper rfl) rfl)

theorem modCtx (h : Weathers d e) (c : Nat) (f : Ctx → Ctx) (hf : ∀ x, (f x).state = x.state ∨ (f x).down) : Weathers d (e.modCtx c f) := by
  refine h.trans ⟨rfl, fun _ => rfl, grows_refl _, fun i => ?_, sameSessions_of_keeper rfl, rfl⟩
  by_cases hi : i = c
  · rw [hi, ctx_modCtx_same]
    exact hf _
  · rw [ctx_modCtx_other _ hi]
    exact .inl rfl

theorem countJob (h : Weathers d e) (j i n : Nat) : Weathers d (e.countJob j i n) :=
  h.trans (weathers_of_same (congrArg Dev.image (quiet_countJob e j i n) :) (congrArg Dev.ports (quiet_countJob e j i n) :)
    (grows_of_eq (quiet_faults (quiet_countJob e j i n))) (congrArg Dev.ctxs (quiet_countJob e j i n) :)
    (sameSessions_of_keeper (keeper_countJob e j i n)) (congrArg (fun x : Dev => x.clock.offers) (quiet_countJob e j i n) :))

theorem recordFault (h : Weathers d e) {r : FaultRec} (hcls : r.cls ≠ 2) : Weathers d (e.recordFault r) :=
  h.trans (weathers_of_same (congrArg Dev.image (rest_recordFault e r) :) (congrArg Dev.ports (rest_recordFault e r) :) (grows_recordFault e hcls)
    (congrArg Dev.ctxs (rest_recordFault e r) :) (sameSessions_recordFault e r) (congrArg (fun x : Dev => x.clock.offers) (rest_recordFault e r) :))

theorem markSteps (h : Weathers d e) (cause : Nat) : Weathers d (e.markSteps cause) := h.marked (marked_markSteps e cause)
theorem siltCtx (h : Weathers d e) (c : Nat) (was : CtxState) : Weathers d (e.siltCtx c was) := h.marked (marked_siltWrite _ _ _)

/-! ### Aborts, context resets and an abandoned step (R92, R109, R380) -/

theorem abortUse (h : Weathers d e) (c node : Nat) (from' : Option Nat) {status : Nat} (hstatus : status / 256 = 3) :
    Weathers d (e.abortUse c status node from') := by
  have aside := aside_abortUse e c status node from'
  refine h.trans ⟨image_abortUse e c status node from', fun q => (congrArg Port.standing (aside.ports q) :), grows_abortUse e c node from' hstatus,
    fun i => ?_, sameSessions_abortUse e c status node from', congrArg Clock.offers aside.clock⟩
  by_cases hi : i = c
  · rw [hi, ctx_abortUse_same]
    exact .inr (.inl rfl)
  · rw [ctx_abortUse_other _ hi]
    exact .inl rfl

theorem resetCtx (h : Weathers d e) (c : Nat) : Weathers d (e.resetCtx c) := by
  have ended : Weathers d (e.useEnded c) := ite h (h.abortUse _ _ _ (by decide))
  rw [resetCtx_eq]
  exact ite h (markSteps (siltCtx (modCtx (poolFree ended _) c _ fun _ => .inr (.inr rfl)) _ _) 3)

theorem logBatch (h : Weathers d e) (j step : Nat) (head : Bytes) (rest : List (Nat × Bytes)) : Weathers d (e.logBatch j step head rest) := by
  unfold Dev.logBatch
  dsimp only
  exact ite h (countJob (countJob (modJob h j _) _ _ _) _ _ _)

theorem erosion (h : Weathers d e) (j : Nat) : Weathers d (e.erosion j) := by
  have runs (n : Nat) : Weathers d (e.modJob j (fun x => { x with erosionRun := n })) := h.modJob j _
  have clears : Weathers d (e.modJob j (fun x => { x with erosionRun := 0, eroded := false })) := h.modJob j _
  unfold Dev.erosion
  dsimp only
  exact ite (ite (recordFault (modJob (runs _) j _) (by simp [FaultRec.cls])) (runs _)) (ite (recordFault clears (by simp [FaultRec.cls])) clears)

theorem endRecords (h : Weathers d e) (j step : Nat) (rest : List (Nat × Bytes)) : Weathers d (e.endRecords j step rest) := by
  unfold Dev.endRecords
  dsimp only
  refine modJob (erosion ?_ j) j _
  split
  · exact (h.logBatch _ _ _ _).recordFault (by simp [FaultRec.cls])
  · exact h.logBatch _ _ _ _

theorem rewindCtxs (h : Weathers d e) (j : Nat) : Weathers d (e.rewindCtxs j) :=
  h.foldl _ (fun x (a : Nat × Nat × Nat) => ite (modCtx (refl x) a.1
    (fun y => { y with sequence := a.2.1, microBatch := a.2.2, launched := false }) fun _ => .inl rfl) (refl x)) _

theorem audit (h : Weathers d e) (a : Audit) : Weathers d { e with audit := a } :=
  h.trans (weathers_of_same rfl rfl (grows_refl _) rfl (sameSessions_of_keeper rfl) rfl)

theorem abandonStep (h : Weathers d e) (j : Nat) : Weathers d (e.abandonStep j) := by
  unfold Dev.abandonStep
  dsimp only
  refine recordFault (audit (modJob (poolFree (modJob (endRecords (modJob (modJob (rewindCtxs ?_ j) j _) j _) _ _ _) j _) _) j _) _)
    (by simp [FaultRec.cls])
  exact (h.modJob j _).foldl _ (fun x _ => (refl x).resetCtx _) _

theorem abortCtx (h : Weathers d e) (c node : Nat) (from' : Option Nat) {status : Nat} (hstatus : status / 256 = 3) :
    Weathers d (e.abortCtx c status node from') :=
  ite ((h.abortUse c node from' hstatus).abandonStep _) (h.abortUse c node from' hstatus)

theorem abortAll (h : Weathers d e) (cs : List Nat) {status : Nat} (hstatus : status / 256 = 3) : Weathers d (e.abortAll cs status) :=
  h.foldl _ (fun x _ => ite ((refl x).abortCtx _ _ _ hstatus) (refl x)) cs

/-! ### Rules of time (R193, R200) -/

theorem timed (h : Weathers d e) (h' : e.Timed t) (hf : e.faults.Grows t.faults) (ho : t.clock.offers = e.clock.offers) : Weathers d t :=
  h.trans ⟨(congrArg Dev.image h'.rest :), fun q => (congrArg Port.standing (h'.ports q) :), hf,
    fun c => .inl (congrArg (fun x : Dev => (x.ctx c).state) h'.rest :), h'.sessions, ho⟩

end Dev.Weathers

end Sys2Proof.Machine
end

section
/-! SUPPORT. What a link that leaves UP loses, and LINK_DOWN (R193, R238, R276, R359 to R361). -/

namespace Sys2Proof.Machine

/-! ### Records of the rules of time (R200, R206) -/

section
variable (d : Dev)

theorem grows_withhold (j : Nat) : d.faults.Grows (d.withhold j).faults := by
  have traced : ∀ (e : Dev) (a b : Nat) (x y : Bool), (e.siltLaunch j a b x y).faults = e.faults := fun e _ _ _ _ =>
    quiet_faults (quiet_siltWrite e _ _)
  unfold Dev.withhold
  split
  · exact grows_refl _
  · exact grows_trans (grows_of_eq (traced (d.modJob j (fun x => { x with launch := none })) _ _ _ _))
      (grows_recordFault _ (by simp [FaultRec.cls]))

theorem grows_withholdArmed : d.faults.Grows d.withholdArmed.faults := by
  have one : ∀ (e : Dev) (j : Nat), e.faults.Grows (e.withholdIfArmed j).faults := by
    intro e j
    obtain h | h := withholdIfArmed_cases e j <;> rw [h]
    · exact grows_refl _
    · exact grows_withhold e j
  have all : ∀ (l : List Nat) (e : Dev), e.faults.Grows (l.foldl Dev.withholdIfArmed e).faults := by
    intro l
    induction l with
    | nil => exact fun e => grows_refl e.faults
    | cons j l ih => exact fun e => grows_trans (one e j) (ih _)
  rw [withholdArmed_eq]
  split
  · exact grows_refl _
  · exact all _ d

theorem grows_enterGtc (st : GtcState) (cause : Nat) : d.faults.Grows (d.enterGtc st cause).faults := by
  have traced : ∀ (e : Dev) (was : GtcState), (e.stateTraced was).faults = e.faults := by
    intro e was
    unfold Dev.stateTraced
    split
    · exact (quiet_faults (quiet_siltWrite _ _ _)).trans (marked_faults (marked_markSteps e 6))
    · exact quiet_faults (quiet_siltWrite _ _ _)
  have recorded : ∀ e : Dev, e.faults.Grows (e.stateRecord st cause).faults := by
    intro e
    cases st with
    | invalid => exact grows_recordFault e (by simp [FaultRec.cls])
    | acquiring => exact grows_refl _
    | locked => exact grows_refl _
    | holdover => exact grows_recordFault e (by simp [FaultRec.cls])
  rw [enterGtc_eq]
  split
  · exact grows_refl _
  · exact grows_trans (grows_of_eq (traced (d.stateEntered st cause) d.clock.state)) (grows_trans (recorded _) (grows_withholdArmed _))

theorem grows_ite {f : Faults} {a b : Dev} {c : Prop} [Decidable c] (ha : f.Grows a.faults) (hb : f.Grows b.faults) :
    f.Grows (if c then a else b).faults := by
  split
  · exact ha
  · exact hb

theorem grows_springLocks : d.faults.Grows d.springLocks.faults := by
  by_cases h : d.clock.locks
  · rw [springLocks_locks h]
    exact grows_enterGtc (d.modClock Clock.started) .locked 0
  · rw [springLocks_stays h]
    exact grows_refl _

theorem grows_steer {f : Faults} {e : Dev} (h : f.Grows e.faults) : f.Grows e.steer.faults := h

theorem grows_asSpring : d.faults.Grows d.asSpring.faults :=
  grows_steer (grows_ite (grows_enterGtc (d.modClock (fun c => { c with spring := true, depth := 0, rackDepth := 0, upstream := 0x7F })) .holdover 0)
    (grows_refl _))

theorem grows_alone : d.faults.Grows d.alone.faults :=
  grows_ite (grows_enterGtc (d.modClock (fun c => { c with depth := 0xF, rackDepth := if d.rackRoot then 0 else 3, upstream := 0x7F })) .holdover 0)
    (grows_refl _)

theorem grows_switched (p : Nat) (old : Clock) : d.faults.Grows (d.switched p old).faults :=
  grows_ite (grows_ite (grows_refl _) (grows_enterGtc d .holdover 0)) (grows_refl _)

theorem grows_acquired (p : Nat) : d.faults.Grows (d.acquired p).faults := grows_ite (grows_enterGtc d .acquiring 0) (grows_refl _)

theorem grows_follow (p : Nat) (o : Offer) (old : Clock) : d.faults.Grows (d.follow p o old).faults := by
  have deep : ∀ cause, d.faults.Grows (d.tooDeep cause).faults := fun cause =>
    grows_enterGtc (d.modClock (fun c => { c with depth := 0xF, rackDepth := 3, upstream := 0x7F })) .invalid cause
  rw [follow_eq]
  exact grows_ite (deep 4) (grows_ite (deep 5)
    (grows_trans (grows_switched (d.below p o) p old) (grows_acquired ((d.below p o).switched p old).steer p)))

theorem grows_elect : d.faults.Grows d.elect.faults := by
  rw [elect_eq]
  split
  · exact grows_trans (grows_asSpring (d.adopting d.bestKey)) (grows_springLocks _)
  · split
    · exact grows_follow ((d.adopting d.bestKey).modClock (fun c => { c with spring := false })) _ _ d.clock
    · exact grows_alone ((d.adopting d.bestKey).modClock (fun c => { c with spring := false }))

/-- The election keeps what is offered. -/
theorem weathers_elect : d.Weathers d.elect :=
  (Dev.Weathers.refl d).timed (elect_goes d).1 (grows_elect d) (goes_fields (elect_goes d).2).1

end

/-! ### The flits and the packets of a link (R265, R275, R276) -/

theorem crosses_endSleep (d : Dev) (p : Nat) : d.Crosses (d.endSleep p) := by
  unfold Dev.endSleep
  dsimp only
  split
  · exact crosses_trans (crosses_countPort d p _ _) (crosses_modPort _ p (fun _ => by rfl))
  · split
    · exact crosses_trans (crosses_countPort d p _ _) (crosses_modPort _ p (fun _ => by rfl))
    · exact crosses_modPort d p (fun _ => by rfl)

theorem crosses_cutInput (d : Dev) (p : Nat) : d.Crosses (d.cutInput p) := by
  have ended : ∀ (e : Dev) (v : Nat), e.Crosses (match e.heldBy p v with
      | some (out, w) => (e.countDev 0x102 64).writeOut p v out w tailBad
      | none => e) := by
    intro e v
    split
    · exact crosses_trans (crosses_countDev e _ _) (crosses_writeOut _ _ _ _ _ _)
    · exact crosses_refl e
  unfold Dev.cutInput
  dsimp only
  exact crosses_trans (crosses_trans (crosses_foldl _ ended _ d) (crosses_modPort _ p (fun _ => by rfl)))
    (crosses_foldl _ (fun e w => crosses_dropWait e p w) _ _)

theorem crosses_cutOutput (d : Dev) (p : Nat) : d.Crosses (d.cutOutput p) := crosses_foldl _ crosses_dropMoving _ d

/-- A port's standing once its link is cut: no flit is retained, and no NAK is under way. -/
def Port.cut (x : Port) : Port := { x with retained := [], nakFor := none }

/-- A cut link loses its retained flits and its NAK; everything else stands. -/
theorem cutLink_keeps (d : Dev) (p : Nat) : (d.cutLink p).still = d.still ∧ ((d.cutLink p).port p).standing = (d.port p).standing.cut ∧
    ∀ q, q ≠ p → ((d.cutLink p).port q).standing = (d.port q).standing := by
  have counted := crosses_countPort d p 0x20 (d.port p).retained.length
  have lost : ((d.loseRetained p).port p).standing = { (d.port p).standing with retained := [] } := by
    rw [Dev.loseRetained, port_modPort_same]
    exact congrArg (fun x : Port => { x with retained := [] }) (counted.port p)
  have lostOther : ∀ q, q ≠ p → ((d.loseRetained p).port q).standing = (d.port q).standing := fun q hq => by
    rw [Dev.loseRetained, port_modPort_other _ hq]
    exact counted.port q
  have still : (d.loseRetained p).still = d.still := counted.still
  have cut := crosses_trans (crosses_cutInput (d.loseRetained p) p) (crosses_cutOutput _ p)
  unfold Dev.cutLink
  generalize ((d.loseRetained p).cutInput p).cutOutput p = e at *
  refine ⟨(cut.still.trans still :), ?_, fun q hq => ?_⟩
  · rw [port_modPort_same]
    exact congrArg (fun x : Port => { x with nakFor := none }) ((cut.port p).trans lost)
  · rw [port_modPort_other _ hq, cut.port q, lostOther q hq]

end Sys2Proof.Machine
end

section
/-! SUPPORT. A link that leaves UP: what is gone and which contexts are aborted (R238, R276, R361). -/

namespace Sys2Proof.Machine

/-! ### The contexts that name a link (R109, R276) -/

/-- A context that can be aborted, or is down already. -/
def Ctx.fails (x : Ctx) : Prop := x.abortable = true ∨ x.down

theorem fails_weathers {d e : Dev} (h : d.Weathers e) {c : Nat} (hc : (d.ctx c).fails) : (e.ctx c).fails := by
  obtain same | down := h.ctx c
  · have abortable : (e.ctx c).abortable = (d.ctx c).abortable := by rw [Ctx.abortable, Ctx.abortable, same]
    rwa [Ctx.fails, Ctx.down, abortable, same]
  · exact .inr down

theorem abortCtx_down (d : Dev) (c node : Nat) (from' : Option Nat) (status : Nat) : ((d.abortCtx c status node from').ctx c).down := by
  have aborted : ((d.abortUse c status node from').ctx c).down := by
    rw [ctx_abortUse_same]
    exact .inl rfl
  unfold Dev.abortCtx
  dsimp only
  split
  · exact ((Dev.Weathers.refl _).abandonStep _).down aborted
  · exact aborted

/-- A context of the list that could be aborted is so. -/
theorem abortAll_down {status : Nat} (hstatus : status / 256 = 3) (cs : List Nat) (d : Dev) {c : Nat} (hc : c ∈ cs) (h : (d.ctx c).fails) :
    ((d.abortAll cs status).ctx c).down := by
  have step : ∀ (e : Dev) (a : Nat), e.Weathers (if (e.ctx a).abortable then e.abortCtx a status (e.ownNode a) none else e) :=
    fun e a => Dev.Weathers.ite ((Dev.Weathers.refl e).abortCtx _ _ _ hstatus) (Dev.Weathers.refl e)
  induction cs generalizing d with
  | nil => exact absurd hc List.not_mem_nil
  | cons a cs ih =>
    obtain rfl | hc := List.mem_cons.mp hc
    · have first : ((if (d.ctx c).abortable then d.abortCtx c status (d.ownNode c) none else d).ctx c).down := by
        split
        · exact abortCtx_down d c _ none status
        · next hno => exact h.resolve_left hno
      exact ((Dev.Weathers.refl _).abortAll cs hstatus).down first
    · exact ih _ hc (fails_weathers (step d a) h)

/-- Whether the node table of a context's bucket names a port. -/
def Dev.ctxNames (d : Dev) (c p : Nat) : Bool := ((d.job (d.ctx c).job).bucketPorts (d.ctx c).bucket).contains p

theorem mem_ctxsOn {d : Dev} {c p : Nat} (habort : (d.ctx c).abortable = true) (hnames : d.ctxNames c p = true) : c ∈ d.ctxsOn p := by
  have busy : (d.ctx c).state ≠ .free := by
    intro h
    simp [Ctx.abortable, h] at habort
  have listed : (c, d.ctx c) ∈ d.ctxs := mem_of_tget_ne (fun hd => busy (congrArg Ctx.state hd))
  unfold Dev.ctxNames at hnames
  have meets : ((d.ctx c).state != .free && ((d.ctx c).abortable && ((d.job (d.ctx c).job).bucketPorts (d.ctx c).bucket).contains p)) = true := by
    rw [habort, hnames]
    simpa using busy
  exact List.mem_map.mpr ⟨_, List.mem_filter.mpr ⟨listed, meets⟩, rfl⟩

/-! ### A link that leaves UP (R276) -/

/-- What is left of a link that is cut, with the contexts that name it aborted. -/
structure Dev.IsSevered (p : Nat) (d e : Dev) : Prop where
  image : e.image = d.image
  here : (e.port p).standing.cut = (d.port p).standing.cut
  others : ∀ q, q ≠ p → (e.port q).standing = (d.port q).standing
  faults : d.faults.Grows e.faults
  sessions : d.sameSessions e
  flits : d.fabric p = true → (e.port p).retained = []
  aborts : d.fabric p = true → ∀ c, (d.ctx c).abortable = true → d.ctxNames c p = true → (e.ctx c).down

/-- What is left once a link has left UP: its offer of time is gone, too. -/
structure Dev.LeftUp (p : Nat) (d e : Dev) : Prop extends d.IsSevered p e where
  offers : ∀ o ∈ e.clock.offers, o.1 ≠ p

section
variable (d : Dev) (p : Nat)

/-- The device once a link's sleep has ended. -/
def Dev.wakened (d : Dev) (p : Nat) : Dev :=
  (if (d.port p).txSleep = 0 then d else d.endSleep p).modPort p (fun x => { x with rxSleep := 0, rxWakeTick := 0 })

theorem crosses_wakened : d.Crosses (d.wakened p) :=
  crosses_trans (crosses_ite (crosses_refl d) (crosses_endSleep d p)) (crosses_modPort _ p (fun _ => by rfl))

/-- The device once a link is cut and the contexts that name it are aborted. -/
def Dev.severed (d : Dev) (p : Nat) : Dev := if d.fabric p then (d.cutLink p).abortAll (d.ctxsOn p) stLinkLost else d

theorem leaveUp_eq : d.leaveUp p = ((d.wakened p).severed p).dropOffer p := by
  unfold Dev.leaveUp Dev.severed Dev.wakened
  rfl

theorem dropOffer_eq : d.dropOffer p = (d.unoffered p).elect := rfl

/-- The offer of a port is gone; the election that follows keeps the others. -/
theorem offers_dropOffer : ∀ o ∈ (d.dropOffer p).clock.offers, o.1 ≠ p := by
  intro o ho
  rw [dropOffer_eq, (weathers_elect _).offers] at ho
  have kept := (List.mem_filter.mp (show o ∈ tdel d.clock.offers p from ho)).2
  simpa using kept

/-- The contexts that name a link are so on a device that differs by the link's packets only. -/
theorem ctxNames_still {d e : Dev} (h : e.still = d.still) (c p : Nat) : e.ctxNames c p = d.ctxNames c p :=
  (congrArg (fun x : Dev => x.ctxNames c p) h :)

theorem isSevered_severed : d.IsSevered p (d.severed p) := by
  unfold Dev.severed
  split
  · obtain ⟨still, here, others⟩ := cutLink_keeps d p
    generalize d.cutLink p = e at *
    have ctxs : e.ctxs = d.ctxs := (congrArg Dev.ctxs still :)
    have aborted := (Dev.Weathers.refl e).abortAll (d.ctxsOn p) (by decide : stLinkLost / 256 = 3)
    have flits : (e.port p).retained = [] := (congrArg Port.retained here :)
    have faults : e.faults = d.faults := (congrArg Dev.faults still :)
    refine ⟨aborted.image.trans (congrArg Dev.image still :), (congrArg Port.cut ((aborted.port p).trans here) :),
      fun q hq => (aborted.port q).trans (others q hq), grows_trans (grows_of_eq faults) aborted.faults,
      sameSessions_trans (sameSessions_of_keeper (congrArg Dev.keeper still :)) aborted.sessions,
      fun _ => (congrArg Port.retained (aborted.port p) :).trans flits, fun _ c habort hnames => ?_⟩
    exact abortAll_down (by decide) _ _ (mem_ctxsOn habort hnames) (.inl (by rw [ctx_congr ctxs]; exact habort))
  · next hfab =>
    exact ⟨rfl, rfl, fun _ _ => rfl, grows_refl _, sameSessions_refl d, fun h => absurd h hfab, fun h => absurd h hfab⟩

theorem leftUp_leaveUp : d.LeftUp p (d.leaveUp p) := by
  have wakened := crosses_wakened d p
  have severed := isSevered_severed (d.wakened p) p
  rw [leaveUp_eq]
  generalize d.wakened p = x at *
  generalize x.severed p = y at *
  have elected : (y.unoffered p).Weathers (y.dropOffer p) := weathers_elect (y.unoffered p)
  have fabric : x.fabric p = d.fabric p := (congrArg (fun x : Dev => x.fabric p) wakened.still :)
  have ctx : ∀ c, x.ctx c = d.ctx c := fun c => ctx_congr (crosses_ctxs wakened) c
  refine ⟨⟨(elected.image :).trans (severed.image.trans (crosses_image wakened)), ?_, fun q hq => ?_,
    grows_trans (grows_trans (grows_of_eq (crosses_faults wakened)) severed.faults) elected.faults, ?_, fun hfab => ?_,
    fun hfab c habort hnames => ?_⟩, offers_dropOffer y p⟩
  · exact (congrArg Port.cut (elected.port p) :).trans (severed.here.trans (congrArg Port.cut (wakened.port p) :))
  · exact (elected.port q :).trans ((severed.others q hq).trans (wakened.port q))
  · exact sameSessions_trans (sameSessions_of_keeper (crosses_keeper wakened))
      (sameSessions_trans severed.sessions (sameSessions_trans (sameSessions_of_keeper rfl) elected.sessions))
  · exact (congrArg Port.retained (elected.port p) :).trans (severed.flits (fabric.trans hfab))
  · refine elected.down (c := c) ?_
    exact severed.aborts (fabric.trans hfab) c (by rw [ctx]; exact habort) ((ctxNames_still wakened.still c p).trans hnames)

end

end Sys2Proof.Machine
end

section
/-! SUPPORT. LINK_DOWN: a link leaves UP with its record, and a port that was not UP leaves its state (R219, R238, R254, R276, R359 to R361). -/

namespace Sys2Proof.Machine

/-! ### LINK_DOWN of a port that was UP -/

/-- What of a port its laser feed sets (R253). -/
def Port.laser (x : Port) : Nat × Nat × Nat := (x.feedState, x.lines, x.feedPower)

@[simp] theorem laser_enter (x : Port) (st : LinkState) (now : Nat) : (x.enter st now).laser = x.laser := by cases st <;> rfl

theorem laser_of_cut {x y : Port} (h : y.standing.cut = x.standing.cut) : y.laser = x.laser := (congrArg Port.laser h :)

/-- A link has left UP for a state with a cause and its record (R238, R276, R361). -/
structure Dev.LinkLost (p reason : Nat) (st : LinkState) (d e : Dev) : Prop where
  image : e.image = d.image
  state : (e.port p).state = st
  cause : (e.port p).cause = reason
  laser : (e.port p).laser = (d.port p).laser
  others : ∀ q, q ≠ p → (e.port q).standing = (d.port q).standing
  seq : d.faults.eventSeq < e.faults.eventSeq
  lasers : tget {} e.faults.classes 2 = tget {} d.faults.classes 2
  unacked : (tget {} e.faults.classes 1).unacked = true
  sessions : d.sameSessions e
  offers : ∀ o ∈ e.clock.offers, o.1 ≠ p
  flits : d.fabric p = true → (e.port p).retained = []
  aborts : d.fabric p = true → ∀ c, (d.ctx c).abortable = true → d.ctxNames c p = true → (e.ctx c).down

section
variable (d : Dev) (p reason : Nat) (st : LinkState)

/-- The device whose port has a cause. -/
def Dev.caused (d : Dev) (p reason : Nat) : Dev := d.modPort p (fun x => { x with cause := reason })

/-- The device once LINK_DOWN is recorded, before the port leaves its state. -/
def Dev.downRecorded (d : Dev) (p reason : Nat) : Dev := (d.caused p reason).recordFault ((d.caused p reason).linkDownRecord p)

/-- The device with the causes of a link's reset marked in the running steps (R219, R368). -/
def Dev.linkMarked (d : Dev) (p : Nat) : Dev :=
  let e := if d.up p && d.laneSpare p then d.markSteps 4 else d
  if e.fabric p then e.markSteps 3 else e

theorem marked_linkMarked : d.Marked (d.linkMarked p) := by
  have spared : d.Marked (if d.up p && d.laneSpare p then d.markSteps 4 else d) := by
    split
    · exact marked_markSteps d 4
    · exact marked_refl d
  unfold Dev.linkMarked
  dsimp only
  generalize (if d.up p && d.laneSpare p then d.markSteps 4 else d) = e at *
  split
  · exact marked_trans spared (marked_markSteps _ 3)
  · exact spared

/-- The device whose port has left its state with a cause. -/
def Dev.stateLeft (d : Dev) (p reason : Nat) (st : LinkState) : Dev := ((d.linkMarked p).caused p reason).setLink p st

theorem dropLink_eq : d.dropLink p reason st = if d.up p then (d.stateLeft p reason st).leaveUp p else d.stateLeft p reason st := by
  unfold Dev.dropLink Dev.stateLeft Dev.linkMarked Dev.caused
  rfl

theorem quiet_stateLeft : (d.stateLeft p reason st).quiet =
    (((d.linkMarked p).caused p reason).modPort p (fun x => x.enter st d.time)).quiet := by
  have time : ((d.linkMarked p).caused p reason).time = d.time :=
    (congrArg Clock.time (marked_clock (marked_linkMarked d p)) :)
  rw [Dev.stateLeft, quiet_setLink, time]

theorem port_stateLeft : (d.stateLeft p reason st).port p = ({ d.port p with cause := reason } : Port).enter st d.time := by
  have marked : (d.linkMarked p).port p = d.port p := by rw [Dev.port, marked_ports (marked_linkMarked d p)]; rfl
  rw [port_of_quiet (quiet_stateLeft d p reason st), port_modPort_same, Dev.caused, port_modPort_same, marked]

theorem port_stateLeft_other {q : Nat} (hq : q ≠ p) : (d.stateLeft p reason st).port q = d.port q := by
  rw [port_of_quiet (quiet_stateLeft d p reason st), port_modPort_other _ hq, Dev.caused, port_modPort_other _ hq, Dev.port,
    marked_ports (marked_linkMarked d p)]
  rfl

theorem keeper_stateLeft : (d.stateLeft p reason st).keeper = d.keeper := by
  have marked : ((d.linkMarked p).caused p reason).keeper = d.keeper := (marked_linkMarked d p).keeper
  unfold Dev.stateLeft Dev.setLink
  dsimp only
  split
  · exact marked
  · exact (keeper_siltLink _ _ _).trans marked

/-- What names a context's link and job is left. -/
theorem stateLeft_keeps : (d.stateLeft p reason st).faults = d.faults ∧ (d.stateLeft p reason st).image = d.image ∧
    (d.stateLeft p reason st).ctxs = d.ctxs ∧ (d.stateLeft p reason st).clock = d.clock ∧
    ∀ c q, (d.stateLeft p reason st).ctxNames c q = d.ctxNames c q := by
  have quiet : { (d.stateLeft p reason st).quiet with ports := [] } = { (d.linkMarked p).quiet with ports := [] } :=
    (congrArg (fun x : Dev => { x with ports := [] }) (quiet_stateLeft d p reason st) :)
  have marked := marked_linkMarked d p
  generalize d.stateLeft p reason st = e at *
  generalize d.linkMarked p = x at *
  have sameCtxs : e.ctxs = x.ctxs := (congrArg Dev.ctxs quiet :)
  have sameFaults : e.faults = x.faults := (congrArg Dev.faults quiet :)
  have sameImage : e.image = x.image := (congrArg Dev.image quiet :)
  have sameClock : e.clock = x.clock := (congrArg Dev.clock quiet :)
  have image : x.image = d.image := (congrArg Dev.image marked.quiet :)
  have ctxs := sameCtxs.trans (marked_ctxs marked)
  refine ⟨sameFaults.trans (marked_faults marked), sameImage.trans image, ctxs, sameClock.trans (marked_clock marked), fun c q => ?_⟩
  have ctx : e.ctx c = d.ctx c := ctx_congr ctxs c
  have job : ∀ j, e.job j = x.job j := fun j => (congrArg (fun y : Dev => y.job j) quiet :)
  unfold Dev.ctxNames
  rw [ctx, job]
  exact congrArg (fun l : List Nat => l.contains q) (congrArg (fun y : Job => y.bucketPorts (d.ctx c).bucket) (marked.job (d.ctx c).job) :)

end

theorem faultActs_mild {d : Dev} {r : FaultRec} {eff : Nat} (heff : eff ≤ 3) (hctx : r.ctx = none) : d.faultActs r eff = d := by
  unfold Dev.faultActs
  dsimp only
  rw [if_neg (by omega), hctx]
  split
  · rfl
  · rfl

/-- A mild LINK_DOWN is recorded before its port leaves UP; nothing else follows from it. -/
theorem linkDown_up {d : Dev} {p : Nat} (hup : d.up p = true) (hmild : d.mild 0x0101) (reason : Nat) (st : LinkState) :
    d.linkDown p reason st = (d.downRecorded p reason).dropLink p reason st := by
  have severity : (d.caused p reason).effective ((d.caused p reason).linkDownRecord p) ≤ 3 := hmild ((d.caused p reason).linkDownRecord p) rfl
  have shape : d.linkDown p reason st = if 5 ≤ (d.caused p reason).effective ((d.caused p reason).linkDownRecord p) then
      (((d.downRecorded p reason).dropLink p reason st).faultActs ((d.caused p reason).linkDownRecord p)
        ((d.caused p reason).effective ((d.caused p reason).linkDownRecord p))).fatal
      else ((d.downRecorded p reason).dropLink p reason st).faultActs ((d.caused p reason).linkDownRecord p)
        ((d.caused p reason).effective ((d.caused p reason).linkDownRecord p)) := by
    unfold Dev.linkDown Dev.downRecorded Dev.caused
    dsimp only
    rw [hup, if_pos rfl, if_pos rfl]
  rw [shape, if_neg (by omega)]
  exact faultActs_mild severity rfl

/-- LINK_DOWN on record, at the device whose port has its cause. -/
theorem downRecorded_keeps (d : Dev) (p reason : Nat) :
    (d.downRecorded p reason).rest = (d.caused p reason).rest ∧
    d.faults.eventSeq < (d.downRecorded p reason).faults.eventSeq ∧
    tget {} (d.downRecorded p reason).faults.classes 2 = tget {} d.faults.classes 2 ∧
    (tget {} (d.downRecorded p reason).faults.classes 1).unacked = true ∧ d.sameSessions (d.downRecorded p reason) := by
  have cls : ((d.caused p reason).linkDownRecord p).cls = 1 := by simp [Dev.linkDownRecord, FaultRec.cls]
  have uncleared : ((d.caused p reason).linkDownRecord p).cleared = false := rfl
  have same : (d.caused p reason).faults = d.faults := rfl
  have carried : d.sameSessions (d.caused p reason) := sameSessions_of_keeper rfl
  unfold Dev.downRecorded
  generalize (d.caused p reason).linkDownRecord p = r at *
  generalize d.caused p reason = e at *
  rw [← same]
  have raised := recordFault_unacked e r uncleared
  rw [cls] at raised
  exact ⟨rest_recordFault e r, seq_recordFault e r, (grows_recordFault e (by rw [cls]; decide)).laser, raised,
    sameSessions_trans carried (sameSessions_recordFault e r)⟩

/-- A link that leaves UP. -/
theorem linkLost_linkDown {d : Dev} {p : Nat} (hup : d.up p = true) (hmild : d.mild 0x0101) (reason : Nat) (st : LinkState) :
    d.LinkLost p reason st (d.linkDown p reason st) := by
  obtain ⟨rest, seq, lasers, unacked, sessions⟩ := downRecorded_keeps d p reason
  rw [linkDown_up hup hmild, dropLink_eq]
  generalize d.downRecorded p reason = x at *
  have ports : ∀ q, x.port q = (d.caused p reason).port q := rest_port rest
  have up : x.up p = true := by
    rw [Dev.up, ports, Dev.caused, port_modPort_same]
    exact hup
  rw [if_pos up]
  obtain ⟨faults, image, ctxs, -, names⟩ := stateLeft_keeps x p reason st
  have here := port_stateLeft x p reason st
  have others : ∀ q, q ≠ p → (x.stateLeft p reason st).port q = d.port q := fun q hq => by
    rw [port_stateLeft_other x p reason st hq, ports, Dev.caused, port_modPort_other _ hq]
  have keeper := keeper_stateLeft x p reason st
  have left := leftUp_leaveUp (x.stateLeft p reason st) p
  generalize x.stateLeft p reason st = y at *
  generalize y.leaveUp p = e at *
  have still : x.image = d.image := (image_rest rest : x.image = (d.caused p reason).image)
  have fabric : y.fabric p = d.fabric p := by rw [Dev.fabric, Dev.fabric, Dev.mode, Dev.mode, Dev.img, Dev.img, image, still]
  have ctx : ∀ c, y.ctx c = d.ctx c := fun c => (ctx_congr ctxs c).trans (rest_ctx rest c)
  have named : ∀ c, y.ctxNames c p = d.ctxNames c p := fun c => (names c p).trans (congrArg (fun z : Dev => z.ctxNames c p) rest :)
  have laser : (x.port p).laser = (d.port p).laser := by rw [ports, Dev.caused, port_modPort_same]; rfl
  exact {
    image := left.image.trans (image.trans still)
    state := (congrArg Port.state left.here :).trans (by rw [here]; exact state_enter _ _ _)
    cause := (congrArg Port.cause left.here :).trans (by rw [here]; exact cause_enter _ _ _)
    laser := (laser_of_cut left.here).trans (by rw [here, laser_enter]; exact laser)
    others := fun q hq => (left.others q hq).trans (by rw [others q hq])
    seq := seq.trans_le ((congrArg Faults.eventSeq faults).symm.le.trans left.faults.seq)
    lasers := left.faults.laser.trans (by rw [faults]; exact lasers)
    unacked := left.faults.unacked 1 (by rw [faults]; exact unacked)
    sessions := sameSessions_trans sessions (sameSessions_trans (sameSessions_of_keeper keeper) left.sessions)
    offers := left.offers
    flits := fun hfab => left.flits (fabric.trans hfab)
    aborts := fun hfab c habort hnames => left.aborts (fabric.trans hfab) c (by rw [ctx]; exact habort) ((named c).trans hnames) }

end Sys2Proof.Machine
end

section
/-! PROOFS. The statement on links that leave UP (R238, R244, R255, R256, R276). -/

namespace Sys2Proof.Machine

/-! ### What the statements say of a link that left UP -/

section
variable {d d' e : Dev} {p reason : Nat} {st : LinkState}

/-- A link that was lost from a device that differs at its port and in reports only, in the words of the statements. -/
theorem wentDown_of_lost {t : State} (at' : d.AtPort p d') (hfaults : d'.faults = d.faults) (h : d'.LinkLost p reason st e)
    (hports : ∀ q, (t.dev.port q).standing = (e.port q).standing) (hf : t.dev.faults = e.faults) (hclock : t.dev.clock = e.clock)
    (hctxs : t.dev.ctxs = e.ctxs) : WentDown d t p reason st := by
  have ctx : ∀ c, d'.ctx c = d.ctx c := fun c => ctx_congr (atPort_ctxs at') c
  have names : ∀ c, d'.ctxNames c p = d.ctxNames c p := fun c => (congrArg (fun x : Dev => x.ctxNames c p) at'.frame :)
  refine ⟨(congrArg Port.state (hports p) :).trans h.state, (congrArg Port.cause (hports p) :).trans h.cause, ?_, ?_, ?_, fun q hq => ?_,
    fun hfab => ⟨?_, fun c habort hnames => ?_⟩⟩
  · rw [hf, ← hfaults]
    exact h.seq
  · rw [hf]
    exact h.unacked
  · rw [hclock]
    exact h.offers
  · exact (congrArg Port.state (hports q) :).trans ((congrArg Port.state (h.others q hq) :).trans (congrArg Port.state (at'.others q hq) :))
  · exact (congrArg Port.retained (hports p) :).trans (h.flits ((atPort_fabric at' p).trans hfab))
  · rw [ctx_congr hctxs]
    exact h.aborts ((atPort_fabric at' p).trans hfab) c (by rw [ctx]; exact habort) ((names c).trans hnames)

/-- The same of an event. -/
theorem event_wentDown {s : State} {now : Nat} {f : Dev → Dev} (at' : (s.devAt now).AtPort p d') (hfaults : d'.faults = (s.devAt now).faults)
    (h : d'.LinkLost p reason st (f (s.devAt now))) : WentDown (s.devAt now) (s.event now f) p reason st := by
  refine wentDown_of_lost at' hfaults h (fun q => ?_) (event_faults s now f) ?_ ?_
  · rw [event_port]
  · rw [event_dev, noteReady_clock]
  · rw [event_dev, noteReady_ctxs]

theorem mild_atPort (at' : d.AtPort p d') (hfaults : d'.faults = d.faults) {src : Nat} (hmild : d.mild src) : d'.mild src :=
  nearPort_mild (nearPort_of_atPort at') hfaults hmild

theorem up_atPort (hport : d'.port p = d.port p) : d'.up p = d.up p := by rw [Dev.up, Dev.up, hport]

end

/-! ### Training frames on an UP link (R245, R255) -/

section
variable {d : Dev} {p n : Nat}

/-- The training frames that the exit from a sleep level takes. -/
def Port.exitFrames (x : Port) : Nat := if x.rxSleep = 1 then 2 else 16

theorem trainingWhileUp_exit (hsleep : (d.port p).rxSleep ≠ 0) (hexit : (d.port p).rxExit < (d.port p).exitFrames) :
    d.trainingWhileUp p n = d.modPort p (fun x => { x with rxExit := x.rxExit + 1 }) := if_pos ⟨hsleep, hexit⟩

theorem trainingWhileUp_peer (h : (d.port p).rxSleep = 0 ∨ (d.port p).exitFrames ≤ (d.port p).rxExit) :
    d.trainingWhileUp p n = if 2 ≤ n then d.linkDown p 0x10 .txTune else d := by
  refine if_neg fun hc => ?_
  obtain ⟨hsleep, hexit⟩ := hc
  obtain h | h := h
  · exact hsleep h
  · exact absurd hexit (not_lt.mpr h)

/-! ### A second bad lane (R244) -/

variable {lane : Nat}

theorem rxLaneFails_second (hnew : (d.port p).retired.contains lane = false) (hsecond : (d.port p).retired ≠ []) :
    d.rxLaneFails p lane = d.linkDown p 0x05 .txTune := by
  have both : lane ≠ 8 ∨ (d.port p).retired.any (fun l => l != 8) = true := by
    by_cases h8 : lane = 8
    · obtain ⟨l, r, hl⟩ := List.exists_cons_of_ne_nil hsecond
      have other : l ≠ 8 := by
        rintro rfl
        rw [hl, h8] at hnew
        simp at hnew
      exact .inr (by rw [hl]; simp [other])
    · exact .inl h8
  unfold Dev.rxLaneFails
  dsimp only
  rw [if_neg (ne_true_of_eq_false hnew), if_pos ⟨hsecond, both⟩]
  rfl

theorem txLaneFails_second (hnew : (d.port p).txLost.contains lane = false) (hsecond : (d.port p).txLost ≠ []) :
    d.txLaneFails p lane = d.linkDown p 0x05 .txTune := by
  unfold Dev.txLaneFails
  dsimp only
  rw [if_neg (ne_true_of_eq_false hnew), if_pos hsecond]
  rfl

end

theorem takesFlits_up {d : Dev} {p : Nat} (hfab : d.fabric p = true) (hup : d.up p = true) : d.takesFlits p = true := by
  have state : (d.port p).state = .up := by simpa [Dev.up] using hup
  simp [Dev.takesFlits, hfab, state]

theorem rest_modPort_of_rest {d e : Dev} (h : e.rest = d.rest) (p : Nat) (f : Port → Port) : (e.modPort p f).rest = (d.modPort p f).rest :=
  (congrArg (fun x : Dev => x.modPort p f) h :)

/-- Settles O36: each of these takes the link down with its cause; what comes before it turns on the link's port alone. -/
theorem linksGoDown : Obligations.LinksGoDown := by
  unfold Obligations.LinksGoDown
  refine ⟨?_, ?_, ?_, ?_, ?_, ?_⟩
  · intro p now s hup hp hmild
    rw [← up_devAt s now] at hup
    have eq : Dev.goesDark p (s.devAt now) = (s.devAt now).linkDown p 0x01 .txTune := if_pos (by simp [hup, hp])
    exact ⟨s.event now (Dev.goesDark p), rfl, event_wentDown atPort_refl rfl (eq ▸ linkLost_linkDown hup hmild _ _)⟩
  · intro p now s hup
    rw [← up_devAt s now] at hup
    exact ⟨s.event now (Dev.goesDark p), rfl, rest_event_idle (if_neg (by simp [hup]))⟩
  · intro p skew now l s hfab hup hsleep hlen hmild
    rw [← up_devAt s now] at hup
    rw [← port_devAt s now] at hsleep
    have state : ((s.devAt now).port p).state = .up := by simpa [Dev.up] using hup
    have at' := atPort_infosCounted (s.devAt now) p l
    have faults := faults_infosCounted (s.devAt now) p l
    have port := port_infosCounted (s.devAt now) p l p
    have eq : Dev.trainingRx p l skew (s.devAt now) = ((s.devAt now).infosCounted p l).linkDown p 0x10 .txTune :=
      (trainingRx_up hfab state).trans ((trainingWhileUp_peer (by rw [port]; exact hsleep)).trans (if_pos hlen))
    exact ⟨s.event now (Dev.trainingRx p l skew), rfl,
      event_wentDown at' faults (eq ▸ linkLost_linkDown ((up_atPort port).trans hup) (mild_atPort at' faults hmild) _ _)⟩
  · intro p skew now l s hfab hup
    rw [← up_devAt s now] at hup
    rw [← port_devAt s now]
    have state : ((s.devAt now).port p).state = .up := by simpa [Dev.up] using hup
    have rest : ((s.devAt now).infosCounted p l).rest = (s.devAt now).rest := rest_countPort _ _ _ _
    have port := port_infosCounted (s.devAt now) p l p
    have eq := trainingRx_up (skew := skew) (l := l) hfab state
    refine ⟨s.event now (Dev.trainingRx p l skew), rfl, fun hsleep hexit => ?_, fun hsleep hlen => ?_⟩
    · rw [event_dev, rest_noteReady, show Dev.trainingRx p l skew (s.dev.to now) = _ from
        eq.trans (trainingWhileUp_exit (by rw [port]; exact hsleep) (by rw [port]; exact hexit))]
      exact rest_modPort_of_rest rest p _
    · rw [event_dev, rest_noteReady, show Dev.trainingRx p l skew (s.dev.to now) = _ from
        eq.trans ((trainingWhileUp_peer (by rw [port]; exact hsleep)).trans (if_neg (by omega)))]
      exact rest
  · intro p lane now r s hfab hup hlane hnew hsecond hmild
    rw [← up_devAt s now] at hup
    rw [← port_devAt s now] at hnew hsecond
    have eq := (laneFails_receive (takesFlits_up hfab hup) hlane).trans (rxLaneFails_second hnew hsecond)
    exact ⟨s.event now (Dev.laneFails p false lane), rfl, event_wentDown atPort_refl rfl (eq ▸ linkLost_linkDown hup hmild _ _)⟩
  · intro p lane now r s hfab hup hlane hnew hsecond hmild
    rw [← up_devAt s now] at hup
    rw [← port_devAt s now] at hnew hsecond
    have eq := (laneFails_transmit (takesFlits_up hfab hup) hlane).trans (txLaneFails_second hnew hsecond)
    exact ⟨s.event now (Dev.laneFails p true lane), rfl, event_wentDown atPort_refl rfl (eq ▸ linkLost_linkDown hup hmild _ _)⟩

end Sys2Proof.Machine
end

section
/-! PROOFS. The statement on laser feeds (R253, R256). -/

namespace Sys2Proof.Machine

/-! ### A feed's port goes down (R256) -/

/-- What is left once a feed has taken its port to FAULT. -/
structure Dev.FeedDown (p reason : Nat) (d e : Dev) : Prop where
  image : e.image = d.image
  state : (e.port p).state = .fault
  cause : (e.port p).cause = reason
  laser : (e.port p).laser = (d.port p).laser
  others : ∀ q, q ≠ p → (e.port q).state = (d.port q).state
  lasers : tget {} e.faults.classes 2 = tget {} d.faults.classes 2

section
variable {d : Dev} {p : Nat}

theorem feedDown_goes (hmild : d.up p = true → d.mild 0x0101) (reason : Nat) : d.FeedDown p reason (d.feedDown p reason) := by
  unfold Dev.feedDown
  split
  · next hup =>
    have lost := linkLost_linkDown hup (hmild hup) reason .fault
    exact ⟨lost.image, lost.state, lost.cause, lost.laser, fun q hq => (congrArg Port.state (lost.others q hq) :), lost.lasers⟩
  · split
    · next hfault =>
      have port : ((d.modPort p (fun x => { x with cause := reason })).port p) = { d.port p with cause := reason } := port_modPort_same d p _
      refine ⟨rfl, ?_, ?_, ?_, fun q hq => by rw [port_modPort_other d hq], rfl⟩
      · rw [port]
        simpa using hfault
      · rw [port]
      · rw [port]
        rfl
    · have at' := atPort_trans (atPort_modPort (atPort_refl (d := d) (p := p)) (fun x => { x with cause := reason })) (atPort_enterLink _ p .fault)
      have port := port_enterLink (d.modPort p (fun x => { x with cause := reason })) p .fault
      have faults := faults_enterLink (d.modPort p (fun x => { x with cause := reason })) p .fault
      rw [port_modPort_same] at port
      generalize (d.modPort p (fun x => { x with cause := reason })).enterLink p .fault = e at *
      refine ⟨(congrArg Dev.image at'.frame :), (congrArg Port.state port :), (congrArg Port.cause port :), (congrArg Port.laser port :),
        fun q hq => by rw [at'.others q hq], by rw [faults]; rfl⟩

/-- A source of class LASER is as mild as it was where no record of that class has been written (R361). -/
theorem mild_laser {e : Dev} (himage : e.image = d.image) (hclass : tget {} e.faults.classes 2 = tget {} d.faults.classes 2) {src : Nat}
    (hsrc : src / 256 = 2) (hmild : d.mild src) : e.mild src := fun r hr => by
  have configured : e.configured r.source = d.configured r.source := by
    rw [Dev.configured, Dev.configured, Dev.faultEntry, Dev.faultEntry, Dev.img, Dev.img, himage]
  have cls : r.cls = 2 := by rw [FaultRec.cls, hr, hsrc]
  have same : e.effective r = d.effective r := by rw [Dev.effective, Dev.effective, configured, cls, hclass]
  exact same ▸ hmild r hr

/-- A change of what a port's feed shows, that leaves its link as it is. -/
def Port.Shows (f : Port → Port) : Prop := ∀ x, (f x).state = x.state

/-- A feed fault takes its port to FAULT and is recorded. -/
theorem feedFault_downs {f : Port → Port} (hf : Port.Shows f) (hwatched : d.feedWatched p = true) {src : Nat} (hsrc : src / 256 = 2)
    (hmild : d.mild src) (hdown : d.up p = true → d.mild 0x0101) (reason : Nat) :
    ((d.feedFault p src reason f).port p).state = .fault ∧ ((d.feedFault p src reason f).port p).cause = reason ∧
      ((d.feedFault p src reason f).port p).laser = (f (d.port p)).laser ∧
      (∃ e ∈ (d.feedFault p src reason f).faults.ring, recSource e.bytes = src) ∧
      ∀ q, q ≠ p → ((d.feedFault p src reason f).port q).state = (d.port q).state := by
  have shape : d.feedFault p src reason f = ((d.modPort p f).feedDown p reason).raiseFault { source := src, unit := some p, status := reason } :=
    if_pos hwatched
  have up : (d.modPort p f).up p = d.up p := by rw [Dev.up, Dev.up, port_modPort_same, hf]
  have shown : d.NearPort p (d.modPort p f) := nearPort_modPort nearPort_refl f
  have down := feedDown_goes (fun h => nearPort_mild shown rfl (hdown (up.symm.trans h))) reason
  rw [shape]
  generalize (d.modPort p f).feedDown p reason = e at *
  have mild : e.mild src := mild_laser (d := d) down.image down.lasers hsrc hmild
  rw [raiseFault_mild (r := { source := src, unit := some p, status := reason }) (mild _ rfl) rfl]
  have ports : ∀ q, (e.recordFault { source := src, unit := some p, status := reason }).port q = e.port q := rest_port (rest_recordFault e _)
  refine ⟨by rw [ports]; exact down.state, by rw [ports]; exact down.cause, ?_,
    recordFault_source e { source := src, unit := some p, status := reason } (show src < 65536 by omega), fun q hq => ?_⟩
  · rw [ports, down.laser, port_modPort_same]
  · rw [ports, down.others q hq, port_modPort_other d hq]

end

/-! ### The statement -/

theorem feedFault_idle {d : Dev} {p src reason : Nat} {f : Port → Port} (h : d.feedWatched p = false) : d.feedFault p src reason f = d :=
  if_neg (by simp [h])

theorem linesMissing_idle {d : Dev} {p lines power : Nat} (h : d.feedWatched p = false ∨ d.fabric p = false) : Dev.linesMissing p lines power d = d := by
  unfold Dev.linesMissing
  obtain h | h := h
  · rw [feedFault_idle h, ite_self]
  · exact if_neg (by simp [h])

theorem lineMissing_idle {d : Dev} {p line power : Nat} (h : d.feedWatched p = false ∨ d.fabric p = false ∨ 8 < line ∨
      bit (d.port p).feedLines line = false) : Dev.lineMissing p line power d = d :=
  if_pos (by obtain h | h | h | h := h <;> simp [h])

theorem lineMissing_second {d : Dev} {p line power : Nat} (hfab : d.fabric p = true) (hwatched : d.feedWatched p = true) (hline : line ≤ 8)
    (hbit : bit (d.port p).feedLines line = true) (hall : (d.port p).feedLines ≠ 511) : Dev.lineMissing p line power d =
      d.feedFault p 0x0203 0x07 (fun x => { x with lines := ((d.port p).feedLines - 2 ^ line) % 512, feedPower := power % 65536 }) :=
  (if_neg (by simp [hfab, hwatched, hline, hbit])).trans ((if_pos hall).trans (if_pos hfab))

theorem planMismatch_idle {d : Dev} {p : Nat} (h : d.feedWatched p = false ∨ (d.port p).state ≠ .txTune) : Dev.planMismatch p d = d := by
  unfold Dev.planMismatch
  obtain h | h := h
  · rw [feedFault_idle h, ite_self]
  · exact if_neg (by simpa using h)

theorem powerHigh_idle {d : Dev} {p power : Nat} (h : d.feedWatched p = false) : Dev.powerHigh p power d = d := if_neg (by simp [h])

/-- What a lost feed, and one of the wrong polarization, show. -/
def Port.feedLost (x : Port) : Port := { x with feedState := 3, lines := 0, feedPower := 0x8000 }
def Port.feedTurned (x : Port) : Port := { x with feedState := 1 }

/-- What the statement says of a feed fault. -/
theorem event_feedFault {s : State} {now p src reason : Nat} {f : Port → Port} {act : Dev → Dev}
    (hact : act (s.devAt now) = (s.devAt now).feedFault p src reason f) (hf : Port.Shows f) (hwatched : (s.devAt now).feedWatched p = true)
    (hsrc : src / 256 = 2) (hmild : (s.devAt now).mild src) (hdown : s.dev.up p = true → (s.devAt now).mild 0x0101) :
    ((s.event now act).dev.port p).state = .fault ∧ ((s.event now act).dev.port p).cause = reason ∧
      ((s.event now act).dev.port p).feedState = (f (s.dev.port p)).feedState ∧ ((s.event now act).dev.port p).lines = (f (s.dev.port p)).lines ∧
      ((s.event now act).dev.port p).feedPower = (f (s.dev.port p)).feedPower ∧
      (∃ e ∈ (s.event now act).dev.faults.ring, recSource e.bytes = src) ∧
      ∀ q, q ≠ p → ((s.event now act).dev.port q).state = (s.dev.port q).state := by
  obtain ⟨state, cause, laser, record, others⟩ := feedFault_downs hf hwatched hsrc hmild (fun h => hdown (up_devAt s now p ▸ h)) reason
  rw [event_port, event_faults, hact, ← port_devAt s now]
  refine ⟨state, cause, (congrArg (fun x => x.1) laser :), (congrArg (fun x => x.2.1) laser :), (congrArg (fun x => x.2.2) laser :), record,
    fun q hq => ?_⟩
  rw [event_port, hact, others q hq, port_devAt]

/-- Settles O39: every feed fault is one act with its own source, cause and shown values; the idle cases change nothing. -/
theorem feedFaultsTakeThePortDown : Obligations.FeedFaultsTakeThePortDown := by
  unfold Obligations.FeedFaultsTakeThePortDown
  refine ⟨?_, ?_⟩
  · intro p now lines line power src cause c f s hwatched h hmild hdown
    have port := port_devAt s now p
    rw [← port] at h
    obtain ⟨rfl, rfl, rfl, rfl⟩ | ⟨rfl, hfab, rfl, rfl, rfl⟩ | ⟨rfl, hfab, hline, hbit, hall, rfl, rfl, rfl⟩ | ⟨rfl, rfl, rfl, rfl⟩ |
      ⟨rfl, hst, rfl, rfl, rfl⟩ := h
    · exact ⟨s.event now (fun d => d.feedFault p 0x0201 0x06 Port.feedLost), rfl,
        event_feedFault (f := Port.feedLost) rfl (fun _ => rfl) hwatched (by decide) hmild hdown⟩
    · exact ⟨s.event now (Dev.linesMissing p lines power), rfl, event_feedFault (if_pos hfab) (fun _ => rfl) hwatched (by decide) hmild hdown⟩
    · exact ⟨s.event now (Dev.lineMissing p line power), rfl,
        event_feedFault (lineMissing_second hfab hwatched hline hbit hall) (fun _ => rfl) hwatched (by decide) hmild hdown⟩
    · exact ⟨s.event now (fun d => d.feedFault p 0x0204 0x08 Port.feedTurned), rfl,
        event_feedFault (f := Port.feedTurned) rfl (fun _ => rfl) hwatched (by decide) hmild hdown⟩
    · exact ⟨s.event now (Dev.planMismatch p), rfl,
        event_feedFault (if_pos (by rw [hst]; rfl)) (fun _ => rfl) hwatched (by decide) hmild hdown⟩
  · intro p now lines power c s h
    rw [← port_devAt s now] at h
    obtain ⟨hwatched, rfl | rfl | rfl | rfl | rfl | rfl⟩ | ⟨hfab, rfl | rfl⟩ | ⟨hline, rfl⟩ | ⟨hst, rfl⟩ := h
    · exact ⟨s.event now (fun d => d.feedFault p 0x0201 0x06 Port.feedLost), rfl,
        rest_event_idle (feedFault_idle hwatched)⟩
    · exact ⟨s.event now (Dev.linesMissing p lines power), rfl, rest_event_idle (linesMissing_idle (.inl hwatched))⟩
    · exact ⟨s.event now (fun d => d.feedFault p 0x0204 0x08 Port.feedTurned), rfl, rest_event_idle (feedFault_idle hwatched)⟩
    · exact ⟨s.event now (Dev.planMismatch p), rfl, rest_event_idle (planMismatch_idle (.inl hwatched))⟩
    · exact ⟨s.event now (Dev.lineMissing p lines power), rfl, rest_event_idle (lineMissing_idle (.inl hwatched))⟩
    · exact ⟨s.event now (Dev.powerHigh p power), rfl, rest_event_idle (powerHigh_idle hwatched)⟩
    · exact ⟨s.event now (Dev.linesMissing p lines power), rfl, rest_event_idle (linesMissing_idle (.inr hfab))⟩
    · exact ⟨s.event now (Dev.lineMissing p lines power), rfl, rest_event_idle (lineMissing_idle (.inr (.inl hfab)))⟩
    · exact ⟨s.event now (Dev.lineMissing p lines power), rfl, rest_event_idle (lineMissing_idle (.inr (.inr hline)))⟩
    · exact ⟨s.event now (Dev.planMismatch p), rfl, rest_event_idle (planMismatch_idle (.inr hst))⟩

end Sys2Proof.Machine
end

section
/-! PROOFS. The statement on Ethernet-mode ports and GMP_RETRAIN (R238, R242). -/

namespace Sys2Proof.Machine

/-! ### A port that is not UP leaves its state (R238) -/

theorem linkDown_notUp {d : Dev} {p : Nat} (hup : d.up p = false) (reason : Nat) (st : LinkState) :
    d.linkDown p reason st = (d.caused p reason).stateLeft p reason st := by
  have up : (d.caused p reason).up p = false := by
    rw [Dev.up, Dev.caused, port_modPort_same]
    exact hup
  have shape : d.linkDown p reason st = (d.caused p reason).dropLink p reason st := by
    unfold Dev.linkDown
    dsimp only
    rw [hup]
    rfl
  rw [shape, dropLink_eq, if_neg (by simp [up])]

/-- What a port that leaves a state leaves, UP or not: its new state and cause, and the other links' states. -/
theorem linkDown_keeps {d : Dev} {p : Nat} (hmild : d.up p = true → d.mild 0x0101) (reason : Nat) (st : LinkState) :
    ((d.linkDown p reason st).port p).state = st ∧ ((d.linkDown p reason st).port p).cause = reason ∧
      (∀ q, q ≠ p → ((d.linkDown p reason st).port q).state = (d.port q).state) ∧ d.sameSessions (d.linkDown p reason st) := by
  by_cases hup : d.up p = true
  · have lost := linkLost_linkDown hup (hmild hup) reason st
    exact ⟨lost.state, lost.cause, fun q hq => (congrArg Port.state (lost.others q hq) :), lost.sessions⟩
  · rw [linkDown_notUp (by simpa using hup), port_stateLeft]
    refine ⟨state_enter _ _ _, cause_enter _ _ _, fun q hq => ?_,
      sameSessions_trans (sameSessions_of_keeper rfl) (sameSessions_of_keeper (keeper_stateLeft _ p reason st))⟩
    rw [port_stateLeft_other _ p reason st hq, Dev.caused, port_modPort_other d hq]

/-! ### Block lock (R242) -/

/-- The port that has found block lock and fault signalling as they are. -/
def Port.finds (locked fault : Bool) (x : Port) : Port := { x with blockLock := locked, ethFault := fault }

/-- What an Ethernet-mode port's PCS has found. -/
def Port.pcs (x : Port) : Bool × Bool := (x.blockLock, x.ethFault)

@[simp] theorem pcs_enter (x : Port) (st : LinkState) (now : Nat) : (x.enter st now).pcs = x.pcs := by cases st <;> rfl

section
variable {d : Dev} {p : Nat} {locked fault : Bool}

theorem pcs_enterLink (d : Dev) (p : Nat) (st : LinkState) : ((d.enterLink p st).port p).pcs = (d.port p).pcs :=
  (congrArg Port.pcs (port_enterLink d p st)).trans (pcs_enter _ _ _)

theorem blockLock_off (h : d.ethernet p = false ∨ d.bringsUp p = false ∨ (d.port p).state = .disabled) : Dev.blockLock p locked fault d = d :=
  if_neg (by obtain h | h | h := h <;> simp [h])

theorem blockLock_on (heth : d.ethernet p = true) (hup : d.bringsUp p = true) (hst : (d.port p).state ≠ .disabled) :
    Dev.blockLock p locked fault d = ((d.modPort p (Port.finds locked fault)).ethLink p).drainCopies p :=
  if_pos (by simp [heth, hup, hst])

/-- What a port of an Ethernet mode does in its state. -/
theorem ethLink_eq (d : Dev) (p : Nat) : d.ethLink p = match (d.port p).state with
    | .acquire => if (d.port p).blockLock then (if (d.port p).ethFault then d.enterLink p .handshake else (d.enterLink p .handshake).setLink p .up) else d
    | .handshake => if !(d.port p).blockLock then d.enterLink p .acquire else if (d.port p).ethFault then d else d.setLink p .up
    | .up => if !(d.port p).blockLock then d.ethDown p .acquire else if (d.port p).ethFault then d.ethDown p .handshake else d
    | _ => d := rfl

/-- The steps of an Ethernet-mode port that is not UP: it enters a state, or goes on in its own. -/
structure Dev.EthStepped (p : Nat) (st : LinkState) (d e : Dev) : Prop where
  atPort : d.AtPort p e
  faults : e.faults = d.faults
  state : (e.port p).state = st
  pcs : (e.port p).pcs = (d.port p).pcs

theorem ethStepped_enterLink (d : Dev) (p : Nat) (st : LinkState) : d.EthStepped p st (d.enterLink p st) :=
  ⟨atPort_enterLink d p st, faults_enterLink d p st, state_enterLink d p st, pcs_enterLink d p st⟩

theorem ethStepped_setLink (d : Dev) (p : Nat) (st : LinkState) : d.EthStepped p st (d.setLink p st) :=
  ⟨atPort_setLink d p st, faults_setLink d p st, by rw [port_setLink_same, state_enter], by rw [port_setLink_same, pcs_enter]⟩

theorem ethStepped_trans {e t : Dev} {st st' : LinkState} (h : d.EthStepped p st e) (h' : e.EthStepped p st' t) : d.EthStepped p st' t :=
  ⟨atPort_trans h.atPort h'.atPort, h'.faults.trans h.faults, h'.state, h'.pcs.trans h.pcs⟩

theorem ethStepped_same {st : LinkState} (h : (d.port p).state = st) : d.EthStepped p st d := ⟨atPort_refl, rfl, h, rfl⟩

/-- The state that block lock and fault signalling ask for. -/
def pcsState (locked fault : Bool) : LinkState := if locked then (if fault then .handshake else .up) else .acquire

theorem ethLink_bringup (hst : (d.port p).state = .acquire ∨ (d.port p).state = .handshake) :
    d.EthStepped p (pcsState (d.port p).blockLock (d.port p).ethFault) (d.ethLink p) := by
  have handshake := ethStepped_enterLink d p .handshake
  rw [ethLink_eq, pcsState]
  obtain h | h := hst <;> rw [h] <;> dsimp only <;> cases (d.port p).blockLock <;> cases (d.port p).ethFault
  · exact ethStepped_same h
  · exact ethStepped_same h
  · exact ethStepped_trans handshake (ethStepped_setLink _ p .up)
  · exact handshake
  · exact ethStepped_enterLink d p .acquire
  · exact ethStepped_enterLink d p .acquire
  · exact ethStepped_setLink d p .up
  · exact ethStepped_same h

theorem ethLink_stays (h : d.up p = true ∧ (d.port p).blockLock = true ∧ (d.port p).ethFault = false ∨ (d.port p).state = .txTune ∨
      (d.port p).state = .fault) : d.ethLink p = d := by
  rw [ethLink_eq]
  obtain ⟨hup, hlock, hfault⟩ | h | h := h
  · rw [show (d.port p).state = .up by simpa [Dev.up] using hup, hlock, hfault]
    rfl
  · rw [h]
  · rw [h]

/-- An UP port that has lost its lock, or finds fault signalling, goes down with a cause of R254. -/
theorem ethLink_down (hup : d.up p = true) {st : LinkState} (h : (d.port p).blockLock = false ∧ st = .acquire ∨
      (d.port p).blockLock = true ∧ (d.port p).ethFault = true ∧ st = .handshake) :
    d.ethLink p = d.draw.2.linkDown p (1 + d.draw.1 % 17) st := by
  rw [ethLink_eq, show (d.port p).state = .up by simpa [Dev.up] using hup]
  obtain ⟨hlock, rfl⟩ | ⟨hlock, hfault, rfl⟩ := h
  · rw [hlock]
    rfl
  · rw [hlock, hfault]
    rfl

/-- What is found of a port turns on it alone. -/
theorem finds_port : (d.modPort p (Port.finds locked fault)).port p = (d.port p).finds locked fault := port_modPort_same d p _

theorem finds_up : (d.modPort p (Port.finds locked fault)).up p = d.up p := by
  rw [Dev.up, Dev.up, finds_port]
  rfl

end

/-! ### GMP_RETRAIN (R238) -/

theorem retrainRequest_act (m : GmpMsg) (x : Session) (k : Mach) :
    retrainRequest.act m x k = (k.mod (fun d => d.retrain (u8 m.body 0)), some {}) := rfl

theorem retrain_restarts {d : Dev} {p : Nat} (hst : (d.port p).state ≠ .disabled) (hup : d.bringsUp p = true) :
    d.retrain p = d.linkDown p 0x0F .txTune := if_neg (by simp [hst, hup])

/-- Settles O35: block lock and fault signalling ask for one state; GMP_RETRAIN is one link taken down, whatever its state. -/
theorem ethernetPortsLockAndPortsRetrain : Obligations.EthernetPortsLockAndPortsRetrain := by
  unfold Obligations.EthernetPortsLockAndPortsRetrain
  refine ⟨?_, ?_, ?_, ?_, ?_⟩
  · intro p now locked fault s heth hbrings hst
    rw [← port_devAt s now] at hst
    have enabled : ((s.devAt now).port p).state ≠ .disabled := by obtain h | h := hst <;> simp [h]
    have eq := blockLock_on (locked := locked) (fault := fault) heth hbrings enabled
    have at' := atPort_modPort (atPort_refl (d := s.devAt now) (p := p)) (Port.finds locked fault)
    have step := ethLink_bringup (d := (s.devAt now).modPort p (Port.finds locked fault)) (p := p) (by rw [finds_port]; exact hst)
    rw [finds_port] at step
    have faults : ((s.devAt now).modPort p (Port.finds locked fault)).faults = (s.devAt now).faults := rfl
    have pcs := step.pcs
    rw [finds_port] at pcs
    generalize (s.devAt now).modPort p (Port.finds locked fault) = e at *
    have drained := quiet_drainCopies (e.ethLink p) p
    rw [← eq] at drained
    have at'' : (s.devAt now).AtPort p (Dev.blockLock p locked fault (s.devAt now)) :=
      atPort_trans (atPort_trans at' step.atPort) (atPort_of_rest (rest_of_quiet drained))
    refine ⟨s.event now (Dev.blockLock p locked fault), rfl, ?_⟩
    rw [event_port, event_faults, port_of_quiet drained]
    exact ⟨(congrArg (fun x => x.1) pcs :), (congrArg (fun x => x.2) pcs :), step.state, event_others at'', event_ctxs at'', event_jobs at'',
      (quiet_faults drained).trans (step.faults.trans (faults.trans (to_faults _ _)))⟩
  · intro p now locked fault st s heth hbrings hup hmild h
    rw [← up_devAt s now] at hup
    have enabled : ((s.devAt now).port p).state ≠ .disabled := by
      rw [show ((s.devAt now).port p).state = .up by simpa [Dev.up] using hup]
      simp
    have eq := blockLock_on (locked := locked) (fault := fault) heth hbrings enabled
    have at' := atPort_modPort (atPort_refl (d := s.devAt now) (p := p)) (Port.finds locked fault)
    have down := ethLink_down (d := (s.devAt now).modPort p (Port.finds locked fault)) (p := p) (st := st) (finds_up.trans hup)
      (by rw [finds_port]; exact h)
    have up := finds_up (d := s.devAt now) (p := p) (locked := locked) (fault := fault)
    have faults : ((s.devAt now).modPort p (Port.finds locked fault)).faults = (s.devAt now).faults := rfl
    generalize (s.devAt now).modPort p (Port.finds locked fault) = e at *
    have drawn := atPort_trans at' (atPort_draw e p)
    have upDrawn : e.draw.2.up p = true := up.trans hup
    have lost := linkLost_linkDown upDrawn (mild_atPort drawn faults hmild) (1 + e.draw.1 % 17) st
    rw [← down] at lost
    have drained := crosses_drainCopies (e.ethLink p) p
    rw [← eq] at drained
    refine ⟨s.event now (Dev.blockLock p locked fault), 1 + e.draw.1 % 17, rfl, by omega, by omega, ?_⟩
    refine wentDown_of_lost drawn faults lost (fun q => ?_) ?_ ?_ ?_
    · rw [event_port]
      exact drained.port q
    · rw [event_faults]
      exact crosses_faults drained
    · rw [event_dev, noteReady_clock]
      exact crosses_clock drained
    · rw [event_dev, noteReady_ctxs]
      exact crosses_ctxs drained
  · intro p now locked fault s heth hbrings h
    rw [← up_devAt s now, ← port_devAt s now] at h
    have enabled : ((s.devAt now).port p).state ≠ .disabled := by
      obtain ⟨hup, -⟩ | h | h := h
      · rw [show ((s.devAt now).port p).state = .up by simpa [Dev.up] using hup]
        simp
      · simp [h]
      · simp [h]
    have eq := blockLock_on (locked := locked) (fault := fault) heth hbrings enabled
    rw [ethLink_stays (by rw [finds_up, finds_port]; exact h)] at eq
    refine ⟨s.event now (Dev.blockLock p locked fault), rfl, ?_⟩
    rw [event_dev, rest_noteReady, show Dev.blockLock p locked fault (s.dev.to now) = _ from eq]
    exact rest_of_quiet (quiet_drainCopies _ _)
  · intro p now locked fault s h
    rw [← port_devAt s now] at h
    exact ⟨s.event now (Dev.blockLock p locked fault), rfl, rest_event_idle (blockLock_off h)⟩
  · intro m s x h hbrings hst hmild
    rw [← port_devAt s m.now] at hst
    rw [← up_devAt s m.now] at hmild ⊢
    have shape := retrainRequest_act m x (s.taking m retrainRequest.msg)
    have quiet : (s.taking m retrainRequest.msg).dev.quiet = (s.devAt m.now).quiet := quiet_taken _ _ _
    have same := port_of_quiet quiet (u8 m.body 0)
    have up : (s.taking m retrainRequest.msg).dev.up (u8 m.body 0) = (s.devAt m.now).up (u8 m.body 0) := up_atPort same
    have at' : (s.devAt m.now).AtPort (u8 m.body 0) (s.taking m retrainRequest.msg).dev := atPort_of_rest (rest_of_quiet quiet)
    have mild := fun hup => mild_atPort at' (quiet_faults quiet) (hmild (up.symm.trans hup))
    have restarts := retrain_restarts (d := (s.taking m retrainRequest.msg).dev) (p := u8 m.body 0) (by rw [same]; exact hst)
      ((congrArg (fun x : Dev => x.bringsUp (u8 m.body 0)) quiet :).trans hbrings)
    obtain ⟨state, cause, others, sessions⟩ := linkDown_keeps mild 0x0F .txTune
    have lost := fun hup => linkLost_linkDown hup (mild hup) 0x0F .txTune
    rw [← restarts] at state cause others sessions lost
    obtain ⟨answered, rest, faults⟩ := gmpCommand_acts h shape sessions
    have ports := rest_port rest
    refine ⟨gmpCommand retrainRequest m s, rfl, by rw [ports]; exact state, by rw [ports]; exact cause, answered, fun q hq => ?_, fun hup => ?_⟩
    · rw [ports, others q hq, port_of_quiet quiet q, port_devAt]
    · exact wentDown_of_lost at' (quiet_faults quiet) (lost (up.trans hup)) (fun q => by rw [ports]) faults (rest_clock rest)
        (congrArg Dev.ctxs rest :)

end Sys2Proof.Machine
end
